-- ==== Sys2Proof/Word.lean ====
section
/-! DEFINITION. The word types of the EZ-2304 model and their plainest arithmetic: bytes, 32- and 64-bit words, the
1,024-bit vector register, indices of cores, functions, rings, ports (R14, R399, R372). -/

namespace Sys2Proof

abbrev Byte := BitVec 8
abbrev W16 := BitVec 16
abbrev W32 := BitVec 32
abbrev W64 := BitVec 64

/-- A number naming one of 32 scalar or vector registers. -/
abbrev RegIx := BitVec 5

/-- R14: cores are numbered 0 to 2303. -/
abbrev CoreId := Fin 2304

/-- Physical function 0 and virtual functions 1 to 63 (R398). -/
abbrev FnId := Fin 64

/-- Host rings 0 to 127 of a function (R399). -/
abbrev RingId := Fin 128

/-- Hardware queues 0 to 127 of a core (R279). -/
abbrev QueueId := Fin 128

/-- Punnet engines 0 to 3 of a core (R20). -/
abbrev EngineId := Fin 4

/-- Lanes 0 to 31 of an engine (R20). -/
abbrev LaneId := Fin 32

/-- Stacked-memory channels 0 to 255 (R14). -/
abbrev ChannelId := Fin 256

/-- Anchorage controllers 0 to 15 (R320). -/
abbrev AnchId := Fin 16

/-- Torus ports 0 to 5 (R372). -/
abbrev PortId := Fin 6

/-- Uplinks 0 and 1 (R372). -/
abbrev UplinkId := Fin 2

/-- Tenants 0 to 63; tenant 0 is the provider (R437). -/
abbrev TenantId := Fin 64

/-- Key slots 0 to 63 (R315). -/
abbrev KeySlot := Fin 64

end Sys2Proof
end

