-- ==== Sys2Proof/Config.lean ====
section
/-! DEFINITION. What an EZ-2304 fixes once, and the free values: constants without a body that stand for what the
manual leaves open. Nothing in Lean can evaluate a free value, so a claim about one holds for every value. -/

namespace Sys2Proof.Config

/-- R244, R247: bytes of a bundle. -/
def bundleBytes : Nat := 32

/-- R14: bytes of a scratchpad window. -/
def windowBytes : Nat := 0x100000

/-- R14: device address of core 0's scratchpad window. -/
def scratchBase : Nat := 0x040000000000

/-- R243: address of core 0's control window; control space begins here (R292). -/
def controlBase : Nat := 0x080000000000

/-- R292: first anchorage address. -/
def anchBase : Nat := 0x010000000000

/-- R292: bytes of stacked-memory address space, 576 GiB. -/
def stackedBytes : Nat := 0x009000000000

/-- R290: channel pages of one channel. -/
def channelPages : Nat := 589824

/-- R290: bytes of one channel. -/
def channelBytes : Nat := 589824 * 4096

/-- R457: slots of the black box. -/
def bbxSlots : Nat := 262144

/-- FREE VALUE (R164). Where in the interval of its ulp bound a special function's result lies, for the function
number and the input bits: a fixed function of the input, the same on every core. DESIGN CHOICE (log 35). -/
opaque specialOffset : Nat → W32 → Int

/-- FREE VALUE (R424, R425, R383). SHA-384 of a byte string; the manual names the hash and its standard, the model does
not compute it. DESIGN CHOICE (log 9). -/
opaque sha384 : List Byte → BitVec 384

/-- FREE VALUE (R447). The nonce of the n-th challenge that the port issues. DESIGN CHOICE (log 119). -/
opaque challengeNonce : Nat → BitVec 256

/-- FREE VALUE (R435). The two signatures over a report body: RSA, then SLH-DSA. DEDUCED (log 101). -/
opaque reportSignature : List Byte → List Byte

/-- FREE VALUE (R233). The digest that a 16-byte digest packet carries: the manual does not give the packet's layout.
DESIGN CHOICE (log 46). -/
opaque digestField : W64 → W64 → W32

/-- FREE VALUE (R225). Bytes from route bank 0 to route bank 1 in the route area, for B_max: the manual does not place
the second bank. DESIGN CHOICE (log 45). -/
opaque routeBankGap : Nat → Nat

/-- FREE VALUE (R313, R390). The codec block that a port's encoder makes of 4,096 bytes: the manual gives the decoder
and leaves the encoder's choice of commands open. DESIGN CHOICE (log 63). -/
opaque codecBlock : List Byte → List Byte

/-- FREE VALUE (R459). The code of the record of a retried error, by the kind of its source. DESIGN CHOICE (log 51). -/
opaque retryCode : Nat → W16

/-- FREE VALUE (R462). What a slot of the black box holds after a commit whose read-back failed, by the record's seq.
DESIGN CHOICE (log 94). -/
opaque badSlot : Nat → BitVec 2048

/-- FREE VALUE (R323). The places that a pseudo-random page order draws from the generator's words, one after the other, among
the pages still left: the manual names the generator and leaves open how its words order the pages. DESIGN CHOICE (log 53). -/
opaque pageDraws : List (BitVec 128) → List Nat

/-- R316: a cipher of 64-byte units and its inverse. -/
structure Cipher where
  enc : BitVec 512 → BitVec 512 := fun x => x
  dec : BitVec 512 → BitVec 512 := fun x => x
  dec_enc : ∀ x, dec (enc x) = x := by intro _; rfl
  deriving Inhabited

/-- FREE VALUE (R316). AES-256-XTS by key (64 bytes) and tweak (a unit's address divided by 64): the manual names its standard,
the model does not compute it. DESIGN CHOICE (log 48). -/
opaque xts : BitVec 512 → Nat → Cipher

/-- FREE VALUE (R417). Bytes that the arguments of a command need: the manual does not lay them out. DEDUCED (log 80). -/
opaque argSize : W16 → Nat

/-- FREE VALUE (R417). Where a command's host buffer lies, read from the words of its request window.
DESIGN CHOICE (log 81). -/
opaque bufferAddr : W16 → List (Nat × W64) → Nat

/-- FREE VALUE (R379). Whether a transfer of the module in a board slot comes from an even-numbered source core: the frame
header does not say. DESIGN CHOICE (log 60). -/
opaque evenSource : Nat → BitVec 16 → Bool

/-- FREE VALUE (R387, R458). The name code of a field of a contribution: 0 cfg, 1 step, 2 seq, 3 level, 4 kind, 5 layer,
6 rdig, 7 bytes, 8 rank. The manual gives no codes. DESIGN CHOICE (log 76). -/
opaque fieldCode : Nat → Byte

/-- FREE VALUE (R383). What the words of a message frame say when it is rank 0's reply to a muster: whether the slice formed,
and the step. The manual does not lay messages out. DESIGN CHOICE (log 73). -/
opaque musterReply : List W64 → Option (Bool × W32)

/-- FREE VALUE (R383). The configuration digest of a bound model for n, d and s; the hash is SHA-384.
DESIGN CHOICE (log 9, 75). -/
opaque configDigest : BitVec 384 → Nat → Nat → Nat → BitVec 384

/-- FREE VALUE (R417). The result word of SLICE_FORM for its muster entries of slot, reason and port.
DESIGN CHOICE (log 74). -/
opaque musterResult : List (Nat × Nat × Nat) → W64

/-- FREE VALUE (R434). SHA-384 of the boot ROM. DESIGN CHOICE (log 9). -/
opaque romDigest : BitVec 384

/-- FREE VALUE (R434). Measurement 4, of the bound image's digest and its signer hash: two 48-byte values for one of 48.
DEDUCED (log 99). -/
opaque modelMeasure : BitVec 384 → BitVec 384 → BitVec 384

/-- FREE VALUE (R434). Measurement 7, of the function's tenant and the (slot, owner, loaded) of each slot that has an owner.
DEDUCED (log 99). -/
opaque tenantMeasure : Nat → List (Nat × Nat × Bool) → BitVec 384

/-- FREE VALUE (R433). The RSA signature of an SPDM answer, by what its transcript holds here. DESIGN CHOICE (log 98). -/
opaque spdmSign : List Byte → List Byte

/-- FREE VALUE (R433). The flags of CAPABILITIES and the structures of ALGORITHMS: the SPDM specification lays them out.
DESIGN CHOICE (log 98). -/
opaque spdmCapabilities : List Byte
/-- DESIGN CHOICE (log 98). -/
opaque spdmAlgorithms : List Byte

/-- FREE VALUE (R433). What KEY_EXCHANGE_RSP and FINISH_RSP carry, by the session: keys are outside the model.
DESIGN CHOICE (log 98). -/
opaque spdmExchange : Nat → List Byte

/-- FREE VALUE (R445). The payload of a rack status frame, by PCI_STATE, the temperatures and the input power: the manual does
not lay it out. DESIGN CHOICE (log 102). -/
opaque rackStatus : W64 → List Byte → W16 → List Byte

/-- FREE VALUE (R447). The last 18 bytes of a challenge, with its scope: the manual names a challenge's parts and not their
places. DESIGN CHOICE (log 119). -/
opaque challengeTail : BitVec 3 → BitVec 144

/-- FREE VALUE (R265). The bundle field of the fault record when no bundle raises the fault (an inbound message, a packet, an
event of the fabric), for the cause, the sequencer's next bundle and its cc: the manual gives that field for a faulting bundle
only. DESIGN CHOICE (log 27). -/
opaque faultNoBundle : Nat → BitVec 20 → Nat → BitVec 20

/-- FREE VALUE (R490). The 8 bytes that the response to a MEMWR holds, for the address and the operand: the table of debug
operations gives it a result of 8 bytes and does not say which. DESIGN CHOICE (log 116). -/
opaque memWrResult : Nat → W64 → W64

/-- FREE VALUE (R61, R490). The bank, as engine × 32 + lane, that the n-th 2 KiB of PNMRD's offsets names: the manual does not number
the banks. DESIGN CHOICE (log 118). -/
opaque punnetBank : Nat → Fin 128

/-- Where binding puts a streamed tensor: window number, base in MiB, first channel page, first entry of its channel list, and the
address of its header table. -/
structure Spot where
  win : Nat
  base : Nat
  page : Nat
  list : Nat
  table : Nat
  deriving DecidableEq, Repr, Inhabited

/-- What binding chooses beside the cores (R356, R358): the two registers of window 0, the streamed tensors, the berth pools of
stacked memory and of the anchorage as base, count and check table, and the area of the requests' tables as base and size. -/
structure Placement where
  w0 : BitVec 64 × BitVec 64
  spots : List Spot
  pool : Nat × Nat × Nat
  anch : Nat × Nat × Nat
  tables : Nat × Nat
  deriving DecidableEq, Repr, Inhabited

/-- FREE VALUE (R356, R358). The placement that the harbourmaster finds, from the image's digest, the fused-off cores, the
retirement list and the firmware major version (R359). A load is bound only with one that meets placementOk.
DESIGN CHOICE (log 123). -/
opaque placement : BitVec 384 → List Nat → List Nat → BitVec 16 → Placement

/-- FREE VALUE (R305). The free page that the harbourmaster would take, by the number of the draw. DESIGN CHOICE (log 52). -/
opaque sparePage : Nat → Nat

/-- FREE VALUE (R356). How a refused load names a tile in its result word, by tensor and tile. DEDUCED (log 127). -/
opaque tileName : Nat → Nat → W64

/-- FREE VALUE (R417). The result word of TILE_WRITE for its old and new channel pages. DESIGN CHOICE (log 131). -/
opaque pagePair : Nat → Nat → W64

/-- FREE VALUE (R360, R417). The first 16 bytes of a BINDING_QUERY, of the versions of Fuorn and of the firmware and the digest: 16
bytes do not hold what they name. DESIGN CHOICE (log 131). -/
opaque bindingHeader : List (BitVec 16) → W64 → List Byte

/-- FREE VALUE (R363, R139, R172). Where the harbourmaster's tables lie, from the image's digest, as (logical core, scratchpad
offset) pairs: the pin byte of a layer's gang slot (gang × 16 + slot), the replica byte of a layer's replica slot, the
format byte of a request slot's site, and the sampling record of a request slot. DESIGN CHOICE (log 124). -/
opaque pinPlaces : BitVec 384 → Nat → Nat → List (Nat × Nat)
/-- DESIGN CHOICE (log 124). -/
opaque replicaPlaces : BitVec 384 → Nat → Nat → List (Nat × Nat)
/-- DESIGN CHOICE (log 124). -/
opaque formatPlaces : BitVec 384 → Nat → Nat → List (Nat × Nat)
/-- DESIGN CHOICE (log 124). -/
opaque samplingPlaces : BitVec 384 → Nat → List (Nat × Nat)

/-- FREE VALUE (R349). The sites that a fresh adapter covers and their ranks, by the image's digest and the adapter id.
DESIGN CHOICE (log 143). -/
opaque freshShape : BitVec 384 → BitVec 16 → List (Nat × Nat)

/-- FREE VALUE (R417). The bytes of an adapter package, of its id, version and, for each site, its number, sizes and columns.
DESIGN CHOICE (log 144). -/
opaque adapterPackage : BitVec 16 → BitVec 32 → List (Nat × Nat × Nat × Nat × List (BitVec 32 × List Int)) → List Byte

/-- FREE VALUE (R184). Where the harbourmaster would put the tables of an admitted request, by the number of the draw.
DESIGN CHOICE (log 125). -/
opaque tableBase : Nat → Nat

/-- FREE VALUE (R55, R194). Where the tail and the landing of a quay lie: logical core, offset of the tail, offset of the
landing. DESIGN CHOICE (log 124). -/
opaque tailPlace : BitVec 384 → Nat → Nat → Nat → Nat × Nat × Nat

/-- FREE VALUE (R186). Which of the free handles the harbourmaster takes, by the number of the draw.
DESIGN CHOICE (log 135). -/
opaque pickHandle : Nat → List Nat → Nat

/-- FREE VALUE (R342, R351). Where a version's factor of a site lies in stacked memory, by the image's digest, the adapter id, the
version and the site: its first tile, its header table and its scales. DEDUCED (log 129). -/
opaque adapterPlace : BitVec 384 → Nat → Nat → Nat → Nat × Nat × Nat

/-- FREE VALUE (R351). Where the master values of a tuning job lie in stacked memory, by the image's digest and the job's number.
DEDUCED (log 129). -/
opaque masterPlace : BitVec 384 → Nat → Nat

/-- FREE VALUE (R349, R350). How many positions the sequences of a data set have: the manual does not lay a data set out.
DESIGN CHOICE (log 143). -/
opaque dataPositions : List W64 → Nat

/-- FREE VALUE (R175). Which candidate is drawn when no prefix sum compares (infinite logits), by seed, position and purpose.
DEDUCED (log 166). -/
opaque openDraw : W64 → Nat → BitVec 32 → Nat

/-- FREE VALUE (R392). The flow that a shipment goes out on, by the number of its ticket. DESIGN CHOICE (log 141). -/
opaque shipFlow : BitVec 32 → BitVec 32

/-- FREE VALUE (R442). A berth tile sealed with AES-256-GCM and its tag, by the slot key, the flow and the tile's offset. DESIGN CHOICE
(log 9). -/
opaque sealTile : BitVec 512 → BitVec 32 → Nat → List Byte → List Byte

/-- FREE VALUE (R212). The bytes of what a shipment carries once, at its end: the request record, the sampling record, and the numbers of
the mooring record. DESIGN CHOICE (log 141). -/
opaque shipFields : BitVec 1024 → List Byte → List Nat → List Byte

/-- FREE VALUE (R346). What a destination sends back on a shipment's flow: its status and the request's new handle. DESIGN CHOICE
(log 141). DESIGN CHOICE (log 141). -/
opaque shipAnswer : BitVec 16 → BitVec 32 → List Byte

/-- FREE VALUE (R269). The core next to the PCIe controller (0) and the harbourmaster (1), which the manual does not name.
DESIGN CHOICE (log 158). -/
opaque edgeRouter : Nat → Fin 2304

/-- FREE VALUE. A word the manual leaves open, by the number of the draw (State.free counts them). DESIGN CHOICE (log 18). -/
opaque freeWord : Nat → W64

end Sys2Proof.Config
end

