-- ==== Sys2Proof/Machine/Bits.lean ====
section
/-! DEFINITION. Bit fields, byte order, checksums, sparse lists and sets of numbers: the plain operations that the
meanings share (R9, R10). -/

namespace Sys2Proof.Machine

/-- R9: the field of `len` bits that begins at bit `lo`. -/
def fld (x lo len : Nat) : Nat := x / 2 ^ lo % 2 ^ len

/-- R9: one bit of a word. -/
def tb (x lo : Nat) : Bool := x / 2 ^ lo % 2 == 1

/-- A two's complement field of `n` bits as an integer. -/
def sgn (n x : Nat) : Int := if x % 2 ^ n < 2 ^ (n - 1) then Int.ofNat (x % 2 ^ n) else Int.ofNat (x % 2 ^ n) - 2 ^ n

/-- The two's complement pattern of an integer in `n` bits. -/
def pat (n : Nat) (x : Int) : Nat := (x % 2 ^ n).toNat

/-- A Bool as a bit. -/
def bit (b : Bool) : Nat := if b then 1 else 0

/-- R10: `n` bytes of a number, least significant first. -/
def leBytes : Nat → Nat → List Byte
  | 0, _ => []
  | n + 1, x => BitVec.ofNat 8 x :: leBytes n (x / 256)

/-- R10: the number that little-endian bytes stand for. -/
def ofLe : List Byte → Nat
  | [] => 0
  | b :: r => b.toNat + 256 * ofLe r

/-- The bytes of 64-bit words in address order. -/
def wordsToBytes (ws : List W64) : List Byte := ws.flatMap fun w => leBytes 8 w.toNat

/-- The first `n` 64-bit words of a byte string. -/
def bytesToWords : Nat → List Byte → List W64
  | 0, _ => []
  | n + 1, bs => BitVec.ofNat 64 (ofLe (bs.take 8)) :: bytesToWords n (bs.drop 8)

/-- Word `i` of a list of words, zero past its end. -/
def wordAt (ws : List W64) (i : Nat) : Nat := (ws.getD i 0).toNat

def ceilDiv (a b : Nat) : Nat := (a + b - 1) / b

/-- One bit of CRC-32C, the reflected polynomial 0x82F6_3B78 (R303). -/
def crcBit (c : Nat) : Nat := if c % 2 = 1 then (c / 2) ^^^ 0x82F63B78 else c / 2

def crcByte (c : Nat) (b : Byte) : Nat :=
  crcBit (crcBit (crcBit (crcBit (crcBit (crcBit (crcBit (crcBit (c ^^^ b.toNat))))))))

/-- CRC-32C of a byte string (R303, R457). -/
def crc32c (bs : List Byte) : W32 := BitVec.ofNat 32 (bs.foldl crcByte 0xFFFFFFFF ^^^ 0xFFFFFFFF)

/-! ## Sparse lists: pairs of a key and a value, keys strictly rising, no value equal to the default -/

def Sparse.get {α : Type} (d : α) : List (Nat × α) → Nat → α
  | [], _ => d
  | (k, x) :: r, i => if i = k then x else Sparse.get d r i

def Sparse.insert {α : Type} (i : Nat) (x : α) : List (Nat × α) → List (Nat × α)
  | [] => [(i, x)]
  | (k, y) :: r =>
    if i < k then (i, x) :: (k, y) :: r else if i = k then (i, x) :: r else (k, y) :: Sparse.insert i x r

def Sparse.erase {α : Type} (i : Nat) : List (Nat × α) → List (Nat × α)
  | [] => []
  | (k, y) :: r => if i = k then Sparse.erase i r else (k, y) :: Sparse.erase i r

/-- Writing the default removes the entry, so that equal contents are equal lists. -/
def Sparse.put {α : Type} [DecidableEq α] (d : α) (l : List (Nat × α)) (i : Nat) (x : α) : List (Nat × α) :=
  if x = d then Sparse.erase i l else Sparse.insert i x l

/-- Keys rise strictly above `lo`, and no entry holds the default. -/
def Sparse.okFrom {α : Type} [DecidableEq α] (d : α) : Nat → List (Nat × α) → Bool
  | _, [] => true
  | lo, (k, x) :: r => decide (lo ≤ k) && decide (x ≠ d) && Sparse.okFrom d (k + 1) r

/-- The canonical form. -/
def Sparse.wf {α : Type} [DecidableEq α] (d : α) (l : List (Nat × α)) : Bool := Sparse.okFrom d 0 l

/-! ## Sets of numbers: strictly rising lists -/

def NSet.add (i : Nat) : List Nat → List Nat
  | [] => [i]
  | k :: r => if i < k then i :: k :: r else if i = k then k :: r else k :: NSet.add i r

def NSet.remove (i : Nat) : List Nat → List Nat
  | [] => []
  | k :: r => if i = k then r else k :: NSet.remove i r

/-- Whether the list rises strictly from `lo`. -/
def NSet.okFrom : Nat → List Nat → Bool
  | _, [] => true
  | lo, k :: r => decide (lo ≤ k) && NSet.okFrom (k + 1) r

def NSet.wf (l : List Nat) : Bool := NSet.okFrom 0 l

/-- Adds or removes a member. -/
def NSet.set (l : List Nat) (i : Nat) (on : Bool) : List Nat := if on then NSet.add i l else NSet.remove i l

/-- The first entry of an association list whose key is `k`. -/
def assoc? {α : Type} (k : Nat) (l : List (Nat × α)) : Option α := (l.find? fun p => p.1 == k).map (·.2)

/-- Replaces the first element that satisfies `p` by `f` of it. -/
def updFirst {α : Type} (p : α → Bool) (f : α → α) : List α → List α
  | [] => []
  | x :: r => if p x then f x :: r else x :: updFirst p f r

/-- Removes the first element that satisfies `p`. -/
def dropFirst {α : Type} (p : α → Bool) : List α → List α
  | [] => []
  | x :: r => if p x then r else x :: dropFirst p r

/-- R455: a 64-bit counter counts in [62:0]; reaching 2^63 − 1 it stops there and its sticky bit 63 is set. -/
def bumpBy (n : Nat) (x : BitVec 64) : BitVec 64 :=
  if x.toNat % 2 ^ 63 + n < 2 ^ 63 - 1 then x + BitVec.ofNat 64 n else 0xFFFFFFFFFFFFFFFF#64

def bump (x : BitVec 64) : BitVec 64 := bumpBy 1 x

end Sys2Proof.Machine
end

