-- ==== Sys2Proof/Syntax.lean ====
section
/-! DEFINITION. The commands of the block: one constructor of Instr for each row of spec/opcode_table.json, with the
operands the manual gives it. The slot instructions of a bundle (R247) are types of their own, so that a bundle read
from scratchpad and a row of the table that names one slot instruction share one meaning. -/

namespace Sys2Proof

/-! ## Slot instructions -/

/-- Control slot, register-register operations 0x01 to 0x0D (R252). -/
inductive AluOp where
  | add | sub | and | or | xor | shl | shr | sra | slt | sltu | seq | min | max
  deriving DecidableEq, Repr

/-- Control slot, register-immediate operations 0x10 to 0x15 (R252). -/
inductive AluImmOp where
  | addi | andi | ori | shli | shri | srai
  deriving DecidableEq, Repr

/-- The control slot of a bundle (R252). `undefined` is any word that is not in the table or sets a reserved bit. -/
inductive CtlInstr where
  | nop
  | alu (op : AluOp) (rd ra rb : RegIx)
  | aluImm (op : AluImmOp) (rd ra : RegIx) (imm : W32)
  | lih (rd : RegIx) (imm : W32)
  | sld (rd ra : RegIx) (imm : BitVec 20)
  | sst (ra rb : RegIx) (imm : BitVec 20)
  | rdcr (rd : RegIx) (imm : BitVec 16)
  | sbdrain
  | jmp (imm : BitVec 24)
  | bz (ra : RegIx) (imm : BitVec 24)
  | bnz (ra : RegIx) (imm : BitVec 24)
  | jal (rd : RegIx) (imm : BitVec 24)
  | jr (ra : RegIx)
  | loop (ra : RegIx) (body : BitVec 12)
  | loopi (count : BitVec 20) (body : BitVec 12)
  | endTask
  | undefined
  deriving DecidableEq, Repr

/-- PBLD (R87, R88). -/
structure PbldArgs where
  emask : BitVec 4
  sRec : RegIx
  sBlk : RegIx
  fmt : BitVec 2
  nrec : BitVec 4
  deriving DecidableEq, Repr

/-- PLOOK (R87, R88). -/
structure PlookArgs where
  eng : EngineId
  sCode : RegIx
  sStr : RegIx
  sPos : RegIx
  sMask : RegIx
  msk : Bool
  pw : Bool
  fresh : Bool
  tile : BitVec 6
  nrow : BitVec 8
  planes : BitVec 3
  nhalf : BitVec 4
  entry : BitVec 8
  h0 : BitVec 4
  deriving DecidableEq, Repr

/-- The punnet slot of a bundle (R87). -/
inductive PunInstr where
  | pnop
  | pbld (a : PbldArgs)
  | plook (a : PlookArgs)
  | pfence (emask : BitVec 4) (bld : Bool)
  | pinv (emask : BitVec 4)
  | undefined
  deriving DecidableEq, Repr

/-- Classes 0x1 and 0x2, functions 0 to 11 (R160). -/
inductive FpOp where
  | add | sub | mul | fma | min | max | abs | neg | ceq | clt | cle | sel
  deriving DecidableEq, Repr

/-- Class 0x3, functions 0 to 9 (R160). -/
inductive IntOp where
  | add | sub | and | or | xor | shl | shr | sra | ceq | clt
  deriving DecidableEq, Repr

/-- Class 0x4, functions 0 to 6 (R164). -/
inductive SpecialFn where
  | exp | log | rsqrt | rcp | sig | silu | tanh
  deriving DecidableEq, Repr

/-- Register operands of the lane operations (R159). `bs` makes the b operand the broadcast scalar register s[vb]. -/
structure VRegs where
  vd : RegIx
  va : RegIx
  vb : RegIx
  vc : RegIx
  bs : Bool
  deriving DecidableEq, Repr

/-- The vector slot of a bundle: vector and accumulator instructions (R121, R160). `undefined` raises "bad vector
instruction", `undefinedAcc` "bad accumulator instruction". -/
inductive VecInstr where
  | vnop
  | fp (op : FpOp) (half : Bool) (r : VRegs)
  | int (op : IntOp) (r : VRegs)
  | special (fn : SpecialFn) (half : Bool) (vd va : RegIx)
  | vcvtif (vd va : RegIx)
  | vcvtfi (vd va : RegIx)
  | vpackh (vd va vb : RegIx)
  | vunpk (high : Bool) (vd va : RegIx)
  | vbcst (vd va : RegIx)
  | vext (vd va : RegIx) (lane : BitVec 5)
  | vins (vd va : RegIx) (lane : BitVec 5)
  | vmov (vd va : RegIx)
  | vld (half : Bool) (vd va : RegIx) (off : BitVec 20)
  | vst (half : Bool) (va vb : RegIx) (off : BitVec 20)
  | mld (tm : BitVec 2) (va : RegIx) (off : BitVec 20)
  | mst (tm : BitVec 2) (va : RegIx) (off : BitVec 20)
  | mtr (tm : BitVec 2)
  | mget (col : Bool) (vd : RegIx) (tm : BitVec 2) (ix : BitVec 4)
  | mput (col : Bool) (va : RegIx) (tm : BitVec 2) (ix : BitVec 4)
  | rbeg (va : RegIx) (cx : BitVec 2) (mode : BitVec 2) (km1 : BitVec 6)
  | rfeed (va : RegIx) (cx : BitVec 2) (nm1 : BitVec 5)
  | rfeedx (va vb : RegIx) (cx : BitVec 2) (nm1 : BitVec 5)
  | rget (vd : RegIx) (cx : BitVec 2) (part : BitVec 3)
  | vrnd (vd va vb vc : RegIx)
  | acfg (tile : BitVec 6) (sCd : RegIx) (en : Bool)
  | aclr (tile : BitVec 6) (entry : BitVec 8) (nm1 : BitVec 8)
  | amrg (ta tb : BitVec 6) (entry : BitVec 8) (nm1 : BitVec 8)
  | aldp (tile : BitVec 6) (entry : BitVec 8) (nm1 : BitVec 8) (sAddr : RegIx)
  | astp (tile : BitVec 6) (entry : BitVec 8) (nm1 : BitVec 8) (sAddr : RegIx)
  | undefined
  | undefinedAcc
  deriving DecidableEq, Repr

/-- OQNT (R129). -/
structure OqntArgs where
  src : BitVec 2
  tile : BitVec 6
  entry : BitVec 8
  nrec : BitVec 4
  ofmt : BitVec 3
  rot : BitVec 3
  fuse : BitVec 2
  ffmt : Bool
  adp : Bool
  sc : Bool
  tal : Bool
  sDesc : RegIx
  deriving DecidableEq, Repr

/-- The move slot of a bundle (table "Move-slot classes", R258, R284, R227, R129). The last five constructors are words
that no table of that class defines; each raises the class's own fault at issue. -/
inductive MovInstr where
  | mnop
  | dstart (sDesc : RegIx)
  | qput (sDst sFirst : RegIx) (nm1 : BitVec 2)
  | qrd (rd : RegIx) (q : BitVec 7)
  | qmv (q : BitVec 7) (sAddr : RegIx) (nm1 : BitVec 9)
  | qcnt (rd : RegIx) (q : BitVec 7)
  | qrst (q : BitVec 7)
  | dfence
  | await (sAddr sLen sCnt : RegIx)
  | rtake (sb : RegIx) (nsm1 : BitVec 4) (bank : Bool)
  | oqnt (a : OqntArgs)
  | undefined
  | undefinedAwait (sCnt : RegIx)
  | undefinedRouter
  | undefinedOutput
  deriving DecidableEq, Repr

/-! ## Operands that describe what comes from outside a unit -/

/-- What the check bits of a word say when it is read: SECDED (R82, R102, R263, R272). DESIGN CHOICE (log 6). -/
inductive Ecc where
  | clean | single | double
  deriving DecidableEq, Repr

/-- A 64-bit word as the mesh carries it, with its poison mark (R272). -/
structure MWord where
  data : W64
  poison : Bool
  deriving DecidableEq, Repr

/-- What attaches to a mesh router (R269, R300, R372). -/
inductive Node where
  | core (c : CoreId)
  | channel (ch : ChannelId)
  | anch (k : AnchId)
  | port (p : PortId)
  | pcie
  | harbourmaster
  | debug
  deriving DecidableEq, Repr

/-- Which memory controller: a stacked-memory channel or an anchorage controller. -/
inductive Ctrl where
  | channel (ch : ChannelId)
  | anch (k : AnchId)
  deriving DecidableEq, Repr

/-- What the HBM3 core dies report with a burst (R299). -/
inductive Severity where
  | clean | corrected | uncorrectable
  deriving DecidableEq, Repr

/-- What a mesh link carries a word of: message `i` of the mesh, VC0's first, or the tile that transfer `id` of core `c` is
at (R272, R303). -/
inductive LinkLoad where
  | msg (i : Nat)
  | tile (c : CoreId) (id : Nat)
  deriving DecidableEq, Repr

/-- How the fetch of a tile ended: what arrived is what is stored, or it fails its check value, or it does not decode
(R304). -/
inductive FetchTile where
  | asStored | badCrc | badDecode
  deriving DecidableEq, Repr

/-- One fetch of a tile: how it ended, and the severities that its bursts reported, by number (R299, R304).
DESIGN CHOICE (log 160). -/
structure TileFetch where
  outcome : FetchTile
  bursts : List (Nat × Severity)
  deriving DecidableEq, Repr

/-- The two fetches that a tile may take (R304); the second counts only after a failure of the first. -/
structure TileTries where
  first : TileFetch
  retry : TileFetch
  deriving DecidableEq, Repr

/-- Where a memory the idle scrubber visits lies (R264). -/
inductive ScrubMem where
  | scratchpad | punnet | accumulator
  deriving DecidableEq, Repr

/-- One error that a scrubber access finds: the word's index inside its memory, and whether one or two bits are wrong. -/
structure ScrubFind where
  mem : ScrubMem
  word : Nat
  double : Bool
  deriving DecidableEq, Repr

/-- Who sent a harbourmaster command: a PCIe function or the rack mailbox (R414). -/
inductive Issuer where
  | fn (f : FnId)
  | rack
  deriving DecidableEq, Repr

/-- What the verification of a signed object gives (R424, R425): the fields of its signature block that rules read,
and whether each signature verified. The keys are outside the model. DESIGN CHOICE (log 7, 8). -/
structure SigBlock where
  magicOk : Bool
  kind : Byte
  raiseFloor : Bool
  reservedZero : Bool
  svn : BitVec 6
  major : W16
  minor : W16
  patch : W16
  digestOk : Bool
  digest : BitVec 384
  signer : BitVec 384
  rsaOk : Bool
  slhOk : Bool
  deriving DecidableEq, Repr

/-- How a fetch of host memory or of an uplink flow ended (R413, R392); `underWay`: the work of a command whose ticket may be
cancelled has not ended when its TICKET_CANCEL comes (R416). DESIGN CHOICE (log 7). -/
inductive FetchEnd where
  | ok | hostError | timeout | underWay
  deriving DecidableEq, Repr

/-! ## Manifest (R355): the parts of a model image that the module's rules read -/

/-- R139: format policy of an output site. -/
inductive SitePolicy where
  | fixedA4X | fixedA8 | adaptive
  deriving DecidableEq, Repr

/-- One output site of the manifest (R139 to R151, R342), with the layer it lies in. -/
structure SiteSpec where
  policy : SitePolicy
  rho : W16
  monitored : Bool
  jump : W32
  calibration : Option W32
  adaptable : Bool
  din : Nat
  dout : Nat
  layer : Nat
  deriving DecidableEq, Repr

/-- Eviction policy of a layer (R201). -/
structure EvictPolicy where
  on : Bool
  sinks : Nat
  window : Nat
  budget : Nat
  period : Nat
  shared : Bool
  deriving DecidableEq, Repr

/-- Mixture-of-experts part of a layer's manifest entry (R220, R223, R235, R239, R363, R364). `home` gives each expert's gang and
slot, `replicaSlots` the replica slots, `sliceTiles` where each expert's codes lie as tensor and first tile, `slotOffs` where a
slot's codes go in the reserve banks of its gang's cores, as (gang, slot, scratchpad offset). -/
structure MoeSpec where
  routed : Nat
  sharedExperts : Nat
  k : Nat
  mode : Bool
  gscale : W32
  gangs : Nat
  home : List (Nat × Nat)
  replicaSlots : List (Nat × Nat)
  gangCores : List (List Nat)
  priors : List W32
  sliceBytes : Nat
  sliceTiles : List (Nat × Nat)
  slotOffs : List (Nat × Nat × Nat)
  sparse : Option (Nat × Nat)
  nRouting : Nat
  pinnedAtLoad : List Nat
  deriving DecidableEq, Repr

/-- A static block mask and that of the transposed copy (R81, R86): masked tiles as (row tile, block). -/
structure MaskSpec where
  forward : List (Nat × Nat)
  backward : List (Nat × Nat)
  deriving DecidableEq, Repr

/-- A layer of the manifest. -/
structure LayerSpec where
  evict : EvictPolicy
  moe : Option MoeSpec
  tunable : Bool
  transposed : Bool
  mask : Option MaskSpec
  deriving DecidableEq, Repr

/-- A word of a core's scratchpad that holds an address of a bound tensor (R354): which tile of which tensor, in the bits from
`shift` on, 48 of them. -/
structure AddrSpot where
  off : Nat
  shift : Nat
  tensor : Nat
  tile : Nat
  deriving DecidableEq, Repr

/-- A logical core of the manifest (R355, R357). `owner` is the request slot (false) or tuning job (true) that the
manifest assigns the core to, if one (R450); `pbldSites` gives, for each PBLD bundle, its offset and the site that Fuorn names for it (R48);
`regs` lists the other registers of its control window that binding writes, by offset (HQ_AREA and HQ_QCFGq). -/
structure LogicalCore where
  preferred : Nat
  banks : W16
  reserveBanks : Nat
  base : BitVec 15
  nbm1 : BitVec 15
  entry : BitVec 15
  rtArea : BitVec 14
  program : List W64
  pinned : List (Nat × List W64)
  owner : Option (Bool × Nat)
  pbldSites : List (Nat × Nat)
  regs : List (Nat × W64)
  addrs : List AddrSpot
  deriving DecidableEq, Repr

/-- A stored tile of a streamed tensor (R301): where its block begins in the tensor's window, and the block. -/
structure TileSpec where
  off : Nat
  coded : Bool
  crc : W32
  block : List W64
  deriving DecidableEq, Repr

/-- A streamed tensor or check stream (R307, R355, R356, R358): its weight format's planes, its shape in rows and reduction
columns, its row scales, the window the placer opens for it, and its tiles in index order (R31 to R33). -/
structure TensorSpec where
  planes : Nat
  rows : Nat
  columns : Nat
  rowScales : List W32
  tiles : List TileSpec
  lgn : Nat
  consumers : List Nat
  sizeMib : Nat
  deriving DecidableEq, Repr

/-- Where Fuorn lays the tally record of a site, a request slot and a row of that request (R137): logical core and offset. -/
structure TallyPlace where
  core : Nat
  off : Nat
  site : Nat
  slot : Nat
  row : Nat
  deriving DecidableEq, Repr

/-- A matrix product's reduction (R109, R110, R124). -/
structure ProductSpec where
  runLength : Nat
  parts : Nat
  degree : Nat
  deriving DecidableEq, Repr

/-- The manifest (R355). DESIGN CHOICE (log 7). -/
structure Manifest where
  digest : BitVec 384
  fuornMajor : W16
  fuornMinor : W16
  fuornPatch : W16
  planesKT : Nat
  headDim : Nat
  headPairs : Nat
  cores : List LogicalCore
  tensors : List TensorSpec
  products : List ProductSpec
  sites : List SiteSpec
  window : Nat
  reachLength : Nat
  chunkLimit : Nat
  layers : List LayerSpec
  bMax : Nat
  draftLayers : List LayerSpec
  adaptiveMode : Bool
  copyBudget : Option Nat
  groups : List (List Nat)
  attnRun : Nat
  rotSeed : W64
  shipTimeoutMs : Option Nat
  slips : List (Nat × Nat × Nat × Nat)
  tallies : List TallyPlace
  vocabulary : Nat
  rotIds : List W32
  combineCores : List Nat
  senders : List (List Nat)
  deriving DecidableEq, Repr

/-! ## Serving operands -/

/-- A sampling candidate: its logit and its token (R173). -/
abbrev Cand := W32 × W32

/-- What a step's rows gave for one request (R173, R333, R336): the candidates of the target model at each sampled position in
position order, and those of the draft model at each drafted position. -/
structure RowResult where
  handle : W32
  samples : List (List Cand)
  drafts : List (List Cand)
  deriving DecidableEq, Repr

/-- Mass increments of one quay for one query position: pairs of a place's index in the quay's mass table and its
increment (R203). -/
structure MassIn where
  handle : W32
  layer : Nat
  pair : Nat
  query : Nat
  incs : List (Nat × W32)
  deriving DecidableEq, Repr

/-- One adapter factor pair (R342): site, rank, input and output sizes, the columns of A then of B, each as its scale and its
codes' values, and the check values that its tile headers give, A's tiles first. DESIGN CHOICE (log 7). -/
structure AdapterFactor where
  site : Nat
  din : Nat
  r : Nat
  dout : Nat
  cols : List (W32 × List Int)
  crcs : List W32
  deriving DecidableEq, Repr

/-- Arguments of TUNE_START (R349). -/
structure TuneArgs where
  adapter : W16
  startVersion : W32
  dataSet : Byte
  rowShare : Nat
  microSteps : Nat
  optSteps : Nat
  lr : W32
  beta : W32
  wd : W32
  seed : W64
  noInstall : Bool
  deriving DecidableEq, Repr

/-- REQ_SHIP's destination (R346, R417): the coordinates of its rank-0 module and the uplink peer's address; and what the
destination answers, if it does: a status and the request's new handle. DESIGN CHOICE (log 141). -/
structure ShipOrder where
  dest : Nat × Nat × Nat
  peer : BitVec 128
  answer : Option (W16 × W32)
  deriving DecidableEq, Repr

/-- A command in a boundary record (R337). Requests are named by handle and pending ones by their place among the record's offers;
`endQuiet` ends a request whose function or ring is gone. Factors are the share that the reading module holds (R342). -/
inductive PeerCmd where
  | cancel (handle : W32)
  | pause (handle : W32) (ttl : Nat)
  | resume (handle : W32)
  | ship (handle : W32) (order : ShipOrder)
  | endQuiet (handle : W32)
  | expire (handle : W32)
  | dropOffer (index : Nat)
  | install (id : W16) (tenant : TenantId) (factors : List AdapterFactor)
  | remove (id : W16)
  | tune (tenant : TenantId) (args : TuneArgs)
  | cancelJob (job : Nat)
  deriving DecidableEq, Repr

/-- What another module of the slice puts into its boundary record (R337, R388, R142, R478, R389). `offers` are its
pending requests' records with their tenants and functions; `noRoom` lists the offers, as (home slot, index), whose tables it cannot
allocate (R329). DESIGN CHOICE (log 154). -/
structure PeerRecord where
  rank : Nat
  commands : List PeerCmd
  offers : List (BitVec 1024 × TenantId × FnId)
  noRoom : List (Nat × Nat)
  capped : List (W32 × Nat × Nat)
  blocks : List (W32 × Nat × Nat)
  timeNs : Nat
  synced : Bool
  halt : Bool
  hold : Bool
  aborted : Bool
  deriving DecidableEq, Repr

/-- What a step's rows of a tuning job gave (R350): for each factor column, for each of its elements, the gradient that each row
forms, in data order. DESIGN CHOICE (log 154). -/
structure GradIn where
  job : Nat
  leaves : List (List (List W32))
  deriving DecidableEq, Repr

/-- What the programs of a step leave for its boundary beside what stands in memory (R175, R203, R350).
DESIGN CHOICE (log 154). -/
structure StepEnd where
  results : List RowResult
  grads : List GradIn
  masses : List MassIn
  deriving DecidableEq, Repr

/-- What a boundary takes from the exchange (R337): the records of the other modules. -/
structure BoundaryIn where
  peers : List PeerRecord
  deriving DecidableEq, Repr

/-! ## Fabric operands -/

/-- Xeset frame header and trailer, and its payload words (R376). `crcOk` is what the FEC and CRC checks of the receiver
said. DESIGN CHOICE (log 6). -/
structure Frame where
  ftype : Byte
  vc : BitVec 2
  cdc : Bool
  last : Bool
  prot : Bool
  reservedZero : Bool
  dstX : BitVec 4
  dstY : BitVec 4
  dstZ : Byte
  srcX : BitVec 4
  srcY : BitVec 4
  srcZ : Byte
  lseq : W16
  xfer : W16
  words : BitVec 12
  step : W32
  tenant : TenantId
  addr : BitVec 48
  cfg : W64
  ack : W16
  crvc : BitVec 2
  cr : BitVec 14
  crcOk : Bool
  payload : List W64
  deriving DecidableEq, Repr

/-- Uplink header and data (R392). `crcOk` is the data CRC's verdict. -/
structure Datagram where
  dclass : Byte
  flow : W32
  seq : W32
  ack : W32
  window : W32
  reservedZero : Bool
  ce : Bool
  crcOk : Bool
  data : List Byte
  deriving DecidableEq, Repr

/-- A muster record (R383). -/
structure Muster where
  slot : Nat
  serial : W64
  rank : Nat
  fwMajor : W16
  model : BitVec 384
  config : BitVec 384
  deriving DecidableEq, Repr

/-- What a host violation is (R422). -/
inductive HostViolation where
  | undefinedWrite | roWrite | badWidth | poisonedTlp | malformed
  deriving DecidableEq, Repr

/-- Sensor readings of one 256 µs sample (R476, R477). DESIGN CHOICE (log 6). -/
structure Sensors where
  dram : Vector Int 16
  junc : Vector Int 4
  inlet : Int
  powerW : Nat
  currentTenMa : W16
  voltageTenMv : W16
  deriving DecidableEq, Repr

/-- A berth image of a shipment (R212, R213): the quay whose record carries it, and the page; for a sealed one (R442), whether the
tags verify. -/
structure ShipImage where
  layer : Nat
  pair : Nat
  page : List W64
  sealed : Option Bool
  deriving DecidableEq, Repr

/-- What a shipment carries of one quay beside its berth images (R212): opened and evicted counts, the mass table in place
order, and the tail's words. -/
structure ShipQuay where
  layer : Nat
  pair : Nat
  opened : Nat
  evicted : Nat
  mass : List W32
  tail : List W64
  deriving DecidableEq, Repr

/-- The serving state that travels with a shipment (R212, R345), and the flow that brings it (R392). -/
structure ShipState where
  flow : W32
  produced : Nat
  drafted : Nat
  accepted : Nat
  steps : Nat
  held : Nat
  evicted : Nat
  aver : W32
  a8 : List Nat
  sums : List (Nat × Nat × Nat)
  admitted : W64
  seq : W32
  top : Option Nat
  input : W32
  stop : Option (W16 × Byte)
  quays : List ShipQuay
  deriving DecidableEq, Repr

/-- Source of a MODEL_LOAD (R417, R418). -/
inductive LoadSource where
  | scatter (elements : Nat) (fetch : FetchEnd)
  | uplink (flow : W32) (fetch : FetchEnd)
  | relay (staged : Bool) (fetch : FetchEnd)
  deriving DecidableEq, Repr

/-- Source of an FW_UPDATE. -/
inductive FwSource where
  | scatter (fetch : FetchEnd)
  | uplink (flow : W32) (fetch : FetchEnd)
  deriving DecidableEq, Repr

/-! ## The commands -/

/-- The commands of the block, one constructor for each row of the opcode table, in its order. A slot instruction's
row is the issue, by the sequencer of core `c`, of its next bundle, holding that instruction in its slot and no-ops
in the other three. -/
inductive Instr where
  /-- BUNDLE_ISSUE (R248). -/
  | bundleIssue (c : CoreId)
  /-- PNOP (R87). -/
  | pnop (c : CoreId)
  /-- PBLD (R62). -/
  | pbld (c : CoreId) (a : PbldArgs)
  /-- BUILD_PUNNET (R63). -/
  | buildPunnet (c : CoreId)
  /-- PLOOK (R88). -/
  | plook (c : CoreId) (a : PlookArgs)
  /-- FETCH_LINE (R72). -/
  | fetchLine (c : CoreId) (e : EngineId)
  /-- LANE_LOOKUP (R75). -/
  | laneLookup (c : CoreId) (e : EngineId) (lane : LaneId) (ecc : Ecc)
  /-- BLOCK_INTEGER_HAND_OFF (R70). -/
  | blockIntegerHandOff (c : CoreId) (e : EngineId)
  /-- DELIVERY (R107). -/
  | delivery (c : CoreId) (e : EngineId) (ecc : Ecc)
  /-- SLOT_VERDICT (R117). -/
  | slotVerdict (c : CoreId) (e : EngineId)
  /-- PFENCE (R89). -/
  | pfence (c : CoreId) (emask : BitVec 4) (bld : Bool)
  /-- PINV (R89). -/
  | pinv (c : CoreId) (emask : BitVec 4)
  /-- ACFG (R121). -/
  | acfg (c : CoreId) (tile : BitVec 6) (sCd : RegIx) (en : Bool)
  /-- ACLR (R101). -/
  | aclr (c : CoreId) (tile : BitVec 6) (entry : BitVec 8) (nm1 : BitVec 8)
  /-- AMRG (R122). -/
  | amrg (c : CoreId) (ta : BitVec 6) (tb : BitVec 6) (entry : BitVec 8) (nm1 : BitVec 8)
  /-- ALDP (R121). -/
  | aldp (c : CoreId) (tile : BitVec 6) (entry : BitVec 8) (nm1 : BitVec 8) (sAddr : RegIx)
  /-- ASTP (R121). -/
  | astp (c : CoreId) (tile : BitVec 6) (entry : BitVec 8) (nm1 : BitVec 8) (sAddr : RegIx)
  /-- OQNT (R127). -/
  | oqnt (c : CoreId) (a : OqntArgs)
  /-- VNOP (R160). -/
  | vnop (c : CoreId)
  /-- VADD (R161). -/
  | vadd (c : CoreId) (r : VRegs)
  /-- VSUB (R161). -/
  | vsub (c : CoreId) (r : VRegs)
  /-- VMUL (R161). -/
  | vmul (c : CoreId) (r : VRegs)
  /-- VFMA (R161). -/
  | vfma (c : CoreId) (r : VRegs)
  /-- VMIN (R161). -/
  | vmin (c : CoreId) (r : VRegs)
  /-- VMAX (R161). -/
  | vmax (c : CoreId) (r : VRegs)
  /-- VABS (R161). -/
  | vabs (c : CoreId) (vd : RegIx) (va : RegIx)
  /-- VNEG (R161). -/
  | vneg (c : CoreId) (vd : RegIx) (va : RegIx)
  /-- VCEQ (R160). -/
  | vceq (c : CoreId) (r : VRegs)
  /-- VCLT (R160). -/
  | vclt (c : CoreId) (r : VRegs)
  /-- VCLE (R160). -/
  | vcle (c : CoreId) (r : VRegs)
  /-- VSEL (R160). -/
  | vsel (c : CoreId) (r : VRegs)
  /-- BF16_FORMS (R161). -/
  | bf16Forms (c : CoreId) (op : FpOp) (r : VRegs)
  /-- VIADD (R160). -/
  | viadd (c : CoreId) (r : VRegs)
  /-- VISUB (R160). -/
  | visub (c : CoreId) (r : VRegs)
  /-- VAND (R160). -/
  | vand (c : CoreId) (r : VRegs)
  /-- VOR (R160). -/
  | vor (c : CoreId) (r : VRegs)
  /-- VXOR (R160). -/
  | vxor (c : CoreId) (r : VRegs)
  /-- VSHL (R160). -/
  | vshl (c : CoreId) (r : VRegs)
  /-- VSHR (R160). -/
  | vshr (c : CoreId) (r : VRegs)
  /-- VSRA (R160). -/
  | vsra (c : CoreId) (r : VRegs)
  /-- VICEQ (R160). -/
  | viceq (c : CoreId) (r : VRegs)
  /-- VICLT (R160). -/
  | viclt (c : CoreId) (r : VRegs)
  /-- VEXP (R164). -/
  | vexp (c : CoreId) (half : Bool) (vd : RegIx) (va : RegIx)
  /-- VLOG (R164). -/
  | vlog (c : CoreId) (half : Bool) (vd : RegIx) (va : RegIx)
  /-- VRSQRT (R164). -/
  | vrsqrt (c : CoreId) (half : Bool) (vd : RegIx) (va : RegIx)
  /-- VRCP (R164). -/
  | vrcp (c : CoreId) (half : Bool) (vd : RegIx) (va : RegIx)
  /-- VSIG (R164). -/
  | vsig (c : CoreId) (half : Bool) (vd : RegIx) (va : RegIx)
  /-- VSILU (R164). -/
  | vsilu (c : CoreId) (half : Bool) (vd : RegIx) (va : RegIx)
  /-- VTANH (R164). -/
  | vtanh (c : CoreId) (half : Bool) (vd : RegIx) (va : RegIx)
  /-- VCVTIF (R160). -/
  | vcvtif (c : CoreId) (vd : RegIx) (va : RegIx)
  /-- VCVTFI (R162). -/
  | vcvtfi (c : CoreId) (vd : RegIx) (va : RegIx)
  /-- VPACKH (R160). -/
  | vpackh (c : CoreId) (vd : RegIx) (va : RegIx) (vb : RegIx)
  /-- VUNPKL (R160). -/
  | vunpkl (c : CoreId) (vd : RegIx) (va : RegIx)
  /-- VUNPKH (R160). -/
  | vunpkh (c : CoreId) (vd : RegIx) (va : RegIx)
  /-- VBCST (R160). -/
  | vbcst (c : CoreId) (vd : RegIx) (va : RegIx)
  /-- VEXT (R160). -/
  | vext (c : CoreId) (vd : RegIx) (va : RegIx) (lane : BitVec 5)
  /-- VINS (R160). -/
  | vins (c : CoreId) (vd : RegIx) (va : RegIx) (lane : BitVec 5)
  /-- VMOV (R160). -/
  | vmov (c : CoreId) (vd : RegIx) (va : RegIx)
  /-- VLD (R163). -/
  | vld (c : CoreId) (vd : RegIx) (va : RegIx) (off : BitVec 20)
  /-- VST (R163). -/
  | vst (c : CoreId) (va : RegIx) (vb : RegIx) (off : BitVec 20)
  /-- VLDH (R163). -/
  | vldh (c : CoreId) (vd : RegIx) (va : RegIx) (off : BitVec 20)
  /-- VSTH (R163). -/
  | vsth (c : CoreId) (va : RegIx) (vb : RegIx) (off : BitVec 20)
  /-- MLD (R163). -/
  | mld (c : CoreId) (tm : BitVec 2) (va : RegIx) (off : BitVec 20)
  /-- MST (R163). -/
  | mst (c : CoreId) (tm : BitVec 2) (va : RegIx) (off : BitVec 20)
  /-- MTR (R165). -/
  | mtr (c : CoreId) (tm : BitVec 2)
  /-- MGETR (R165). -/
  | mgetr (c : CoreId) (vd : RegIx) (tm : BitVec 2) (ix : BitVec 4)
  /-- MPUTR (R165). -/
  | mputr (c : CoreId) (va : RegIx) (tm : BitVec 2) (ix : BitVec 4)
  /-- MGETC (R165). -/
  | mgetc (c : CoreId) (vd : RegIx) (tm : BitVec 2) (ix : BitVec 4)
  /-- MPUTC (R165). -/
  | mputc (c : CoreId) (va : RegIx) (tm : BitVec 2) (ix : BitVec 4)
  /-- RBEG (R166). -/
  | rbeg (c : CoreId) (va : RegIx) (cx : BitVec 2) (mode : BitVec 2) (km1 : BitVec 6)
  /-- RFEED (R166). -/
  | rfeed (c : CoreId) (va : RegIx) (cx : BitVec 2) (nm1 : BitVec 5)
  /-- RFEEDX (R166). -/
  | rfeedx (c : CoreId) (va : RegIx) (vb : RegIx) (cx : BitVec 2) (nm1 : BitVec 5)
  /-- RGET (R169). -/
  | rget (c : CoreId) (vd : RegIx) (cx : BitVec 2) (part : BitVec 3)
  /-- VRND (R171). -/
  | vrnd (c : CoreId) (vd : RegIx) (va : RegIx) (vb : RegIx) (vc : RegIx)
  /-- NOP (R252). -/
  | nop (c : CoreId)
  /-- ADD (R252). -/
  | add (c : CoreId) (rd : RegIx) (ra : RegIx) (rb : RegIx)
  /-- SUB (R252). -/
  | sub (c : CoreId) (rd : RegIx) (ra : RegIx) (rb : RegIx)
  /-- AND (R252). -/
  | and (c : CoreId) (rd : RegIx) (ra : RegIx) (rb : RegIx)
  /-- OR (R252). -/
  | or (c : CoreId) (rd : RegIx) (ra : RegIx) (rb : RegIx)
  /-- XOR (R252). -/
  | xor (c : CoreId) (rd : RegIx) (ra : RegIx) (rb : RegIx)
  /-- SHL (R252). -/
  | shl (c : CoreId) (rd : RegIx) (ra : RegIx) (rb : RegIx)
  /-- SHR (R252). -/
  | shr (c : CoreId) (rd : RegIx) (ra : RegIx) (rb : RegIx)
  /-- SRA (R252). -/
  | sra (c : CoreId) (rd : RegIx) (ra : RegIx) (rb : RegIx)
  /-- SLT (R252). -/
  | slt (c : CoreId) (rd : RegIx) (ra : RegIx) (rb : RegIx)
  /-- SLTU (R252). -/
  | sltu (c : CoreId) (rd : RegIx) (ra : RegIx) (rb : RegIx)
  /-- SEQ (R252). -/
  | seq (c : CoreId) (rd : RegIx) (ra : RegIx) (rb : RegIx)
  /-- MIN (R252). -/
  | min (c : CoreId) (rd : RegIx) (ra : RegIx) (rb : RegIx)
  /-- MAX (R252). -/
  | max (c : CoreId) (rd : RegIx) (ra : RegIx) (rb : RegIx)
  /-- ADDI (R252). -/
  | addi (c : CoreId) (rd : RegIx) (ra : RegIx) (imm : W32)
  /-- ANDI (R252). -/
  | andi (c : CoreId) (rd : RegIx) (ra : RegIx) (imm : W32)
  /-- ORI (R252). -/
  | ori (c : CoreId) (rd : RegIx) (ra : RegIx) (imm : W32)
  /-- SHLI (R252). -/
  | shli (c : CoreId) (rd : RegIx) (ra : RegIx) (imm : BitVec 6)
  /-- SHRI (R252). -/
  | shri (c : CoreId) (rd : RegIx) (ra : RegIx) (imm : BitVec 6)
  /-- SRAI (R252). -/
  | srai (c : CoreId) (rd : RegIx) (ra : RegIx) (imm : BitVec 6)
  /-- LIH (R252). -/
  | lih (c : CoreId) (rd : RegIx) (imm : W32)
  /-- SLD (R252). -/
  | sld (c : CoreId) (rd : RegIx) (ra : RegIx) (imm : BitVec 20)
  /-- SST (R252). -/
  | sst (c : CoreId) (ra : RegIx) (rb : RegIx) (imm : BitVec 20)
  /-- RDCR (R243). -/
  | rdcr (c : CoreId) (rd : RegIx) (imm : BitVec 16)
  /-- SBDRAIN (R248). -/
  | sbdrain (c : CoreId)
  /-- JMP (R253). -/
  | jmp (c : CoreId) (imm : BitVec 24)
  /-- BZ (R253). -/
  | bz (c : CoreId) (ra : RegIx) (imm : BitVec 24)
  /-- BNZ (R253). -/
  | bnz (c : CoreId) (ra : RegIx) (imm : BitVec 24)
  /-- JAL (R253). -/
  | jal (c : CoreId) (rd : RegIx) (imm : BitVec 24)
  /-- JR (R253). -/
  | jr (c : CoreId) (ra : RegIx)
  /-- LOOP (R254). -/
  | loop (c : CoreId) (ra : RegIx) (body : BitVec 12)
  /-- LOOPI (R254). -/
  | loopi (c : CoreId) (count : BitVec 20) (body : BitVec 12)
  /-- END (R246). -/
  | endTask (c : CoreId)
  /-- TASK_END (R246). -/
  | taskEnd (c : CoreId)
  /-- MNOP (R247). -/
  | mnop (c : CoreId)
  /-- AWAIT (R258). -/
  | await (c : CoreId) (sAddr : RegIx) (sLen : RegIx) (sCnt : RegIx)
  /-- DSTART (R275). -/
  | dstart (c : CoreId) (sDesc : RegIx)
  /-- QPUT (R284). -/
  | qput (c : CoreId) (sDst : RegIx) (sFirst : RegIx) (nm1 : BitVec 2)
  /-- QRD (R281). -/
  | qrd (c : CoreId) (rd : RegIx) (q : BitVec 7)
  /-- QMV (R284). -/
  | qmv (c : CoreId) (q : BitVec 7) (sAddr : RegIx) (nm1 : BitVec 9)
  /-- QCNT (R280). -/
  | qcnt (c : CoreId) (rd : RegIx) (q : BitVec 7)
  /-- QRST (R282). -/
  | qrst (c : CoreId) (q : BitVec 7)
  /-- DFENCE (R284). -/
  | dfence (c : CoreId)
  /-- RTAKE (R227). -/
  | rtake (c : CoreId) (sb : RegIx) (nsm1 : BitVec 4) (bank : Bool)
  /-- SCOREBOARD_RANGE_FREE (R255). -/
  | scoreboardRangeFree (c : CoreId) (n : BitVec 5)
  /-- WATCHDOG (R259). -/
  | watchdog (c : CoreId)
  /-- SEQ_CTRL_START (R244). -/
  | seqCtrlStart (c : CoreId)
  /-- END_OF_TASK_SCRUB (R262). -/
  | endOfTaskScrub (c : CoreId)
  /-- END_OF_TASK_SCRUB_DONE (R262). -/
  | endOfTaskScrubDone (c : CoreId)
  /-- SPD_BANKPWR_WRITE (R261). -/
  | spdBankpwrWrite (c : CoreId) (on : W16)
  /-- BANK_FILL_DONE (R261). -/
  | bankFillDone (c : CoreId)
  /-- SEQ_WDOG_WRITE (R259). -/
  | seqWdogWrite (c : CoreId) (v : W64)
  /-- SCRUB_ACCESS (R264). -/
  | scrubAccess (c : CoreId) (struck : List ScrubFind)
  /-- INBOUND_WRITE (R257). -/
  | inboundWrite (c : CoreId) (src : Node)
  /-- HELD_INBOUND_WRITE_LAND (R257). -/
  | heldInboundWriteLand (c : CoreId) (src : Node)
  /-- INBOUND_READ (R278). -/
  | inboundRead (c : CoreId) (src : Node)
  /-- MESH_LINK_WORD (R272). -/
  | meshLinkWord (at_ : CoreId) (load : LinkLoad) (word : Nat) (ecc : Ecc)
  /-- DMA_COMPLETE (R276). -/
  | dmaComplete (c : CoreId) (id : Nat)
  /-- ACKNOWLEDGEMENT (R277). -/
  | acknowledgement (at_ : Node) (src : Node)
  /-- PACKET_ARRIVE (R279). -/
  | packetArrive (c : CoreId) (src : Node)
  /-- PACKET_COMMIT (R279). -/
  | packetCommit (c : CoreId) (q : QueueId)
  /-- QUEUE_POINTER_MISMATCH (R283). -/
  | queuePointerMismatch (c : CoreId) (q : QueueId)
  /-- HQ_QSTAT_RST (R282). -/
  | hqQstatRst (c : CoreId) (q : QueueId)
  /-- ROUTE_PACKET (R225). -/
  | routePacket (c : CoreId) (src : Node)
  /-- CONTRIBUTION_RECORD (R231). -/
  | contributionRecord (c : CoreId) (src : Node) (layer : Option W16)
  /-- DIGEST_PACKET (R233). -/
  | digestPacket (c : CoreId) (src : Node) (layer : W16)
  /-- CHANNEL_READ (R300). -/
  | channelRead (k : Ctrl) (src : Node) (sevs : List (Nat × Severity))
  /-- CHANNEL_WRITE (R297). -/
  | channelWrite (k : Ctrl) (src : Node)
  /-- TILE_VERDICT (R303). -/
  | tileVerdict (c : CoreId) (id : Nat) (tries : TileTries)
  /-- BERTH_TILE_CHECK (R309). -/
  | berthTileCheck (c : CoreId) (id : Nat) (tries : TileTries)
  /-- TILE_REVERIFY (R305). -/
  | tileReverify (header : Nat)
  /-- TGC_GO (R323). -/
  | tgcGo (ch : ChannelId)
  /-- TGC_STOP (R324). -/
  | tgcStop (ch : ChannelId)
  /-- TGC_RUN_END (R324). -/
  | tgcRunEnd (ch : ChannelId) (memcc : Nat)
  /-- MEM_CHSVC_WRITE (R322). -/
  | memChsvcWrite (i : BitVec 2) (v : W64)
  /-- BPOOL_COUNT_WRITE (R217). -/
  | bpoolCountWrite (anch : Bool) (v : W32)
  /-- THERMAL_SAMPLE (R476). -/
  | thermalSample (r : Sensors)
  /-- THERMAL_HOLD_EXCHANGE (R478). -/
  | thermalHoldExchange (peerHold : Bool)
  /-- ANCHORAGE_TEMPERATURE (R321). -/
  | anchorageTemperature (k : AnchId)
  /-- STEP_WORK_DONE (R340). -/
  | stepWorkDone (nowUs : Nat)
  /-- STEP_BOUNDARY (R338). -/
  | stepBoundary (ended : StepEnd)
  /-- TIDE_PULSE (R340). -/
  | tidePulse (nowUs : Nat) (highNs : Nat)
  /-- TIDE_LOST (R341). -/
  | tideLost (nowUs : Nat)
  /-- BOUNDARY_EXCHANGE (R337). -/
  | boundaryExchange (b : BoundaryIn)
  /-- COMPLETION_RECORD_WRITE (R334). -/
  | completionRecordWrite (handle : W32) (position : W32) (samples : List (List Cand)) (drafts : List (List Cand)) (step : W32)
  /-- MOORING_COMPLETE (R208). -/
  | mooringComplete (handle : W32)
  /-- MOORING_EXPIRY (R209). -/
  | mooringExpiry (handle : W32)
  /-- RESUME_MOVED (R210). -/
  | resumeMoved (handle : W32)
  /-- SHIPMENT_RECEIVE (R213). -/
  | shipmentReceive (rec : BitVec 1024) (f : FnId) (committed : W32) (st : ShipState) (images : List ShipImage) (complete : Bool)
  /-- SHIPMENT_TIMEOUT (R214). -/
  | shipmentTimeout (ship : Nat)
  /-- PLACER_COPY (R365). -/
  | placerCopy (layer : Nat) (expert : Nat) (bytes : Nat) (tileFailed : Bool)
  /-- CONTAINED_FAULT_RESPONSE (R450). -/
  | containedFaultResponse (c : CoreId)
  /-- FATAL_FAULT (R451). -/
  | fatalFault (cause : W16) (snapshot : List W64)
  /-- HM_WATCHDOG (R452). -/
  | hmWatchdog (h : BitVec 2)
  /-- HM_SRAM_ERROR (R452). -/
  | hmSramError
  /-- JOURNAL_COMMIT (R460). -/
  | journalCommit (firstOk : Bool) (retryOk : Bool)
  /-- MBX_DOORBELL (R411). -/
  | mbxDoorbell (f : FnId) (v : W64)
  /-- MBX_NOP (R417). -/
  | mbxNop (i : Issuer)
  /-- IDENTIFY (R432). -/
  | identify (i : Issuer)
  /-- MODULE_STATUS (R417). -/
  | moduleStatus (i : Issuer)
  /-- TICKET_QUERY (R415). -/
  | ticketQuery (i : Issuer) (t : W32)
  /-- TICKET_CANCEL (R416). -/
  | ticketCancel (i : Issuer) (t : W32)
  /-- TICKET_EXPIRY (R415). -/
  | ticketExpiry (t : W32)
  /-- MODEL_LOAD (R356). -/
  | modelLoad (i : Issuer) (src : LoadSource) (expected : BitVec 384) (stage : Bool) (sig : SigBlock) (m : Manifest) (bad : List (Nat × Nat))
  /-- MODEL_UNLOAD (R361). -/
  | modelUnload (i : Issuer) (digest : W64)
  /-- BINDING_QUERY (R360). -/
  | bindingQuery (i : Issuer) (first : Nat) (count : Nat)
  /-- TILE_WRITE (R305). -/
  | tileWrite (i : Issuer) (header : Nat) (content : List W64) (fetch : FetchEnd)
  /-- EXPERT_STATS (R234). -/
  | expertStats (i : Issuer) (layer : Nat) (first : Nat) (count : Nat)
  /-- SLICE_FORM (R383). -/
  | sliceForm (i : Issuer) (n : Byte) (d : Byte) (s_ : Byte) (origin : Byte)
  /-- PORT_UNFENCE (R394). -/
  | portUnfence (i : Issuer) (p : PortId)
  /-- PORT_STATUS (R417). -/
  | portStatus (i : Issuer)
  /-- REQ_SUBMIT (R328). -/
  | reqSubmit (f : FnId) (r : RingId) (entry : BitVec 256) (rec : Option (BitVec 1024)) (prompt : FetchEnd)
  /-- REQ_CANCEL (R347). -/
  | reqCancel (i : Issuer) (name : W64)
  /-- REQ_PAUSE (R208). -/
  | reqPause (i : Issuer) (handle : W32) (ttl : W32)
  /-- REQ_RESUME (R210). -/
  | reqResume (i : Issuer) (handle : W32)
  /-- REQ_SHIP (R346). -/
  | reqShip (i : Issuer) (handle : W32) (order : ShipOrder)
  /-- REQ_STATUS (R348). -/
  | reqStatus (i : Issuer) (handle : W32)
  /-- ADAPTER_INSTALL (R342). -/
  | adapterInstall (i : Issuer) (id : W16) (fs : List AdapterFactor) (fetch : FetchEnd) (fits : Bool)
  /-- ADAPTER_REMOVE (R343). -/
  | adapterRemove (i : Issuer) (id : W16)
  /-- DATA_WRITE (R349). -/
  | dataWrite (i : Issuer) (set : Byte) (data : List W64) (fetch : FetchEnd) (fits : Bool)
  /-- TUNE_START (R349). -/
  | tuneStart (i : Issuer) (a : TuneArgs)
  /-- ADAPTER_EXPORT (R417). -/
  | adapterExport (i : Issuer) (id : W16) (version : W32) (fetch : FetchEnd)
  /-- ATTEST (R435). -/
  | attest (i : Issuer) (nonce : BitVec 256) (fetch : FetchEnd)
  /-- FW_UPDATE (R428). -/
  | fwUpdate (i : Issuer) (src : FwSource) (sig : SigBlock)
  /-- FW_ACTIVATE (R428). -/
  | fwActivate (i : Issuer) (slotB : Bool)
  /-- TENANT_ASSIGN_FUNCTION (R438). -/
  | tenantAssignFunction (i : Issuer) (t : TenantId) (f : FnId)
  /-- TENANT_GIVE_SLOT (R438). -/
  | tenantGiveSlot (i : Issuer) (t : TenantId) (k : KeySlot)
  /-- TENANT_CLEAR_SLOT (R443). -/
  | tenantClearSlot (i : Issuer) (k : KeySlot)
  /-- TENANT_RELEASE (R438). -/
  | tenantRelease (i : Issuer) (t : TenantId)
  /-- BBX_READ (R464). -/
  | bbxRead (i : Issuer) (first : W32) (count : Nat) (fetch : FetchEnd)
  /-- TGC_RUN (R417). -/
  | tgcRun (i : Issuer) (ch : ChannelId) (ctrl : W64) (range : W64) (seed : W64) (fixed : W64) (loops : W64)
  /-- PCI_RDB_DOORBELL (R405). -/
  | pciRdbDoorbell (f : FnId) (r : RingId) (v : W32)
  /-- RING_ENABLE (R401). -/
  | ringEnable (f : FnId) (r : RingId) (v : W64)
  /-- RING_DISABLE (R408). -/
  | ringDisable (f : FnId) (r : RingId) (v : W64)
  /-- RING_INTERRUPT_TIMER (R409). -/
  | ringInterruptTimer (f : FnId) (r : RingId)
  /-- BUS_MASTER_ENABLE (R407). -/
  | busMasterEnable (f : FnId) (on : Bool)
  /-- FUNCTION_LEVEL_RESET (R421). -/
  | functionLevelReset (f : FnId)
  /-- PERST_ASSERT (R482). -/
  | perstAssert
  /-- IDE_INTEGRITY_FAIL (R436). -/
  | ideIntegrityFail (fns : List FnId)
  /-- REGISTER_WRITE (R11). -/
  | registerWrite (addr : W64) (v : W64) (src : Node)
  /-- XLK_MISMATCH_CLEAR (R397). -/
  | xlkMismatchClear
  /-- XLK_UNFENCE (R394). -/
  | xlkUnfence (p : PortId)
  /-- PORT_ENABLE (R374). -/
  | portEnable (p : BitVec 3)
  /-- PORT_TRAINED (R374). -/
  | portTrained (p : BitVec 3) (low : Bool) (high : Bool)
  /-- PORT_RETRY (R374). -/
  | portRetry (p : BitVec 3)
  /-- FRAME_RECEIVE (R378). -/
  | frameReceive (p : PortId) (fr : Frame) (withinCredits : Bool)
  /-- IDLE (R376). -/
  | idleFrame (p : PortId) (fr : Frame)
  /-- WRITE (R384). -/
  | writeFrame (p : PortId) (fr : Frame)
  /-- READ_REQUEST (R384). -/
  | readRequest (p : PortId) (fr : Frame)
  /-- READ_RESPONSE (R384). -/
  | readResponse (p : PortId) (fr : Frame)
  /-- WRITE_ACK (R384). -/
  | writeAck (p : PortId) (fr : Frame)
  /-- REFUSAL (R384). -/
  | refusalFrame (p : PortId) (fr : Frame)
  /-- CONTRIBUTION (R386). -/
  | contributionFrame (p : PortId) (fr : Frame)
  /-- CONTRIBUTION_RECHECK (R386). -/
  | contributionRecheck (p : PortId)
  /-- MESSAGE (R376). -/
  | messageFrame (p : PortId) (fr : Frame)
  /-- MUSTER_RECORD (R383). -/
  | musterRecord (m : Muster)
  /-- MUSTER_TIMEOUT (R383). -/
  | musterTimeout
  /-- HALT_MESSAGE (R387). -/
  | haltMessage (step : W32)
  /-- STEP_ABORT_MESSAGE (R450). -/
  | stepAbortMessage (step : W32)
  /-- LINK_NAK (R378). -/
  | linkNak (p : PortId) (fr : Frame)
  /-- IDENTITY (R375). -/
  | identityFrame (p : PortId) (serial : BitVec 48) (port : BitVec 3) (set : Bool) (x : BitVec 4) (y : BitVec 4) (z : Byte)
  /-- UPLINK_DATA (R392). -/
  | uplinkData (u : UplinkId) (d : Datagram)
  /-- UPLINK_ACK (R392). -/
  | uplinkAck (u : UplinkId) (d : Datagram)
  /-- UPLINK_OPEN (R392). -/
  | uplinkOpen (u : UplinkId) (d : Datagram)
  /-- UPLINK_CLOSE (R392). -/
  | uplinkClose (u : UplinkId) (d : Datagram)
  /-- UPLINK_RESET (R392). -/
  | uplinkReset (u : UplinkId) (d : Datagram)
  /-- UPLINK_ACK_TIMER (R392). -/
  | uplinkAckTimer (flow : W32)
  /-- UPLINK_RETRANSMIT (R392). -/
  | uplinkRetransmit (flow : W32)
  /-- PTP_MESSAGE (R393). -/
  | ptpMessage (u : UplinkId) (masterNs : W64) (errNs : W32)
  /-- RACK_MAILBOX_REQUEST (R445). -/
  | rackMailboxRequest (seq : W16) (opcode : W16) (args : List Byte)
  /-- RACK_POLL (R445). -/
  | rackPoll (seq : W16)
  /-- RACK_SET_COORD (R445). -/
  | rackSetCoord (seq : W16) (v : W64)
  /-- RACK_STATUS (R445). -/
  | rackStatus (seq : W16)
  /-- GET_VERSION (R433). -/
  | getVersion (f : FnId)
  /-- GET_CAPABILITIES (R433). -/
  | getCapabilities (f : FnId)
  /-- NEGOTIATE_ALGORITHMS (R433). -/
  | negotiateAlgorithms (f : FnId) (ok : Bool)
  /-- GET_DIGESTS (R433). -/
  | getDigests (f : FnId)
  /-- GET_CERTIFICATE (R433). -/
  | getCertificate (f : FnId) (slot : Byte) (off : Nat) (len : Nat)
  /-- CHALLENGE (R433). -/
  | challenge (f : FnId) (slot : Byte) (nonce : BitVec 256)
  /-- GET_MEASUREMENTS (R434). -/
  | getMeasurements (f : FnId) (index : Byte) (nonce : BitVec 256)
  /-- KEY_EXCHANGE (R433). -/
  | keyExchange (f : FnId)
  /-- FINISH (R433). -/
  | finish (f : FnId) (sess : Nat) (verified : Bool)
  /-- HEARTBEAT (R433). -/
  | heartbeat (f : FnId) (sess : Nat)
  /-- KEY_UPDATE (R433). -/
  | keyUpdate (f : FnId) (sess : Nat)
  /-- END_SESSION (R433). -/
  | endSession (f : FnId) (sess : Nat)
  /-- VENDOR_DEFINED_REQUEST (R439). -/
  | vendorDefinedRequest (f : FnId) (sess : Nat) (vendorOk : Bool) (slot : Byte) (key : BitVec 512)
  /-- INPUT_UNDERVOLTAGE (R468). -/
  | inputUndervoltage
  /-- INPUT_OVERVOLTAGE (R468). -/
  | inputOvervoltage
  /-- INPUT_LOW (R468). -/
  | inputLow
  /-- INPUT_HIGH (R468). -/
  | inputHigh
  /-- RAIL_OUT_OF_REGULATION (R472). -/
  | railOutOfRegulation (rail : Fin 11)
  /-- PLL_LOSS_OF_LOCK (R474). -/
  | pllLossOfLock
  /-- COLD_START (R480). -/
  | coldStart
  /-- RAIL_SEQUENCING (R471). -/
  | railSequencing (failed : Option (Fin 11))
  /-- PLL_LOCK (R474). -/
  | pllLock (ok : Bool) (pcieUp : Bool)
  /-- BOOT_ROM (R480). -/
  | bootRom (sramOk : Bool) (straps : BitVec 7)
  /-- FIRMWARE_VERIFICATION (R426). -/
  | firmwareVerification (a : Option SigBlock) (b : Option SigBlock)
  /-- MEMORY_TRAINING (R480). -/
  | memoryTraining (failed : Option Ctrl)
  /-- MEMORY_SELF_TEST (R480). -/
  | memorySelfTest (failed : Option ChannelId)
  /-- PORT_TRAINING_STAGE (R480). -/
  | portTrainingStage
  /-- IDENTITY_CHECK (R431). -/
  | identityCheck (crossOk : Bool)
  /-- MODULE_READY (R483). -/
  | moduleReady (ms : W32)
  /-- START_RETRY (R481). -/
  | startRetry
  /-- WARM_START (R484). -/
  | warmStart
  /-- DBG_TRST (R488). -/
  | dbgTrst
  /-- DEBUG_UPDATE_DR (R489). -/
  | debugUpdateDr (v : BitVec 128)
  /-- DEBUG_CAPTURE_DR (R489). -/
  | debugCaptureDr
  /-- DBG_NOP (R490). -/
  | dbgNop (tag : Byte)
  /-- STATUS (R490). -/
  | status (tag : Byte)
  /-- IDENT (R490). -/
  | ident (tag : Byte) (i : BitVec 6)
  /-- BBX (R465). -/
  | bbx (tag : Byte) (off : BitVec 26)
  /-- CHAL (R492). -/
  | chal (tag : Byte) (scope : BitVec 3)
  /-- CHALLENGE_EXPIRY (R447). -/
  | challengeExpiry
  /-- CHALRD (R490). -/
  | chalrd (tag : Byte) (i : BitVec 3)
  /-- TOKWR (R492). -/
  | tokwr (tag : Byte) (i : BitVec 12) (d : W64)
  /-- UNLOCK (R492). -/
  | unlock (tag : Byte) (sig : SigBlock)
  /-- LOCK (R493). -/
  | lock (tag : Byte)
  /-- WARM (R484). -/
  | warm (tag : Byte)
  /-- HMHALT (R495). -/
  | hmhalt (tag : Byte) (h : BitVec 2)
  /-- HMRUN (R495). -/
  | hmrun (tag : Byte) (h : BitVec 2)
  /-- HMSTEP (R495). -/
  | hmstep (tag : Byte) (h : BitVec 2)
  /-- HMBRK (R495). -/
  | hmbrk (tag : Byte) (h : BitVec 2) (slot : BitVec 2) (en : Bool) (d : W64)
  /-- HMREGR (R490). -/
  | hmregr (tag : Byte) (h : BitVec 2) (r : BitVec 6)
  /-- HMREGW (R490). -/
  | hmregw (tag : Byte) (h : BitVec 2) (r : BitVec 6) (d : W64)
  /-- CCHALT (R494). -/
  | cchalt (tag : Byte) (c : BitVec 12) (all : Bool)
  /-- CCRUN (R494). -/
  | ccrun (tag : Byte) (c : BitVec 12) (all : Bool)
  /-- CCSTEP (R494). -/
  | ccstep (tag : Byte) (c : BitVec 12) (all : Bool)
  /-- CCBRK (R494). -/
  | ccbrk (tag : Byte) (c : BitVec 12) (slot : BitVec 2) (en : Bool) (d : W64)
  /-- CCREGR (R497). -/
  | ccregr (tag : Byte) (c : BitVec 12) (cls : BitVec 2) (r : BitVec 5) (w : BitVec 7)
  /-- CCREGW (R497). -/
  | ccregw (tag : Byte) (c : BitVec 12) (cls : BitVec 2) (r : BitVec 5) (w : BitVec 7) (d : W64)
  /-- MEMRD (R497). -/
  | memrd (tag : Byte) (addr : BitVec 48)
  /-- MEMWR (R497). -/
  | memwr (tag : Byte) (addr : BitVec 48) (d : W64)
  /-- PNMRD (R61). -/
  | pnmrd (tag : Byte) (c : BitVec 12) (off : BitVec 18)
  /-- STFLAG (R499). -/
  | stflag (tag : Byte) (d : W64)
  /-- CCBIST (R500). -/
  | ccbist (tag : Byte) (c : BitVec 12) (fail : Option Byte)
  /-- BBX_READ_SERIAL (R466). -/
  | bbxReadSerial (n : Nat)
  /-- BBX_READ_STATUS (R466). -/
  | bbxReadStatus (n : Nat)
  /-- BBX_READ_DATA (R466). -/
  | bbxReadData (addr : W32) (n : Nat)
  /-- PERST_DEASSERT (R482). -/
  | perstDeassert
  /-- HOST_READ_COMPLETION (R413). -/
  | hostReadCompletion (f : FnId) (tag : Nat) (ok : Bool) (poisoned : Bool) (data : List W64)
  /-- HOST_READ_TIMEOUT (R413). -/
  | hostReadTimeout (f : FnId) (tag : Nat)
  /-- IDE_KM (R436). -/
  | ideKm (stream : Nat) (fns : List FnId) (sess : Nat)
  /-- TIME_SOURCE_LOST (R393). -/
  | timeSourceLost
  /-- UPLINK_DOWN (R392). -/
  | uplinkDown (u : UplinkId)
  /-- UPLINK_UP (R392). -/
  | uplinkUp (u : UplinkId)
  /-- PORT_DOWN (R389). -/
  | portDown (p : PortId)
  /-- UPLINK_FLOW_TIMEOUT (R392). -/
  | uplinkFlowTimeout (flow : W32)
  /-- MSIX_VECTOR_UNMASK (R409). -/
  | msixVectorUnmask (f : FnId) (v : BitVec 5)
  /-- HOST_PROTOCOL_ERROR (R422). -/
  | hostProtocolError (f : FnId) (kind : HostViolation)
  /-- RACK_FRAME_UNDEFINED (R446). -/
  | rackFrameUndefined (dest : Byte) (crcOk : Bool) (len : Nat) (seq : W16)
  /-- UPLINK_FRAME_DROPPED (R394). -/
  | uplinkFrameDropped (u : UplinkId) (pause : Bool)
  /-- INPUT_BAND_RETURN (R468). -/
  | inputBandReturn
  /-- TIDE_SHIFT_LIMIT (R340). -/
  | tideShiftLimit (nowUs : Nat)
  /-- RING_POINTER_MISMATCH (R286). -/
  | ringPointerMismatch (f : FnId) (r : RingId)
  /-- MAILBOX_WINDOW_WRITE (R412). -/
  | mailboxWindowWrite (f : FnId) (off : BitVec 12) (v : W64)
  /-- BBX_UNDEFINED_COMMAND (R466). -/
  | bbxUndefinedCommand (cmd : Byte) (n : Nat)
  deriving DecidableEq, Repr

end Sys2Proof
end

