-- ==== Sys2Proof/Decode.lean ====
section
/-! DEFINITION. Decoding: the four slot words of a bundle (R87, R121, R129, R159, R247, R252, R258, R284, R227), and the
host's question about table words. The opcode table gives no row any bits. -/

namespace Sys2Proof

open Machine

/-- The opcode table gives the bits of no row, so no word spells a command. DESIGN CHOICE (log 3). -/
def decodeTableWord (_nbits _w : Nat) : Option Instr := none

namespace Decode

/-- Field of `len` bits from bit `lo` on, as a bit vector. -/
def bits (w : W64) (lo len : Nat) : BitVec len := w.extractLsb' lo len

/-- Whether the `len` bits from `lo` on are zero: a reserved field. -/
def zero (w : W64) (lo len : Nat) : Bool := fld w.toNat lo len == 0

/-! ## Control slot (R252) -/

def aluOp (n : Nat) : AluOp :=
  match n with
  | 0x01 => .add
  | 0x02 => .sub
  | 0x03 => .and
  | 0x04 => .or
  | 0x05 => .xor
  | 0x06 => .shl
  | 0x07 => .shr
  | 0x08 => .sra
  | 0x09 => .slt
  | 0x0A => .sltu
  | 0x0B => .seq
  | 0x0C => .min
  | _ => .max

def aluImmOp (n : Nat) : AluImmOp :=
  match n with
  | 0x10 => .addi
  | 0x11 => .andi
  | 0x12 => .ori
  | 0x13 => .shli
  | 0x14 => .shri
  | _ => .srai

/-- Fields rd [57:53], ra [52:48], rb [47:43]; bits [42:32] are reserved. -/
def ctl (w : W64) : CtlInstr :=
  let op := fld w.toNat 58 6
  let rd := bits w 53 5
  let ra := bits w 48 5
  let rb := bits w 43 5
  let imm := bits w 0 32
  let zd := rd == 0
  let za := ra == 0
  let zb := rb == 0
  let z := fun (from_ : Nat) => zero w from_ (32 - from_)
  let ok := fun (b : Bool) (i : CtlInstr) => if b && zero w 32 11 then i else .undefined
  if 0x01 ≤ op ∧ op ≤ 0x0D then ok (z 0) (.alu (aluOp op) rd ra rb)
  else if 0x10 ≤ op ∧ op ≤ 0x15 then ok zb (.aluImm (aluImmOp op) rd ra imm)
  else
    match op with
    | 0x00 => ok (zd && za && zb && z 0) .nop
    | 0x16 => ok (za && zb) (.lih rd imm)
    | 0x18 => ok (zb && z 20) (.sld rd ra (bits w 0 20))
    | 0x19 => ok (zd && z 20) (.sst ra rb (bits w 0 20))
    | 0x1A => ok (za && zb && z 16) (.rdcr rd (bits w 0 16))
    | 0x1B => ok (zd && za && zb && z 0) .sbdrain
    | 0x20 => ok (zd && za && zb && z 24) (.jmp (bits w 0 24))
    | 0x21 => ok (zd && zb && z 24) (.bz ra (bits w 0 24))
    | 0x22 => ok (zd && zb && z 24) (.bnz ra (bits w 0 24))
    | 0x23 => ok (za && zb && z 24) (.jal rd (bits w 0 24))
    | 0x24 => ok (zd && zb && z 0) (.jr ra)
    | 0x28 => ok (zd && zb && z 12) (.loop ra (bits w 0 12))
    | 0x29 => ok (zd && za && zb) (.loopi (bits w 12 20) (bits w 0 12))
    | 0x30 => ok (zd && za && zb && z 0) .endTask
    | _ => .undefined

/-! ## Punnet slot (R87) -/

/-- DESIGN CHOICE (log 173). -/
def pun (w : W64) : PunInstr :=
  match fld w.toNat 60 4 with
  | 0x0 => if zero w 0 60 then .pnop else .undefined
  | 0x1 =>
    if zero w 0 40 then .pbld ⟨bits w 56 4, bits w 51 5, bits w 46 5, bits w 44 2, bits w 40 4⟩ else .undefined
  | 0x2 =>
    if zero w 0 2 then
      .plook
        { eng := Fin.ofNat 4 (fld w.toNat 58 2), sCode := bits w 53 5, sStr := bits w 48 5, sPos := bits w 43 5,
          sMask := bits w 38 5, msk := tb w.toNat 37, pw := tb w.toNat 36, fresh := tb w.toNat 35, tile := bits w 29 6,
          nrow := bits w 21 8, planes := bits w 18 3, nhalf := bits w 14 4, entry := bits w 6 8, h0 := bits w 2 4 }
    else .undefined
  | 0x3 => if zero w 0 55 then .pfence (bits w 56 4) (tb w.toNat 55) else .undefined
  | 0x4 => if zero w 0 56 then .pinv (bits w 56 4) else .undefined
  | _ => .undefined

/-! ## Vector slot (R159, R160, R121) -/

def fpOp (n : Nat) : Option FpOp :=
  [FpOp.add, .sub, .mul, .fma, .min, .max, .abs, .neg, .ceq, .clt, .cle, .sel][n]?

def intOp (n : Nat) : Option IntOp := [IntOp.add, .sub, .and, .or, .xor, .shl, .shr, .sra, .ceq, .clt][n]?

def specialFn (n : Nat) : Option SpecialFn := [SpecialFn.exp, .log, .rsqrt, .rcp, .sig, .silu, .tanh][n]?

/-- The accumulator class (R121). -/
def acc (w : W64) : VecInstr :=
  match fld w.toNat 56 3 with
  | 0 => if zero w 0 44 then .acfg (bits w 50 6) (bits w 45 5) (tb w.toNat 44) else .undefinedAcc
  | 1 => if zero w 0 34 then .aclr (bits w 50 6) (bits w 42 8) (bits w 34 8) else .undefinedAcc
  | 2 => if zero w 0 28 then .amrg (bits w 50 6) (bits w 44 6) (bits w 36 8) (bits w 28 8) else .undefinedAcc
  | 3 => if zero w 0 29 then .aldp (bits w 50 6) (bits w 42 8) (bits w 34 8) (bits w 29 5) else .undefinedAcc
  | 4 => if zero w 0 29 then .astp (bits w 50 6) (bits w 42 8) (bits w 34 8) (bits w 29 5) else .undefinedAcc
  | _ => .undefinedAcc

/-- Classes 0x5 to 0x9. -/
def vecRest (w : W64) (cls fn : Nat) : VecInstr :=
  let vd := bits w 49 5
  let va := bits w 44 5
  let vb := bits w 39 5
  let zd := vd == 0
  let za := va == 0
  let zb := vb == 0
  let zc := bits w 34 5 == 0
  let ok := fun (b : Bool) (i : VecInstr) => if b then i else .undefined
  let mem := zc && zero w 33 1 && zero w 0 13
  let tile := zb && zc && zero w 0 8
  match cls, fn with
  | 0x5, 0 => ok (zb && zc && zero w 0 34) (.vcvtif vd va)
  | 0x5, 1 => ok (zb && zc && zero w 0 34) (.vcvtfi vd va)
  | 0x5, 2 => ok (zc && zero w 0 34) (.vpackh vd va vb)
  | 0x5, 3 => ok (zb && zc && zero w 0 34) (.vunpk false vd va)
  | 0x5, 4 => ok (zb && zc && zero w 0 34) (.vunpk true vd va)
  | 0x5, 5 => ok (zb && zc && zero w 0 34) (.vbcst vd va)
  | 0x5, 6 => ok (zb && zc && zero w 33 1 && zero w 0 28) (.vext vd va (bits w 28 5))
  | 0x5, 7 => ok (zb && zc && zero w 33 1 && zero w 0 28) (.vins vd va (bits w 28 5))
  | 0x5, 8 => ok (zb && zc && zero w 0 34) (.vmov vd va)
  | 0x6, 0 => ok (mem && zb) (.vld false vd va (bits w 13 20))
  | 0x6, 1 => ok (mem && zd) (.vst false va vb (bits w 13 20))
  | 0x6, 2 => ok (mem && zb) (.vld true vd va (bits w 13 20))
  | 0x6, 3 => ok (mem && zd) (.vst true va vb (bits w 13 20))
  | 0x7, 0 => ok (tile && zd && zero w 28 4) (.mld (bits w 32 2) va (bits w 8 20))
  | 0x7, 1 => ok (tile && zd && zero w 28 4) (.mst (bits w 32 2) va (bits w 8 20))
  | 0x7, 2 => ok (tile && zd && za && zero w 8 24) (.mtr (bits w 32 2))
  | 0x7, 3 => ok (tile && za && zero w 8 20) (.mget false vd (bits w 32 2) (bits w 28 4))
  | 0x7, 4 => ok (tile && zd && zero w 8 20) (.mput false va (bits w 32 2) (bits w 28 4))
  | 0x7, 5 => ok (tile && za && zero w 8 20) (.mget true vd (bits w 32 2) (bits w 28 4))
  | 0x7, 6 => ok (tile && zd && zero w 8 20) (.mput true va (bits w 32 2) (bits w 28 4))
  | 0x8, 0 => ok (zd && zb && zc && zero w 0 24) (.rbeg va (bits w 32 2) (bits w 30 2) (bits w 24 6))
  | 0x8, 1 => ok (zd && zb && zc && zero w 24 8 && zero w 0 19) (.rfeed va (bits w 32 2) (bits w 19 5))
  | 0x8, 2 => ok (zd && zc && zero w 24 8 && zero w 0 19) (.rfeedx va vb (bits w 32 2) (bits w 19 5))
  | 0x8, 3 => ok (za && zb && zc && zero w 19 13 && zero w 0 16) (.rget vd (bits w 32 2) (bits w 16 3))
  | 0x9, 0 => ok (zero w 0 34) (.vrnd vd va vb (bits w 34 5))
  | _, _ => .undefined

def vec (w : W64) : VecInstr :=
  let cls := fld w.toNat 60 4
  let fn := fld w.toNat 54 6
  let r : VRegs := ⟨bits w 49 5, bits w 44 5, bits w 39 5, bits w 34 5, tb w.toNat 33⟩
  match cls with
  | 0x0 => if zero w 0 60 then .vnop else .undefined
  | 0x1 | 0x2 =>
    match (if zero w 0 33 then fpOp fn else none) with
    | some op => .fp op (cls == 2) r
    | none => .undefined
  | 0x3 =>
    match (if zero w 0 33 then intOp fn else none) with
    | some op => .int op r
    | none => .undefined
  | 0x4 =>
    match (if zero w 0 44 then specialFn (fn % 8) else none) with
    | some f => if fn < 16 then .special f (decide (8 ≤ fn)) r.vd r.va else .undefined
    | none => .undefined
  | 0xF => if tb w.toNat 59 then .undefined else acc w
  | _ => vecRest w cls fn

/-! ## Move slot (R247, R258, R284, R227, R129) -/

def oqnt (w : W64) : OqntArgs :=
  { src := bits w 58 2, tile := bits w 52 6, entry := bits w 44 8, nrec := bits w 40 4, ofmt := bits w 37 3,
    rot := bits w 34 3, fuse := bits w 32 2, ffmt := tb w.toNat 31, adp := tb w.toNat 30, sc := tb w.toNat 29,
    tal := tb w.toNat 28, sDesc := bits w 23 5 }

def mov (w : W64) : MovInstr :=
  let fn := fld w.toNat 56 4
  let ok := fun (b : Bool) (i : MovInstr) => if b then i else .undefined
  match fld w.toNat 60 4 with
  | 0x0 => ok (zero w 0 60) .mnop
  | 0x1 => ok (fn == 0 && zero w 0 51) (.dstart (bits w 51 5))
  | 0x2 => ok (zero w 0 48) (.qput (bits w 55 5) (bits w 50 5) (bits w 48 2))
  | 0x3 =>
    match fn with
    | 0 => ok (zero w 0 44) (.qrd (bits w 51 5) (bits w 44 7))
    | 1 => ok (zero w 51 5 && zero w 0 30) (.qmv (bits w 44 7) (bits w 39 5) (bits w 30 9))
    | _ => .undefined
  | 0x4 => ok (zero w 56 4 && zero w 0 44) (.qcnt (bits w 51 5) (bits w 44 7))
  | 0x5 => ok (zero w 51 9 && zero w 0 44) (.qrst (bits w 44 7))
  | 0x6 => ok (zero w 0 60) .dfence
  | 0xB => if fn == 0 && zero w 0 41 then .await (bits w 51 5) (bits w 46 5) (bits w 41 5) else .undefinedAwait (bits w 41 5)
  | 0xD => if fn == 0 && zero w 0 46 then .rtake (bits w 51 5) (bits w 47 4) (tb w.toNat 46) else .undefinedRouter
  | 0xE => if zero w 0 23 then .oqnt (oqnt w) else .undefinedOutput
  | _ => .undefined

/-- The four slots of a bundle (R247). -/
structure Slots where
  ctl : CtlInstr
  pun : PunInstr
  vec : VecInstr
  mov : MovInstr
  deriving DecidableEq, Repr

/-- R247: a bundle of no-ops. -/
def Slots.nops : Slots := ⟨.nop, .pnop, .vnop, .mnop⟩

/-- R247: a bundle of four words, control first. DESIGN CHOICE (log 3). -/
def bundle (n : Nat) : Slots :=
  ⟨ctl (BitVec.ofNat 64 n), pun (BitVec.ofNat 64 (n / 2 ^ 64)), vec (BitVec.ofNat 64 (n / 2 ^ 128)),
   mov (BitVec.ofNat 64 (n / 2 ^ 192))⟩

end Decode

end Sys2Proof
end

