-- ==== Sys2Proof/Machine/Float.lean ====
section
/-! DEFINITION. FP32 and BF16 arithmetic (R56, R57): operands become exact dyadic numbers, the operation is exact, and
one rounding to nearest, ties to even, gives the result. Subnormals are kept; every NaN result is the canonical one. -/

namespace Sys2Proof.Machine

/-- A finite number m × 2^e. -/
structure Dy where
  m : Int
  e : Int
  deriving DecidableEq, Repr

/-- Nearest integer to n / 2^k, ties to even. -/
def rneShift (n k : Nat) : Nat :=
  let q := n / 2 ^ k
  let r := n % 2 ^ k
  if 2 * r < 2 ^ k then q else if 2 * r = 2 ^ k then q + q % 2 else q + 1

/-- Nearest integer to a / b, ties to even. -/
def rneDiv (a b : Nat) : Nat :=
  let q := a / b
  let r := a % b
  if 2 * r < b then q else if 2 * r = b then q + q % 2 else q + 1

/-- Nearest integer to m × 2^e, ties to even. -/
def Dy.rne (x : Dy) : Int :=
  let n := x.m.natAbs
  let r : Nat := if 0 ≤ x.e then n * 2 ^ x.e.toNat else rneShift n (-x.e).toNat
  if x.m < 0 then -(r : Int) else r

/-- Greatest integer not above m × 2^e. -/
def Dy.floor (x : Dy) : Int :=
  if 0 ≤ x.e then x.m * 2 ^ x.e.toNat else x.m.fdiv (2 ^ (-x.e).toNat)

/-- Integer part of m × 2^e, toward zero. -/
def Dy.trunc (x : Dy) : Int :=
  if 0 ≤ x.e then x.m * 2 ^ x.e.toNat else x.m.tdiv (2 ^ (-x.e).toNat)

/-- The mantissa of `x` at the exponent `e`, where `e ≤ x.e`. -/
def Dy.at (x : Dy) (e : Int) : Int := x.m * 2 ^ (x.e - e).toNat

def Dy.add (x y : Dy) : Dy :=
  let e := min x.e y.e
  ⟨x.at e + y.at e, e⟩

def Dy.mul (x y : Dy) : Dy := ⟨x.m * y.m, x.e + y.e⟩

def Dy.neg (x : Dy) : Dy := ⟨-x.m, x.e⟩

/-- Multiplication by 2^k. -/
def Dy.scale (x : Dy) (k : Int) : Dy := ⟨x.m, x.e + k⟩

def Dy.lt (x y : Dy) : Bool :=
  let e := min x.e y.e
  x.at e < y.at e

def Dy.le (x y : Dy) : Bool := !(Dy.lt y x)

/-- A floating-point format: precision (with the hidden bit) and total width. -/
structure FFmt where
  p : Nat
  w : Nat
  deriving DecidableEq, Repr

def fp32 : FFmt := ⟨24, 32⟩
def bf16 : FFmt := ⟨8, 16⟩

/-- Exponent of the least subnormal: both formats have the 8-bit exponent of binary32. -/
def FFmt.emin (f : FFmt) : Int := -125 - (f.p : Int)

/-- Bits of +infinity. -/
def FFmt.inf (f : FFmt) : Nat := 255 * 2 ^ (f.p - 1)

/-- R56: the canonical quiet NaN, 0x7FC0_0000 or 0x7FC0. -/
def FFmt.nan (f : FFmt) : Nat := f.inf + 2 ^ (f.p - 2)

/-- What a bit pattern stands for. -/
inductive FVal where
  | nan
  | inf (neg : Bool)
  | fin (neg : Bool) (d : Dy)
  deriving DecidableEq, Repr

def FFmt.dec (f : FFmt) (x : Nat) : FVal :=
  let neg := tb x (f.w - 1)
  let ex := fld x (f.p - 1) 8
  let fr := fld x 0 (f.p - 1)
  if ex = 255 then (if fr = 0 then .inf neg else .nan)
  else
    let m : Nat := if ex = 0 then fr else 2 ^ (f.p - 1) + fr
    let e : Int := if ex = 0 then f.emin else f.emin + (ex : Int) - 1
    .fin neg ⟨if neg then -(m : Int) else m, e⟩

/-- Bits of a magnitude already rounded to mantissa `m` at exponent `q`, infinity when it overflows. -/
def FFmt.pack (f : FFmt) (neg : Bool) (m : Nat) (q : Int) : Nat :=
  let bits := (q - f.emin).toNat * 2 ^ (f.p - 1) + m
  (if bits < f.inf then bits else f.inf) + bit neg * 2 ^ (f.w - 1)

/-- Rounds n × 2^e to nearest, ties to even; `sticky` says that the exact value lies strictly above n × 2^e by less
than one unit of 2^e, in which case n has more bits than the format keeps. -/
def FFmt.roundNat (f : FFmt) (neg : Bool) (n : Nat) (e : Int) (sticky : Bool) : Nat :=
  if n = 0 then f.pack neg 0 f.emin
  else
    let q := max (e + ((Nat.log2 n + 1 : Nat) : Int) - (f.p : Int)) f.emin
    if q ≤ e then f.pack neg (n * 2 ^ (e - q).toNat) q
    else f.pack neg (rneShift (2 * n + bit sticky) ((q - e).toNat + 1)) q

/-- The one rounding: bits of a dyadic number; `zneg` is the sign of a zero result. -/
def FFmt.enc (f : FFmt) (zneg : Bool) (x : Dy) : Nat :=
  if x.m = 0 then bit zneg * 2 ^ (f.w - 1) else f.roundNat (decide (x.m < 0)) x.m.natAbs x.e false

/-- IEEE 754 multiply-add, a × b + c with one rounding. -/
def FFmt.fma (f : FFmt) (a b c : Nat) : Nat :=
  match f.dec a, f.dec b, f.dec c with
  | .nan, _, _ => f.nan
  | _, .nan, _ => f.nan
  | _, _, .nan => f.nan
  | .fin na x, .fin nb y, .fin nc z =>
    let p := x.mul y
    let s := p.add z
    let np := na != nb
    f.enc (if p.m = 0 ∧ z.m = 0 then np && nc else false) s
  | .fin _ _, .fin _ _, .inf nc => f.pack nc f.inf f.emin
  | .inf na, .fin nb y, .fin _ _ => if y.m = 0 then f.nan else f.pack (na != nb) f.inf f.emin
  | .fin na x, .inf nb, .fin _ _ => if x.m = 0 then f.nan else f.pack (na != nb) f.inf f.emin
  | .inf na, .inf nb, .fin _ _ => f.pack (na != nb) f.inf f.emin
  | .inf na, .fin nb y, .inf nc => if y.m = 0 ∨ (na != nb) ≠ nc then f.nan else f.pack nc f.inf f.emin
  | .fin na x, .inf nb, .inf nc => if x.m = 0 ∨ (na != nb) ≠ nc then f.nan else f.pack nc f.inf f.emin
  | .inf na, .inf nb, .inf nc => if (na != nb) ≠ nc then f.nan else f.pack nc f.inf f.emin

/-- IEEE 754 addition. -/
def FFmt.add (f : FFmt) (a b : Nat) : Nat :=
  match f.dec a, f.dec b with
  | .nan, _ => f.nan
  | _, .nan => f.nan
  | .inf na, .inf nb => if na = nb then f.pack na f.inf f.emin else f.nan
  | .inf na, .fin _ _ => f.pack na f.inf f.emin
  | .fin _ _, .inf nb => f.pack nb f.inf f.emin
  | .fin na x, .fin nb y => f.enc (if x.m = 0 ∧ y.m = 0 then na && nb else false) (x.add y)

/-- The pattern with its sign bit inverted. -/
def FFmt.flip (f : FFmt) (x : Nat) : Nat := x ^^^ 2 ^ (f.w - 1)

def FFmt.sub (f : FFmt) (a b : Nat) : Nat := f.add a (f.flip b)

/-- IEEE 754 multiplication. -/
def FFmt.mul (f : FFmt) (a b : Nat) : Nat :=
  match f.dec a, f.dec b with
  | .nan, _ => f.nan
  | _, .nan => f.nan
  | .inf na, .inf nb => f.pack (na != nb) f.inf f.emin
  | .inf na, .fin nb y => if y.m = 0 then f.nan else f.pack (na != nb) f.inf f.emin
  | .fin na x, .inf nb => if x.m = 0 then f.nan else f.pack (na != nb) f.inf f.emin
  | .fin na x, .fin nb y => f.enc (na != nb) (x.mul y)

/-- IEEE 754 division. -/
def FFmt.div (f : FFmt) (a b : Nat) : Nat :=
  match f.dec a, f.dec b with
  | .nan, _ => f.nan
  | _, .nan => f.nan
  | .inf _, .inf _ => f.nan
  | .inf na, .fin nb _ => f.pack (na != nb) f.inf f.emin
  | .fin na _, .inf nb => f.pack (na != nb) 0 f.emin
  | .fin na x, .fin nb y =>
    if y.m = 0 then (if x.m = 0 then f.nan else f.pack (na != nb) f.inf f.emin)
    else
      let n := x.m.natAbs * 2 ^ 64
      let d := y.m.natAbs
      f.roundNat (na != nb) (n / d) (x.e - y.e - 64) (decide (n % d ≠ 0))

def FFmt.isNan (f : FFmt) (x : Nat) : Bool := f.dec x == .nan

/-- Finite or not, for the checks on blocks and results (R47, R99). -/
def FFmt.isFin (f : FFmt) (x : Nat) : Bool := fld x (f.p - 1) 8 != 255

/-- a < b as numbers; false when either is a NaN. Zeros are equal. -/
def FFmt.lt (f : FFmt) (a b : Nat) : Bool :=
  match f.dec a, f.dec b with
  | .nan, _ => false
  | _, .nan => false
  | .inf na, .inf nb => na && !nb
  | .inf na, .fin _ _ => na
  | .fin _ _, .inf nb => !nb
  | .fin _ x, .fin _ y => x.lt y

/-- a = b as numbers; false when either is a NaN. -/
def FFmt.eqv (f : FFmt) (a b : Nat) : Bool :=
  !f.isNan a && !f.isNan b && !f.lt a b && !f.lt b a

/-- The finite value of a pattern, zero for infinities and NaNs (callers have excluded them). -/
def FFmt.dy (f : FFmt) (x : Nat) : Dy :=
  match f.dec x with
  | .fin _ d => d
  | _ => ⟨0, 0⟩

/-- An integer times a power of two, rounded to FP32 (R57). A zero is +0. -/
def fpOfInt (v : Int) (e : Int) : W32 := BitVec.ofNat 32 (fp32.enc false ⟨v, e⟩)

/-- R57: FP32 to BF16, nearest with ties to even, overflow to infinity; a NaN becomes the canonical one (R56). -/
def toBf16 (x : Nat) : Nat :=
  match fp32.dec x with
  | .nan => bf16.nan
  | .inf n => bf16.pack n bf16.inf bf16.emin
  | .fin n d => bf16.enc n d

/-- BF16 to FP32, exact. -/
def ofBf16 (x : Nat) : Nat := if bf16.isNan x then fp32.nan else x % 2 ^ 16 * 2 ^ 16

def fadd (a b : W32) : W32 := BitVec.ofNat 32 (fp32.add a.toNat b.toNat)
def fsub (a b : W32) : W32 := BitVec.ofNat 32 (fp32.sub a.toNat b.toNat)
def fmul (a b : W32) : W32 := BitVec.ofNat 32 (fp32.mul a.toNat b.toNat)
def fdiv (a b : W32) : W32 := BitVec.ofNat 32 (fp32.div a.toNat b.toNat)
def fneg (a : W32) : W32 := a ^^^ 0x80000000#32
def fabs (a : W32) : W32 := a &&& 0x7FFFFFFF#32
def flt (a b : W32) : Bool := fp32.lt a.toNat b.toNat
def fisNan (a : W32) : Bool := fp32.isNan a.toNat
def fisFin (a : W32) : Bool := fp32.isFin a.toNat

/-- R56: the canonical quiet NaN of FP32. -/
def cNan : W32 := 0x7FC00000#32

end Sys2Proof.Machine
end

