-- ==== Sys2Proof/Machine/Formats.lean ====
section
/-! DEFINITION. Trit codes, activation and gradient records, cache formats (R28 to R58). -/

namespace Sys2Proof.Machine

/-! ## Trits and codes -/

/-- R28: trit i of a code. -/
def codeTrit (c i : Nat) : Int := Int.ofNat (c / 3 ^ i % 3) - 1

/-- R28: the code of five trits, the first in the least place. -/
def codeOf : List Int → Nat
  | [] => 0
  | t :: r => (t + 1).toNat + 3 * codeOf r

/-- R30: codes 243 to 255 are invalid. -/
def codeValid (c : Nat) : Bool := c < 243

/-- R28, R32: the first `k` balanced-ternary digits of an integer. -/
def tritsOf : Nat → Int → List Int
  | 0, _ => []
  | k + 1, q =>
    let t := (q + 1) % 3 - 1
    t :: tritsOf k ((q - t) / 3)

/-- Signed sum of five activation values by the trits of a code (R60). -/
def codeSum (c : Nat) (vals : List Int) : Int :=
  codeTrit c 0 * vals.getD 0 0 + codeTrit c 1 * vals.getD 1 0 + codeTrit c 2 * vals.getD 2 0
    + codeTrit c 3 * vals.getD 3 0 + codeTrit c 4 * vals.getD 4 0

/-! ## Records -/

/-- Format tags of R40. -/
def fmtA4X : Nat := 0
def fmtA8 : Nat := 1
def fmtG8 : Nat := 2

/-- R37, R39: bytes of a record. -/
def recBytes (fmt : Nat) : Nat := if fmt = fmtA4X then 48 else 88

/-- What a consumer reads from a record. A malformed record reads as poisoned (R48). -/
structure RecIn where
  vals : List Int
  exp : Nat
  zero : Bool
  poison : Bool
  malformed : Bool
  deriving DecidableEq, Repr

/-- R38: residual of the used side-list entry that names element i, 0 if none does. -/
def sideResidual (sides : List Nat) (i : Nat) : Int :=
  match sides.find? fun s => fld s 0 7 == i with
  | some s => sgn 9 (fld s 7 9)
  | none => 0

/-- R38: used entries name elements 0 to 79 in strictly ascending order. -/
def sidesOk : List Nat → Bool
  | [] => true
  | [s] => fld s 0 7 < 80
  | s :: t :: r => fld s 0 7 < fld t 0 7 && sidesOk (t :: r)

/-- R48: the rules common to the three formats, on the flags byte, the exponent and whether every value bit and
side-list entry is zero. -/
def flagsBad (fmt flags exp : Nat) (valuesZero : Bool) : Bool :=
  let tagF := fld flags 6 2
  let poison := tb flags 4
  let zero := tb flags 3
  tagF != fmt || tagF == 3
    || (zero && (exp != 0 || !valuesZero))
    || (poison && (exp != 255 || !valuesZero || fld flags 0 2 != 0 || tb flags 5 || zero))
    || (exp == 0 && !zero) || (exp == 255 && !poison)

/-- R37, R38, R48: reads an A4X record from its 384 bits. -/
def readA4X (n : Nat) : RecIn :=
  let flags := fld n 328 8
  let exp := fld n 320 8
  let nib := fun i => fld n (4 * i) 4
  let sides := ([fld n 336 16, fld n 352 16, fld n 368 16]).take (fld flags 0 2)
  let vals := (List.range 80).map fun i => sgn 4 (nib i) + sideResidual sides i
  let bad := flagsBad fmtA4X flags exp (fld n 0 320 == 0 && fld n 336 48 == 0)
    || (List.range 80).any (fun i => nib i == 8) || !sidesOk sides || vals.any fun v => v.natAbs > 127
  ⟨if bad then List.replicate 80 0 else vals, exp, tb flags 3 && !bad, tb flags 4 || bad, bad⟩

/-- R39, R48: reads an A8 or G8 record from its 704 bits. -/
def readA8 (fmt n : Nat) : RecIn :=
  let flags := fld n 648 8
  let exp := fld n 640 8
  let vals := (List.range 80).map fun i => sgn 8 (fld n (8 * i) 8)
  let bad := flagsBad fmt flags exp (fld n 0 640 == 0)
    || (List.range 80).any (fun i => fld n (8 * i) 8 == 0x80) || fld flags 0 2 != 0
  ⟨if bad then List.replicate 80 0 else vals, exp, tb flags 3 && !bad, tb flags 4 || bad, bad⟩

def readRec (fmt n : Nat) : RecIn := if fmt = fmtA4X then readA4X n else readA8 fmt n

/-- A record as a producer has chosen it, before packing. -/
structure RecOut where
  fmt : Nat
  vals : List Int
  exp : Nat
  capLim : Bool
  poison : Bool
  zero : Bool
  deriving DecidableEq, Repr

/-- R47. -/
def RecOut.poisoned (fmt : Nat) : RecOut := ⟨fmt, List.replicate 80 0, 255, false, true, false⟩

/-- R46. -/
def RecOut.allZero (fmt : Nat) : RecOut := ⟨fmt, List.replicate 80 0, 0, false, false, true⟩

/-- R38: elements of an A4X block whose value does not fit in a nibble. -/
def outliers (vals : List Int) : List (Nat × Int) :=
  (vals.zipIdx.filter fun p => p.1.natAbs > 7).map fun p => (p.2, p.1)

/-- R40: the flags byte. -/
def RecOut.flags (r : RecOut) : Nat :=
  r.fmt * 64 + bit r.capLim * 32 + bit r.poison * 16 + bit r.zero * 8
    + (if r.fmt = fmtA4X then (outliers r.vals).length else 0)

/-- Fields of `w` bits laid side by side, the first lowest. -/
def packFields (w : Nat) : List Nat → Nat
  | [] => 0
  | x :: r => x % 2 ^ w + 2 ^ w * packFields w r

/-- R37 to R39: the bits of the record. -/
def RecOut.pack (r : RecOut) : Nat :=
  if r.fmt = fmtA4X then
    let nibs := r.vals.map fun v => pat 4 (if v > 7 then 7 else if v < -7 then -7 else v)
    let sides := (outliers r.vals).map fun p => pat 9 (p.2 - (if p.2 > 0 then 7 else -7)) * 128 + p.1
    packFields 4 nibs + 2 ^ 320 * r.exp + 2 ^ 328 * r.flags + 2 ^ 336 * packFields 16 sides
  else packFields 8 (r.vals.map (pat 8)) + 2 ^ 640 * r.exp + 2 ^ 648 * r.flags

/-- The bytes a producer writes. -/
def RecOut.bytes (r : RecOut) : List Byte := leBytes (recBytes r.fmt) r.pack

/-! ## Choosing the exponent -/

/-- The smallest exponent from `e` on that satisfies `p`, looking at most `fuel` times. -/
def firstExp (p : Int → Bool) : Nat → Int → Int
  | 0, e => e
  | n + 1, e => if p e then e else firstExp p n (e + 1)

/-- rne(x / 2^e), R43. -/
def quantAt (e : Int) (x : Dy) : Int := (x.scale (-e)).rne

/-- R41, R42, R50: the smallest exponent, no lower than −126, at which every rounded magnitude is at most `m`. -/
def fitExp (m : Nat) (xs : List Dy) : Int :=
  firstExp (fun e => xs.all fun x => (quantAt e x).natAbs ≤ m) 300 (-126)

/-- R41: exponent and cap_lim of an A4X block. -/
def a4xExp (xs : List Dy) : Int × Bool :=
  let eMax := fitExp 7 xs
  let lo := max (eMax - 4) (-126)
  let few := fun e => (xs.filter fun x => (quantAt e x).natAbs > 7).length ≤ 3
  let e := firstExp (fun e => e == eMax || few e) 5 lo
  (e, e == eMax && eMax - 1 ≥ -126)

/-- R41 to R43, R46, R47: quantises a block of 80 FP32 values to A4X or A8. -/
def quantise (fmt : Nat) (xs : List W32) : RecOut :=
  if xs.all fisFin then
    let ds := xs.map fun x => fp32.dy x.toNat
    let ec := if fmt = fmtA4X then a4xExp ds else (fitExp 127 ds, false)
    let vals := ds.map (quantAt ec.1)
    if vals.all (· == 0) then RecOut.allZero fmt
    else ⟨fmt, vals, (ec.1 + 127).toNat, ec.2, false, false⟩
  else RecOut.poisoned fmt

/-- R44: the exponent of a G8 block. -/
def g8Exp (xs : List Dy) : Int :=
  firstExp (fun e => xs.all fun x => Dy.le ⟨x.m.natAbs, x.e⟩ ⟨127, e⟩) 300 (-126)

/-- R44 to R47: quantises a block to G8; `draw i` is the random word that serves element i. -/
def quantiseG8 (draw : Nat → W32) (xs : List W32) : RecOut :=
  if xs.all fisFin then
    let ds := xs.map fun x => fp32.dy x.toNat
    let e := g8Exp ds
    let vals := ds.zipIdx.map fun p => ((p.1.scale (-e)).add ⟨(draw p.2).toNat / 256, -24⟩).floor
    if vals.all (· == 0) then RecOut.allZero fmtG8
    else ⟨fmtG8, vals, (e + 127).toNat, false, false, false⟩
  else RecOut.poisoned fmtG8

/-! ## Cache formats -/

/-- R50: a key or value vector in KT3 (`planes` 3) or KT2: scale byte, integers, whether it is poisoned. -/
structure KtVec where
  scale : Nat
  q : List Int
  poison : Bool
  deriving DecidableEq, Repr

def ktQuantise (planes : Nat) (xs : List W32) : KtVec :=
  if xs.all fisFin then
    let ds := xs.map fun x => fp32.dy x.toNat
    let e := fitExp (if planes = 3 then 13 else 4) ds
    let q := ds.map (quantAt e)
    if q.all (· == 0) then ⟨0, q, false⟩ else ⟨(e + 127).toNat, q, false⟩
  else ⟨255, xs.map fun _ => 0, true⟩

/-- Plane `j` of five integers as a code. -/
def planeCode (planes j : Nat) (five : List Int) : Nat :=
  codeOf ((List.range 5).map fun i => (tritsOf planes (five.getD i 0)).getD j 0)

/-- R51: code bytes of a key vector. -/
def keyCodes (planes : Nat) (q : List Int) : List Nat :=
  (List.range planes).flatMap fun j =>
    (List.range (ceilDiv q.length 5)).map fun g => planeCode planes j ((q.drop (5 * g)).take 5)

/-- R52: code bytes of a value group, from the integers of its five positions. -/
def valueCodes (planes dh : Nat) (five : List (List Int)) : List Nat :=
  (List.range planes).flatMap fun j =>
    (List.range dh).map fun d => planeCode planes j (five.map fun q => q.getD d 0)

end Sys2Proof.Machine
end

