-- ==== Sys2Proof/Machine/CoreState.lean ====
section
/-! DEFINITION. The state of one core (R20): sequencer, scoreboard, registers, punnet builder and engines, accumulator,
reduction contexts, output stage, DMA-and-queue unit, router block. Plain data. -/

namespace Sys2Proof.Machine

/-- A 64-bit event counter: ovf in [63], count in [62:0] (R455). -/
abbrev Ctr := BitVec 64

/-- SEQ_CTRL state, 0 to 6 in this order (R268). -/
inductive SeqState where
  | idle | running | stalled | ending | scrubbing | faulted | halted
  deriving DecidableEq, Repr

/-- Unit that raised the core's current fault: the fault bits of the status registers read it. -/
inductive FUnit where
  | seq | eng (e : EngineId) | bld | acc | ost | vec | rt | hq
  deriving DecidableEq, Repr

/-- The fault record (R265). -/
structure FaultRec where
  cause : W16
  cls : BitVec 2
  slot : BitVec 2
  unit : BitVec 2
  more : BitVec 4
  bundle : BitVec 20
  detail : W64
  stall : W64
  time : W64
  deriving DecidableEq, Repr

/-- One open loop (R254): offset of the body's first bundle and of its last, and the passes still to run after this. -/
structure LoopFrame where
  first : Nat
  last : Nat
  left : Nat
  deriving DecidableEq, Repr

/-- Kind of a scoreboard entry (R256). -/
inductive SbKind where
  | read | write | await
  deriving DecidableEq, Repr

/-- What frees a scoreboard entry (R255): the end of an issue cycle, the unit that owns it, or landed bytes (R258). -/
inductive SbFree where
  | atCc (t : Nat)
  | byUnit (id : Nat)
  | byBytes
  deriving DecidableEq, Repr

/-- A scoreboard entry (R256): a range in the scratchpad or the accumulator space. `plook` marks the entry
that a PLOOK writes, and `fresh` that its fresh bit is set (table "Scoreboard cases"). -/
structure SbEntry where
  kind : SbKind
  acc : Bool
  first : Nat
  last : Nat
  left : Nat
  free : SbFree
  plook : Bool
  fresh : Bool
  deriving DecidableEq, Repr

/-- A register result on its way (R158): it is visible to instructions issued in cc `at_` or later. `order` is the
issue order. A tile write covers the elements of its mask only (R165). -/
inductive PendWrite where
  | s (at_ order : Nat) (r : RegIx) (x : W64)
  | v (at_ order : Nat) (r : RegIx) (x : BitVec 1024)
  | m (at_ order : Nat) (t : BitVec 2) (mask : BitVec 256) (x : BitVec 8192)
  deriving DecidableEq, Repr

/-- Mode of a reduction context (R166). -/
inductive RedMode where
  | sum | max | argmax | topk
  deriving DecidableEq, Repr

/-- A pair of R104. -/
structure Pair where
  s : W32
  c : W32
  deriving DecidableEq, Repr

/-- A reduction context (R166 to R169). `tree` holds the complete subtrees of a sum, smallest first, with their sizes;
`best` holds the kept elements of the other modes, best first, as (value, index). -/
structure RedCtx where
  active : Bool
  mode : RedMode
  k : Nat
  base : W32
  count : Nat
  poison : Bool
  long : Bool
  tree : List (Nat × Pair)
  best : List (W32 × W32)
  deriving DecidableEq, Repr

/-- An accumulator entry and its tag (R100). `badPair` and `badTag` mark the words with a double-bit error (R102). -/
structure AccEntry where
  s : W32
  c : W32
  last : W32
  count : BitVec 21
  long : Bool
  ovf : Bool
  poison : Bool
  live : Bool
  badPair : Bool
  badTag : Bool
  deriving DecidableEq, Repr

/-- A check descriptor (R115). -/
structure ChkDesc where
  nc : Nat
  cps : Nat
  cgs : Nat
  coff : Int
  deriving DecidableEq, Repr

/-- A punnet slot (R61): the group's five integer values stand for its 122 entries (R59, R60). `bad` lists the 64-bit
words with a double-bit error (R82). -/
structure PunSlot where
  vals : List Int
  exp : Byte
  fmt : BitVec 2
  poison : Bool
  zero : Bool
  valid : Bool
  block : W32
  bad : List Nat
  deriving DecidableEq, Repr

/-- A build in the builder queue (R62 to R66). `id` is its issue order, `next` its next group, `cur` the record last
read. -/
structure Build where
  id : Nat
  bundle : BitVec 20
  emask : BitVec 4
  recAddr : Nat
  blk : Nat
  fmt : BitVec 2
  nrec : Nat
  next : Nat
  cur : RecIn
  waitFree : Bool
  deriving DecidableEq, Repr

/-- One code byte waiting in a lane's queue (R72), and the line it is of. -/
structure LaneEntry where
  line : Nat
  code : Byte
  deriving DecidableEq, Repr

/-- A line in flight (R75): its slot, row and plane, the lanes still to deliver, and what its two halves have summed.
`skipped` marks a line that the fetch stage did not read (R74). -/
structure Line where
  id : Nat
  slot : Nat
  row : Nat
  plane : Nat
  skipped : Bool
  waiting : List Nat
  sum0 : Int
  sum1 : Int
  inv0 : Bool
  inv1 : Bool
  deriving DecidableEq, Repr

/-- A block integer of one row and half of the pass, complete and waiting to be handed on (R70). -/
structure HandOff where
  half : Nat
  row : Nat
  value : Int
  inv : Bool
  deriving DecidableEq, Repr

/-- A delivery on its way to its entry (R70, R98). -/
structure Deliv where
  slot : Nat
  row : Nat
  value : Int
  exp : Byte
  poison : Bool
  block : W32
  deriving DecidableEq, Repr

/-- The undo log's record of one delivery (R118): slot, row, the entry before it, and whether it was the instruction's
first delivery to that entry. -/
structure UndoRec where
  slot : Nat
  row : Nat
  before : AccEntry
  first : Bool
  deriving DecidableEq, Repr

/-- What a half's check has seen (R116): the sum of its block integers, and whether an invalid code was read. -/
structure HalfSum where
  half : Nat
  sum : Int
  inv : Bool
  deriving DecidableEq, Repr

/-- A PLOOK in an engine's queue, its operands as read at issue (R88, R515), and how far it has come. `mask` lists the
masked tiles as (row tile counted from the first row's, half); `verdictSlot` is the first slot without a verdict;
`cleared` the rows that a fresh PLOOK has delivered to; `sumA`, `sumB` the block integers being formed; `longRows` and
`ovfRows` the rows whose entry it has counted in ACC_LONG and ACC_OVF, which a retry counts no second time (R113). -/
structure Plook where
  id : Nat
  bundle : BitVec 20
  base : Nat
  rs : Nat
  ps : Nat
  gs : Nat
  firstRow : Nat
  blk : Nat
  mask : List (Nat × Nat)
  pw : Bool
  fresh : Bool
  tile : Nat
  nRow : Nat
  nPl : Nat
  nHalf : Nat
  entry : Nat
  h0 : Nat
  chk : Option ChkDesc
  fetchSlot : Nat
  fetchRow : Nat
  fetchPlane : Nat
  verdictSlot : Nat
  retrying : Bool
  sumA : Int
  sumB : Int
  invA : Bool
  invB : Bool
  cleared : List Nat
  longRows : List Nat
  ovfRows : List Nat
  sums : List HalfSum
  deriving DecidableEq, Repr

/-- A punnet engine: its instruction queue (R90), the head of which executes; lane queues by lane (R72), lines in flight
(R75), hand-offs, deliveries and the undo log of the deliveries whose slot has no verdict (R118, R119); `nextLine` numbers
lines. `holdFor` is the line that the fetch stage holds, by the lanes that receive it (R72, R75). DEDUCED (log 38). -/
structure Engine where
  queue : List Plook
  lanes : Vector (List LaneEntry) 32
  lines : List Line
  nextLine : Nat
  ready : List HandOff
  deliv : List Deliv
  undo : List UndoRec
  holdFor : Option (List Nat)
  deriving DecidableEq, Repr

/-- A PINV waiting for the engines' lookups (R89): its issue order and engine mask. -/
structure PinvWait where
  id : Nat
  emask : BitVec 4
  deriving DecidableEq, Repr

/-- Where a transfer's or a QPUT's answer goes: the issuing core and the number of the transfer or put. -/
inductive XferRef where
  | dma (c : CoreId) (id : Nat)
  | put (c : CoreId) (id : Nat)
  | debug
  | frame (p : PortId) (srcX srcY : BitVec 4) (srcZ : Byte) (xfer : W16)
  | none
  deriving DecidableEq, Repr

/-- Kind of a DMA transfer after its descriptor was checked (R275, R303, R309, R384). -/
inductive XferKind where
  | copy | queueSend | memCopy | route | header | berth | fabric
  deriving DecidableEq, Repr

/-- A DMA transfer in flight (R276). `left` counts the pieces not yet acknowledged or landed; `tile` is the next tile of a
header or berth transfer, `held` that its landing is held (R257), `struck` the words of it that a mesh link has marked
(R272); `status` the lowest non-zero status so far (R514). -/
structure Transfer where
  id : Nat
  bundle : BitVec 20
  kind : XferKind
  src : Nat
  dst : Nat
  len : Nat
  cqe : Bool
  cq : QueueId
  tag : W32
  cdc : Bool
  chk : Bool
  left : Nat
  tile : Nat
  held : Bool
  struck : List Nat
  status : Nat
  deriving DecidableEq, Repr

/-- A QPUT whose answer has not come (R277). -/
structure Put where
  id : Nat
  bundle : BitVec 20
  deriving DecidableEq, Repr

/-- State of a packet in a queue's ring (R279). -/
inductive PktState where
  | arriving | committed | rewound
  deriving DecidableEq, Repr

/-- A packet that holds reserved positions of a ring: first position, data words, and how many of its positions have been
read. -/
structure QPacket where
  start : Nat
  n : Nat
  state : PktState
  read : Nat
  xfer : XferRef
  src : BitVec 12
  kind : BitVec 4
  deriving DecidableEq, Repr

/-- A hardware queue (R279 to R283): its HQ_QCFG register, pointers, packets in reservation order, the number of packets
committed since the last reset, the last value and the sticky bits. -/
structure HQueue where
  cfg : W64
  wp : Nat
  packets : List QPacket
  seq : Nat
  lastVal : W64
  perr : Bool
  rewound : Bool
  underrun : Bool
  deriving DecidableEq, Repr

/-- A route bank (R225, R226): the layer and step it holds, the routing cores accepted, the packets accepted but not yet
appended, the next routing core to append, and whether its route is complete. -/
structure RtBank where
  holds : Option (W16 × W32)
  got : List Nat
  waiting : List (Nat × List W64)
  next : Nat
  complete : Bool
  deriving DecidableEq, Repr

/-- What one mesh message carries (R270). -/
inductive MsgBody where
  /-- A scratchpad or memory write: offset in the window, or memory key, and its words. -/
  | write (addr : Nat) (words : List MWord) (xfer : XferRef)
  /-- A read request: address, words, and the scratchpad offset the answer lands at. -/
  | read (addr : Nat) (n : Nat) (dst : Nat) (xfer : XferRef)
  /-- A memory copy's read: the answer goes on as a write of `dst`. -/
  | readCopy (addr : Nat) (n : Nat) (dst : Nat) (xfer : XferRef)
  /-- Read data on its way back to the reader (VC1): scratchpad offset and words. -/
  | data (addr : Nat) (words : List MWord) (xfer : XferRef)
  /-- A queue packet: queue, kind (R279) and data words. -/
  | packet (q : QueueId) (kind : BitVec 4) (words : List MWord) (xfer : XferRef)
  /-- A route packet: its header words and entries (R224), and which of its words are poisoned (R272). -/
  | route (hdr : BitVec 128) (entries : List W64) (poisoned : List Nat) (xfer : XferRef)
  /-- An acknowledgement or refusal with its status (R277). -/
  | ack (xfer : XferRef) (status : Nat)
  deriving DecidableEq, Repr

/-- A message on the mesh. `held` marks one that its destination holds (R257, R225, R279). -/
structure Msg where
  src : Node
  dst : Node
  held : Bool
  body : MsgBody
  deriving DecidableEq, Repr

/-- SEQ_ and SPD_ registers and the sequencer's hidden state. `cc` counts the core's CORE cycles since module reset as
far as the model moves them; `startCc` is the cc of the task's start; `issues` numbers the instructions issued; the
next bundle has been fetched in cc `fetchAt` (R253). DEDUCED (log 19). DESIGN CHOICE (log 25). -/
structure Seq where
  pc : BitVec 20
  state : SeqState
  base : BitVec 15
  nbm1 : BitVec 15
  entry : BitVec 15
  wdogLimit : BitVec 28
  wdogCount : Nat
  stall : W64
  fetchAt : Nat
  fault : Option FaultRec
  faultThisTask : Bool
  loops : List LoopFrame
  ibuf : List Nat
  cc : Nat
  startCc : Nat
  issues : Nat
  ended : Bool
  haltAtStart : Bool
  stepOnce : Bool
  passBreak : Bool
  breaks : Vector (Option (BitVec 20)) 4
  faultRead : Bool
  bankOn : W16
  zeroing : Bool
  filling : Bool
  scrubPos : Nat
  corrHour : Nat
  frozen : Option (Vector (Option SbEntry) 32)
  deriving DecidableEq, Repr

/-- Counters of the sequencer, the scratchpad and the engines (R97, R268). -/
structure CtrsA where
  seqBundles : Ctr
  seqStallcc : Ctr
  spdCorrected : Ctr
  spdPoisoned : Ctr
  spdPasses : Ctr
  spdHeld : Ctr
  pneLookups : Ctr
  pneSkips : Ctr
  pneWaits : Ctr
  pneInvalid : Ctr
  pneCorrected : Ctr
  pnbBuilt : Ctr
  accChecks : Ctr
  accChkfail : Ctr
  accRetryok : Ctr
  accUnchecked : Ctr
  accLong : Ctr
  accOvf : Ctr
  accCorrected : Ctr
  deriving DecidableEq, Repr

/-- Counters of the output stage, the vector engine, the router block, the DMA-and-queue unit and the codec (R153, R178,
R242, R289, R327). -/
structure CtrsB where
  ostRecords : Ctr
  ostCapped : Ctr
  ostZero : Ctr
  ostPoison : Ctr
  ostLongout : Ctr
  vecIssued : Ctr
  vecStalls : Ctr
  vecNanout : Ctr
  vecFeeds : Ctr
  rtPkts : Ctr
  rtHold : Ctr
  rtEntries : Ctr
  hqPkts : Ctr
  hqRewound : Ctr
  hqUnderrun : Ctr
  hqPtrerr : Ctr
  hqDmas : Ctr
  hqDmaerr : Ctr
  mshCorrected : Ctr
  mshPoisoned : Ctr
  cdcBlocks : Ctr
  cdcRaw : Ctr
  cdcCrcfail : Ctr
  cdcCodecfail : Ctr
  cdcRetryok : Ctr
  cdcStale : Ctr
  deriving DecidableEq, Repr

/-- An OQNT in the output stage's queue (R133): when it starts, when its last output byte is written, whether it
rotates, and when its tally has been added. -/
structure OstJob where
  start : Nat
  done : Nat
  rot : Bool
  tallyAt : Nat
  deriving DecidableEq, Repr

/-- Output stage (R127 to R153): its three writable registers, its queue, and poison_seen. -/
structure Ost where
  rotSeed : W64
  g8Seed : W64
  step : W64
  jobs : List OstJob
  poisonSeen : Bool
  deriving DecidableEq, Repr

/-- A pipe of the vector engine (R155): the first cc in which it can take another instruction, and the first cc in
which it holds no work. -/
structure Pipe where
  next : Nat
  idle : Nat
  deriving DecidableEq, Repr

/-- DMA-and-queue unit, router block and mesh registers of a core (R274 to R289, R225). `digest` is the routing digest
formed so far for the layer and step of `digestOf` (R233); the DMA unit reads local sources until the end of cc
`readEnd` (R276). `landing` holds the read data that have left VC1 and wait for the scoreboard (R257, R270), `posts` the
completion packets that wait for room, as transfer, queue and word (R277); `fetched` the tile headers and berth tiles that the
task has fetched (R306), with true for a berth tile. -/
structure Dqu where
  area : W64
  queues : List (Nat × HQueue)
  transfers : List Transfer
  puts : List Put
  landing : List Msg
  posts : List (Nat × QueueId × W64)
  fetched : List (Nat × Bool)
  nextXfer : Nat
  rtArea : BitVec 14
  banks : Vector RtBank 2
  digest : W32
  digestOf : Option (W16 × W32)
  readEnd : Nat
  takeWait : Bool
  fenceWait : Bool
  mcMemb : W64
  mcBox : List (Nat × BitVec 24)
  deriving DecidableEq, Repr

/-- One core (R20). Sparse parts are lists in rising key order: `acc` by tile × 256 + entry, `checks` by tile, `punnets`
by engine × 256 + lane × 8 + slot. `upsets` lists the bit errors of punnet and accumulator memory that nothing has found yet
(R82, R102), `faultQuay` the handle of the request whose quay the task's first fault names (R216). -/
structure Core where
  seq : Seq
  sb : Vector (Option SbEntry) 32
  s : Vector W64 32
  v : Vector (BitVec 1024) 32
  m : Vector (BitVec 8192) 4
  pend : List PendWrite
  ctx : Vector RedCtx 4
  pipes : Vector Pipe 6
  acc : List (Nat × AccEntry)
  checks : List (Nat × ChkDesc)
  punnets : List (Nat × PunSlot)
  builds : List Build
  engines : Vector Engine 4
  pinvs : List PinvWait
  ost : Ost
  dqu : Dqu
  faultUnit : Option FUnit
  faultQuay : Option W32
  upsets : List ScrubFind
  ca : CtrsA
  cb : CtrsB
  deriving DecidableEq, Repr

/-- An inactive context (R157). DESIGN CHOICE (log 16). -/
def RedCtx.inactive : RedCtx := ⟨false, .sum, 0, 0, 0, false, false, [], []⟩

/-- A cleared entry (R101). -/
def AccEntry.clear : AccEntry := ⟨0, 0, 0, 0, false, false, false, false, false, false⟩

/-- R102: one of the two words of an entry has a double-bit error. -/
def AccEntry.bad (e : AccEntry) : Bool := e.badPair || e.badTag

/-- A punnet slot after reset (R84). DESIGN CHOICE (log 16). -/
def PunSlot.empty : PunSlot := ⟨[0, 0, 0, 0, 0], 0, 0, false, false, false, 0, []⟩

/-- DESIGN CHOICE (log 16). -/
def Engine.idle : Engine :=
  ⟨[], Vector.replicate 32 [], [], 0, [], [], [], none⟩

/-- A queue after reset: disabled, empty (R288). -/
def HQueue.reset : HQueue := ⟨0, 0, [], 0, 0, false, false, false⟩

/-- DESIGN CHOICE (log 16). -/
def RtBank.free : RtBank := ⟨none, [], [], 0, false⟩

def CtrsA.zero : CtrsA := ⟨0, 0, 0, 0, 0, 0, 0, 0, 0, 0, 0, 0, 0, 0, 0, 0, 0, 0, 0⟩

def CtrsB.zero : CtrsB := ⟨0, 0, 0, 0, 0, 0, 0, 0, 0, 0, 0, 0, 0, 0, 0, 0, 0, 0, 0, 0, 0, 0, 0, 0, 0, 0⟩

/-- The sequencer after module reset: SEQ_WDOG 250,000, every bank powered (R268). -/
def Seq.reset : Seq :=
  { pc := 0, state := .idle, base := 0, nbm1 := 0, entry := 0, wdogLimit := 250000#28, wdogCount := 0, stall := 0,
    fetchAt := 0, fault := none, faultThisTask := false, loops := [], ibuf := [], cc := 0, startCc := 0, issues := 0, ended := false,
    haltAtStart := false, stepOnce := false, passBreak := false, breaks := Vector.replicate 4 none, faultRead := false,
    bankOn := 0xFFFF, zeroing := false, filling := false, scrubPos := 0, corrHour := 0,
    frozen := none }

/-- A core after module reset (R84, R101, R157, R251, R268, R289). DESIGN CHOICE (log 15). -/
def Core.reset : Core :=
  { seq := Seq.reset, sb := Vector.replicate 32 none, s := Vector.replicate 32 0, v := Vector.replicate 32 0,
    m := Vector.replicate 4 0, pend := [], ctx := Vector.replicate 4 RedCtx.inactive, pipes := Vector.replicate 6 ⟨0, 0⟩, acc := [],
    checks := [], punnets := [], builds := [], engines := Vector.replicate 4 Engine.idle, pinvs := [],
    ost := ⟨0, 0, 0, [], false⟩,
    dqu := ⟨0, [], [], [], [], [], [], 0, 0, Vector.replicate 2 RtBank.free, 0, none, 0, false, false, 0, []⟩, faultUnit := none, faultQuay := none,
    upsets := [], ca := CtrsA.zero, cb := CtrsB.zero }

end Sys2Proof.Machine
end

