-- ==== Sys2Proof/Machine/Flags.lean ====
section
/-! DEFINITION. Compensated pairs and the flags of an entry's tag (R98 to R106, R113, R122): every flag computation of
the accumulator and of the reduction contexts. -/

namespace Sys2Proof.Machine

/-- R104: rounded sum and rounding error. -/
def twoSum (a b : W32) : W32 × W32 :=
  let t := fadd a b
  let z := fsub t a
  (t, fadd (fsub a (fsub t z)) (fsub b z))

/-- R104: one delivery into a pair; the flag says that the sum is infinite or not a number. -/
def Pair.add (p : Pair) (x : W32) : Pair × Bool :=
  let te := twoSum p.s x
  if fisFin te.1 then (⟨te.1, fadd p.c te.2⟩, false) else (⟨te.1, 0⟩, true)

/-- R104: combination of two pairs, `a` the node with the lower indices. -/
def Pair.combine (a b : Pair) : Pair × Bool :=
  let te := twoSum a.s b.s
  if fisFin te.1 then (⟨te.1, fadd (fadd a.c b.c) te.2⟩, false) else (⟨te.1, 0⟩, true)

/-- R106: rne(σ × (s + c)); +0 when s + c is zero. -/
def Pair.readOut (p : Pair) (sigma : W32) : W32 :=
  if fisFin p.s && fisFin p.c && fisFin sigma then
    let v := (fp32.dy p.s.toNat).add (fp32.dy p.c.toNat)
    if v.m = 0 then 0
    else BitVec.ofNat 32 (fp32.enc (tb sigma.toNat 31 != decide (v.m < 0)) ((fp32.dy sigma.toNat).mul v))
  else fmul sigma (fadd p.s p.c)

def AccEntry.pair (e : AccEntry) : Pair := ⟨e.s, e.c⟩

/-- R98, R99: the value of a delivery. -/
def delivValue (i : Int) (exp : Nat) : W32 :=
  if i = 0 ∨ exp = 0 ∨ exp = 255 then 0 else fpOfInt i ((exp : Int) - 127)

/-- R100: the count of a tag stops at 2^21 − 1. -/
def capCount (n : Nat) : BitVec 21 := BitVec.ofNat 21 (min n (2 ^ 21 - 1))

/-- R104, R113: one delivery applied to an entry. -/
def AccEntry.deliver (e : AccEntry) (x : W32) (poison : Bool) (block : W32) : AccEntry :=
  let r := e.pair.add x
  let n := e.count.toNat + 1
  { e with s := r.1.s, c := r.1.c, last := block, count := capCount n, long := e.long || decide (n > 2 ^ 20),
           ovf := e.ovf || r.2, poison := e.poison || poison, live := true }

/-- R122: the entry that AMRG forms. -/
def AccEntry.merge (a b : AccEntry) : AccEntry :=
  let r := a.pair.combine b.pair
  let n := a.count.toNat + b.count.toNat
  { s := r.1.s, c := r.1.c, last := if b.live then b.last else a.last, count := capCount n,
    long := a.long || b.long || decide (n > 2 ^ 20), ovf := a.ovf || b.ovf || r.2, poison := a.poison || b.poison,
    live := a.live || b.live, badPair := false, badTag := false }

/-- R100: the pair record of an entry. -/
def AccEntry.toRecord (e : AccEntry) : BitVec 128 :=
  e.last ++ e.count ++ BitVec.ofBool e.long ++ BitVec.ofBool e.ovf ++ BitVec.ofBool e.poison ++ BitVec.ofBool e.live
    ++ 0#7 ++ e.c ++ e.s

/-- R105: a −0 is loaded as +0. -/
def noNegZero (x : W32) : W32 := if x = 0x80000000#32 then 0 else x

/-- R121: the entry that ALDP loads from a pair record. -/
def AccEntry.ofRecord (r : BitVec 128) : AccEntry :=
  { s := noNegZero (r.extractLsb' 0 32), c := noNegZero (r.extractLsb' 32 32), last := r.extractLsb' 96 32,
    count := r.extractLsb' 75 21, long := r.getLsbD 74, ovf := r.getLsbD 73, poison := r.getLsbD 72,
    live := r.getLsbD 71, badPair := false, badTag := false }

end Sys2Proof.Machine
end

