-- ==== Sys2Proof/Machine/SysState.lean ====
section
/-! DEFINITION. The state of the module outside its cores, one structure for each part of the manual. Plain data. -/

namespace Sys2Proof.Machine

/-! ## Journal (R457 to R467) -/

/-- A record on its way to the black box (R458): what the source gives, with step, time and digest as they stood when it
was raised. `payload` holds its words, zero past the list's end; `more` marks a continuation record. -/
structure JRec where
  more : Bool
  code : W16
  cls : Byte
  flags : Byte
  skind : Byte
  sidx : W16
  handle : W32
  tenant : Byte
  step : W32
  time : W64
  digest : W64
  payload : List W64
  deriving DecidableEq, Repr

/-- The black box: records waiting in the order in which the harbourmaster received them (R460), the slots of the MRAM
that do not hold zeros by number (R457), the registers, the (skind, sidx, second) of retried errors already recorded
(R459), and what BBX_MISO carried for the last command, none at high impedance (R466). -/
structure Bbx where
  waiting : List JRec
  slots : List (Nat × BitVec 2048)
  newest : W32
  oldest : W32
  commits : Ctr
  lost : Ctr
  broken : Bool
  retried : List (Nat × Nat × Nat)
  miso : Option (List Byte)
  deriving DecidableEq, Repr

/-- R485: a new module's journal: BBX_NEWEST and BBX_OLDEST read 0xFFFF_FFFF until the first record commits.
DEDUCED (log 17). -/
def Bbx.reset : Bbx := ⟨[], [], 0xFFFFFFFF, 0xFFFFFFFF, 0, 0, false, [], none⟩

/-! ## Mesh (R270) -/

/-- Messages on the two virtual channels, oldest first. -/
structure Mesh where
  vc0 : List Msg
  vc1 : List Msg
  deriving DecidableEq, Repr

/-! ## Memory system (R290 to R327, R218) -/

/-- Counters of a channel or an anchorage controller. -/
structure ChanCtr where
  corr : Ctr
  uncorr : Ctr
  rd : Ctr
  wr : Ctr
  deriving DecidableEq, Repr

/-- A traffic generator and checker (R322 to R324). `ctrl` holds the RW fields of TGC_CTRL; `stopReq` that a stop was
asked for and `svcReq` that the channel returns to service when the run has stopped. -/
structure Tgc where
  ctrl : W64
  range : W64
  seed : W64
  fixed : W64
  loops : W32
  passes : W32
  err : Bool
  done : Bool
  busy : Bool
  refused : Bool
  errs : Ctr
  firstA : W32
  firstX : W64
  firstG : W64
  bytes : Ctr
  memcc : Ctr
  stopReq : Bool
  svcReq : Bool
  deriving DecidableEq, Repr

def Tgc.reset : Tgc :=
  ⟨0, 0, 0, 0, 0, 0, false, false, false, false, 0, 0, 0, 0, 0, 0, false, false⟩

/-- A tile that a transfer reported (R304): its header's address, or a berth tile's own address, and the core. -/
structure TileReport where
  header : Nat
  berth : Bool
  core : Nat
  deriving DecidableEq, Repr

/-- The memory control blocks. `wins` and `prots` hold the pairs of registers by index, `chlist` the entries of
MEM_CHLIST that differ from i % 256, `chans` counters by channel, anchorage controllers from 256 on. -/
structure MemSys where
  temps : Vector W64 16
  chsvc : BitVec 256
  unmapped : Ctr
  bchk : W64
  ancBchk : W64
  wins : List (Nat × (W64 × W64))
  chlist : List (Nat × Byte)
  prots : List (Nat × (W64 × W64))
  chans : List (Nat × ChanCtr)
  tgcs : List (Nat × Tgc)
  bpBase : W64
  bpCount : W32
  bpFree : W32
  bcow : Ctr
  bevict : Ctr
  bcompact : Ctr
  bunwind : Ctr
  bhold : Ctr
  apBase : W64
  apCount : W32
  apFree : W32
  bexpire : Ctr
  reports : List TileReport
  transient : Nat
  deriving DecidableEq, Repr

/-- R296, R218, R322: after module reset. -/
def MemSys.reset : MemSys :=
  { temps := Vector.replicate 16 0, chsvc := BitVec.allOnes 256, unmapped := 0, bchk := 0, ancBchk := 0,
    wins := [(0, (BitVec.ofNat 64 (2 ^ 63 + 589824 * 2 ^ 40), BitVec.ofNat 64 (8 * 2 ^ 28)))], chlist := [], prots := [],
    chans := [], tgcs := [], bpBase := 0, bpCount := 0, bpFree := 0, bcow := 0, bevict := 0, bcompact := 0, bunwind := 0,
    bhold := 0, apBase := 0, apCount := 0, apFree := 0, bexpire := 0, reports := [], transient := 0 }

/-! ## Fabric and uplinks (R372 to R397) -/

/-- Link state of a port, 0 to 5 in this order (R397). -/
inductive LinkState where
  | disabled | training | wide | narrow | down | fenced
  deriving DecidableEq, Repr

/-- A torus port. `waiting` lists frames by virtual channel, `credits` what the far end has granted (R377), `owed` the
credits to return, `replay` the frames sent and not acknowledged (R378), `sent` the last frame put on the link,
`held` contribution frames that wait in VC2 (R386), `viols` and `trains` the module times of recent violations and
retrains (R394), `replays` how often the oldest frame was replayed, `again` that it trains after it was down, `naked` that a
coded block was sent back once (R390). -/
structure FPort where
  en : Bool
  cdcEn : BitVec 4
  link : LinkState
  wrap : Bool
  miswired : Bool
  half : Bool
  retrain : Bool
  neigh : W64
  waiting : Vector (List Frame) 4
  credits : Vector Nat 4
  owed : Vector Nat 4
  sinceVc3 : Nat
  txSeq : W16
  rxSeq : W16
  replay : List Frame
  replays : Nat
  naked : Bool
  again : Bool
  sent : Option Frame
  held : List Frame
  viols : List Nat
  trains : List Nat
  txFrames : Ctr
  rxFrames : Ctr
  naks : Ctr
  replayed : Ctr
  viol : Ctr
  retrains : Ctr
  cdcSaved : Ctr
  deriving DecidableEq, Repr

/-- Torus coordinates (R380). -/
structure Coord where
  x : Nat
  y : Nat
  z : Nat
  deriving DecidableEq, Repr

/-- A transfer that this module has open on the fabric (R384): its number, who started it, the module it goes to, and
for a read where the next data land and how many bytes are still to come. -/
structure OutXfer where
  num : W16
  ref : XferRef
  dest : Coord
  read : Bool
  next : Nat
  left : Nat
  deriving DecidableEq, Repr

/-- A transfer of another module that is being served here (R384, R385): its source and number, what is still to be
acknowledged on the mesh, whether its last frame has come, the lowest non-zero status, and for a read the data so
far by offset. `refused` marks one whose further frames are dropped. -/
structure InXfer where
  port : PortId
  src : Coord
  num : W16
  read : Bool
  contribution : Bool
  left : Nat
  last : Bool
  status : Nat
  refused : Bool
  prot : Bool
  data : List (Nat × List MWord)
  deriving DecidableEq, Repr

/-- An uplink. -/
structure UPort where
  link : LinkState
  retrain : Bool
  ptp : Bool
  ip0 : W64
  ip1 : W64
  udp : W16
  vlan : BitVec 13
  ptpErr : W32
  ptpState : BitVec 2
  tx : Ctr
  rx : Ctr
  drops : Ctr
  viol : Ctr
  pause : Ctr
  retx : Ctr
  deriving DecidableEq, Repr

/-- A flow of an uplink (R392): its class, the address of its peer where this module opened it, next seq to send and expected, datagrams sent and not acknowledged, data
waiting to be sent, data received in order, datagrams since the last acknowledgement, send window and the peer's free
window in bytes, the seq whose acknowledgement ends a round trip, and whether congestion was seen. -/
structure UFlow where
  id : W32
  dclass : Byte
  peer : BitVec 128
  nextSeq : W32
  expect : W32
  unacked : List Datagram
  toSend : List Byte
  got : List Byte
  sinceAck : Nat
  window : Nat
  peerWindow : Nat
  mark : W32
  ce : Bool
  deriving DecidableEq, Repr

/-- Messages of the harbourmasters on VC3 (R383, R387, R450): what this module has given to the ports. -/
inductive HmMsg where
  | muster (m : Muster)
  | musterReply (formed : Bool) (step : W32)
  | halt (step : W32)
  | stepAbort (step : W32)
  | hold (on : Bool)
  | boundary (r : PeerRecord)
  deriving DecidableEq, Repr

/-- A slice formation in progress (R383): its ticket, its shape and the records that rank 0 has. -/
structure Forming where
  ticket : W32
  n : Nat
  d : Nat
  sq : Nat
  origin : Nat
  records : List Muster
  deriving DecidableEq, Repr

/-- The fabric. `hmOut` lists messages given to VC3 with the ranks they go to, `hmIn` message frames received; `halting`
that the slice halts at the next boundary, `aborted` that this step's collectives were aborted (R387), `halted` that
it has halted. -/
structure Fabric where
  coord : W64
  slice : W64
  step : W32
  cfgdig : W64
  mismatch : W64
  mismatches : Ctr
  heldCtr : Ctr
  slips : List (Nat × (W64 × W64))
  ports : Vector FPort 6
  ups : Vector UPort 2
  nextXfer : W16
  outs : List OutXfer
  ins : List InXfer
  flows : List UFlow
  hmIn : List Frame
  hmOut : List (Nat × HmMsg)
  forming : Option Forming
  halting : Bool
  aborted : Bool
  halted : Bool
  relayed : List Nat
  deriving DecidableEq, Repr

/-- Credits of the four virtual channels, in units of 256 bytes (R377). -/
def vcCredits : Vector Nat 4 := ⟨#[1024, 512, 2048, 512], rfl⟩

/-- A port after module reset (R397): disabled, cdc_en 0b1001. -/
def FPort.reset : FPort :=
  { en := false, cdcEn := 9, link := .disabled, wrap := false, miswired := false, half := false, retrain := false,
    neigh := 0, waiting := Vector.replicate 4 [], credits := vcCredits, owed := Vector.replicate 4 0, sinceVc3 := 0, txSeq := 0,
    rxSeq := 0, replay := [], replays := 0, naked := false, again := false, sent := none, held := [], viols := [], trains := [], txFrames := 0,
    rxFrames := 0, naks := 0, replayed := 0, viol := 0, retrains := 0, cdcSaved := 0 }

def UPort.reset : UPort := ⟨.disabled, false, false, 0, 0, 0, 0, 0, 0, 0, 0, 0, 0, 0, 0⟩

def Fabric.reset : Fabric :=
  { coord := 0, slice := 0, step := 0, cfgdig := 0, mismatch := 0, mismatches := 0, heldCtr := 0, slips := [],
    ports := Vector.replicate 6 FPort.reset, ups := Vector.replicate 2 UPort.reset, nextXfer := 0, outs := [], ins := [],
    flows := [], hmIn := [], hmOut := [], forming := none, halting := false, aborted := false, halted := false,
    relayed := [] }

/-! ## Identity, flash and fuses (R426 to R432) -/

/-- The identity record (R431): what it holds, and the CRC stored after it. `fused` lists the cores that are fused off, in
rising order. -/
structure Ident where
  serial : W64
  pciIds : W64
  hwrev : Byte
  fused : List Nat
  identity : BitVec 384
  rsaChain : List Byte
  slhChain : List Byte
  crc : W32
  deriving DecidableEq, Repr

/-- A firmware image in a slot of the flash. -/
structure FwImage where
  svn : BitVec 6
  major : W16
  minor : W16
  patch : W16
  digest : BitVec 384
  deriving DecidableEq, Repr

/-- What survives loss of power beside the journal and the identity (R426 to R429, R458, R469, R481, R499): firmware slots
(false A, true B), the boot record, the floor table, the fuse counter, the start-failure latch as stage and cause,
the cold starts since manufacture, and the retirement list as channel × 589,824 + page (R305). -/
structure Flash where
  slotA : Option FwImage
  slotB : Option FwImage
  activeB : Bool
  selfTest : Bool
  floors : List (BitVec 384 × BitVec 6)
  fuses : Nat
  latch : Option (Nat × Nat)
  boots : W32
  retired : List Nat
  deriving DecidableEq, Repr

/-! ## Harbourmaster -/

/-- The bound model, the (logical, physical) pairs of its binding, the tenants that cores' tasks run for (tenant 0
unlisted), and the step. `timeNs` is the module time (R393). `once` lists the (site, cause) pairs of health events
raised in this step (R152). `state` is PCI_STATE state (R399). `staged` is the digest of an image kept in the anchorage
(R418). `down` says that the input or a rail turned the module off (R468, R472). -/
structure Hm where
  man : Option Manifest
  signer : BitVec 384
  staged : Option (BitVec 384)
  binding : List (Nat × Nat)
  step : W64
  timeNs : W64
  synced : Bool
  apart : Bool
  once : List (Nat × Nat)
  state : BitVec 3
  down : Bool
  deriving DecidableEq, Repr

end Sys2Proof.Machine
end

