-- ==== Sys2Proof/Machine/HostState.lean ====
section
/-! DEFINITION. The state of the module towards its host, its rack and its tenants, and of serving: functions, rings,
mailboxes and tickets (R398 to R422), security (R424 to R448), power and clocks (R468 to R487), the debug port (R488 to
R500), requests, adapters, tide and placement (R139 to R218, R328 to R371). Plain data. -/

namespace Sys2Proof.Machine

/-! ## Host interface (R398 to R422) -/

/-- What the module sends to the outside: posted writes to host memory, MSI-X messages, DOE answers, rack frames,
uplink datagrams and AER reports. -/
inductive Posted where
  | write (f : FnId) (addr : Nat) (data : List Byte)
  | msix (f : FnId) (v : Nat)
  | doe (f : FnId) (code : Byte) (data : List Byte)
  | rack (typ : Byte) (seq : W16) (data : List Byte)
  | datagram (u : UplinkId) (typ : Byte) (d : Datagram)
  | aer (f : FnId) (kind : HostViolation)
  deriving DecidableEq, Repr

/-- A host ring (R401 to R409). `cfg` holds PCI_RCFGr; `next` is the next request entry to take, `left` the indices at or
after `cons` whose entries have left, `fetched` the entries read from host memory by index, `unsig` the records written
since the last interrupt, `kept` records that wait while the ring is disabled (R408) or full. -/
structure Ring where
  base : W64
  cfg : W64
  cons : W32
  prod : W32
  wb : W64
  next : W32
  left : List W32
  fetched : List (Nat × BitVec 256)
  unsig : Nat
  kept : List (BitVec 256)
  deriving DecidableEq, Repr

def Ring.reset : Ring := ⟨0, 0, 0, 0, 0, 0, [], [], 0, []⟩

/-- A mailbox answer (table "Response header"). -/
structure Resp where
  status : W16
  opcode : W16
  seq : W32
  ticket : W32
  result : List Byte
  deriving DecidableEq, Repr

/-- A mailbox: MBX_STATUS, the opcode taken, whether to interrupt, the words written into the request window by
offset, and the response. -/
structure Mbx where
  st : BitVec 2
  seq : W32
  collide : Bool
  ien : Bool
  op : W16
  win : List (Nat × W64)
  resp : Resp
  deriving DecidableEq, Repr

def Mbx.reset : Mbx := ⟨0, 0, false, false, 0, [], ⟨0, 0, 0, 0, []⟩⟩

/-- A PCIe function (R399, R409, R410, R433, R437). `err` is PCI_ERR; `msix` holds address, data and mask of the
vectors that differ from their state after reset, `pba` the pending bits, `phase` how far the SPDM connection has come
(1 version, 2 capabilities, 3 algorithms), `sessions` the secure sessions with whether FINISH has come. -/
structure Func where
  err : BitVec 6
  evring : BitVec 8
  hosterrs : Ctr
  ringerrs : Ctr
  holds : Ctr
  evlost : Ctr
  tenant : TenantId
  bme : Bool
  mbx : Mbx
  rings : List (Nat × Ring)
  msix : List (Nat × (W64 × W32 × Bool))
  pba : W32
  phase : Nat
  sessions : List (Nat × Bool)
  deriving DecidableEq, Repr

def Func.reset : Func := ⟨0, 0, 0, 0, 0, 0, 0, false, Mbx.reset, [], [], 0, 0, []⟩

/-- What a ticket's work still needs (R415, R416). -/
inductive TicketState where
  | running | finished | cancelling
  deriving DecidableEq, Repr

/-- A ticket (table "Ticket record"). `object` is the channel, handle, adapter or job the work is on. -/
structure Ticket where
  num : W32
  op : W16
  st : TicketState
  unit : Byte
  status : W16
  total : Nat
  progress : Nat
  result : W64
  object : Nat
  deriving DecidableEq, Repr

/-- A host memory read that is outstanding (R413): its tag, how often it was tried, and the ring entry it is for. -/
structure HostRead where
  f : FnId
  tag : Nat
  tries : Nat
  ring : RingId
  ix : W32
  deriving DecidableEq, Repr

/-- The host side: functions that differ from reset, tickets (issuer 64 is the rack mailbox) and their serials, the rack
mailbox, reads outstanding, and what was sent out, oldest first. -/
structure HostIf where
  fns : List (Nat × Func)
  tickets : List Ticket
  serials : List (Nat × Nat)
  rack : Mbx
  reads : List HostRead
  nextTag : Nat
  out : List Posted
  deriving DecidableEq, Repr

def HostIf.reset : HostIf := ⟨[], [], [], Mbx.reset, [], 0, []⟩

/-! ## Security (R426 to R447) -/

/-- A key slot (R438, R439). -/
structure KeyS where
  owner : Option TenantId
  key : Option (BitVec 512)
  deriving DecidableEq, Repr

/-- An IDE stream (R436): number, functions, whether it is keyed and secure. -/
structure IdeStream where
  num : Nat
  fns : List FnId
  secure : Bool
  deriving DecidableEq, Repr

/-- SEC_ registers, the running image, key slots that hold something, streams. -/
structure Sec where
  run : FwImage
  bootedB : Bool
  fallback : Bool
  recovery : Bool
  debugged : Bool
  scope : BitVec 3
  slots : List (Nat × KeyS)
  regValid : Bool
  region : Byte
  sigfail : Ctr
  idefail : Ctr
  rackviol : Ctr
  unlockfail : Ctr
  ide : List IdeStream
  rackaddr : BitVec 7
  deriving DecidableEq, Repr

/-- DESIGN CHOICE (log 14). -/
def FwImage.none : FwImage := ⟨0, 0, 0, 0, 0⟩

def KeyS.empty : KeyS := ⟨Option.none, Option.none⟩

/-- DEDUCED (log 104). -/
def Sec.reset : Sec := ⟨FwImage.none, false, false, false, false, 0, [], false, 0, 0, 0, 0, 0, [], 127⟩

/-! ## Power, clocks, heat (R468 to R486) -/

/-- PWR_, CLK_ and THM_ registers and what the sequencer and the thermal logic keep. `fails` counts failed starts in a row,
`off` says that the module stays off until its input falls below 36.0 V (R481), `dramHot` and `juncHot` that the last
sample was above a trip threshold (R477), `perst` that PERST# is asserted, `flag` the self-test flag as the last cold start read it (R499), `due` that stage 7 is due in this start, `samples`
the thermal samples since the start. -/
structure Pwr where
  power : W16
  current : W16
  voltage : W16
  band : BitVec 3
  good : BitVec 11
  ms : W32
  warm : Bool
  stage : Nat
  selftest : Bool
  fails : Nat
  off : Bool
  ppm : W16
  lanes : Byte
  pcie : Bool
  root : Bool
  k : Nat
  kmax : Nat
  dDram : Bool
  dJunc : Bool
  dPower : Bool
  holdDram : Bool
  holdJunc : Bool
  dramHot : Bool
  juncHot : Bool
  inletHigh : Bool
  swallowed : Ctr
  junc : Vector Byte 4
  inlet : Byte
  downs : Ctr
  holds : Ctr
  perst : Bool
  linkUp : Bool
  flag : Bool
  due : Bool
  samples : Nat
  deriving DecidableEq, Repr

def Pwr.reset : Pwr :=
  { power := 0, current := 0, voltage := 0, band := 0, good := 0, ms := 0, warm := false, stage := 0, selftest := false,
    fails := 0, off := false, ppm := 0, lanes := 0, pcie := false, root := false, k := 8, kmax := 8, dDram := false,
    dJunc := false, dPower := false, holdDram := false, holdJunc := false, dramHot := false, juncHot := false,
    inletHigh := false, swallowed := 0, junc := Vector.replicate 4 0, inlet := 0, downs := 0, holds := 0, perst := false,
    linkUp := false, flag := false, due := false, samples := 0 }

/-! ## Debug port (R488 to R500) -/

/-- A harbourmaster core as the debug port sees it (R495): `regs` holds the registers whose content is known.
DESIGN CHOICE (log 157). -/
structure HmCore where
  halted : Bool
  breaks : Vector (Option W64) 4
  regs : List (Nat × W64)
  deriving DecidableEq, Repr

/-- The port: instruction register, debug register, whether the last capture was PENDING, whether a scratchpad write of the
port is held (R257), the request that has not finished, the last response, counters, the outstanding challenge with its scope, the number of challenges issued, failed
unlocks since cold start, and the token's words that are not zero. -/
structure Dbg where
  ir : BitVec 5
  dr : BitVec 128
  pended : Bool
  held : Bool
  req : Option (BitVec 128)
  resp : BitVec 128
  cmds : Ctr
  denied : Ctr
  chal : Option (BitVec 512 × BitVec 3)
  issued : Nat
  fails : Nat
  token : List (Nat × W64)
  hms : Vector HmCore 4
  deriving DecidableEq, Repr

def HmCore.reset : HmCore := ⟨false, Vector.replicate 4 none, []⟩

/-- R488: Test-Logic-Reset loads IDCODE. -/
def Dbg.reset : Dbg := ⟨1, 0, false, false, none, 0, 0, 0, none, 0, 0, [], Vector.replicate 4 HmCore.reset⟩

/-! ## Serving (R328 to R353) -/

/-- Where a request stands (table "Request statistics", state). -/
inductive Phase where
  | running | held | movingOut | moored | movingIn | prefilled | ending
  deriving DecidableEq, Repr

/-- An admitted request. `home` is the home's rank; `f`, `ring` and `ix` are the function and ring entry there; `record` is
the request record; `input` the input token (R336); `seq` the completion records written, `top` the highest position
with a token record (R334); `base` the committed count when the step began; `rows` the positions that the step computes; `stop` the
final status and reason once known; `tables` where the request's quay records, berth tables and mass tables begin (R184);
`quiet` that no end record is written; `told` that the event of this holding was raised (R207); `ttl` the time to live in ms
that was left at module time `since`, when the mooring last began to count (R209); `ticket` the ticket of its pause, resume or shipment; `a8` the adaptive sites
switched (R142), `sums` C and N by site for the window; `reserve` the berth handles reserved by quay (R196) by
quay number; `cow` the shared open berth that each quay may copy, as (quay, entry, handle) (R196); `short` that an action of this
boundary lacked a handle (R207); `back` that the last berth of a resumed request has moved (R210). -/
structure Request where
  handle : W32
  home : Nat
  f : FnId
  tenant : TenantId
  ring : RingId
  ix : W32
  record : BitVec 1024
  phase : Phase
  committed : Nat
  produced : Nat
  drafted : Nat
  accepted : Nat
  steps : Nat
  held : Nat
  evicted : Nat
  aver : W32
  a8 : List Nat
  sums : List (Nat × Nat × Nat)
  admitted : W64
  ttl : Nat
  since : W64
  seq : W32
  top : Option Nat
  input : W32
  base : Nat
  rows : Nat
  stop : Option (W16 × Byte)
  tables : Nat
  quiet : Bool
  told : Bool
  ticket : Option W32
  reserve : List (Nat × List Nat)
  cow : List (Nat × Nat × Nat)
  short : Bool
  back : Bool
  deriving DecidableEq, Repr

/-- A request that passed R328 and waits for admission. -/
structure Offer where
  home : Nat
  f : FnId
  tenant : TenantId
  ring : RingId
  ix : W32
  record : BitVec 1024
  deriving DecidableEq, Repr

/-- A command that acts at a boundary (R337), with its ticket. -/
inductive BCmd where
  | cancel (handle : W32) (t : Option W32)
  | cancelOffer (f : FnId) (ring : RingId) (ix : W32) (t : Option W32)
  | pause (handle : W32) (ttl : Nat) (t : Option W32)
  | resume (handle : W32) (t : Option W32)
  | ship (handle : W32) (t : Option W32) (order : ShipOrder)
  | endQuiet (handle : W32)
  | expire (handle : W32)
  | dropOffer (index : Nat) (o : Offer)
  | remove (id : W16) (t : Option W32)
  | install (id : W16) (tenant : TenantId) (fs : List AdapterFactor) (t : Option W32)
  | tune (i : Issuer) (tenant : TenantId) (args : TuneArgs) (t : Option W32)
  | cancelJob (job : Nat)
  | unload (t : Option W32)
  | endFn (f : FnId)
  | endRing (f : FnId) (r : RingId)
  | endCring (f : FnId) (r : RingId)
  | clearSlot (k : KeySlot) (t : TenantId)
  | dropTenant (t : TenantId)
  deriving DecidableEq, Repr

/-- One resident adapter version (R342, R343). DEDUCED (log 129). -/
structure AdapterVer where
  id : W16
  version : W32
  tenant : TenantId
  factors : List AdapterFactor
  current : Bool
  /-- R352: left by a job with the no-install flag; resident for export. -/
  exportOnly : Bool
  deriving DecidableEq, Repr

/-- A data set (R349). DEDUCED (log 129). -/
structure DataSet where
  tenant : TenantId
  id : Byte
  words : List W64
  deriving DecidableEq, Repr

/-- A column of a factor in tuning: its scale and codes (R351), and the gradient sum of each of its elements so far (R350). The
master values w and m stand in stacked memory. -/
structure FactorCol where
  scale : W32
  codes : List Int
  sums : List RedCtx
  deriving DecidableEq, Repr

/-- A tuning job (R349 to R352). `pos` is the next data position, `micro` the micro-steps of the optimiser step so far, `count`
the rows in it, `now` the rows laid out in the current step. -/
structure Job where
  num : Nat
  ticket : Option W32
  issuer : Issuer
  tenant : TenantId
  args : TuneArgs
  cols : List FactorCol
  shape : List AdapterFactor
  done : Nat
  pos : Nat
  micro : Nat
  count : Nat
  now : Nat
  cancelled : Bool
  faulted : Bool
  deriving DecidableEq, Repr

/-- A shipment that is arriving (R213, R214): its berths by handle, in the order of its images; `since` is the module time of its
first images. -/
structure Ship where
  num : Nat
  f : FnId
  record : BitVec 1024
  committed : Nat
  st : ShipState
  images : List ShipImage
  handles : List Nat
  complete : Bool
  since : W64
  deriving DecidableEq, Repr

/-- A quay as a mooring record holds it (R208): the counts of its quay record, its berth-table entries with their masses, and
its tail. -/
structure MoorQuay where
  layer : Nat
  pair : Nat
  opened : Nat
  committed : Nat
  evicted : Nat
  berths : List (BitVec 256 × List W32)
  tail : List W64
  deriving DecidableEq, Repr

/-- A mooring record in the anchorage (R208), beside what the request itself holds. DESIGN CHOICE (log 165). -/
structure Mooring where
  handle : W32
  quays : List MoorQuay
  sampling : List Byte
  formats : List Nat
  deriving DecidableEq, Repr

/-- Tide (R340, R341): times in microseconds. -/
structure Tide where
  locked : Bool
  last : Option Nat
  period : Nat
  missed : Nat
  aligned : W64
  misses : W64
  freeRuns : W64
  glitches : W64
  deriving DecidableEq, Repr

/-- Where the slice is between two steps (R338, R340, R478): in the step; its work done at the given time and waiting for a
pulse, with the commands and offers that had been accepted by then; the boundary begun; the exchange to come; in a thermal hold,
with action 14 to come. -/
inductive BPhase where
  | step
  | waiting (e cut cutOffers : Nat)
  | begun
  | exchange
  | holding
  deriving DecidableEq, Repr

/-- A site's monitor (R148 to R150): its baseline, or the learning values so far, and the jump streak. -/
structure Monitor where
  baseline : Option W32
  learned : List W32
  streak : Nat
  deriving DecidableEq, Repr

/-- Serving. `cut` and `cutOffers` are the commands and offers accepted before the cut-off (R337), `freeRun` that the last boundary
began free-running (R341), `ended` what the step left for its boundary, `turn` the function and ring, as f × 128 + r, that last gave
an entry (R329), `groups` the rows of each adapter version as (id, version, rows) (R344). `gens` holds the next generation of a slot, `versions` the highest version of an adapter id, `mons` the
monitors by site, `forkHeld` the forks, by home and record, whose holding for want of a handle has been told (R200, R207), `aborting` that the step was
aborted (R450),
`rowsOf` the row layout as (0 request or 1 job, number, rows). -/
structure Serving where
  phase : BPhase
  cut : Nat
  cutOffers : Nat
  freeRun : Bool
  ended : StepEnd
  turn : Nat
  groups : List (Nat × Nat × List Nat)
  reqs : List Request
  gens : List (Nat × Nat)
  offers : List Offer
  cmds : List BCmd
  adapters : List AdapterVer
  versions : List (Nat × Nat)
  sets : List DataSet
  jobs : List Job
  moorings : List Mooring
  ships : List Ship
  nextShip : Nat
  forkHeld : List (Nat × BitVec 1024)
  tide : Tide
  mons : List (Nat × Monitor)
  aborting : Bool
  attributed : List W32
  rowsOf : List (Nat × Nat × Nat)
  deriving DecidableEq, Repr

def Serving.reset : Serving :=
  { phase := .step, cut := 0, cutOffers := 0, freeRun := false, ended := ⟨[], [], []⟩, turn := 8191, groups := [], reqs := [], gens := [], offers := [], cmds := [], adapters := [], versions := [], sets := [], jobs := [],
    moorings := [], ships := [], nextShip := 0, forkHeld := [], tide := ⟨false, none, 0, 0, 0, 0, 0, 0⟩, mons := [], aborting := false, attributed := [],
    rowsOf := [] }

/-! ## Placement (R356 to R367) -/

/-- A copy in progress (R365): layer, expert, the replica slot it is for (none: a pin), bytes still to copy. -/
structure Copy where
  layer : Nat
  expert : Nat
  slot : Option Nat
  left : Nat
  deriving DecidableEq, Repr

/-- The placer. Experts are numbered layer × 256 + index. `counts` holds per-step counts by layer × 1024 + gang × 16 + slot,
`cum` cumulative counts, `pins` pinned experts, `reps` replicas as (layer, slot, expert) oldest first, `barred` experts not
retried until their tile is restored (R366), `spent` bytes copied in this step, `going` the (layer, gang) pairs whose slices were given up
at the last boundary and are still in use (R365). -/
structure Placer where
  counts : List (Nat × Nat)
  cum : List (Nat × W64)
  heats : List (Nat × W32)
  pins : List Nat
  reps : List (Nat × Nat × Nat)
  copies : List Copy
  barred : List Nat
  spent : Nat
  going : List (Nat × Nat)
  deriving DecidableEq, Repr

def Placer.reset : Placer := ⟨[], [], [], [], [], [], [], 0, []⟩

end Sys2Proof.Machine
end

