-- ==== Sys2Proof/Machine/State.lean ====
section
/-! DEFINITION. The state of the block, the reasons for a stop, and the state after reset. -/

namespace Sys2Proof.Machine

/-- Why a command stops with a fault. DESIGN CHOICE (log 10). -/
inductive Fault where
  /-- Raised by no command that the manual gives an effect; see notes/assumptions. Safe: the run stops. -/
  | outsideManual
  deriving DecidableEq, Repr

/-- Why a command has no meaning. DESIGN CHOICE (log 10). -/
inductive Refusal where
  /-- A command whose meaning is not written. Raised by its arm in Machine/Dispatch.lean. Safe: the run stops. -/
  | notModelled (mnemonic : String)
  deriving DecidableEq, Repr

/-- The block. `pending` is the queue of commands, first in, first out; `free` counts the draws of free values (the model's
own field). `cores` lists the cores that differ from reset, `mem` the bytes of memory that are not zero, by key, and
`poison` the poisoned 8-byte words, `flips` the scratchpad words with a bit error that nothing has found yet (R263), by word
number, true for two wrong bits. DESIGN CHOICE (log 1, 18, 155). -/
structure State where
  pending : List Instr
  free : Nat
  cores : List (Nat × Core)
  mem : List Host.Cell
  poison : List Nat
  flips : List (Nat × Bool)
  mesh : Mesh
  ms : MemSys
  fab : Fabric
  bbx : Bbx
  ident : Ident
  flash : Flash
  hm : Hm
  host : HostIf
  sec : Sec
  pwr : Pwr
  dbg : Dbg
  serv : Serving
  plc : Placer
  deriving DecidableEq, Repr

/-- The identity that the model takes: the manual gives hwrev, every other field of a module's own record is a value the
model names. DESIGN CHOICE (log 13). -/
def Ident.reset : Ident := ⟨0, 0, 0xA0, [], 0, [], [], 0x9E9C329B⟩

/-- The factory image stands in slot A: version 0.0.0, svn 0. DESIGN CHOICE (log 14). -/
def Flash.reset : Flash := ⟨some FwImage.none, none, false, false, [], 0, none, 0, []⟩

def Hm.reset : Hm := ⟨none, 0, none, [], 0, 0, false, false, [], 0, false⟩

/-- The module right after reset: no command waits, every register holds its reset value, memory and scratchpads hold
zeros, the key slots are empty and the debug port is locked (R483). DESIGN CHOICE (log 12). -/
def State.reset : State :=
  { pending := [], free := 0, cores := [], mem := [], poison := [], flips := [], mesh := ⟨[], []⟩, ms := MemSys.reset,
    fab := Fabric.reset, bbx := Bbx.reset, ident := Ident.reset, flash := Flash.reset, hm := Hm.reset,
    host := HostIf.reset, sec := Sec.reset, pwr := Pwr.reset, dbg := Dbg.reset, serv := Serving.reset,
    plc := Placer.reset }

end Sys2Proof.Machine
end

