-- ==== Sys2Proof/Machine/Ops.lean ====
section
/-! DEFINITION. The named operations over the state: cores, memory bytes and poison marks, scratchpad, the journal,
raising a core fault. -/

namespace Sys2Proof.Machine

/-! ## Cores -/

/-- The core of index `c`; a core that nothing has touched is as after reset. -/
def State.core (s : State) (c : CoreId) : Core := Sparse.get Core.reset s.cores c.val

def State.setCore (s : State) (c : CoreId) (k : Core) : State :=
  { s with cores := Sparse.put Core.reset s.cores c.val k }

def State.modCore (s : State) (c : CoreId) (f : Core → Core) : State := s.setCore c (f (s.core c))

/-- R431: bit i % 8 of byte i / 8: core i is fused off. -/
def Ident.fusedBytes (d : Ident) : List Byte :=
  (List.range 288).map fun j =>
    BitVec.ofNat 8 (((List.range 8).map fun b => if d.fused.contains (8 * j + b) then 2 ^ b else 0).sum)

/-- R431: the usable cores that the record counts. -/
def Ident.usable (d : Ident) : Nat := 2304 - d.fused.length

/-- R431: the identity record before its crc. -/
def Ident.image (d : Ident) : List Byte :=
  leBytes 4 0x53574B49 ++ leBytes 4 (0x184 + d.rsaChain.length + d.slhChain.length) ++ leBytes 8 d.serial.toNat
    ++ leBytes 8 d.pciIds.toNat ++ [d.hwrev, 0] ++ leBytes 2 d.usable ++ leBytes 4 0 ++ d.fusedBytes
    ++ leBytes 48 d.identity.toNat ++ leBytes 4 d.rsaChain.length ++ leBytes 4 d.slhChain.length ++ leBytes 8 0
    ++ d.rsaChain ++ d.slhChain

/-- R431: the stored crc is that of every byte before it. -/
def Ident.ok (d : Ident) : Bool := d.crc == crc32c d.image

/-- R15: fused-off cores have no working units; nor has any core of a module that is turned off (R468). -/
def State.usable (s : State) (c : CoreId) : Bool := !(s.ident.fused.contains c.val) && !s.hm.down

def State.modCa (s : State) (c : CoreId) (f : CtrsA → CtrsA) : State := s.modCore c fun k => { k with ca := f k.ca }

def State.modCb (s : State) (c : CoreId) (f : CtrsB → CtrsB) : State := s.modCore c fun k => { k with cb := f k.cb }

def State.modSeq (s : State) (c : CoreId) (f : Seq → Seq) : State := s.modCore c fun k => { k with seq := f k.seq }

def State.modDqu (s : State) (c : CoreId) (f : Dqu → Dqu) : State := s.modCore c fun k => { k with dqu := f k.dqu }

/-- R468, R472: a module that is turned off does nothing; a powered one does `f`. DEDUCED (log 11). -/
def State.live (s : State) (f : State → State) : Host.Outcome State Fault Refusal := .next (if s.hm.down then s else f s)

/-! ## Memory: one space of byte keys -/

/-- What an unlisted byte of memory reads as (R483). DEDUCED (log 17). -/
def memDefault : Byte := 0

/-- The canonical form of memory: keys strictly rising, no entry equal to what an unlisted byte reads as. -/
def Memory.wf (m : List Host.Cell) : Bool := Sparse.wf memDefault m

/-- One byte of memory. -/
def State.byte (s : State) (key : Nat) : Byte := Sparse.get memDefault s.mem key

/-- The little-endian number in `n` bytes from `key` on (R10). -/
def memRead (m : List Host.Cell) : Nat → Nat → Nat
  | _, 0 => 0
  | key, n + 1 => (Sparse.get memDefault m key).toNat + 256 * memRead m (key + 1) n

def memWrite (m : List Host.Cell) : Nat → List Byte → List Host.Cell
  | _, [] => m
  | key, b :: r => memWrite (Sparse.put memDefault m key b) (key + 1) r

def State.rd (s : State) (key n : Nat) : Nat := memRead s.mem key n

/-- The bytes from `key` on. -/
def State.rdBytes (s : State) (key n : Nat) : List Byte := leBytes n (s.rd key n)

/-- R263: the number of the first poisoned 8-byte word that the bytes touch. -/
def State.poisoned? (s : State) (key n : Nat) : Option Nat :=
  if n = 0 then none else s.poison.find? fun w => decide (key / 8 ≤ w) && decide (w ≤ (key + n - 1) / 8)

/-- R263: a write of a whole word clears its mark and any bit error of it; a partial write leaves them. -/
def State.wrBytes (s : State) (key : Nat) (bs : List Byte) : State :=
  { s with mem := memWrite s.mem key bs,
           poison := s.poison.filter fun w => !(decide (key ≤ 8 * w) && decide (8 * w + 8 ≤ key + bs.length)),
           flips := s.flips.filter fun f => !(decide (key ≤ 8 * f.1) && decide (8 * f.1 + 8 ≤ key + bs.length)) }

def State.wr (s : State) (key n x : Nat) : State := s.wrBytes key (leBytes n x)

/-- The words from `key` on, with their marks. -/
def State.rdWords (s : State) (key : Nat) : Nat → List MWord
  | 0 => []
  | n + 1 => ⟨BitVec.ofNat 64 (s.rd key 8), s.poison.contains (key / 8)⟩ :: s.rdWords (key + 8) n

/-- Writes words with their marks; the second component counts the words newly marked (R263). -/
def State.wrWords (s : State) (key : Nat) : List MWord → State × Nat
  | [] => (s, 0)
  | w :: r =>
    let was := s.poison.contains (key / 8)
    let s1 := s.wr key 8 w.data.toNat
    let s2 := if w.poison then { s1 with poison := NSet.add (key / 8) s1.poison } else s1
    let q := s2.wrWords (key + 8) r
    (q.1, q.2 + bit (w.poison && !was))

/-! ## Scratchpad -/

/-- R14: memory key of a scratchpad byte. DESIGN CHOICE (log 47). -/
def spKey (c : CoreId) (off : Nat) : Nat := Config.scratchBase + c.val * Config.windowBytes + off

def State.spRd (s : State) (c : CoreId) (off n : Nat) : Nat := s.rd (spKey c off) n

def State.spWr (s : State) (c : CoreId) (off n x : Nat) : State := s.wr (spKey c off) n x

/-- R263: scratchpad offset of the first poisoned word that the bytes touch. -/
def State.spPoison? (s : State) (c : CoreId) (off n : Nat) : Option Nat :=
  (s.poisoned? (spKey c off) n).map fun w => 8 * w - spKey c 0

/-- R263: lands words in a scratchpad and counts the words newly marked in SPD_POISONED. -/
def State.spLand (s : State) (c : CoreId) (off : Nat) (ws : List MWord) : State :=
  let q := s.wrWords (spKey c off) ws
  q.1.modCa c fun a => { a with spdPoisoned := bumpBy q.2 a.spdPoisoned }

/-! ## Journal -/

/-- R458: digest [63:0] of the bound model, 0 if none. -/
def State.digest64 (s : State) : W64 :=
  match s.hm.man with
  | some m => m.digest.extractLsb' 0 64
  | none => 0

/-- R459, R460: a record is received by the harbourmaster and waits to commit. -/
def State.note (s : State) (code : Nat) (cls : Nat) (skind sidx : Nat) (handle : W32) (tenant : Nat)
    (payload : List W64) : State :=
  let r : JRec :=
    { more := false, code := BitVec.ofNat 16 code, cls := BitVec.ofNat 8 cls,
      flags := BitVec.ofNat 8 (bit (!s.hm.synced || s.hm.apart) + 4 * bit s.sec.debugged),
      skind := BitVec.ofNat 8 skind, sidx := BitVec.ofNat 16 sidx, handle := handle, tenant := BitVec.ofNat 8 tenant,
      step := s.hm.step.extractLsb' 0 32, time := s.hm.timeNs, digest := s.digest64, payload := payload }
  { s with bbx := { s.bbx with waiting := s.bbx.waiting ++ [r] } }

/-- R459: a retried error, one record for a source in a second. The manual names no code for one.
DEDUCED (log 43). DESIGN CHOICE (log 51). -/
def State.noteRetry (s : State) (skind sidx : Nat) (payload : List W64) : State :=
  let key := (skind, sidx, s.hm.timeNs.toNat / 1000000000)
  if s.bbx.retried.contains key then s
  else ({ s with bbx := { s.bbx with retried := key :: s.bbx.retried } }).note (Config.retryCode skind).toNat 2 skind sidx 0 0 payload

/-- R150, R152: a site's baseline; NaN while it learns, or is not monitored. -/
def State.siteBaseline (s : State) (site : Nat) : W32 :=
  match s.serv.mons.find? fun m => m.1 == site with
  | some m => m.2.baseline.getD 0x7FC00000
  | none => ((s.hm.man.bind fun m => m.sites[site]?).bind (·.calibration)).getD 0x7FC00000

/-- R152: a health event of a site, once per site and cause in a step. -/
def State.health (s : State) (site cause : Nat) (baseline measured : W32) : State :=
  if s.hm.once.contains (site, cause) then s
  else
    let lo := BitVec.ofNat 64 (s.hm.step.toNat % 2 ^ 32 * 2 ^ 32 + site % 1024 * 2 ^ 22 + cause)
    let hi := BitVec.ofNat 64 (baseline.toNat * 2 ^ 32 + measured.toNat)
    let s1 := { s with hm := { s.hm with once := (site, cause) :: s.hm.once } }
    s1.note cause 0 0 0 0 0 [lo, hi]

/-! ## Raising a core fault (R265) -/

/-- What a unit reports when it raises a fault. -/
structure FaultReq where
  cause : Nat
  slot : Nat
  unit : Nat
  bundle : BitVec 20
  detail : Nat
  by_ : FUnit
  deriving DecidableEq, Repr

/-- Whether a scoreboard entry still holds its range in cc `now` (R255). -/
def SbEntry.live (now : Nat) (e : SbEntry) : Bool :=
  match e.free with
  | .atCc t => decide (now ≤ t)
  | _ => true

/-- SEQ_STALL block: bit n says that scoreboard entry n is in use at `now`. DEDUCED (log 28). -/
def Core.liveMask (k : Core) (now : Nat) : Nat := packFields 1 (k.sb.toList.map fun o => bit (o.filter (SbEntry.live now)).isSome)

/-- SEQ_STALL of a task that waits in its END (R246): drain, and the entries that are not free. DEDUCED (log 28). -/
def Core.endStall (k : Core) : W64 := BitVec.ofNat 64 (4 + k.liveMask k.seq.cc * 2 ^ 32)

/-- R268: SEQ_STALL as it stands. -/
def Core.stallNow (k : Core) : W64 := if k.seq.state = .ending then k.endStall else k.seq.stall

/-- R265: the first fault of a task fills the record and stops issue; each later one adds to `more`, up to 15. -/
def Core.raise (k : Core) (f : FaultReq) : Core :=
  match k.seq.fault, k.seq.faultThisTask with
  | some r, true => { k with seq := { k.seq with fault := some { r with more := if r.more = 15#4 then 15#4 else r.more + 1 } } }
  | _, _ =>
    { k with
        faultUnit := some f.by_,
        seq := { k.seq with
          state := .faulted, faultThisTask := true, faultRead := false, stall := k.stallNow,
          fault := some
            { cause := BitVec.ofNat 16 f.cause, cls := 1, slot := BitVec.ofNat 2 f.slot, unit := BitVec.ofNat 2 f.unit,
              more := 0, bundle := f.bundle, detail := BitVec.ofNat 64 f.detail, stall := k.stallNow,
              time := BitVec.ofNat 64 (k.seq.cc - k.seq.startCc) } } }

def State.raise (s : State) (c : CoreId) (f : FaultReq) : State := s.modCore c fun k => k.raise f

/-- A fault that no bundle raises (R265): of no slot, unit number 0, the bundle field free. DESIGN CHOICE (log 27). -/
def State.raiseLoose (s : State) (c : CoreId) (cause detail : Nat) (u : FUnit) : State :=
  let k := s.core c
  s.raise c ⟨cause, 0, 0, Config.faultNoBundle cause k.seq.pc k.seq.cc, detail, u⟩

/-- Whether a task is in progress at a core: from start to the end of the scrub (R245, R261). -/
def Core.busy (k : Core) : Bool := k.seq.state != .idle

/-- R245, R261, R283: a task runs; a faulted core and a core being scrubbed run none. -/
def Core.taskRuns (k : Core) : Bool :=
  match k.seq.state with
  | .running | .stalled | .ending | .halted => true
  | _ => false

end Sys2Proof.Machine
end

