-- ==== Sys2Proof/Machine/MemMap.lean ====
section
/-! DEFINITION. The address map: interleave windows, the anchorage, protected regions, scratchpad windows (R292 to
R297, R309, R315 to R317, R320), and device memory as words. -/

namespace Sys2Proof.Machine

/-- The pair of registers at index `i` of a block, one of them written. -/
def putPair (l : List (Nat × (W64 × W64))) (i : Nat) (second : Bool) (v : W64) : List (Nat × (W64 × W64)) :=
  let p := Sparse.get (0, 0) l i
  Sparse.put (0, 0) l i (if second then (p.1, v) else (v, p.2))

/-- Entry `i` of MEM_CHLIST (R296). -/
def State.chlistAt (s : State) (i : Nat) : Nat :=
  match assoc? i s.ms.chlist with
  | some b => b.toNat
  | none => i % 256

def State.winAt (s : State) (w : Nat) : W64 × W64 := Sparse.get (0, 0) s.ms.wins w

/-- R294, R295: channel, channel page and byte of an address in one window's range. -/
def State.winMap (s : State) (ab : W64 × W64) (addr : Nat) : Option (Nat × Nat × Nat) :=
  let a := ab.1.toNat
  let b := ab.2.toNat
  let base := fld a 20 20
  let lgn := fld b 28 4
  let list := fld b 0 12
  let mib := addr / 2 ^ 20
  if !tb a 63 ∨ lgn > 8 ∨ list + 2 ^ lgn > 4096 ∨ mib < base ∨ base + fld a 40 20 ≤ mib then none
  else
    let k := (addr - base * 2 ^ 20) / 4096
    some (s.chlistAt (list + k % 2 ^ lgn), fld b 32 20 + k / 2 ^ lgn, addr % 4096)

/-- R294: the lowest-numbered enabled window that covers the address decides. -/
def State.stacked (s : State) (addr : Nat) : Option (Nat × Nat × Nat) :=
  match s.ms.wins.findSome? fun w => s.winMap w.2 addr with
  | some m => if m.2.1 < Config.channelPages then some m else none
  | none => none

/-- What an address names (R292). `mem` gives the controller and the key of the byte. -/
inductive Place where
  | mem (k : Ctrl) (key : Nat)
  | scratch (c : CoreId) (off : Nat)
  | global
  | fusedOff
  | unmapped
  deriving DecidableEq, Repr

/-- R320: controller of an anchorage offset. -/
def anchCtrl (o : Nat) : AnchId := Fin.ofNat 16 (o / 4096)

/-- R320: address of an anchorage offset within its controller's package. -/
def anchPackage (o : Nat) : Nat := o / 65536 * 4096 + o % 4096

/-- Where a byte of a channel lies in its stack (R290, R291). -/
structure DramPlace where
  pseudo : Nat
  stackId : Nat
  group : Nat
  bank : Nat
  row : Nat
  byte : Nat
  deriving DecidableEq, Repr

/-- R291: the place of a channel byte address. -/
def dramPlace (o : Nat) : DramPlace :=
  let p := o / 4096
  let q := p / 2
  { pseudo := p % 2, stackId := q / 4 % 3, group := o % 4096 / 1024, bank := q % 4, row := q / 12, byte := o % 1024 }

/-- R315: the regions that are enabled and well formed, as (base, size, owner, slot) in units of 32 KiB. -/
def State.regionsRaw (s : State) : List (Nat × Nat × Nat × Nat) :=
  s.ms.prots.filterMap fun p =>
    let a := p.2.1.toNat
    let b := p.2.2.toNat
    let base := fld b 0 26
    let size := fld b 32 26
    let inStack := decide ((base + size) * 32768 ≤ Config.stackedBytes)
    let inAnch := decide (Config.anchBase ≤ base * 32768) && decide ((base + size) * 32768 ≤ 0x020000000000)
    if tb a 63 && size != 0 && (inStack || inAnch) then some (base, size, fld a 36 6, fld a 48 6) else none

/-- R315: regions that overlap another enabled one are treated as disabled. -/
def State.regions (s : State) : List (Nat × Nat × Nat × Nat) :=
  let rs := s.regionsRaw
  rs.filter fun r => (rs.filter fun q => decide (q.1 < r.1 + r.2.1) && decide (r.1 < q.1 + q.2.1)).length ≤ 1

/-- Who asks (R440). -/
inductive Who where
  /-- A core, the harbourmaster or a DMA unit: tenant 0 on the module matches every region owner. -/
  | module
  /-- An inbound frame: its tenant matches only regions with the same owner. -/
  | frame (tenant : Nat)
  /-- The debug port: it matches a region only while unlocked with scope 2. -/
  | debug (scope2 : Bool)
  deriving DecidableEq, Repr

/-- The protected region that holds an address, if one does. DESIGN CHOICE (log 48). -/
def State.regionAt (s : State) (addr : Nat) : Option (Nat × Nat × Nat × Nat) :=
  s.regions.find? fun r => decide (r.1 * 32768 ≤ addr) && decide (addr < (r.1 + r.2.1) * 32768)

/-- R317, R440: whether a requester may reach a module-local memory address. DESIGN CHOICE (log 48). -/
def State.allowed (s : State) (who : Who) (addr : Nat) : Bool :=
  match s.regionAt addr with
  | some r =>
    match who with
    | .module => true
    | .frame t => r.2.2.1 == t
    | .debug on => on
  | none => true

/-- R316: the key of a slot; an empty slot's register holds zeros (R443). -/
def State.slotKey (s : State) (k : Nat) : BitVec 512 := (Sparse.get KeyS.empty s.sec.slots k).key.getD 0

/-- R315, R316: the key of the region that an address lies in. -/
def State.keyAt (s : State) (addr : Nat) : Option (BitVec 512) := (s.regionAt addr).map fun r => s.slotKey r.2.2.2

/-- R316: the cipher of the 64-byte unit that an address lies in. -/
def State.cipherAt (s : State) (addr : Nat) : Option Config.Cipher := (s.keyAt addr).map fun k => Config.xts k (addr / 64)

/-- R292: what an address below control space names, without regard to regions. -/
def State.placeRaw (s : State) (addr : Nat) : Place :=
  if 2 ^ 51 ≤ addr ∧ addr < 2 ^ 52 then .global
  else if addr < Config.stackedBytes then
    match s.stacked addr with
    | some m =>
      if s.ms.chsvc.getLsbD m.1 then .mem (.channel (Fin.ofNat 256 m.1)) (m.1 * Config.channelBytes + m.2.1 * 4096 + m.2.2)
      else .unmapped
    | none => .unmapped
  else if Config.anchBase ≤ addr ∧ addr < 0x020000000000 then .mem (.anch (anchCtrl (addr - Config.anchBase))) addr
  else if Config.scratchBase ≤ addr ∧ addr < Config.scratchBase + 2304 * Config.windowBytes then
    let c : CoreId := Fin.ofNat 2304 ((addr - Config.scratchBase) / Config.windowBytes)
    if s.usable c then .scratch c ((addr - Config.scratchBase) % Config.windowBytes) else .fusedOff
  else .unmapped

/-- R292, R317: what an address names for a requester. -/
def State.place (s : State) (who : Who) (addr : Nat) : Place :=
  match s.placeRaw addr with
  | .mem k key => if s.allowed who addr then .mem k key else .unmapped
  | p => p

/-- One address in each 4 KiB page that a range touches. -/
def pageAddrs (addr len : Nat) : List Nat :=
  if len = 0 then [] else
    addr :: (List.range ((addr + len - 1) / 4096 - addr / 4096)).map fun i => (addr / 4096 + i + 1) * 4096

/-- R293: the status of a range's check: 0 when every byte is mapped, 1 for the window of a fused-off core, else 3. -/
def State.rangeStatus (s : State) (who : Who) (addr len : Nat) : Nat :=
  let ps := (pageAddrs addr len).map (s.place who)
  if ps.contains .fusedOff then 1 else if ps.contains .unmapped then 3 else 0

/-- The key of a memory byte, whoever asks (the harbourmaster's own accesses). DESIGN CHOICE (log 47). -/
def State.keyOf (s : State) (addr : Nat) : Option Nat :=
  match s.placeRaw addr with
  | .mem _ key => some key
  | .scratch c off => some (spKey c off)
  | _ => none

/-- R316: the stored 64-byte unit around the byte with key `k`, `o` bytes into the unit. -/
def State.unitAt (s : State) (k o : Nat) : BitVec 512 := BitVec.ofNat 512 (s.rd (k - o) 64)

/-- A unit with the word at byte `o` replaced. -/
def putUnitWord (u : BitVec 512) (o : Nat) (w : W64) : BitVec 512 :=
  BitVec.ofNat 512 (u.toNat % 2 ^ (8 * o) + w.toNat * 2 ^ (8 * o) + u.toNat / 2 ^ (8 * o + 64) * 2 ^ (8 * o + 64))

/-- The word at an 8-byte aligned address with key `k` as its readers see it (R316). -/
def State.plainWord (s : State) (addr k : Nat) : W64 :=
  match s.cipherAt addr with
  | some c => (c.dec (s.unitAt k (addr % 64))).extractLsb' (8 * (addr % 64)) 64
  | none => BitVec.ofNat 64 (s.rd k 8)

/-- Writes the word at an 8-byte aligned address with key `k`: a protected unit is merged and stored encrypted (R316). DEDUCED
(log 48). -/
def State.storeWord (s : State) (addr k : Nat) (w : MWord) : State :=
  let s1 := (s.wrWords k [w]).1
  match s.cipherAt addr with
  | some c =>
    let o := addr % 64
    let u := c.enc (putUnitWord (c.dec (s.unitAt k o)) o w.data)
    { s1 with mem := memWrite s1.mem (k - o) (leBytes 64 u.toNat) }
  | none => s1

/-- `n` words of device memory from an 8-byte aligned address on; unmapped words read zero. DESIGN CHOICE (log 49). -/
def State.devRead (s : State) (addr : Nat) : Nat → List MWord
  | 0 => []
  | n + 1 =>
    (match s.keyOf addr with
     | some k => ⟨s.plainWord addr k, s.poison.contains (k / 8)⟩
     | none => ⟨0, false⟩) :: s.devRead (addr + 8) n

/-- The same words as a number, least significant first. -/
def State.devNum (s : State) (addr n : Nat) : Nat := packFields 64 ((s.devRead addr n).map fun w => w.data.toNat)

/-- Writes words of device memory; unmapped words are dropped. DESIGN CHOICE (log 49). -/
def State.devWrite (s : State) (addr : Nat) : List MWord → State
  | [] => s
  | w :: r =>
    (match s.keyOf addr with
     | some k => s.storeWord addr k w
     | none => s).devWrite (addr + 8) r

/-- The words of a byte string, none poisoned. -/
def cleanWords (n : Nat) (bs : List Byte) : List MWord := (bytesToWords n bs).map fun w => ⟨w, false⟩

/-! ## Regions that the harbourmaster makes (R315, R441) -/

/-- A region register that holds no enabled region. -/
def State.freeRegion (s : State) : Option Nat :=
  (List.range 256).find? fun r => !tb (Sparse.get (0, 0) s.ms.prots r).1.toNat 63

/-- R315, R441: a range in units of 32 KiB becomes a region of a tenant under a key slot; what it holds keeps its plaintext, as it is
stored anew under the key. DESIGN CHOICE (log 168). -/
def State.makeRegion (s : State) (r base size : Nat) (t : TenantId) (slot : Nat) : State :=
  let ws := s.devRead (32768 * base) (4096 * size)
  let a : W64 := BitVec.ofNat 64 (2 ^ 63 + slot * 2 ^ 48 + t.val * 2 ^ 36)
  let b : W64 := BitVec.ofNat 64 (size * 2 ^ 32 + base)
  ({ s with ms := { s.ms with prots := putPair (putPair s.ms.prots r false a) r true b } }).devWrite (32768 * base) ws

/-- The first `n` consecutive numbers of an ascending list, counted from `h` on. -/
def runLength : Nat → List Nat → Nat
  | _, [] => 0
  | h, x :: r => if x = h then runLength (h + 1) r + 1 else 0

/-! ## Berth pools (R186, R308, R309) -/

/-- The pool that an address lies in: its base, handle count and check table. -/
def State.poolOf (s : State) (addr : Nat) : Option (Nat × Nat) :=
  let inPool := fun (base count : Nat) => decide (base ≤ addr) && decide (addr < base + count * 32768)
  if inPool s.ms.bpBase.toNat s.ms.bpCount.toNat then some (s.ms.bpBase.toNat, s.ms.bchk.toNat)
  else if inPool s.ms.apBase.toNat s.ms.apCount.toNat then some (s.ms.apBase.toNat, s.ms.ancBchk.toNat)
  else none

/-- R308: address of the berth check entry and the tile's index, for an address in a pool. -/
def State.berthEntry (s : State) (addr : Nat) : Option (Nat × Nat) :=
  (s.poolOf addr).map fun p => (p.2 + 64 * ((addr - p.1) / 32768), (addr - p.1) % 32768 / 4096)

/-- R309: sets the stale bit of the berth tile that holds the address. -/
def State.markStale (s : State) (addr : Nat) : State :=
  match s.berthEntry addr with
  | none => s
  | some e =>
    let w := s.devNum (e.1 + 32) 1
    s.devWrite (e.1 + 32) [⟨BitVec.ofNat 64 (if tb w e.2 then w else w + 2 ^ e.2), false⟩]

end Sys2Proof.Machine
end

