-- ==== Sys2Proof/Machine/HostOps.lean ====
section
/-! DEFINITION. Operations of the host side: functions, rings, interrupts, completion and event records (R399 to R410). -/

namespace Sys2Proof.Machine

/-- R399: a function; one that nothing has touched is as after reset. -/
def State.fn (s : State) (f : FnId) : Func := Sparse.get Func.reset s.host.fns f.val

def State.setFn (s : State) (f : FnId) (x : Func) : State :=
  { s with host := { s.host with fns := Sparse.put Func.reset s.host.fns f.val x } }

def State.modFn (s : State) (f : FnId) (g : Func → Func) : State := s.setFn f (g (s.fn f))

def State.send (s : State) (p : Posted) : State := { s with host := { s.host with out := s.host.out ++ [p] } }

/-- PCI_ERR bits (R399). -/
def errDbell : BitVec 6 := 1
def errPtr : BitVec 6 := 2
def errCollide : BitVec 6 := 4
def errHost : BitVec 6 := 8
def errHold : BitVec 6 := 16
def errEvlost : BitVec 6 := 32

def Func.flag (x : Func) (b : BitVec 6) : Func := { x with err := x.err ||| b }

/-- R407, R436: whether the module may read and write host memory for a function. -/
def State.mastering (s : State) (f : FnId) : Bool :=
  (s.fn f).bme && s.sec.ide.all fun i => i.secure || !(i.fns.contains f)

/-- R413, R422: three tries of a read of host memory failed for an issuer. -/
def State.readTries (s : State) (i : Issuer) (e : FetchEnd) : State :=
  match i, e with
  | .fn f, .hostError => s.modFn f fun x => { x.flag errHost with hosterrs := bumpBy 3 x.hosterrs }
  | _, _ => s

/-! ## Rings (R401 to R405) -/

def Func.ring (x : Func) (r : RingId) : Ring := Sparse.get Ring.reset x.rings r.val

def Func.setRing (x : Func) (r : RingId) (g : Ring) : Func := { x with rings := Sparse.put Ring.reset x.rings r.val g }

def State.ring (s : State) (f : FnId) (r : RingId) : Ring := (s.fn f).ring r

def State.modRing (s : State) (f : FnId) (r : RingId) (g : Ring → Ring) : State :=
  s.modFn f fun x => x.setRing r (g (x.ring r))

/-- PCI_RCFGr fields. -/
def Ring.en (g : Ring) : Bool := tb g.cfg.toNat 0
def Ring.kind (g : Ring) : Nat := fld g.cfg.toNat 25 2
def Ring.d (g : Ring) : Nat := fld g.cfg.toNat 20 5
def Ring.vector (g : Ring) : Nat := fld g.cfg.toNat 27 5
def Ring.modUs (g : Ring) : Nat := fld g.cfg.toNat 32 16
/-- DEDUCED (log 86). -/
def Ring.modCnt (g : Ring) : Nat := fld g.cfg.toNat 48 16

/-- A ring that is enabled as a kind: 1 request, 2 completion, 3 event. -/
def Ring.serves (g : Ring) (kind : Nat) : Bool :=
  g.en && g.kind == kind && decide (4 ≤ g.d) && decide (g.d ≤ 16)

def Ring.used (g : Ring) : Nat := (g.prod - g.cons).toNat

def Ring.room (g : Ring) : Nat := 2 ^ g.d - g.used

/-- Host address of entry `i`. -/
def Ring.slotAt (g : Ring) (i : W32) : Nat := fld g.base.toNat 12 52 * 4096 + 32 * (i.toNat % 2 ^ g.d)

/-! ## Interrupts (R409, R420) -/

/-- An MSI-X vector's address, data and mask. PRESUMED (log 84). -/
def Func.vec (x : Func) (v : Nat) : W64 × W32 × Bool := Sparse.get (0, 0, true) x.msix v

/-- R409: sends a vector, or sets its pending bit while it is masked or the function may not write. -/
def State.interrupt (s : State) (f : FnId) (v : Nat) : State :=
  if ((s.fn f).vec v).2.2 || !s.mastering f then s.modFn f fun x => { x with pba := x.pba ||| BitVec.ofNat 32 (2 ^ v) }
  else s.send (.msix f v)

/-- R409: the count of records since the last interrupt rises by `n`; an interrupt goes out when mod_cnt is reached.
DEDUCED (log 86). -/
def State.moderate (s : State) (f : FnId) (r : RingId) (n : Nat) : State :=
  let g := s.ring f r
  let u := g.unsig + n
  if g.modCnt ≠ 0 ∧ g.modCnt ≤ u then (s.modRing f r fun g => { g with unsig := 0 }).interrupt f g.vector
  else s.modRing f r fun g => { g with unsig := u }

/-- R404: writes records, then the writeback word. DEDUCED (log 85). -/
def State.pushRecs (s : State) (f : FnId) (r : RingId) (xs : List (BitVec 256)) : State :=
  let g := s.ring f r
  let s1 := xs.zipIdx.foldl (fun s p =>
    s.send (.write f (g.slotAt (g.prod + BitVec.ofNat 32 p.2)) (leBytes 32 p.1.toNat))) s
  let prod := g.prod + BitVec.ofNat 32 xs.length
  let s2 := (s1.modRing f r fun g => { g with prod := prod }).send (.write f (fld g.wb.toNat 3 61 * 8) (leBytes 8 prod.toNat))
  s2.moderate f r xs.length

/-- R404, R408: a completion record is written, or kept while its ring takes none. -/
def State.complete (s : State) (f : FnId) (r : RingId) (x : BitVec 256) : State :=
  let g := s.ring f r
  if g.serves 2 && s.mastering f && g.kept == [] && decide (0 < g.room) then s.pushRecs f r [x]
  else s.modRing f r fun g => { g with kept := g.kept ++ [x] }

/-- Kept records go out in their order as far as there is room. DEDUCED (log 85). -/
def State.flushKept (s : State) (f : FnId) (r : RingId) : State :=
  let g := s.ring f r
  if g.serves 2 && s.mastering f then
    let n := min g.room g.kept.length
    if n = 0 then s else (s.modRing f r fun g => { g with kept := g.kept.drop n }).pushRecs f r (g.kept.take n)
  else s

/-- R410: posts an event record, or counts it as lost. -/
def State.postEvent (s : State) (f : FnId) (x : BitVec 256) : State :=
  let e := (s.fn f).evring.toNat
  let r : RingId := Fin.ofNat 128 e
  let g := s.ring f r
  if tb e 7 && g.serves 3 && s.mastering f && decide (0 < g.room) then s.pushRecs f r [x]
  else s.modFn f fun x => { x.flag errEvlost with evlost := bump x.evlost }

end Sys2Proof.Machine
end

