-- ==== Sys2Proof/Machine/Journal.lean ====
section
/-! DEFINITION. The black box (R457 to R467) and the class of fatal faults (R451). -/

namespace Sys2Proof.Machine

/-- R458: bits [2015:0] of a record. -/
def State.recordBody (s : State) (seq : W32) (r : JRec) : Nat :=
  let w := s.sec.run
  s.ident.serial.toNat + 0x5342 * 2 ^ 64 + w.patch.toNat * 2 ^ 80 + w.minor.toNat * 2 ^ 96 + w.major.toNat * 2 ^ 112
    + r.digest.toNat * 2 ^ 128 + r.tenant.toNat * 2 ^ 216 + r.handle.toNat * 2 ^ 224 + r.sidx.toNat * 2 ^ 256
    + r.skind.toNat * 2 ^ 272 + (if r.payload.length > 24 then r.flags ||| 8#8 else r.flags).toNat * 2 ^ 288
    + r.cls.toNat * 2 ^ 296 + r.code.toNat * 2 ^ 304 + seq.toNat * 2 ^ 320 + r.time.toNat * 2 ^ 352
    + r.step.toNat * 2 ^ 416 + s.flash.boots.toNat * 2 ^ 448
    + packFields 64 ((r.payload.take 24).map (·.toNat)) * 2 ^ 480

/-- R458: a record with its CRC. -/
def State.recordBits (s : State) (seq : W32) (r : JRec) : BitVec 2048 :=
  let b := s.recordBody seq r
  BitVec.ofNat 2048 (b + (crc32c (leBytes 252 b)).toNat * 2 ^ 2016)

/-- R457: whether a slot holds a record: its magic, its CRC, and that it is the slot of its seq. -/
def slotHolds (slot : Nat) (x : BitVec 2048) : Bool :=
  let n := x.toNat
  fld n 64 16 == 0x5342 && BitVec.ofNat 32 (fld n 2016 32) == crc32c (leBytes 252 n) && fld n 320 32 % Config.bbxSlots == slot

/-- R456: whether a sequence number of `w` bits is later than another. -/
def seqLater {w : Nat} (a b : BitVec w) : Bool := decide (0 < (a - b).toNat) && decide ((a - b).toNat < 2 ^ (w - 1))

/-- R457: the seqs of the records that the MRAM holds. -/
def heldSeqs (slots : List (Nat × BitVec 2048)) : List W32 :=
  (slots.filter fun p => slotHolds p.1 p.2).map fun p => p.2.extractLsb' 320 32

/-- R457, R467: BBX_NEWEST and BBX_OLDEST as the scan at start finds them. -/
def Bbx.scan (slots : List (Nat × BitVec 2048)) : W32 × W32 :=
  match heldSeqs slots with
  | [] => (0xFFFFFFFF, 0xFFFFFFFF)
  | x :: r => r.foldl (fun (q : W32 × W32) y => (if seqLater y q.1 then y else q.1, if seqLater q.2 y then y else q.2)) (x, x)

/-- R463: the event record. -/
def JRec.event (r : JRec) (seq : W32) : BitVec 256 :=
  BitVec.ofNat 256
    (wordAt r.payload 0 % 2 ^ 32 + r.tenant.toNat * 2 ^ 32 + r.sidx.toNat * 2 ^ 40 + r.skind.toNat * 2 ^ 56
      + r.flags.toNat * 2 ^ 64 + r.cls.toNat * 2 ^ 72 + r.code.toNat * 2 ^ 80 + r.handle.toNat * 2 ^ 96
      + r.step.toNat * 2 ^ 128 + r.time.toNat * 2 ^ 160 + seq.toNat * 2 ^ 224)

/-- R410: the function that an event concerns: the source itself, the request's function, else the physical function. -/
def State.concerns (s : State) (r : JRec) : FnId :=
  if r.skind = 5 then Fin.ofNat 64 r.sidx.toNat
  else
    match s.serv.reqs.find? fun q => q.handle == r.handle && r.handle != 0 with
    | some q => q.f
    | none => 0

/-- R397: XLK_SLICE formed, rank and module count. -/
def State.formed (s : State) : Bool := tb s.fab.slice.toNat 16
def State.rank (s : State) : Nat := fld s.fab.slice.toNat 12 4
def State.modules (s : State) : Nat := if s.formed then fld s.fab.slice.toNat 0 4 else 1

/-- A message on VC3 to every other module of the slice, if one is formed. -/
def State.tellSlice (s : State) (m : HmMsg) : State :=
  let others := if s.formed then (List.range s.modules).filter fun r => r != s.rank else []
  { s with fab := { s.fab with hmOut := s.fab.hmOut ++ others.map fun r => (r, m) } }

/-- R460: what follows a record's commit: its event is posted, and after a fatal fault the slice is told (R451). A continuation record
has nothing of its own. DEDUCED (log 92, 93). -/
def State.postRec (s : State) (seq : W32) (r : JRec) : State :=
  if r.more then s
  else
    let s1 := if r.cls = 4 then s.tellSlice (.halt s.fab.step) else s
    s1.postEvent (s1.concerns r) (r.event seq)

/-- R457: slot `seq` % 262,144 takes content. -/
def State.putSlot (s : State) (seq : W32) (x : BitVec 2048) : State :=
  { s with bbx := { s.bbx with slots := Sparse.put 0 s.bbx.slots (seq.toNat % Config.bbxSlots) x } }

/-- R457: whether any record has committed. -/
def Bbx.none (b : Bbx) : Bool := b.newest == 0xFFFFFFFF#32 && b.oldest == 0xFFFFFFFF#32

/-- R467: the registers after a commit. -/
def Bbx.advance (b : Bbx) (seq : W32) : Bbx :=
  let old := if b.none then seq else if Config.bbxSlots ≤ (seq - b.oldest).toNat then seq - BitVec.ofNat 32 (Config.bbxSlots - 1) else b.oldest
  { b with newest := seq, oldest := old, commits := bump b.commits }

/-- R458: what of a record is left for a continuation record. -/
def JRec.rest (r : JRec) : List JRec := if r.payload.length > 24 then [{ r with more := true, payload := r.payload.drop 24 }] else []

/-- R460: a record commits under a seq; its continuation is next. -/
def State.commitAs (s : State) (seq : W32) (r : JRec) : State :=
  let s1 := s.putSlot seq (s.recordBits seq r)
  ({ s1 with bbx := { s1.bbx.advance seq with waiting := r.rest ++ s1.bbx.waiting } }).postRec seq r

/-- R462: the journal stops; the event has no record. DESIGN CHOICE (log 94). -/
def State.breakJournal (s : State) (r : JRec) : State :=
  let s1 := { s with bbx := { s.bbx with broken := true, lost := bump s.bbx.lost } }
  let e : JRec :=
    { r with more := false, code := 0x1111, cls := 0, skind := 6, sidx := 0, handle := 0, tenant := 0, payload := [] }
  (s1.postRec 0xFFFFFFFF r).postEvent 0 (e.event 0xFFFFFFFF)

/-- JOURNAL_COMMIT (R460, R462): the record that has waited longest. DEDUCED (log 92, 93). -/
def State.journalCommit (s : State) (firstOk retryOk : Bool) : State :=
  match s.bbx.waiting with
  | [] => s
  | r :: rest =>
    let s1 := { s with bbx := { s.bbx with waiting := rest } }
    if s.bbx.broken then
      ({ s1 with bbx := { s1.bbx with lost := bump s1.bbx.lost } }).postRec 0xFFFFFFFF r
    else
      let seq := s.bbx.newest + 1
      if firstOk then s1.commitAs seq r
      else if retryOk then (s1.putSlot seq (Config.badSlot seq.toNat)).commitAs (seq + 1) r
      else
        ((s1.putSlot seq (Config.badSlot seq.toNat)).putSlot (seq + 1) (Config.badSlot (seq + 1).toNat)).breakJournal r

/-- R461: the power-loss record, after the commit in progress; the records still waiting are lost. -/
def State.powerLoss (s : State) (code : Nat) : State :=
  let s1 := s.journalCommit true true
  let n := s1.bbx.waiting.length
  let s2 := { s1 with bbx := { s1.bbx with waiting := [], lost := bumpBy n s1.bbx.lost } }
  let s3 := s2.note code 0 7 0 0 0 [BitVec.ofNat 64 n]
  let mark := fun (r : JRec) => { r with flags := r.flags ||| 2#8 }
  ({ s3 with bbx := { s3.bbx with waiting := s3.bbx.waiting.map mark } }).journalCommit true true

/-- R451: a fault of class fatal. The module keeps what it holds and leaves state 3 only through a reset; the halt message
goes to the slice when the record has committed. -/
def State.fatal (s : State) (cause : Nat) (snapshot : List W64) : State :=
  { s with hm := { s.hm with state := 3 } }.note cause 4 6 0 0 0 snapshot

/-- R460: the record of a contained fault has not committed, so no request is ended yet. -/
def State.faultUnwritten (s : State) : Bool := s.bbx.waiting.any fun r => r.cls == 3

end Sys2Proof.Machine
end

