-- ==== Sys2Proof/Machine/Ecc.lean ====
section
/-! DEFINITION. Accumulator entries and punnet slots as a core holds them, and the check bits of its memories: what a
corrected and an uncorrectable error do, and the errors that a read finds (R61, R82, R100 to R102, R263). -/

namespace Sys2Proof.Machine

/-- Entry of accumulator index tile × 256 + entry. -/
def Core.accAt (k : Core) (i : Nat) : AccEntry := Sparse.get AccEntry.clear k.acc i

/-- Writes an entry, both its words. `counted` says whether flags that become set count in ACC_LONG and ACC_OVF (R113, R121). -/
def Core.setAcc (k : Core) (counted : Bool) (i : Nat) (e : AccEntry) : Core :=
  let old := k.accAt i
  let newLong := counted && e.long && !old.long
  let newOvf := counted && e.ovf && !old.ovf
  { k with
      acc := Sparse.put AccEntry.clear k.acc i e
      upsets := k.upsets.filter fun f => !(f.mem == .accumulator && f.word / 2 == i)
      ca := { k.ca with accLong := if newLong then bump k.ca.accLong else k.ca.accLong,
                        accOvf := if newOvf then bump k.ca.accOvf else k.ca.accOvf } }

/-- R102: a double-bit error marks the pair's word or the tag's. -/
def Core.markAcc (k : Core) (i : Nat) (tag : Bool) : Core :=
  let e := k.accAt i
  { k with acc := Sparse.put AccEntry.clear k.acc i (if tag then { e with badTag := true } else { e with badPair := true }) }

/-- Key of a punnet slot. -/
def punKey (e : EngineId) (ln slot : Nat) : Nat := e.val * 256 + ln * 8 + slot

def Core.pun (k : Core) (e : EngineId) (ln slot : Nat) : PunSlot := Sparse.get PunSlot.empty k.punnets (punKey e ln slot)

def Core.setPun (k : Core) (key : Nat) (p : PunSlot) : Core :=
  { k with punnets := Sparse.put PunSlot.empty k.punnets key p,
           upsets := k.upsets.filter fun f => !(f.mem == .punnet && f.word / 32 == key) }

/-- R453: one more corrected single-bit error of a core's memories. -/
def State.corrected (s : State) (c : CoreId) : State :=
  let n := (s.core c).seq.corrHour + 1
  let s1 := s.modSeq c fun q => { q with corrHour := n }
  if n = 65 then s1.note 0x1110 0 1 c.val 0 0 [] else s1

/-- R82: what the check bits of a punnet word do. -/
def punEcc (c : CoreId) (e : EngineId) (ln slot word : Nat) (ecc : Ecc) (s : State) : State :=
  match ecc with
  | .clean => s
  | .single => (s.modCa c fun a => { a with pneCorrected := bump a.pneCorrected }).corrected c
  | .double => s.modCore c fun k =>
      let t := k.pun e ln slot
      { k with punnets := Sparse.put PunSlot.empty k.punnets (punKey e ln slot) { t with bad := NSet.add word t.bad } }

/-- R102: what the check bits of a word of entry `i` say, the pair's or the tag's. -/
def accEcc (c : CoreId) (i : Nat) (tag : Bool) (ecc : Ecc) (s : State) : State :=
  match ecc with
  | .clean => s
  | .single => (s.modCa c fun a => { a with accCorrected := bump a.accCorrected }).corrected c
  | .double => s.modCore c fun k => k.markAcc i tag

/-- R263: what the check bits of a scratchpad word say: a corrected error counts, a double-bit error poisons the word. -/
def spEcc (c : CoreId) (w : Nat) (double : Bool) (s : State) : State :=
  if double then
    if s.poison.contains w then s
    else ({ s with poison := NSet.add w s.poison }).modCa c fun a => { a with spdPoisoned := bump a.spdPoisoned }
  else (s.modCa c fun a => { a with spdCorrected := bump a.spdCorrected }).corrected c

/-- R82, R102: an error in punnet or accumulator memory is found. Word numbers count 64-bit words: a punnet slot has 32, an
entry its pair and its tag. -/
def coreEcc (c : CoreId) (f : ScrubFind) (s : State) : State :=
  let e := if f.double then Ecc.double else .single
  match f.mem with
  | .scratchpad => spEcc c (spKey c 0 / 8 + f.word) f.double s
  | .punnet => punEcc c (Fin.ofNat 4 (f.word / 8192)) (f.word / 256 % 32) (f.word / 32 % 8) (f.word % 32) e s
  | .accumulator => accEcc c (f.word / 2) (f.word % 2 == 1) e s

/-! ## Errors that lie in a memory until a read finds them -/

/-- R263: a read of the core's scratchpad finds the bit errors of the words that it touches. -/
def State.senseSp (s : State) (c : CoreId) (off n : Nat) : State :=
  let lo := spKey c off / 8
  let hi := (spKey c off + n - 1) / 8
  let hit := fun (f : Nat × Bool) => n != 0 && decide (lo ≤ f.1) && decide (f.1 ≤ hi)
  (s.flips.filter hit).foldl (fun s f => spEcc c f.1 f.2 s) { s with flips := s.flips.filter fun f => !hit f }

/-- The errors of punnet or accumulator memory that satisfy `hit` are found. -/
def State.senseCore (s : State) (c : CoreId) (hit : ScrubFind → Bool) : State :=
  ((s.core c).upsets.filter hit).foldl (fun s f => coreEcc c f s)
    (s.modCore c fun k => { k with upsets := k.upsets.filter fun f => !hit f })

/-- R102: a read of accumulator entry `i` with its tag. -/
def State.senseAcc (s : State) (c : CoreId) (i : Nat) : State :=
  s.senseCore c fun f => f.mem == .accumulator && f.word / 2 == i

/-- R82: a read of one word of a punnet slot. -/
def State.sensePun (s : State) (c : CoreId) (key word : Nat) : State :=
  s.senseCore c fun f => f.mem == .punnet && f.word == 32 * key + word

/-- Words of a core's memory: 1 MiB of scratchpad, 256 KiB of punnet memory, 16,384 entries of two words (R20). -/
def memWords (m : ScrubMem) : Nat :=
  match m with
  | .scratchpad => 131072
  | _ => 32768

/-- Bit errors strike words of the core's memories; a read or the scrubber finds them. -/
def State.strike (s : State) (c : CoreId) (f : ScrubFind) : State :=
  if memWords f.mem ≤ f.word then s
  else
    match f.mem with
    | .scratchpad => { s with flips := (spKey c 0 / 8 + f.word, f.double) :: s.flips }
    | _ => s.modCore c fun k => { k with upsets := f :: k.upsets }

end Sys2Proof.Machine
end

