-- ==== Sys2Proof/Machine/Operands.lean ====
section
/-! DEFINITION. Register operands of a core: reads in the issue cc, results that become visible later (R158, R165,
R249), and the forms in which instructions name scalars, vectors, addresses and broadcast values. -/

namespace Sys2Proof.Machine

/-- s0 reads as zero. -/
def Core.sreg (k : Core) (r : RegIx) : W64 := if r = 0 then 0 else k.s[r.toNat]!

def Core.vreg (k : Core) (r : RegIx) : BitVec 1024 := k.v[r.toNat]!

def Core.mreg (k : Core) (t : BitVec 2) : BitVec 8192 := k.m[t.toNat]!

/-- Writes to s0 are discarded. -/
def Core.setS (k : Core) (r : RegIx) (x : W64) : Core := if r = 0 then k else { k with s := k.s.set! r.toNat x }

def Core.setV (k : Core) (r : RegIx) (x : BitVec 1024) : Core := { k with v := k.v.set! r.toNat x }

/-- R156: element (i, j) of a tile is word 16 i + j. -/
def tileElem (t : BitVec 8192) (i j : Nat) : W32 := t.extractLsb' (32 * (16 * i + j)) 32

/-- A tile from its 256 words. -/
def tileOf (f : Nat → W32) : BitVec 8192 := BitVec.ofNat 8192 (packFields 32 ((List.range 256).map fun i => (f i).toNat))

/-- R156: a vector register from its 32 lanes. -/
def lanesOf (f : Nat → W32) : BitVec 1024 := BitVec.ofNat 1024 (packFields 32 ((List.range 32).map fun i => (f i).toNat))

def lane (v : BitVec 1024) (l : Nat) : W32 := v.extractLsb' (32 * l) 32

/-- R156: a vector register from its 64 BF16 lanes. -/
def lanes16Of (f : Nat → W16) : BitVec 1024 := BitVec.ofNat 1024 (packFields 16 ((List.range 64).map fun i => (f i).toNat))

def lane16 (v : BitVec 1024) (l : Nat) : W16 := v.extractLsb' (16 * l) 16

/-- R165: elements outside the mask keep what the tile holds. -/
def Core.setM (k : Core) (t : BitVec 2) (mask : BitVec 256) (x : BitVec 8192) : Core :=
  let old := k.mreg t
  let new := tileOf fun i => if mask.getLsbD i then x.extractLsb' (32 * i) 32 else old.extractLsb' (32 * i) 32
  { k with m := k.m.set! t.toNat new }

def PendWrite.time : PendWrite → Nat
  | .s t _ _ _ => t
  | .v t _ _ _ => t
  | .m t _ _ _ _ => t

def PendWrite.order : PendWrite → Nat
  | .s _ o _ _ => o
  | .v _ o _ _ => o
  | .m _ o _ _ _ => o

/-- R158: earlier arrival first, and in one cc the earlier issue first. -/
def PendWrite.before (a b : PendWrite) : Bool :=
  decide (a.time < b.time) || (a.time == b.time && decide (a.order ≤ b.order))

def insertPend (w : PendWrite) : List PendWrite → List PendWrite
  | [] => [w]
  | x :: r => if PendWrite.before x w then x :: insertPend w r else w :: x :: r

def Core.land (k : Core) : PendWrite → Core
  | .s _ _ r x => k.setS r x
  | .v _ _ r x => k.setV r x
  | .m _ _ t mask x => k.setM t mask x

/-- Lands the results visible by cc `now`; the list is kept in the order of R158. -/
def landAll (now : Nat) : List PendWrite → Core → Core
  | [], k => { k with pend := [] }
  | w :: r, k => if w.time ≤ now then landAll now r (k.land w) else { k with pend := w :: r }

/-- DEDUCED (log 19). -/
def Core.settle (k : Core) (now : Nat) : Core := landAll now k.pend k

/-- The point of issue of a bundle: its core, cc, offset, and the number of its control slot's instruction; slot n's
instruction is number `id + n`. DEDUCED (log 23). -/
structure At where
  c : CoreId
  now : Nat
  pc : BitVec 20
  id : Nat
  deriving DecidableEq, Repr

/-- R158: a scalar result of latency `lat` from slot `slot`. DEDUCED (log 19). -/
def Core.putS (k : Core) (x : At) (slot lat : Nat) (r : RegIx) (val : W64) : Core :=
  { k with pend := insertPend (.s (x.now + lat) (x.id + slot) r val) k.pend }

/-- R158: a vector result. -/
def Core.putV (k : Core) (x : At) (lat : Nat) (r : RegIx) (val : BitVec 1024) : Core :=
  { k with pend := insertPend (.v (x.now + lat) (x.id + 2) r val) k.pend }

/-- R165: the cc of the latest write to tile `t` still on its way, 0 if none. -/
def lastTile (t : BitVec 2) (ps : List PendWrite) : Nat :=
  ps.foldl (fun a p => match p with | .m u _ t' _ _ => if t' = t then max a u else a | _ => a) 0

/-- R165: a tile result; it lands after every earlier write to the tile. -/
def Core.putM (k : Core) (x : At) (lat : Nat) (t : BitVec 2) (mask : BitVec 256) (val : BitVec 8192) : Core :=
  { k with pend := insertPend (.m (max (x.now + lat) (lastTile t k.pend + 1)) (x.id + 2) t mask val) k.pend }

/-- Address forms s[ra] + offset, as an unbounded number (R252, R163). -/
def Core.addr (k : Core) (ra : RegIx) (off : BitVec 20) : Nat := (k.sreg ra).toNat + off.toNat

/-- R159: the b operand in a 32-bit view, a vector register or a broadcast scalar. -/
def Core.opB32 (k : Core) (r : VRegs) : BitVec 1024 :=
  if r.bs then lanesOf fun _ => (k.sreg r.vb).extractLsb' 0 32 else k.vreg r.vb

/-- R159: the b operand in the BF16 view. -/
def Core.opB16 (k : Core) (r : VRegs) : BitVec 1024 :=
  if r.bs then lanes16Of fun _ => (k.sreg r.vb).extractLsb' 0 16 else k.vreg r.vb

end Sys2Proof.Machine
end

