-- ==== Sys2Proof/Machine/Engines.lean ====
section
/-! DEFINITION. How far a PLOOK has come on its engine, and what its engine waits for (R72 to R80, R107, R117 to R119). -/

namespace Sys2Proof.Machine

def Core.setEng (k : Core) (e : EngineId) (g : Engine) : Core := { k with engines := k.engines.set e.val g }

def Core.modEng (k : Core) (e : EngineId) (f : Engine → Engine) : Core := k.setEng e (f k.engines[e])

/-- Frees the scoreboard entries that unit event `id` owns (R91). -/
def Core.freeUnit (k : Core) (id : Nat) : Core :=
  { k with sb := k.sb.map fun o =>
      match o with
      | some e => if e.free = .byUnit id then none else some e
      | none => none }

/-- The two unit events of instruction `id`: its reads are done; its last write is done. -/
def readsDone (id : Nat) : Nat := 2 * id
def writesDone (id : Nat) : Nat := 2 * id + 1

/-- Whether engine `e` is in a mask. -/
def inMask (m : BitVec 4) (e : EngineId) : Bool := m.getLsbD e.val

def allEngines : List EngineId := [0, 1, 2, 3]



/-- Its first and last slot of the pass. -/
def Plook.lastSlot (p : Plook) : Nat := (p.h0 + p.nHalf - 1) / 2

def Plook.fetchDone (p : Plook) : Bool := decide (p.fetchSlot > p.lastSlot)

/-- The halves of a slot that the PLOOK covers. -/
def Plook.halves (p : Plook) (slot : Nat) : List Nat :=
  [2 * slot, 2 * slot + 1].filter fun h => decide (p.h0 ≤ h) && decide (h < p.h0 + p.nHalf)

/-- R81: whether the mask marks a half for a row. -/
def Plook.masked (p : Plook) (row h : Nat) : Bool :=
  p.mask.contains ((p.firstRow + row) / 80 - p.firstRow / 80, h)

/-- R78: the block index expected for a half. -/
def Plook.expect (p : Plook) (h : Nat) : Nat := p.blk + h - p.h0

def Plook.verdictsDone (p : Plook) : Bool := p.chk.isNone || decide (p.verdictSlot > p.lastSlot)

/-- R79, R119: all lookups of the head PLOOK from a slot are performed. -/
def Engine.slotDone (g : Engine) (p : Plook) (slot : Nat) : Bool :=
  if p.halves slot = [] then true
  else if p.chk.isSome then decide (p.verdictSlot > slot)
  else decide (p.fetchSlot > slot) && !(g.lines.any fun l => l.slot == slot)
    && !(g.ready.any fun r => r.half / 2 == slot)

/-- R89: whether the head PLOOK's lookups are all performed, its block integers handed on. DESIGN CHOICE (log 172). -/
def Engine.lookupsDone (g : Engine) (p : Plook) : Bool :=
  p.fetchDone && g.lines == [] && g.ready == [] && p.verdictsDone

/-- R78: whether a build issued before the PLOOK will still write the expected index to a slot. -/
def Core.buildComing (k : Core) (e : EngineId) (p : Plook) (ln slot : Nat) : Bool :=
  k.builds.any fun b =>
    decide (b.id < p.id) && inMask b.emask e && decide (b.next ≤ 32 * slot + ln)
      && decide ((32 * slot + ln) / 16 < b.nrec) && b.blk + (32 * slot + ln) / 16 == p.expect (2 * slot + ln / 16)

/-- R78, R80: the slot is valid, carries the expected index, and no build issued before will write it again. -/
def Core.slotReady (k : Core) (e : EngineId) (p : Plook) (ln slot : Nat) : Bool :=
  let t := k.pun e ln slot
  t.valid && t.block.toNat == p.expect (2 * slot + ln / 16) && !k.buildComing e p ln slot

/-- What a lookup or hand-off finds at a slot: ready, to wait for, or never built (R78). -/
inductive SlotCase where
  | ready | wait | never
  deriving DecidableEq, Repr

def Core.slotCase (k : Core) (e : EngineId) (p : Plook) (ln slot : Nat) : SlotCase :=
  if k.slotReady e p ln slot then .ready else if k.buildComing e p ln slot then .wait else .never

/-- The 16 lanes of a half. -/
def halfLanes (h : Nat) : List Nat := (List.range 16).map fun i => 16 * (h % 2) + i

/-! ## What waits (R74, R78, R107, R119) -/

/-- R117, R118: whether a slot of the PLOOK has its verdict. -/
def Plook.passed (p : Plook) (slot : Nat) : Bool := p.chk.isNone || decide (p.verdictSlot > slot)

/-- R107: whether PLOOK `p` of an engine has still to deliver to the entry of its row `row`, or lacks the verdict of a slot
that writes it. `head` says that the engine executes it. -/
def Engine.owes (g : Engine) (head : Bool) (p : Plook) (row : Nat) : Bool :=
  let writes := fun slot => (p.halves slot).any fun h => !p.masked row h
  let slots := (List.range 8).filter fun slot => writes slot
  if !head then slots != []
  else
    (slots.any fun slot => !p.passed slot)
      || (slots.any fun slot => decide (p.fetchSlot < slot) || (p.fetchSlot == slot && decide (p.fetchRow ≤ row)))
      || (g.lines.any fun l => l.row == row) || (g.ready.any fun r => r.row == row) || g.deliv.any fun d => d.row == row

/-- R107: whether a PLOOK that was issued before `p`, on another engine, still has to do with the entry. -/
def Core.earlierWriter (k : Core) (p : Plook) (entry : Nat) : Bool :=
  allEngines.any fun e =>
    let g := k.engines[e]
    g.queue.zipIdx.any fun q =>
      decide (q.1.id < p.id) && q.1.tile == p.tile && decide (q.1.entry ≤ entry) && decide (entry < q.1.entry + q.1.nRow)
        && g.owes (q.2 == 0) q.1 (entry - q.1.entry)

/-- R107: the engine's oldest delivery waits for an earlier instruction's. -/
def Core.waitOrder (k : Core) (g : Engine) : Bool :=
  match g.queue, g.deliv with
  | p :: _, d :: _ => k.earlierWriter p (p.entry + d.row)
  | _, _ => false

/-- R119: the undo log is full of deliveries whose slots have no verdict. -/
def Engine.holdLog (g : Engine) : Bool :=
  match g.queue, g.deliv with
  | p :: _, _ :: _ => p.chk.isSome && decide (g.undo.length ≥ 1024)
  | _, _ => false

/-- R107, R119: whether the merge stage of an engine holds. -/
def Core.mergeHolds (k : Core) (g : Engine) : Bool := k.waitOrder g || g.holdLog

/-- R78: whether a lane, or the hand-off of a half, waits for a punnet. -/
def Core.waitBuild (k : Core) (e : EngineId) : Bool :=
  let g := k.engines[e]
  match g.queue with
  | [] => false
  | p :: _ =>
    ((List.range 32).any fun ln =>
      match g.lanes.toList.getD ln [] with
      | t :: _ => g.lines.any fun l => l.id == t.line && k.slotCase e p ln l.slot == .wait
      | [] => false)
    || match g.ready with
      | h :: _ => (halfLanes h.half).any fun ln => k.slotCase e p ln (h.half / 2) == .wait
      | [] => false

/-- R75: lines in flight that lanes have work for or had. -/
def Engine.inFlight (g : Engine) : Nat := (g.lines.filter fun l => !l.skipped).length

/-- R72, R75: the fetch stage holds a line while 16 are in flight or a lane that receives it has a full queue. -/
def Engine.holdFetch (g : Engine) : Bool :=
  match g.holdFor with
  | some lanes => decide (g.inFlight ≥ 16) || lanes.any fun ln => decide ((g.lanes.toList.getD ln []).length ≥ 8)
  | none => false

end Sys2Proof.Machine
end

