-- ==== Sys2Proof/Machine/CoreRegs.lean ====
section
/-! DEFINITION. The registers of a core's control window, as a read returns them (R243): the layouts of R97, R126, R153,
R178, R242, R268, R289 and the codec counters. Undefined offsets read zero (R252). -/

namespace Sys2Proof.Machine

/-- R268: the state code of SEQ_CTRL. -/
def SeqState.code : SeqState → Nat
  | .idle => 0
  | .running => 1
  | .stalled => 2
  | .ending => 3
  | .scrubbing => 4
  | .faulted => 5
  | .halted => 6

def SbKind.code : SbKind → Nat
  | .read => 0
  | .write => 1
  | .await => 2

/-- R268: a SEQ_SB register. -/
def sbWord : Option SbEntry → W64
  | none => 0
  | some e => BitVec.ofNat 64
      (2 ^ 63 + e.kind.code * 2 ^ 61 + bit e.acc * 2 ^ 60 + e.first * 2 ^ 40 + e.last * 2 ^ 20 + e.left % 2 ^ 20)

/-- R265: the 256 bits of the fault record. -/
def FaultRec.bits (f : FaultRec) : BitVec 256 :=
  f.cause ++ f.cls ++ f.slot ++ f.unit ++ f.more ++ 0#18 ++ f.bundle ++ f.detail ++ f.stall ++ f.time

def Core.faultWord (k : Core) (i : Nat) : W64 :=
  match k.seq.fault with
  | some f => f.bits.extractLsb' (64 * i) 64
  | none => 0

def Core.seqCtrl (k : Core) : W64 :=
  BitVec.ofNat 64 (k.seq.pc.toNat * 2 ^ 32 + k.seq.state.code * 2 ^ 5 + bit k.seq.faultThisTask * 2 ^ 4)

def Core.seqProg (k : Core) : W64 :=
  BitVec.ofNat 64 (k.seq.base.toNat * 2 ^ 33 + k.seq.nbm1.toNat * 2 ^ 18 + k.seq.entry.toNat * 2 ^ 3)

/-- DEDUCED (log 24). -/
def Core.sbReg (k : Core) (n : Nat) : W64 :=
  match k.seq.frozen with
  | some v => sbWord v[n]!
  | none => sbWord (k.sb[n]!.filter (SbEntry.live k.seq.cc))

def Core.bankPwr (k : Core) : W64 :=
  BitVec.ofNat 64 (k.seq.bankOn.toNat + 2 ^ 16 * bit (k.seq.zeroing || k.seq.filling))

/-- R97: the status byte of an engine. -/
def Core.engByte (k : Core) (i : EngineId) : Nat :=
  let e := k.engines[i]
  bit (e.queue != []) * 128 + e.queue.length * 16 + bit (k.waitBuild i) * 8
    + bit (match e.lines with | l :: _ => l.waiting != [] | [] => false) * 4 + bit e.holdFetch * 2
    + bit (k.faultUnit == some (.eng i))

def Core.pneStatus (k : Core) : W64 :=
  BitVec.ofNat 64 (k.engByte 0 + k.engByte 1 * 2 ^ 8 + k.engByte 2 * 2 ^ 16 + k.engByte 3 * 2 ^ 24)

def Core.pnbStatus (k : Core) : W64 :=
  BitVec.ofNat 64 (bit (k.builds != []) * 128 + k.builds.length * 16
    + bit (match k.builds with | b :: _ => b.waitFree | [] => false) * 8)

/-- A 4-bit mask with one bit per engine. -/
def Core.engMask (k : Core) (p : Engine → Bool) : Nat :=
  bit (p k.engines[0]) + 2 * bit (p k.engines[1]) + 4 * bit (p k.engines[2]) + 8 * bit (p k.engines[3])

def Engine.headIs (e : Engine) (p : Plook → Bool) : Bool :=
  match e.queue with
  | q :: _ => p q
  | [] => false

/-- R126. DESIGN CHOICE (log 178). -/
def Core.accStatus (k : Core) : W64 :=
  BitVec.ofNat 64
    (k.engMask (fun e => e.headIs fun p => p.chk.isSome && decide (p.verdictSlot < p.fetchSlot)) * 2 ^ 12
      + k.engMask (fun e => e.headIs (·.retrying)) * 2 ^ 8 + k.engMask k.waitOrder * 2 ^ 4 + k.engMask (·.holdLog))

/-- R153. DESIGN CHOICE (log 180). -/
def Core.ostStatus (k : Core) : W64 :=
  let now := k.seq.cc
  let live := k.ost.jobs.filter fun j => decide (now ≤ j.done)
  BitVec.ofNat 64
    (bit (live != []) * 128 + live.length * 16 + bit (live.any fun j => j.rot && decide (j.start ≤ now)) * 8
      + bit (k.ost.jobs.any fun j => decide (j.done < now) && decide (now ≤ j.tallyAt)) * 4
      + bit k.ost.poisonSeen * 2 + bit (k.faultUnit == some .ost))

/-- Pipe `i`, in the order of R155. -/
def Core.pipe (k : Core) (i : Nat) : Pipe := k.pipes.toList.getD i ⟨0, 0⟩

/-- R178. -/
def Core.vecStatus (k : Core) : W64 :=
  let ctx := bit k.ctx[0].active + 2 * bit k.ctx[1].active + 4 * bit k.ctx[2].active + 8 * bit k.ctx[3].active
  let busy := fun i => bit (decide (k.seq.cc < (k.pipe i).idle))
  BitVec.ofNat 64
    (ctx * 2 ^ 12 + busy 0 * 2 ^ 11 + busy 1 * 2 ^ 10 + busy 2 * 2 ^ 9 + busy 3 * 2 ^ 8 + busy 4 * 2 ^ 7
      + busy 5 * 2 ^ 6 + bit (k.faultUnit == some .vec))

/-- R242. -/
def Core.rtStatus (k : Core) : W64 :=
  BitVec.ofNat 64
    (min 255 k.dqu.banks[1].got.length * 2 ^ 16 + min 255 k.dqu.banks[0].got.length * 2 ^ 8
      + bit k.dqu.banks[1].complete * 8 + bit k.dqu.banks[0].complete * 4 + bit k.dqu.takeWait * 2
      + bit (k.faultUnit == some .rt))

/-- R289. -/
def Core.dmaStat (k : Core) : W64 :=
  BitVec.ofNat 64
    (k.dqu.transfers.length * 2 ^ 11 + k.dqu.puts.length * 2 ^ 5 + bit k.dqu.fenceWait * 16
      + bit (k.faultUnit == some .hq))

def Core.queue (k : Core) (q : Nat) : HQueue := Sparse.get HQueue.reset k.dqu.queues q

def Core.setQueue (k : Core) (q : Nat) (h : HQueue) : Core :=
  { k with dqu := { k.dqu with queues := Sparse.put HQueue.reset k.dqu.queues q h } }

/-- R280: committed words not yet read, tag words included. -/
def HQueue.words (h : HQueue) : Nat :=
  (h.packets.map fun p => match p.state with | .committed => p.n + 1 - p.read | _ => 0).sum

/-- R280: committed packets not yet wholly read. -/
def HQueue.count (h : HQueue) : Nat := (h.packets.filter fun p => p.state == .committed).length

def HQueue.cntWord (h : HQueue) : W64 := BitVec.ofNat 64 (h.count * 2 ^ 32 + h.words)

def HQueue.statWord (h : HQueue) : W64 :=
  BitVec.ofNat 64 (bit h.perr * 8 + bit h.rewound * 4 + bit h.underrun * 2
    + bit (h.packets.any fun p => p.state == .arriving))

/-- Sequencer and scratchpad registers, 0x0000 to 0x01FF (R268). -/
def Core.readSeq (k : Core) (off : Nat) : W64 :=
  if 0x80 ≤ off ∧ off < 0x180 then k.sbReg ((off - 0x80) / 8)
  else match off with
  | 0x00 => k.seqCtrl
  | 0x08 => k.seqProg
  | 0x10 => k.seq.wdogLimit.setWidth 64
  | 0x18 => k.stallNow
  | 0x20 => k.faultWord 0
  | 0x28 => k.faultWord 1
  | 0x30 => k.faultWord 2
  | 0x38 => k.faultWord 3
  | 0x40 => k.ca.seqBundles
  | 0x48 => k.ca.seqStallcc
  | 0x180 => k.bankPwr
  | 0x188 => k.ca.spdCorrected
  | 0x190 => k.ca.spdPoisoned
  | 0x198 => k.ca.spdPasses
  | 0x1A0 => k.ca.spdHeld
  | _ => 0

/-- Engine, accumulator, output-stage and vector registers, 0x0200 to 0x03FF. -/
def Core.readUnits (k : Core) (off : Nat) : W64 :=
  match off with
  | 0x200 => k.pneStatus
  | 0x208 => k.ca.pneLookups
  | 0x210 => k.ca.pneSkips
  | 0x218 => k.ca.pneWaits
  | 0x220 => k.ca.pneInvalid
  | 0x228 => k.ca.pneCorrected
  | 0x240 => k.pnbStatus
  | 0x248 => k.ca.pnbBuilt
  | 0x280 => k.accStatus
  | 0x288 => k.ca.accChecks
  | 0x290 => k.ca.accChkfail
  | 0x298 => k.ca.accRetryok
  | 0x2A0 => k.ca.accUnchecked
  | 0x2A8 => k.ca.accLong
  | 0x2B0 => k.ca.accOvf
  | 0x2B8 => k.ca.accCorrected
  | 0x300 => k.ostStatus
  | 0x308 => k.ost.rotSeed
  | 0x310 => k.ost.g8Seed
  | 0x318 => k.ost.step
  | 0x320 => k.cb.ostRecords
  | 0x328 => k.cb.ostCapped
  | 0x330 => k.cb.ostZero
  | 0x338 => k.cb.ostPoison
  | 0x340 => k.cb.ostLongout
  | 0x380 => k.vecStatus
  | 0x388 => k.cb.vecIssued
  | 0x390 => k.cb.vecStalls
  | 0x398 => k.cb.vecNanout
  | 0x3A0 => k.cb.vecFeeds
  | _ => 0

/-- Router, queue, mesh and codec registers, from 0x0480. -/
def Core.readMesh (k : Core) (off : Nat) : W64 :=
  match off with
  | 0x480 => k.rtStatus
  | 0x488 => BitVec.ofNat 64 (k.dqu.rtArea.toNat * 64)
  | 0x490 => k.cb.rtPkts
  | 0x498 => k.cb.rtHold
  | 0x4A0 => k.cb.rtEntries
  | 0x500 => k.dqu.area
  | 0x508 => k.dmaStat
  | 0x510 => k.cb.hqPkts
  | 0x518 => k.cb.hqRewound
  | 0x520 => k.cb.hqUnderrun
  | 0x528 => k.cb.hqPtrerr
  | 0x530 => k.cb.hqDmas
  | 0x538 => k.cb.hqDmaerr
  | 0x540 => k.dqu.mcMemb
  | 0x548 => k.cb.mshCorrected
  | 0x550 => k.cb.mshPoisoned
  | 0x560 => k.cb.cdcBlocks
  | 0x568 => k.cb.cdcRaw
  | 0x570 => k.cb.cdcCrcfail
  | 0x578 => k.cb.cdcCodecfail
  | 0x580 => k.cb.cdcRetryok
  | 0x588 => k.cb.cdcStale
  | _ => 0

/-- A read of the control window at byte offset `off`. -/
def Core.readReg (k : Core) (off : Nat) : W64 :=
  if off % 8 ≠ 0 then 0
  else if off < 0x200 then k.readSeq off
  else if off < 0x400 then k.readUnits off
  else if off < 0x600 then k.readMesh off
  else if off < 0x800 then (Sparse.get 0 k.dqu.mcBox ((off - 0x600) / 8)).setWidth 64
  else if off < 0x1000 then 0
  else if off < 0x1400 then (k.queue ((off - 0x1000) / 8)).cfg
  else if off < 0x1800 then (k.queue ((off - 0x1400) / 8)).cntWord
  else if off < 0x1C00 then (k.queue ((off - 0x1800) / 8)).statWord
  else 0

end Sys2Proof.Machine
end

