-- ==== Sys2Proof/Machine/Plan.lean ====
section
/-! DEFINITION. What a slot instruction asks of the sequencer in the cc in which its bundle would issue: a fault, stall
conditions, scoreboard ranges, where control goes, and its effect (R248, R255 to R257, R515). -/

namespace Sys2Proof.Machine

/-- Where the sequencer goes after a bundle (R253, R254). -/
inductive Flow where
  | seq
  | jump (target : Int)
  | loop (count body : Nat)
  | stop
  deriving DecidableEq, Repr

/-- The outcome of a slot instruction at an issue point. `fault` is a cause and its detail, raised at issue; `stall`
holds bits of SEQ_STALL; `act` is the effect when the bundle issues; `descs` are the descriptors read in the issue cc (R515), as
offset and length. DEDUCED (log 23). -/
structure Plan where
  fault : Option (Nat × Nat)
  stall : Nat
  ranges : List SbEntry
  flow : Flow
  act : State → State
  descs : List (Nat × Nat) := []

/-- An instruction that does nothing. -/
def Plan.nop : Plan := ⟨none, 0, [], .seq, id, []⟩

/-- An instruction that faults at issue. -/
def Plan.bad (cause detail : Nat) : Plan := ⟨some (cause, detail), 0, [], .seq, id, []⟩

/-- A plan that must also wait for its unit: a fault at issue waits as an effect does (R248). DEDUCED (log 20). -/
def Plan.after (bits : Nat) (p : Plan) : Plan := { p with stall := p.stall ||| bits }

/-- Stall bits of SEQ_STALL (R268). -/
def stallRange : Nat := 64
def stallFull : Nat := 32
def stallQueue : Nat := 16
def stallRtake : Nat := 8
def stallDrain : Nat := 4
def stallFetch : Nat := 2

def stallIf (b : Bool) (bits : Nat) : Nat := if b then bits else 0

/-- A range of `len` bytes of scratchpad from `off` on. -/
def spRange (kind : SbKind) (off len : Nat) (free : SbFree) : SbEntry :=
  ⟨kind, false, off, off + len - 1, 0, free, false, false⟩

/-- A range of `n` accumulator indices from `i` on. -/
def accRange (kind : SbKind) (i n : Nat) (free : SbFree) : SbEntry :=
  ⟨kind, true, i, i + n - 1, 0, free, false, false⟩

/-- Whether `len` bytes from `off` on lie in the scratchpad window. -/
def inWin (off len : Nat) : Bool := decide (off + len ≤ Config.windowBytes)

/-- R256: two ranges overlap. -/
def SbEntry.overlaps (a b : SbEntry) : Bool :=
  a.acc == b.acc && decide (a.first ≤ b.last) && decide (b.first ≤ a.last)

/-- R257: whether a new range of a local instruction must wait for an entry. -/
def SbEntry.waitsFor (new old : SbEntry) : Bool :=
  new.overlaps old &&
    match new.kind, old.kind with
    | .read, .read => false
    | .read, _ => true
    | .write, .write => !(new.plook && !new.fresh && old.plook)
    | .write, _ => true
    | .await, .await => false
    | .await, _ => true

/-- R245: bytes of the program region, as first offset and first offset past it. -/
def Core.region (k : Core) : Nat × Nat :=
  (k.seq.base.toNat * 32, k.seq.base.toNat * 32 + (k.seq.nbm1.toNat + 1) * 32)

/-- Queue area: first offset and first offset past it (R289). DEDUCED (log 29). -/
def Core.queueArea (k : Core) : Nat × Nat :=
  let off := fld k.dqu.area.toNat 0 20
  (off, off + fld k.dqu.area.toNat 20 20)

/-- The first offset in [first, last] that lies in [lo, hi). DEDUCED (log 29). -/
def meets (first last lo hi : Nat) : Option Nat :=
  if first < hi ∧ lo ≤ last ∧ lo < hi then some (max first lo) else none

/-- R261: the first byte of [first, last] in a bank that is powered down. -/
def Core.downByte (k : Core) (first last : Nat) : Option Nat :=
  (List.range 16).findSome? fun b =>
    if k.seq.bankOn.getLsbD b then none else meets first last (b * 0x10000) (b * 0x10000 + 0x10000)

/-- R245, R261, R283: the fault that a local range raises at issue. DEDUCED (log 29). -/
def Core.rangeFault (k : Core) (e : SbEntry) : Option (Nat × Nat) :=
  if e.acc then none
  else
    match (if e.kind == .read then none else meets e.first e.last k.region.1 k.region.2) with
    | some o => some (0x0905, o)
    | none =>
      match k.downByte e.first e.last with
      | some o => some (0x0907, o)
      | none =>
        match meets e.first e.last k.queueArea.1 k.queueArea.2 with
        | some o => some (0x0A03, o)
        | none => none

/-- The fault of a slot: its own, or the first that its ranges raise. -/
def Plan.faultAt (k : Core) (p : Plan) : Option (Nat × Nat) :=
  match p.fault with
  | some f => some f
  | none => p.ranges.findSome? k.rangeFault

/-- R515: whether a descriptor's bytes still wait for an earlier write or await. -/
def Core.descWaits (k : Core) (off len : Nat) : Bool :=
  k.sb.toList.any fun e =>
    match e with
    | some o => (spRange .read off len (.atCc 0)).waitsFor o
    | none => false

/-- A plan that reads a descriptor in the issue cc (R515): it waits for its unit and for the bytes, faults on a range that it may not
read (R261, R283) or a poisoned word (R263), and otherwise goes on as `p`. -/
def withDesc (s : State) (x : At) (off len bits : Nat) (p : Plan) : Plan :=
  let k := s.core x.c
  let range := spRange .read off len (.atCc (x.now + 2))
  if k.descWaits off len then { Plan.nop with stall := bits, ranges := [range] }
  else
    match k.rangeFault range with
    | some f => (Plan.bad f.1 f.2).after bits
    | none =>
      let q := match s.spPoison? x.c off len with
        | some o => Plan.bad 0x0906 o
        | none => p
      { q.after bits with descs := [(off, len)] }

/-- Unit number of a fault that a unit raises (R265). -/
def FUnit.num : FUnit → Nat
  | .eng e => e.val
  | _ => 0

/-- R263: reads the bytes: what errors they hold is found, the first poisoned word raises "scratchpad memory error", and
otherwise `f` is done. -/
def readOr (x : At) (slot : Nat) (by_ : FUnit) (off len : Nat) (f : State → State) (s : State) : State :=
  let s1 := s.senseSp x.c off len
  match s1.spPoison? x.c off len with
  | some o => s1.raise x.c ⟨0x0906, slot, by_.num, x.pc, o, by_⟩
  | none => f s1

end Sys2Proof.Machine
end

