-- ==== Sys2Proof/Machine/Accum.lean ====
section
/-! DEFINITION. Accumulator memory and the accumulator class of the vector slot: ACFG, ACLR, AMRG, ALDP, ASTP
(R100 to R102, R121 to R123). -/

namespace Sys2Proof.Machine

/-- R102: use of a word with a double-bit error. -/
def accMemFault (x : At) : FaultReq := ⟨0x0404, 2, 0, x.pc, 0, .acc⟩

def badAcc : Plan := Plan.bad 0x0401 0

/-- The check configured for a tile (R115). -/
def Core.checkOf (k : Core) (tile : Nat) : Option ChkDesc := assoc? tile k.checks

/-- R121: an accumulator instruction that issues is counted in VEC_ISSUED and uses no pipe (R155). -/
def accIssue (x : At) (stall : Nat) (ranges : List SbEntry) (act : State → State) : Plan :=
  { fault := none, stall := stall, ranges := ranges, flow := .seq,
    act := fun s => act (s.modCb x.c fun b => { b with vecIssued := bump b.vecIssued }) }

/-- R115: the descriptor's fields, or none where ACFG faults. -/
def chkDescOf (n : Nat) : Option ChkDesc :=
  let nc := fld n 104 4
  if fld n 108 20 ≠ 0 ∨ fld n 24 40 ≠ 0 ∨ nc = 0 ∨ nc > 12 then none
  else some ⟨nc, fld n 84 20, fld n 64 20, sgn 24 (fld n 0 24)⟩

/-- R123: whether a PLOOK issued before has verdicts outstanding on the tile. -/
def Core.verdictsOpen (k : Core) (tile : Nat) : Bool :=
  k.engines.toList.any fun e => e.queue.any fun p => p.tile == tile && !p.verdictsDone

/-- ACFG (R121). -/
def acfgPlan (s : State) (x : At) (tile : BitVec 6) (sCd : RegIx) (en : Bool) : Plan :=
  let k := s.core x.c
  let wait := stallIf (k.verdictsOpen tile.toNat) stallDrain
  if en then
    let a := (k.sreg sCd).toNat
    if inWin a 16 then
      withDesc s x a 16 wait <|
        match chkDescOf (s.spRd x.c a 16) with
        | none => badAcc
        | some d =>
          accIssue x 0 [spRange .read a 16 (.atCc (x.now + 2))] fun s =>
            s.modCore x.c fun k => { k with checks := Sparse.insert tile.toNat d k.checks }
    else badAcc.after wait
  else
    accIssue x wait [] fun s => s.modCore x.c fun k => { k with checks := Sparse.erase tile.toNat k.checks }

/-- Does `f` to indices i, i + 1, ..., n of them. -/
def eachEntry (f : Nat → State → State) : Nat → Nat → State → State
  | _, 0, s => s
  | i, n + 1, s => eachEntry f (i + 1) n (f i s)

/-- ACLR (R101). -/
def aclrPlan (x : At) (tile : BitVec 6) (entry nm1 : BitVec 8) : Plan :=
  let n := nm1.toNat + 1
  let i := tile.toNat * 256 + entry.toNat
  if entry.toNat + n > 256 then badAcc
  else accIssue x 0 [accRange .write i n (.atCc (x.now + 1 + n))]
    (eachEntry (fun i s => s.modCore x.c fun k => k.setAcc false i AccEntry.clear) i n)

/-- One entry of AMRG (R122). The reads find what errors the four words hold (R102). DESIGN CHOICE (log 177). -/
def amrgOne (x : At) (ta tb i : Nat) (s : State) : State :=
  let s := (s.senseAcc x.c (ta * 256 + i)).senseAcc x.c (tb * 256 + i)
  let k := s.core x.c
  let a := k.accAt (ta * 256 + i)
  let b := k.accAt (tb * 256 + i)
  if a.bad || b.bad then s.raise x.c (accMemFault x)
  else s.modCore x.c fun k => k.setAcc true (ta * 256 + i) (a.merge b)

/-- AMRG (R121). -/
def amrgPlan (x : At) (ta tb : BitVec 6) (entry nm1 : BitVec 8) : Plan :=
  let n := nm1.toNat + 1
  if entry.toNat + n > 256 then badAcc
  else
    accIssue x 0
      [accRange .write (ta.toNat * 256 + entry.toNat) n (.atCc (x.now + 6 + n)),
       accRange .read (tb.toNat * 256 + entry.toNat) n (.atCc (x.now + n))]
      (eachEntry (amrgOne x ta.toNat tb.toNat) entry.toNat n)

/-- ALDP (R121): loaded flags are kept and not counted. -/
def aldpPlan (s : State) (x : At) (tile : BitVec 6) (entry nm1 : BitVec 8) (sAddr : RegIx) : Plan :=
  let n := nm1.toNat + 1
  let i := tile.toNat * 256 + entry.toNat
  let a := ((s.core x.c).sreg sAddr).toNat
  if entry.toNat + n > 256 ∨ a % 16 ≠ 0 ∨ !inWin a (16 * n) then badAcc
  else
    accIssue x 0 [spRange .read a (16 * n) (.atCc (x.now + n)), accRange .write i n (.atCc (x.now + 4 + n))]
      (readOr x 2 .acc a (16 * n) fun s =>
        eachEntry (fun j s => s.modCore x.c fun k =>
          k.setAcc false j (AccEntry.ofRecord (BitVec.ofNat 128 (s.spRd x.c (a + 16 * (j - i)) 16)))) i n s)

/-- One entry of ASTP. The read finds what errors its two words hold (R102). DESIGN CHOICE (log 177). -/
def astpOne (x : At) (i a j : Nat) (s : State) : State :=
  let s := s.senseAcc x.c j
  let e := (s.core x.c).accAt j
  if e.bad then s.raise x.c (accMemFault x) else s.spWr x.c (a + 16 * (j - i)) 16 e.toRecord.toNat

/-- ASTP (R121). -/
def astpPlan (s : State) (x : At) (tile : BitVec 6) (entry nm1 : BitVec 8) (sAddr : RegIx) : Plan :=
  let n := nm1.toNat + 1
  let i := tile.toNat * 256 + entry.toNat
  let a := ((s.core x.c).sreg sAddr).toNat
  if entry.toNat + n > 256 ∨ a % 16 ≠ 0 ∨ !inWin a (16 * n) then badAcc
  else
    accIssue x 0 [accRange .read i n (.atCc (x.now + n)), spRange .write a (16 * n) (.atCc (x.now + 4 + n))]
      (eachEntry (astpOne x i a) i n)

end Sys2Proof.Machine
end

