-- ==== Sys2Proof/Machine/Punnet.lean ====
section
/-! DEFINITION. The punnet builder and the punnet engines: the punnet slot's instructions, and the events by which
builds, lines, lookups, hand-offs, deliveries and verdicts proceed (R59 to R92, R107, R108, R115 to R119). -/

namespace Sys2Proof.Machine

/-! ## Issue -/

def badPun : Plan := Plan.bad 0x0301 0

/-- PBLD (R62, R65, R88). -/
def pbldPlan (s : State) (x : At) (a : PbldArgs) : Plan :=
  let k := s.core x.c
  let addr := (k.sreg a.sRec).toNat
  let n := a.nrec.toNat + 1
  let len := n * recBytes a.fmt.toNat
  let blk := (k.sreg a.sBlk).toNat % 2 ^ 32
  let wait := stallIf (decide (k.builds.length ≥ 4)) stallQueue
  if a.emask = 0 ∨ a.fmt = 3#2 ∨ addr % 8 ≠ 0 ∨ !inWin addr len then badPun.after wait
  else if blk + n - 1 > 0xFFFFFFFF then (Plan.bad 0x0305 0).after wait
  else
    { fault := none, stall := wait,
      ranges := [spRange .read addr len (.byUnit (readsDone (x.id + 1)))], flow := .seq,
      act := fun s => s.modCore x.c fun k =>
        { k with builds := k.builds ++
            [⟨x.id + 1, x.pc, a.emask, addr, blk, a.fmt, n, 0, ⟨[], 0, false, false, false⟩, false⟩] } }

/-- R81: the masked tiles of a PLOOK, as (row tile counted from the first row's, half). DESIGN CHOICE (log 171). -/
def maskTiles (bits : Nat → Bool) (u0 nTiles nb blk h0 nHalf : Nat) : List (Nat × Nat) :=
  (List.range nTiles).flatMap fun u =>
    (List.range nHalf).filterMap fun h =>
      let bitIx := (u0 + u) * nb + (blk + h)
      if bits bitIx then some (u, h0 + h) else none

/-- Operand fields of a PLOOK, read from its registers. -/
def plookOf (k : Core) (x : At) (a : PlookArgs) (mask : List (Nat × Nat)) : Plook :=
  let str := (k.sreg a.sStr).toNat
  let pos := (k.sreg a.sPos).toNat
  { id := x.id + 1, bundle := x.pc, base := (k.sreg a.sCode).toNat, rs := fld str 40 20, ps := fld str 20 20,
    gs := fld str 0 20, firstRow := fld pos 32 24, blk := fld pos 0 32, mask := mask, pw := a.pw, fresh := a.fresh,
    tile := a.tile.toNat, nRow := a.nrow.toNat + 1, nPl := a.planes.toNat + 1, nHalf := a.nhalf.toNat + 1,
    entry := a.entry.toNat, h0 := a.h0.toNat, chk := k.checkOf a.tile.toNat, fetchSlot := a.h0.toNat / 2,
    fetchRow := 0, fetchPlane := 0, verdictSlot := a.h0.toNat / 2, retrying := false, sumA := 0, sumB := 0,
    invA := false, invB := false, cleared := [], longRows := [], ovfRows := [], sums := [] }

/-- R68: scratchpad offset of the code byte of a row, plane and group (counted from the first half's). -/
def Plook.codeAt (p : Plook) (row plane g : Nat) : Nat := p.base + row * p.rs + plane * p.ps + g * p.gs

/-- R115: offset of a check code. -/
def Plook.checkAt (p : Plook) (d : ChkDesc) (j g : Nat) : Int := p.base + d.coff + j * d.cps + g * d.cgs

/-- R87, R88: fields out of range. -/
def plookFieldsOk (a : PlookArgs) : Bool :=
  decide (a.planes.toNat ≤ 4) && decide (a.h0.toNat + a.nhalf.toNat + 1 ≤ 16)
    && decide (a.entry.toNat + a.nrow.toNat + 1 ≤ 256)

/-- R91, R124: codes and check row lie in the window. -/
def Plook.inWindow (p : Plook) : Bool :=
  decide (p.codeAt (p.nRow - 1) (p.nPl - 1) (16 * p.nHalf - 1) < Config.windowBytes) &&
    match p.chk with
    | none => true
    | some d => decide (0 ≤ p.base + d.coff) &&
        decide (p.checkAt d (d.nc - 1) (16 * p.nHalf - 1) < (Config.windowBytes : Int))

/-- A PLOOK whose operands and mask are known. DEDUCED (log 38). -/
def plookIssue (p : Plook) (extra : List SbEntry) (act : State → State) : Plan :=
  let codes := spRange .read p.base (p.codeAt (p.nRow - 1) (p.nPl - 1) (16 * p.nHalf - 1) + 1 - p.base)
    (.byUnit (readsDone p.id))
  let entries := { accRange .write (p.tile * 256 + p.entry) p.nRow (.byUnit (writesDone p.id)) with
    plook := true, fresh := p.fresh }
  if !p.inWindow then badPun
  else if p.blk + p.nHalf - 1 > 0xFFFFFFFF then Plan.bad 0x0305 0
  else
    { fault := none, stall := 0, ranges := [codes] ++ extra ++ [entries], flow := .seq, act := act }

/-- PLOOK (R78, R81, R88, R90). DESIGN CHOICE (log 170). -/
def plookPlan (s : State) (x : At) (a : PlookArgs) : Plan :=
  let k := s.core x.c
  let enq := fun p => fun s : State => s.modCore x.c fun k =>
    k.modEng a.eng fun e => { e with queue := e.queue ++ [p] }
  let wait := stallIf (decide (k.engines[a.eng].queue.length ≥ 4)) stallQueue
  if !plookFieldsOk a then badPun.after wait
  else if a.msk then
    let d := (k.sreg a.sMask).toNat
    if !inWin d 16 then badPun.after wait
    else
      withDesc s x d 16 wait <|
        let n := s.spRd x.c d 16
        let p0 := plookOf k x a []
        let nb := fld n 32 32
        let map := fld n 0 20
        let u0 := p0.firstRow / 80
        let u1 := (p0.firstRow + p0.nRow - 1) / 80
        let first := map + u0 * nb / 8
        let last := map + (u1 * nb + nb - 1) / 8
        let used := map + (u1 * nb + p0.blk + p0.nHalf - 1) / 8
        if u1 ≥ fld n 64 32 then Plan.bad 0x0304 0
        else if nb = 0 ∨ max last used ≥ Config.windowBytes then badPun
        else
          let bits := fun i => tb (s.spRd x.c (map + i / 8) 1) (i % 8)
          let p := plookOf k x a (maskTiles bits u0 (u1 + 1 - u0) nb p0.blk p0.h0 p0.nHalf)
          let free := SbFree.byUnit (readsDone (x.id + 1))
          plookIssue p [spRange .read d 16 free, spRange .read first (last + 1 - first) free]
            (readOr x 1 (.eng a.eng) first (last + 1 - first) (enq p))
  else
    let p := plookOf k x a []
    (plookIssue p [] (enq p)).after wait

/-- PFENCE (R89). -/
def pfencePlan (k : Core) (emask : BitVec 4) (bld : Bool) : Plan :=
  { Plan.nop with
    stall := stallIf ((allEngines.any fun e => inMask emask e && k.engines[e].queue != []) || (bld && k.builds != []))
      stallDrain }

/-! ## PINV (R89) -/

/-- Whether every PLOOK issued before the PINV on its engines has performed its last lookup. -/
def Core.pinvDue (k : Core) (w : PinvWait) : Bool :=
  allEngines.all fun e =>
    !inMask w.emask e ||
      let g := k.engines[e]
      match g.queue with
      | [] => true
      | p :: r => (decide (w.id < p.id) || g.lookupsDone p) && r.all fun q => decide (w.id < q.id)

/-- Clears the valid bits of the selected engines' slots. -/
def Core.pinvClear (k : Core) (m : BitVec 4) : Core :=
  { k with punnets := (k.punnets.map fun t =>
      (t.1, if m.getLsbD (t.1 / 256) then { t.2 with valid := false } else t.2)).filter fun t => t.2 != PunSlot.empty }

/-- Performs the PINVs whose time has come, in issue order. -/
def Core.settlePinv (k : Core) : Core :=
  let due := k.pinvs.filter k.pinvDue
  due.foldl (fun k w => k.pinvClear w.emask) { k with pinvs := k.pinvs.filter fun w => !k.pinvDue w }

/-- PINV does not stall issue. -/
def pinvPlan (x : At) (emask : BitVec 4) : Plan :=
  { Plan.nop with act := fun s => s.modCore x.c fun k =>
      Core.settlePinv { k with pinvs := k.pinvs ++ [⟨x.id + 1, emask⟩] } }

/-- R87: the punnet slot's plan. -/
def punPlan (s : State) (x : At) (i : PunInstr) : Plan :=
  match i with
  | .pnop => Plan.nop
  | .pbld a => pbldPlan s x a
  | .plook a => plookPlan s x a
  | .pfence emask bld => pfencePlan (s.core x.c) emask bld
  | .pinv emask => pinvPlan x emask
  | .undefined => badPun

/-! ## Faults of the engines -/

/-- R93, R125: a fault of engine `e`, with slot 1 and the PLOOK's bundle. -/
def engFault (e : EngineId) (p : Plook) (cause detail : Nat) : FaultReq :=
  ⟨cause, 1, e.val, p.bundle, detail, .eng e⟩

/-- The executing PLOOK stops: the engine drops it with all that it has in flight. -/
def Engine.dropHead (g : Engine) : Engine :=
  { g with queue := g.queue.tail, lanes := Vector.replicate 32 [], lines := [], ready := [], deliv := [], undo := [],
           holdFor := none }

def stopPlook (s : State) (c : CoreId) (e : EngineId) (f : FaultReq) : State :=
  (s.modCore c fun k => Core.settlePinv (k.modEng e Engine.dropHead)).raise c f

/-! ## The builder (R62 to R66, R79) -/

/-- The manifest's logical core that is bound to a physical core (R357). -/
def State.logicalOf (s : State) (c : CoreId) : Option LogicalCore :=
  match s.hm.man, s.hm.binding.find? fun p => p.2 == c.val with
  | some m, some p => m.cores[p.1]?
  | _, _ => none

/-- R48: the site that the manifest names for a PBLD bundle. DEDUCED (log 40). -/
def State.pbldSite (s : State) (c : CoreId) (bundle : BitVec 20) : Nat :=
  match s.logicalOf c with
  | some l => (assoc? bundle.toNat l.pbldSites).getD 0
  | none => 0

/-- R79: whether the builder must wait before it writes a slot of the build's engines. -/
def Core.buildWaits (k : Core) (b : Build) (slot : Nat) : Bool :=
  allEngines.any fun e =>
    inMask b.emask e &&
      let g := k.engines[e]
      (k.pinvs.any fun w => decide (w.id < b.id) && inMask w.emask e) ||
        match g.queue with
        | [] => false
        | p :: r =>
          (decide (p.id < b.id) && !g.slotDone p slot)
            || r.any fun q => decide (q.id < b.id) && q.halves slot != []

/-- R59, R62, R64: the slot that the builder writes for a group. DEDUCED (log 162). -/
def builtSlot (b : Build) (g : Nat) : PunSlot :=
  let vals := if b.cur.poison then [0, 0, 0, 0, 0] else (b.cur.vals.drop (5 * (g % 16))).take 5
  { vals := vals, exp := BitVec.ofNat 8 b.cur.exp, fmt := b.fmt, poison := b.cur.poison,
    zero := vals.all (· == 0) && !b.cur.poison, valid := true, block := BitVec.ofNat 32 (b.blk + g / 16), bad := [] }

/-- The group's punnet goes into every engine of the mask, and the build moves on. -/
def Core.buildGroup (k : Core) (b : Build) : Core :=
  let g := b.next
  let k1 := (allEngines.filter (inMask b.emask)).foldl
    (fun k e => k.setPun (punKey e (g % 32) (g / 32)) (builtSlot b g)) k
  let k2 := if g / 16 + 1 = b.nrec then k1.freeUnit (readsDone b.id) else k1
  { k2 with
      builds := if g + 1 = 16 * b.nrec then k.builds.tail
        else { b with next := g + 1, waitFree := false } :: k.builds.tail
      ca := { k2.ca with pnbBuilt := bump k2.ca.pnbBuilt } }

/-- BUILD_PUNNET (R63): the builder produces its next group's punnet. -/
def buildStep (c : CoreId) (s : State) : State :=
  let k := s.core c
  match k.builds with
  | [] => s
  | b :: r =>
    if k.buildWaits b (b.next / 32) then
      s.modCore c fun k => { k with builds := { b with waitFree := true } :: r }
    else if b.next % 16 ≠ 0 then s.modCore c fun k => k.buildGroup b
    else
      let len := recBytes b.fmt.toNat
      let off := b.recAddr + b.next / 16 * len
      let s := s.senseSp c off len
      match s.spPoison? c off len with
      | some o => (s.modCore c fun k => { k with builds := r }).raise c ⟨0x0906, 1, 0, b.bundle, o, .bld⟩
      | none =>
        let rd := readRec b.fmt.toNat (s.spRd c off len)
        let s1 := if rd.malformed then s.health (s.pbldSite c b.bundle) 0x0515 (s.siteBaseline (s.pbldSite c b.bundle)) cNan else s
        s1.modCore c fun k => k.buildGroup { b with cur := rd }

/-! ## Lines (R71 to R75) -/

/-- R75: the merge stage completes lines in fetch order. -/
def mergeLines : List Line → Plook → List HandOff → List Line × Plook × List HandOff
  | [], p, hs => ([], p, hs)
  | l :: r, p, hs =>
    if l.waiting ≠ [] then (l :: r, p, hs)
    else
      let a := p.sumA + l.sum0
      let b := p.sumB + l.sum1
      let ia := p.invA || l.inv0
      let ib := p.invB || l.inv1
      if l.plane + 1 = p.nPl then
        let out := ((p.halves l.slot).filter fun h => !p.masked l.row h).map fun h =>
          if h % 2 = 0 then HandOff.mk h l.row a ia else HandOff.mk h l.row b ib
        mergeLines r { p with sumA := 0, sumB := 0, invA := false, invB := false } (hs ++ out)
      else mergeLines r { p with sumA := a, sumB := b, invA := ia, invB := ib } hs

/-- R77, R91: a PLOOK whose last entry is written leaves its queue. -/
def Core.finish (k : Core) (e : EngineId) : Core :=
  let g := k.engines[e]
  match g.queue with
  | [] => k
  | p :: r =>
    if g.lookupsDone p && g.deliv == [] then
      Core.settlePinv ((k.modEng e fun g => { g with queue := r, undo := [] }).freeUnit
        (writesDone p.id))
    else k.settlePinv

/-- Merges what can be merged unless the merge stage holds (R107, R119), then sees whether the PLOOK is done. -/
def Core.merge (k : Core) (e : EngineId) : Core :=
  let g := k.engines[e]
  match g.queue with
  | [] => k
  | p :: r =>
    if k.mergeHolds g then k.finish e
    else
    let m := mergeLines g.lines p g.ready
    Core.finish (k.modEng e fun g => { g with queue := m.2.1 :: r, lines := m.1, ready := m.2.2 }) e

/-- The next line in slot-major order. -/
def Plook.advance (p : Plook) : Plook :=
  if p.fetchPlane + 1 < p.nPl then { p with fetchPlane := p.fetchPlane + 1 }
  else if p.fetchRow + 1 < p.nRow then { p with fetchPlane := 0, fetchRow := p.fetchRow + 1 }
  else { p with fetchPlane := 0, fetchRow := 0, fetchSlot := p.fetchSlot + 1 }

/-- The line enters the flight list, its bytes the queues of the lanes that receive them, and the fetch moves on. -/
def Core.enterLine (k : Core) (e : EngineId) (p : Plook) (skipped : Bool) (recv : List (Nat × Byte)) (skips : Nat) : Core :=
  let g := k.engines[e]
  let l : Line := ⟨g.nextLine, p.fetchSlot, p.fetchRow, p.fetchPlane, skipped, recv.map (·.1), 0, 0, false, false⟩
  let p1 := p.advance
  let lanes := recv.foldl (fun (v : Vector (List LaneEntry) 32) q =>
    v.set! q.1 (v.toList.getD q.1 [] ++ [⟨g.nextLine, q.2⟩])) g.lanes
  let k1 := k.modEng e fun g =>
    { g with queue := p1 :: g.queue.tail, lanes := lanes, lines := g.lines ++ [l], nextLine := g.nextLine + 1,
             holdFor := none }
  let slotEnd := p1.fetchSlot != p.fetchSlot
  let k2 := if p1.fetchDone && p.chk.isNone then k1.freeUnit (readsDone p.id) else k1
  Core.merge
    { k2 with ca := { k2.ca with
        pneSkips := bumpBy skips k2.ca.pneSkips,
        accUnchecked := if slotEnd && p.chk.isNone then bump k2.ca.accUnchecked else k2.ca.accUnchecked } } e

/-- FETCH_LINE (R71 to R75): the fetch stage of engine `e` takes the next line. -/
def fetchStep (c : CoreId) (e : EngineId) (s : State) : State :=
  let k := s.core c
  let g := k.engines[e]
  match g.queue with
  | [] => s
  | p :: _ =>
    if p.fetchDone then s
    else
      let slot := p.fetchSlot
      let hs := p.halves slot
      let lanes := hs.flatMap fun h => (halfLanes h).map fun ln => (h, ln)
      let zero := fun ln => k.slotReady e p ln slot && (k.pun e ln slot).zero
      if hs.all (p.masked p.fetchRow) || lanes.all (fun q => zero q.2) then
        s.modCore c fun k => k.enterLine e p true [] (16 * hs.length)
      else if g.inFlight ≥ 16 then
        s.modCore c fun k => k.modEng e fun g => { g with holdFor := some [] }
      else
        let at_ := fun q : Nat × Nat => p.codeAt p.fetchRow p.fetchPlane (16 * (q.1 - p.h0) + q.2 % 16)
        let s := lanes.foldl (fun s q => s.senseSp c (at_ q) 1) s
        match lanes.findSome? fun q => s.spPoison? c (at_ q) 1 with
        | some o => stopPlook s c e (engFault e p 0x0906 o)
        | none =>
          let bytes := lanes.map fun q => (q.1, q.2, BitVec.ofNat 8 (s.spRd c (at_ q) 1))
          let recv := (bytes.filter fun q =>
            q.2.2 != 121#8 && !p.masked p.fetchRow q.1 && !zero q.2.1).map fun q => (q.2.1, q.2.2)
          if recv.any fun q => decide ((g.lanes.toList.getD q.1 []).length ≥ 8) then
            s.modCore c fun k => k.modEng e fun g => { g with holdFor := some (recv.map (·.1)) }
          else s.modCore c fun k => k.enterLine e p false recv (lanes.length - recv.length)

/-! ## Lookups (R69, R75, R82, R83) -/

/-- R69: weight of a plane. -/
def planeWeight (binary : Bool) (j : Nat) : Int := if binary then 2 ^ j else 3 ^ j

/-- The lane delivers its contribution to the line. -/
def Line.add (l : Line) (ln : Nat) (x : Int) (inv : Bool) : Line :=
  if ln < 16 then { l with sum0 := l.sum0 + x, inv0 := l.inv0 || inv, waiting := l.waiting.erase ln }
  else { l with sum1 := l.sum1 + x, inv1 := l.inv1 || inv, waiting := l.waiting.erase ln }

/-- The lane's queue loses its head, and the line gains the contribution. -/
def Core.laneDone (k : Core) (e : EngineId) (ln line : Nat) (x : Int) (inv : Bool) : Core :=
  Core.merge (k.modEng e fun g =>
    { g with lanes := g.lanes.set! ln (g.lanes.toList.getD ln []).tail,
             lines := updFirst (fun l => l.id == line) (fun l => l.add ln x inv) g.lines }) e

/-- The word of a slot that holds the entry of a code (R60, R82). -/
def codeWord (code : Nat) : Nat := (if code < 121 then 121 - code else code - 121) / 4

/-- LANE_LOOKUP (R75): lane `ln` pops the head of its queue. `ecc` is what the check bits of the word say.
DESIGN CHOICE (log 39, 175). -/
def lookupStep (c : CoreId) (e : EngineId) (ln : Nat) (ecc : Ecc) (s : State) : State :=
  let k := s.core c
  let g := k.engines[e]
  match g.queue, g.lanes.toList.getD ln [] with
  | p :: _, t :: _ =>
    match g.lines.find? fun l => l.id == t.line with
    | none => s
    | some l =>
      match k.slotCase e p ln l.slot with
      | .never => stopPlook s c e (engFault e p 0x0302 0)
      | .wait => s.modCa c fun a => { a with pneWaits := bump a.pneWaits }
      | .ready =>
        let code := t.code.toNat
        let count := fun a : CtrsA => { a with pneLookups := bump a.pneLookups }
        if !codeValid code then
          (s.modCa c fun a => { count a with pneInvalid := bump a.pneInvalid }).modCore c fun k =>
            k.laneDone e ln t.line 0 true
        else
          let word := codeWord code
          let s1 := punEcc c e ln l.slot word ecc (s.sensePun c (punKey e ln l.slot) word)
          let u := (s1.core c).pun e ln l.slot
          if u.bad.contains word then stopPlook s1 c e (engFault e p 0x0303 0)
          else
            (s1.modCa c count).modCore c fun k =>
              k.laneDone e ln t.line (planeWeight p.pw l.plane * codeSum code u.vals) false
  | _, _ => s

/-! ## Hand-off (R70, R76, R78, R83) -/

/-- R116: what a half's check has seen, with one more block integer. -/
def addSum (h : Nat) (v : Int) (inv : Bool) : List HalfSum → List HalfSum
  | [] => [⟨h, v, inv⟩]
  | x :: r => if x.half = h then { x with sum := x.sum + v, inv := x.inv || inv } :: r else x :: addSum h v inv r

/-- BLOCK_INTEGER_HAND_OFF (R70): engine `e` hands its next complete block integer on, unless its merge stage holds. -/
def handOffStep (c : CoreId) (e : EngineId) (s : State) : State :=
  let k := s.core c
  let g := k.engines[e]
  match g.queue, g.ready with
  | p :: r, h :: hs =>
    let slot := h.half / 2
    let cases := (halfLanes h.half).map fun ln => k.slotCase e p ln slot
    if k.mergeHolds g then s
    else if cases.contains .never then stopPlook s c e (engFault e p 0x0302 0)
    else if cases.contains .wait then s
    else if h.inv && p.chk.isNone then stopPlook s c e (engFault e p 0x0306 0)
    else
      let slots := (halfLanes h.half).map fun ln => k.pun e ln slot
      let d : Deliv := ⟨slot, h.row, h.value, (slots.headD PunSlot.empty).exp, slots.any (·.poison),
        BitVec.ofNat 32 (p.expect h.half)⟩
      let p1 := if p.chk.isSome then { p with sums := addSum h.half h.value h.inv p.sums } else p
      s.modCore c fun k =>
        Core.settlePinv (k.modEng e fun g =>
          { g with queue := p1 :: r, ready := hs, deliv := g.deliv ++ [d] })
  | _, _ => s

/-! ## Delivery (R98, R107, R108) -/

/-- R117: whether the delivery is the PLOOK's last and its slot has no verdict yet. -/
def Engine.lastHeld (g : Engine) (p : Plook) : Bool :=
  p.chk.isSome && p.fetchDone && g.lines == [] && g.ready == [] && g.deliv.length == 1 && !p.verdictsDone

/-- The delivery is applied, and logged while its slot has no verdict (R118, R119). -/
def Core.applyDeliv (k : Core) (e : EngineId) (p : Plook) (d : Deliv) : Core :=
  let i := p.tile * 256 + p.entry + d.row
  let first := p.fresh && !p.cleared.contains d.row
  let old := k.accAt i
  let base := if first then AccEntry.clear else old
  let new := base.deliver (delivValue d.value d.exp.toNat) d.poison d.block
  let long := new.long && !base.long && !p.longRows.contains d.row
  let ovf := new.ovf && !base.ovf && !p.ovfRows.contains d.row
  let k1 := k.setAcc false i new
  let k2 := { k1 with ca := { k1.ca with
    accLong := bumpBy (bit long) k1.ca.accLong, accOvf := bumpBy (bit ovf) k1.ca.accOvf } }
  let p1 := { p with
    cleared := if first then d.row :: p.cleared else p.cleared
    longRows := if long then d.row :: p.longRows else p.longRows
    ovfRows := if ovf then d.row :: p.ovfRows else p.ovfRows }
  Core.merge (k2.modEng e fun g =>
    { g with queue := p1 :: g.queue.tail, deliv := g.deliv.tail,
             undo := if p.passed d.slot then g.undo else ⟨d.slot, d.row, old, first⟩ :: g.undo }) e

/-- DELIVERY (R107): the oldest delivery of engine `e` is applied to its entry, unless the merge stage holds. `ecc` is what
the check bits of the entry's pair say. DESIGN CHOICE (log 176). -/
def deliveryStep (c : CoreId) (e : EngineId) (ecc : Ecc) (s : State) : State :=
  let k := s.core c
  let g := k.engines[e]
  match g.queue, g.deliv with
  | p :: _, d :: ds =>
    let i := p.tile * 256 + p.entry + d.row
    if k.mergeHolds g || g.lastHeld p then s
    else
      let s1 := accEcc c i false ecc (s.senseAcc c i)
      let a := (s1.core c).accAt i
      let first := p.fresh && !p.cleared.contains d.row
      let drop := fun s : State => s.modCore c fun k => Core.merge (k.modEng e fun g => { g with deliv := ds }) e
      if a.bad then (drop s1).raise c (engFault e p 0x0404 0)
      else if !first && a.live && decide (d.block.toNat ≤ a.last.toNat) then (drop s1).raise c (engFault e p 0x0402 0)
      else s1.modCore c fun k => k.applyDeliv e p d
  | _, _ => s

/-! ## Verdicts (R115 to R119) -/

/-- R81: whether the mask marks a half for every row of the PLOOK. -/
def Plook.allMasked (p : Plook) (h : Nat) : Bool := (List.range p.nRow).all fun r => p.masked r h

/-- One code of a check line: its plane, half, lane and code. -/
structure CheckCode where
  plane : Nat
  half : Nat
  lane : Nat
  code : Nat
  deriving DecidableEq, Repr

/-- R116, R73, R74: the bytes of a slot's check lines as (plane, half, lane, offset); none when the check unit skips the slot's
lines as the fetch stage does. -/
def Core.checkBytes (k : Core) (e : EngineId) (p : Plook) (d : ChkDesc) (slot : Nat) : List (Nat × Nat × Nat × Nat) :=
  let lanes := (p.halves slot).flatMap fun h => (halfLanes h).map fun ln => (h, ln)
  let zero := fun ln => k.slotReady e p ln slot && (k.pun e ln slot).zero
  if (p.halves slot).all p.allMasked || lanes.all (fun q => zero q.2) then []
  else (List.range d.nc).flatMap fun j => lanes.map fun q =>
    (j, q.1, q.2, (p.checkAt d j (16 * (q.1 - p.h0) + q.2 % 16)).toNat)

/-- R73, R116: the codes that the check unit looks up; it skips what the lanes skip. -/
def checkCodes (s : State) (c : CoreId) (e : EngineId) (p : Plook) (d : ChkDesc) (slot : Nat) : List CheckCode :=
  let k := s.core c
  ((k.checkBytes e p d slot).map fun q => (⟨q.1, q.2.1, q.2.2.1, s.spRd c q.2.2.2 1⟩ : CheckCode)).filter fun q =>
    q.code != 121 && !p.allMasked q.half && !(k.slotReady e p q.lane slot && (k.pun e q.lane slot).zero)

/-- R116: what the valid codes of a half sum to. -/
def checkSum (k : Core) (e : EngineId) (h slot : Nat) (cs : List CheckCode) : Int :=
  ((cs.filter fun q => q.half == h && codeValid q.code).map fun q =>
    3 ^ q.plane * codeSum q.code (k.pun e q.lane slot).vals).sum

/-- R116: whether a half matches. -/
def halfMatches (k : Core) (e : EngineId) (p : Plook) (slot : Nat) (cs : List CheckCode) (h : Nat) : Bool :=
  p.allMasked h ||
    let seen := (p.sums.find? fun x => x.half == h).getD ⟨h, 0, false⟩
    let invalid := cs.any fun q => q.half == h && !codeValid q.code
    let poisoned := (halfLanes h).any fun ln => (k.pun e ln slot).poison
    !seen.inv && !invalid && (poisoned || seen.sum == checkSum k e h slot cs)

/-- R118: the entries that the failing slot and later ones changed are restored from the undo log, latest first, and the slot
is to be fetched again. Deliveries of slots that have passed stay. -/
def Core.undoSlot (k : Core) (e : EngineId) (p : Plook) (r : List Plook) (slot : Nat) : Core :=
  let g := k.engines[e]
  let k1 := g.undo.foldl (fun k u => k.setAcc false (p.tile * 256 + p.entry + u.row) u.before) k
  let firsts := (g.undo.filter (·.first)).map (·.row)
  let p1 := { p with
    fetchSlot := slot, fetchRow := 0, fetchPlane := 0, retrying := true, sumA := 0, sumB := 0, invA := false,
    invB := false, cleared := p.cleared.filter fun x => !firsts.contains x,
    sums := p.sums.filter fun x => decide (x.half / 2 < slot) }
  k1.modEng e fun g =>
    { g with queue := p1 :: r, lanes := Vector.replicate 32 [], lines := [], ready := [], undo := [],
             deliv := g.deliv.filter fun d => decide (d.slot < slot), holdFor := none }

/-- A slot passes: its log is dropped, and after the last slot the code range is free (R119). -/
def Core.passSlot (k : Core) (e : EngineId) (p : Plook) (r : List Plook) (slot : Nat) : Core :=
  let p1 := { p with verdictSlot := slot + 1, retrying := false }
  let k1 := k.modEng e fun g => { g with queue := p1 :: r, undo := g.undo.filter fun u => u.slot != slot }
  Core.merge (if p1.verdictsDone then k1.freeUnit (readsDone p.id) else k1) e

/-- R117: whether everything of a slot has been handed on. -/
def Engine.slotHanded (g : Engine) (p : Plook) (slot : Nat) : Bool :=
  decide (slot < p.fetchSlot) && !(g.lines.any fun l => l.slot == slot) && !(g.ready.any fun h => h.half / 2 == slot)

/-- SLOT_VERDICT (R117): the check unit of engine `e` forms the verdict of the next slot. -/
def verdictStep (c : CoreId) (e : EngineId) (s : State) : State :=
  let g := (s.core c).engines[e]
  match g.queue with
  | [] => s
  | p :: r =>
    match p.chk with
    | none => s
    | some d =>
      let slot := p.verdictSlot
      if p.verdictsDone || !g.slotHanded p slot then s
      else
        let bytes := (s.core c).checkBytes e p d slot
        let s0 := bytes.foldl (fun s q => s.senseSp c q.2.2.2 1) s
        match bytes.findSome? fun q => s0.spPoison? c q.2.2.2 1 with
        | some o => stopPlook s0 c e (engFault e p 0x0906 o)
        | none =>
          let cs := checkCodes s0 c e p d slot
          let valid := cs.filter fun q => codeValid q.code
          let s1 := valid.foldl (fun s q => s.sensePun c (punKey e q.lane slot) (codeWord q.code)) s0
          let k := s1.core c
          if valid.any fun q => (k.pun e q.lane slot).bad.contains (codeWord q.code) then
            stopPlook s1 c e (engFault e p 0x0303 0)
          else
            let ok := (p.halves slot).all (halfMatches k e p slot cs)
            let s2 := s1.modCa c fun a =>
              { a with
                  accChecks := bump a.accChecks
                  pneInvalid := bumpBy (cs.filter fun q => !codeValid q.code).length a.pneInvalid
                  accRetryok := if ok && p.retrying then bump a.accRetryok else a.accRetryok
                  accChkfail := if !ok && !p.retrying then bump a.accChkfail else a.accChkfail }
            if ok then (if p.retrying then s2.noteRetry 1 c.val [] else s2).modCore c fun k => k.passSlot e p r slot
            else if p.retrying then stopPlook s2 c e (engFault e p 0x0403 slot)
            else s2.modCore c fun k => k.undoSlot e p r slot

end Sys2Proof.Machine
end

