-- ==== Sys2Proof/Machine/Codec.lean ====
section
/-! DEFINITION. Tiles and the codec: tile headers, check values, decoding (R301, R302, R311, R312). -/

namespace Sys2Proof.Machine

/-- R301: a tile header. -/
structure TileHdr where
  baddr : Nat
  slen : Nat
  coded : Bool
  dmg : Bool
  tile : Nat
  crc : W32
  deriving DecidableEq, Repr

def tileHdrOf (n : Nat) : TileHdr :=
  ⟨fld n 80 48, fld n 67 13, tb n 66, tb n 65, fld n 40 24, BitVec.ofNat 32 (fld n 0 32)⟩

def TileHdr.bits (h : TileHdr) : Nat :=
  h.baddr * 2 ^ 80 + h.slen * 2 ^ 67 + bit h.coded * 2 ^ 66 + bit h.dmg * 2 ^ 65 + h.tile * 2 ^ 40 + h.crc.toNat

/-- R302: the check value of a tile's content under an index. -/
def tileCrc (ix : Nat) (content : List Byte) : W32 := crc32c (leBytes 4 ix ++ content)

/-- `n` bytes that begin `back` bytes before the end of the output, one at a time; output is kept newest first. -/
def copyBack (back : Nat) : Nat → List Byte → List Byte
  | 0, out => out
  | n + 1, out => copyBack back n (out.getD back 0 :: out)

/-- R311, R312: decodes a codec block; `out` holds the bytes so far, newest first. None is a failed decode. -/
def codecFrom : Nat → List Byte → Nat → List Byte → Option (List Byte)
  | 0, _, _, _ => none
  | fuel + 1, inp, n, out =>
    if n = 4096 then (if inp.length < 8 && inp.all (· == 0) then some out.reverse else none)
    else
      match inp with
      | [] => none
      | c :: r =>
        let v := c.toNat
        if v < 64 then
          let k := v + 1
          if r.length < k ∨ n + k > 4096 then none else codecFrom fuel (r.drop k) (n + k) ((r.take k).reverse ++ out)
        else if v < 128 then
          match r with
          | [] => none
          | b :: r' =>
            let k := v - 64 + 3
            if n + k > 4096 then none else codecFrom fuel r' (n + k) (List.replicate k b ++ out)
        else
          match r with
          | lo :: hi :: r' =>
            let w := lo.toNat + 256 * hi.toNat
            let k := v - 128 + 4
            let back := w % 4096
            if w ≥ 4096 ∨ back ≥ n ∨ n + k > 4096 then none
            else codecFrom fuel r' (n + k) (copyBack back k out)
          | _ => none

/-- R311, R312: the 4,096 bytes of a coded block, or a failed decode. -/
def codecDecode (block : List Byte) : Option (List Byte) := if block.length = 4096 then none else codecFrom 4097 block 0 []

end Sys2Proof.Machine
end

