-- ==== Sys2Proof/Machine/Fabric.lean ====
section
/-! DEFINITION. The sending side of the torus ports: coordinates and routing, frames, virtual channels and credits, replay
(R376 to R380, R384, R390). -/

namespace Sys2Proof.Machine

/-! ## Coordinates and routing -/

/-- R397: this module's torus coordinates. -/
def State.here (s : State) : Coord :=
  let w := s.fab.coord.toNat
  ⟨fld w 0 4, fld w 4 4, fld w 8 8⟩

/-- R380. -/
def Coord.slot (c : Coord) : Nat := c.x % 2 + 2 * (c.y % 2) + 4 * (c.z % 2)

/-- The module in a slot of this board (R380). -/
def State.boardAt (s : State) (slot : Nat) : Coord :=
  let h := s.here
  ⟨h.x / 2 * 2 + slot % 2, h.y / 2 * 2 + slot / 2 % 2, h.z / 2 * 2 + slot / 4 % 2⟩

/-- R379: whether to go in the + direction from `a` to `b` on an axis of the extent, if at all. DEDUCED (log 61). -/
def axisDir (ext a b : Nat) (even : Bool) : Option Bool :=
  if a = b then none
  else if ext ≤ max a b then some (decide (a < b))
  else
    let up := (b + ext - a) % ext
    let down := (a + ext - b) % ext
    some (decide (up < down) || (up == down && even))

/-- R379: the port by which a frame leaves from `c`: first along X, then Y, then Z. None at its destination. -/
def State.routeFrom (s : State) (c dest : Coord) (even : Bool) : Option PortId :=
  let w := s.fab.coord.toNat
  match axisDir (fld w 48 4) c.x dest.x even with
  | some p => some (if p then 0 else 1)
  | none =>
    match axisDir (fld w 52 4) c.y dest.y even with
    | some p => some (if p then 2 else 3)
    | none => (axisDir (fld w 56 8) c.z dest.z even).map fun p => if p then 4 else 5

def State.port (s : State) (p : PortId) : FPort := s.fab.ports[p]

def State.setPort (s : State) (p : PortId) (f : FPort) : State :=
  { s with fab := { s.fab with ports := s.fab.ports.set p.val f } }

def State.modPort (s : State) (p : PortId) (f : FPort → FPort) : State := s.setPort p (f (s.port p))

/-- R374: a port that carries frames. -/
def LinkState.up : LinkState → Bool
  | .wide | .narrow => true
  | _ => false

/-! ## Frames -/

/-- The bytes of a frame: header, payload, trailer (R376). -/
def frameBytes (f : Frame) : Nat := 40 + 8 * f.payload.length

/-- R377: a frame's credits, in units of 256 bytes. -/
def frameUnits (f : Frame) : Nat := ceilDiv (frameBytes f) 256

def frameSrc (f : Frame) : Coord := ⟨f.srcX.toNat, f.srcY.toNat, f.srcZ.toNat⟩

def frameDst (f : Frame) : Coord := ⟨f.dstX.toNat, f.dstY.toNat, f.dstZ.toNat⟩

/-- Table "Xeset frame header". -/
def frameHeader (f : Frame) : Nat :=
  f.cfg.toNat + f.addr.toNat * 2 ^ 64 + f.tenant.val * 2 ^ 112 + f.step.toNat * 2 ^ 128 + f.words.toNat * 2 ^ 164
    + f.xfer.toNat * 2 ^ 176 + f.lseq.toNat * 2 ^ 192
    + (f.srcX.toNat + f.srcY.toNat * 2 ^ 4 + f.srcZ.toNat * 2 ^ 8) * 2 ^ 208
    + (f.dstX.toNat + f.dstY.toNat * 2 ^ 4 + f.dstZ.toNat * 2 ^ 8) * 2 ^ 224
    + bit f.prot * 2 ^ 243 + bit f.last * 2 ^ 244 + bit f.cdc * 2 ^ 245 + f.vc.toNat * 2 ^ 246 + f.ftype.toNat * 2 ^ 248

/-- R376: header and payload, which the trailer's CRC covers. -/
def frameBody (f : Frame) : List Byte := leBytes 32 (frameHeader f) ++ wordsToBytes f.payload

/-- Table "Xeset frame trailer". -/
def frameTrailer (f : Frame) : Nat :=
  f.cr.toNat + f.crvc.toNat * 2 ^ 14 + f.ack.toNat * 2 ^ 16 + (crc32c (frameBody f)).toNat * 2 ^ 32

/-- R376: a frame's bytes on the link. -/
def frameImage (f : Frame) : List Byte := frameBody f ++ leBytes 8 (frameTrailer f)

/-- A frame of this module (R376). Its link fields are filled when it is sent. -/
def State.frame (s : State) (ftype vc : Nat) (dest : Coord) (num : W16) (tenant addr : Nat) (last : Bool)
    (payload : List W64) : Frame :=
  let h := s.here
  { ftype := BitVec.ofNat 8 ftype, vc := BitVec.ofNat 2 vc, cdc := false, last := last, prot := false,
    reservedZero := true, dstX := BitVec.ofNat 4 dest.x, dstY := BitVec.ofNat 4 dest.y, dstZ := BitVec.ofNat 8 dest.z,
    srcX := BitVec.ofNat 4 h.x, srcY := BitVec.ofNat 4 h.y, srcZ := BitVec.ofNat 8 h.z, lseq := 0, xfer := num,
    words := BitVec.ofNat 12 payload.length, step := s.fab.step, tenant := Fin.ofNat 64 tenant,
    addr := BitVec.ofNat 48 addr, cfg := s.fab.cfgdig, ack := 0, crvc := 0, cr := 0, crcOk := true, payload := payload }

/-- The virtual channel that has credits to return, lowest first. -/
def FPort.owes (f : FPort) : Nat := (List.range 4).findSome? (fun v => if f.owed.toList.getD v 0 = 0 then none else some v) |>.getD 0

/-- R376: trailer fields of a frame that leaves now; the credits it returns are no longer owed. -/
def FPort.stamp (f : FPort) (x : Frame) : FPort × Frame :=
  let v := f.owes
  let n := min (f.owed.toList.getD v 0) 0x3FFF
  ({ f with owed := f.owed.set! v (f.owed.toList.getD v 0 - n) },
   { x with ack := f.rxSeq, crvc := BitVec.ofNat 2 v, cr := BitVec.ofNat 14 n })

/-- R377: the next channel to serve: VC1, VC2, VC0, VC3 in priority, and VC3 at least once in 16 frames.
DESIGN CHOICE (log 59). -/
def FPort.pick (f : FPort) : Option Nat :=
  let ready := fun v =>
    match f.waiting.toList.getD v [] with
    | x :: _ => decide ((frameUnits x) ≤ f.credits.toList.getD v 0)
    | [] => false
  if 15 ≤ f.sinceVc3 && ready 3 then some 3 else [1, 2, 0, 3].find? ready

/-- Bytes in the replay buffer (R378). -/
def FPort.replayBytes (f : FPort) : Nat := (f.replay.map frameBytes).sum

/-- R377, R378: puts one waiting frame on the link, when credits and the replay buffer allow. -/
def FPort.sendOne (f : FPort) : Option FPort :=
  if !f.link.up then none
  else
    match f.pick with
    | none => none
    | some v =>
      match f.waiting.toList.getD v [] with
      | [] => none
      | x :: r =>
        if f.replayBytes + frameBytes x > 0x100000 then none
        else
          let q := f.stamp { x with lseq := f.txSeq }
          let g := q.1
          some { g with
            waiting := g.waiting.set! v r, credits := g.credits.set! v (g.credits.toList.getD v 0 - (frameUnits x)),
            txSeq := g.txSeq + 1, replay := g.replay ++ [q.2], sent := some q.2,
            sinceVc3 := if v = 3 then 0 else g.sinceVc3 + 1, txFrames := bump g.txFrames }

/-- Sends while it can. -/
def FPort.pump : Nat → FPort → FPort
  | 0, f => f
  | n + 1, f =>
    match f.sendOne with
    | some g => FPort.pump n g
    | none => f

def FPort.run (f : FPort) : FPort := FPort.pump ((f.waiting.toList.map List.length).sum) f

/-- R376: when nothing else waits, an idle frame carries acknowledgements and credits. DEDUCED (log 62). -/
def FPort.idle (s : State) (f : FPort) : FPort :=
  if f.link.up && f.waiting.toList.all (· == []) then
    let q := f.stamp { s.frame 0 0 s.here 0 0 0 true [] with lseq := f.txSeq }
    { q.1 with sent := some q.2 }
  else f

/-- R375: the identity frame that an end sends while it trains or is fenced: serial, port number, XLK_COORD.
DESIGN CHOICE (log 68). -/
def State.identityFrame (s : State) (p : PortId) : Frame :=
  let w := s.fab.coord.toNat
  s.frame 9 0 s.here 0 0 0 true
    [s.ident.serial, BitVec.ofNat 64 p.val, BitVec.ofNat 64 (fld w 0 17)]

/-- R374, R375: the port trains and sends its identity. -/
def State.train (s : State) (p : PortId) : State :=
  s.modPort p fun f => { f with link := .training, sent := some (s.identityFrame p) }

/-- Gives frames to a port. DEDUCED (log 58). -/
def State.queueFrames (s : State) (p : PortId) (v : Nat) (xs : List Frame) : State :=
  s.modPort p fun f => FPort.run { f with waiting := f.waiting.set! v (f.waiting.toList.getD v [] ++ xs) }

/-- A frame of this module to another one, by its path. DEDUCED (log 58). -/
def State.emit (s : State) (even : Bool) (dest : Coord) (v : Nat) (xs : List Frame) : State :=
  match s.routeFrom s.here dest even with
  | some p => s.queueFrames p v xs
  | none => s

/-! ## Transfers -/

/-- Splits a list into parts of `n`. -/
def chunks {α : Type} (n : Nat) : Nat → List α → List (List α)
  | 0, _ => []
  | k + 1, l => l.take n :: chunks n k (l.drop n)

/-- R313, R390: the coded form of a 4 KiB block, padded, when the encoder's output decodes to the block and is shorter.
DESIGN CHOICE (log 63). -/
def coded? (block : List W64) : Option (List W64) :=
  let bytes := wordsToBytes block
  let e := Config.codecBlock bytes
  let n := ceilDiv e.length 8
  let p := e ++ List.replicate (8 * n - e.length) 0
  if p.length < 4096 ∧ codecDecode p = some bytes then some (bytesToWords n p) else none

/-- The payload frames of a transfer: one for each 4 KiB, `addrOf` giving the address of a frame's first byte. With
compression on, a whole block of a transfer of at least 4 KiB is encoded. DEDUCED (log 65). -/
def State.dataFrames (s : State) (p : PortId) (ftype vc : Nat) (dest : Coord) (num : W16) (addr : Nat) (prot : Bool)
    (ws : List W64) : State × List Frame :=
  let n := ceilDiv ws.length 512
  let cdc := (s.port p).cdcEn.getLsbD vc && vc != 2 && !prot && decide (512 ≤ ws.length)
  let fs := (chunks 512 n ws).zipIdx.map fun b =>
    let last := b.2 + 1 == n
    let f := { s.frame ftype vc dest num 0 (addr + 4096 * b.2) last b.1 with prot := prot }
    match (if cdc && b.1.length == 512 then coded? b.1 else none) with
    | some c => { f with cdc := true, payload := c, words := BitVec.ofNat 12 c.length }
    | none => f
  let saved := (fs.map fun f => if f.cdc then 4096 - 8 * f.payload.length else 0).sum
  (s.modPort p fun q => { q with cdcSaved := bumpBy saved q.cdcSaved }, fs)

/-- R384: what a board-global address names. -/
inductive GlobalPlace where
  | own (addr : Nat)
  | remote (dest : Coord) (addr : Nat) (p : PortId)
  | unmapped
  deriving DecidableEq, Repr

/-- R384: `even` tells whether the source core is even-numbered. -/
def State.globalPlace (s : State) (even : Bool) (addr : Nat) : GlobalPlace :=
  let a := addr % 2 ^ 48
  let dest := s.boardAt (addr / 2 ^ 48 % 8)
  if Config.controlBase ≤ a then .unmapped
  else if dest = s.here then .own a
  else
    match s.routeFrom s.here dest even with
    | some p => if (s.port p).link.up then .remote dest a p else .unmapped
    | none => .unmapped

/-- A new transfer on the fabric. -/
def State.openXfer (s : State) (ref : XferRef) (dest : Coord) (read : Bool) (next left : Nat) : W16 × State :=
  let n := s.fab.nextXfer
  (n, { s with fab := { s.fab with nextXfer := n + 1, outs := s.fab.outs ++ [⟨n, ref, dest, read, next, left⟩] } })

/-- R385: the enabled slip of a core whose send offset is `off`. -/
def State.slipFrom (s : State) (c : CoreId) (off : Nat) : Bool :=
  s.fab.slips.any fun e =>
    let a := e.2.1.toNat
    tb a 51 && fld a 52 12 == c.val && fld a 0 20 == off

/-- R384, R385: a board-global write from a core's scratchpad. -/
def State.sendWrite (s : State) (c : CoreId) (id : Nat) (dest : Coord) (p : PortId) (src addr : Nat) (ws : List W64) : State :=
  let contribution := s.slipFrom c src
  let vc := if contribution then 2 else 0
  let q := s.openXfer (.dma c id) dest false 0 0
  let r := q.2.dataFrames p (if contribution then 6 else 1) vc dest q.1 addr false ws
  r.1.queueFrames p vc r.2

/-- R384: a board-global read into a core's scratchpad. -/
def State.sendRead (s : State) (c : CoreId) (id : Nat) (dest : Coord) (p : PortId) (dst addr len : Nat) : State :=
  let q := s.openXfer (.dma c id) dest true dst len
  q.2.queueFrames p 0 [q.2.frame 2 0 dest q.1 0 addr true [BitVec.ofNat 64 len]]

end Sys2Proof.Machine
end

