-- ==== Sys2Proof/Machine/Quays.lean ====
section
/-! DEFINITION. Where the quays of a request lie, and the faults of the scatter step (R184, R194, R196, R216). -/

namespace Sys2Proof.Machine

/-- R328: the declared maximum context of a request record. -/
def qMaxContext (r : BitVec 1024) : Nat := fld r.toNat 640 32

/-- R330: the slot of a request. -/
def Request.slot (q : Request) : Nat := q.handle.toNat % 4096

/-- The layers of the target model, then those of the draft model. -/
def layersOf (m : Manifest) : List LayerSpec := m.layers ++ m.draftLayers

/-- A quay's name: request slot, layer, head pair. -/
structure QuayId where
  slot : Nat
  layer : Nat
  pair : Nat
  deriving DecidableEq, Repr

/-- The quay's number within its request. -/
def QuayId.num (q : QuayId) : Nat := q.layer * 256 + q.pair

/-- The quays of a request slot on this module: the target's layers, then the draft model's (R336). -/
def State.quays (s : State) (slot : Nat) : List QuayId :=
  match s.hm.man with
  | some m => (List.range (layersOf m).length).flatMap fun l => (List.range m.headPairs).map fun h => ⟨slot, l, h⟩
  | none => []

/-- R184: berth-table entries of a quay for a declared maximum context. -/
def tableLength (ctx : Nat) : Nat := ceilDiv ctx 80 + 1

/-- R184: bytes of one quay's record, berth table and mass table, in whole 64-byte units. -/
def quayBytes (ctx : Nat) : Nat := 64 * ceilDiv (32 + 352 * tableLength ctx) 64

/-- The request in a slot. -/
def State.inSlot (s : State) (slot : Nat) : Option Request := s.serv.reqs.find? fun q => q.slot == slot

/-- R184: where a quay's record, berth table and mass table lie. DESIGN CHOICE (log 125). -/
def State.quayPlace (s : State) (k : QuayId) : Nat × Nat × Nat :=
  match s.inSlot k.slot with
  | some q =>
    let pairs := match s.hm.man with
      | some m => m.headPairs
      | none => 0
    let a := q.tables + (k.layer * pairs + k.pair) * quayBytes (qMaxContext q.record)
    (a, a + 32, a + 32 + 32 * tableLength (qMaxContext q.record))
  | none => (0, 32, 64)

/-! ## The scatter step's faults (R216) -/

/-- R216: the fault of one berth-table entry as a step writes it over the old one: a handle at or beyond the pool's count; a handle that
the quay has not reserved; while the request decodes, a ninth position since its committed count. DESIGN CHOICE (log 164). -/
def State.entryFault (s : State) (q : Request) (k : QuayId) (old new : Nat) : Option Nat :=
  let h := fld new 224 32
  let reserved := ((assoc? k.num q.reserve).getD []).contains h
  if tb new 170 ∨ h = 0xFFFFFFFF then none
  else if s.ms.bpCount.toNat ≤ h then some 0x0703
  else if h ≠ fld old 224 32 ∧ !reserved then some 0x0701
  else if fld q.record.toNat 672 32 ≤ q.committed ∧ !tb new 172 ∧ q.committed + 8 < fld new 192 32 + fld new 184 8 then some 0x0702
  else none

/-- R216: the first fault of the berth-table entries of a quay that a write of words to device memory covers. -/
def State.quayFault (s : State) (q : Request) (k : QuayId) (addr : Nat) (ws : List MWord) : Option Nat :=
  let table := (s.quayPlace k).2.1
  (List.range (tableLength (qMaxContext q.record))).findSome? fun i =>
    let e := table + 32 * i
    if addr ≤ e ∧ e + 32 ≤ addr + 8 * ws.length then
      s.entryFault q k (s.devNum e 4) (packFields 64 (((ws.drop ((e - addr) / 8)).take 4).map fun w => w.data.toNat))
    else none

/-- R216: the fault of a scatter step's write, with the handle of the request whose quay it names. -/
def State.scatterFault (s : State) (addr : Nat) (ws : List MWord) : Option (Nat × W32) :=
  (s.serv.reqs.filter fun q => q.phase == .running).findSome? fun q =>
    (s.quays q.slot).findSome? fun k => (s.quayFault q k addr ws).map fun f => (f, q.handle)

end Sys2Proof.Machine
end

