-- ==== Sys2Proof/Machine/Queues.lean ====
section
/-! DEFINITION. Hardware queues: rings, reservation, commit and rewind, reads, resets, pointer mismatches, and the
queue instructions (R279 to R284). -/

namespace Sys2Proof.Machine

/-! ## Rings -/

/-- R288: depth exponent of a queue, 0 when it is disabled. -/
def HQueue.d (h : HQueue) : Nat :=
  let d := fld h.cfg.toNat 20 4
  if 3 ≤ d ∧ d ≤ 14 then d else 0

def HQueue.depth (h : HQueue) : Nat := 2 ^ h.d

def HQueue.on (h : HQueue) : Bool := h.d != 0

/-- Scratchpad offset of the ring (R289). -/
def HQueue.base (h : HQueue) : Nat := fld h.cfg.toNat 3 17 * 8

/-- Scratchpad offset of a ring position. -/
def HQueue.slotAt (h : HQueue) (pos : Nat) : Nat := h.base + pos % h.depth * 8

/-- Positions that packets hold: a packet's are freed as they are read, a rewound packet's as reads pass them (R279).
DEDUCED (log 42). -/
def HQueue.used (h : HQueue) : Nat := (h.packets.map fun p => p.n + 1 - p.read).sum

def HQueue.free (h : HQueue) : Nat := h.depth - h.used

/-- R279: a byte of the ring that lies in a powered-down bank. -/
def Core.ringDown (k : Core) (h : HQueue) : Option Nat := k.downByte h.base (h.base + 8 * h.depth - 1)

/-- R282: a reset empties the queue; the sticky bits stay. A packet that was arriving is rewound, and the second
component lists whom to tell. -/
def HQueue.clear (h : HQueue) : HQueue × List XferRef :=
  let open_ := h.packets.filter fun p => p.state == .arriving
  ({ h with wp := 0, packets := [], seq := 0, lastVal := 0, rewound := h.rewound || open_ != [] },
   open_.map (·.xfer))

/-! ## Answers -/

/-- Node that holds the sender of a message (R277). -/
def XferRef.home : XferRef → Node
  | .dma c _ => .core c
  | .put c _ => .core c
  | .debug => .debug
  | .frame p _ _ _ _ => .port p
  | .none => .harbourmaster

/-- R277, R514: an acknowledgement or refusal travels back on VC1. -/
def State.answer (s : State) (src : Node) (x : XferRef) (status : Nat) : State :=
  match x with
  | .none => s
  | _ => { s with mesh := { s.mesh with vc1 := s.mesh.vc1 ++ [⟨src, x.home, false, .ack x status⟩] } }

def State.setQ (s : State) (c : CoreId) (q : Nat) (h : HQueue) : State := s.modCore c fun k => k.setQueue q h

/-- R282: resets a queue and rewinds the packets that are arriving (status 0x0002). -/
def State.resetQueue (s : State) (c : CoreId) (q : Nat) : State :=
  let r := ((s.core c).queue q).clear
  let s1 := (s.setQ c q r.1).modCb c fun b => { b with hqRewound := bumpBy r.2.length b.hqRewound }
  r.2.foldl (fun s x => s.answer (.core c) x 2) s1

/-! ## Reads (R280, R281) -/

/-- The packet that a read takes its word from: the first that is not rewound, if it has committed. -/
def HQueue.readable (h : HQueue) : Option QPacket :=
  match h.packets.dropWhile fun p => p.state == .rewound with
  | p :: _ => if p.state = .committed then some p else none
  | [] => none

/-- R281: the queue after one word of its first committed packet is read. -/
def HQueue.advance (h : HQueue) (val : W64) : HQueue :=
  match h.packets.dropWhile fun p => p.state == .rewound with
  | p :: r => { h with lastVal := val, packets := if p.read = p.n then r else { p with read := p.read + 1 } :: r }
  | [] => h

/-- What a read of a queue gives. -/
inductive QRead where
  | word (x : W64) (h : HQueue)
  | poisoned (off : Nat)
  | empty (last : W64) (h : HQueue)
  deriving DecidableEq, Repr

/-- R281: one read. A read of an empty queue returns the last value and sets underrun. -/
def queueRead (s : State) (c : CoreId) (h : HQueue) : QRead :=
  match h.readable with
  | some p =>
    let off := h.slotAt (p.start + p.read)
    match s.spPoison? c off 8 with
    | some o => .poisoned o
    | none =>
      let x := BitVec.ofNat 64 (s.spRd c off 8)
      .word x (h.advance x)
  | none => .empty h.lastVal { h with underrun := true }

/-- The word that a read of a queue takes is read from scratchpad: what errors it holds is found (R263). -/
def State.senseQueue (s : State) (c : CoreId) (q : Nat) : State :=
  let h := (s.core c).queue q
  match h.readable with
  | some p => s.senseSp c (h.slotAt (p.start + p.read)) 8
  | none => s

/-- One read with its counter; none when the word is poisoned. -/
def State.readQueue (s0 : State) (c : CoreId) (q : Nat) : (Option W64) × State :=
  let s := s0.senseQueue c q
  match queueRead s c ((s.core c).queue q) with
  | .word x h => (some x, s.setQ c q h)
  | .empty x h => (some x, (s.setQ c q h).modCb c fun b => { b with hqUnderrun := bump b.hqUnderrun })
  | .poisoned _ => (none, s)

/-! ## Instructions -/

/-- R284, R279: the fault that a local queue instruction raises at issue. -/
def Core.queueFault (k : Core) (q : Nat) : Option (Nat × Nat) :=
  let h := k.queue q
  if !h.on then some (0x0A02, q)
  else match k.ringDown h with
    | some o => some (0x0907, o)
    | none => none

/-- A queue instruction on a queue that it may use. -/
def onQueue (k : Core) (q : Nat) (p : Plan) : Plan :=
  match k.queueFault q with
  | some f => Plan.bad f.1 f.2
  | none => p

/-- R263: a queue read of a poisoned word. -/
def queuePoison (x : At) (s : State) (q : Nat) : State :=
  match queueRead s x.c ((s.core x.c).queue q) with
  | .poisoned o => s.raise x.c ⟨0x0906, 3, 0, x.pc, o, .hq⟩
  | _ => s

/-- QRD (R281). -/
def qrdPlan (k : Core) (x : At) (rd : RegIx) (q : BitVec 7) : Plan :=
  onQueue k q.toNat
    { Plan.nop with act := fun s =>
        match s.readQueue x.c q.toNat with
        | (some v, s1) => s1.modCore x.c fun k => k.putS x 3 3 rd v
        | (none, s1) => queuePoison x s1 q.toNat }

/-- R284: moves `n` words, one after the other. -/
def moveWords (x : At) (q : Nat) : Nat → Nat → State → State
  | _, 0, s => s
  | off, n + 1, s =>
    match s.readQueue x.c q with
    | (some v, s1) => moveWords x q (off + 8) n (s1.spWr x.c off 8 v.toNat)
    | (none, s1) => queuePoison x s1 q

/-- "bad move instruction" (R266). -/
def badMove : Plan := Plan.bad 0x0902 0

/-- QMV (R284, R285). -/
def qmvPlan (k : Core) (x : At) (q : BitVec 7) (sAddr : RegIx) (nm1 : BitVec 9) : Plan :=
  let a := (k.sreg sAddr).toNat
  let n := nm1.toNat + 1
  if a % 8 ≠ 0 ∨ !inWin a (8 * n) then badMove
  else onQueue k q.toNat
    { Plan.nop with
        ranges := [spRange .write a (8 * n) (.atCc (x.now + 3 + nm1.toNat))]
        act := moveWords x q.toNat a n }

/-- QCNT (R280). -/
def qcntPlan (k : Core) (x : At) (rd : RegIx) (q : BitVec 7) : Plan :=
  onQueue k q.toNat
    { Plan.nop with act := fun s => s.modCore x.c fun k' => k'.putS x 3 2 rd (k.queue q.toNat).cntWord }

/-- QRST (R282). -/
def qrstPlan (k : Core) (x : At) (q : BitVec 7) : Plan :=
  onQueue k q.toNat { Plan.nop with act := fun s => s.resetQueue x.c q.toNat }

/-! ## Packets (R279) -/

/-- R279: the tag word of a packet that is the `seq`-th since the last reset. -/
def tagWord (src : BitVec 12) (kind : BitVec 4) (seq n : Nat) : W64 :=
  BitVec.ofNat 64 (src.toNat * 2 ^ 40 + kind.toNat * 2 ^ 36 + seq % 2 ^ 20 * 2 ^ 16 + n)

/-- A packet that is rewound: the sticky bit, the counter, and status 0x0002 to its sender. DEDUCED (log 42). -/
def State.rewind (s : State) (c : CoreId) (q : Nat) (x : XferRef) : State :=
  let h := (s.core c).queue q
  ((s.setQ c q { h with rewound := true }).modCb c fun b => { b with hqRewound := bump b.hqRewound }).answer (.core c) x 2

/-- Writes a packet's data words into the ring, behind the position of its tag word. -/
def writeRing (c : CoreId) (h : HQueue) : Nat → List MWord → State → State
  | _, [], s => s
  | pos, w :: r, s => writeRing c h (pos + 1) r (s.spLand c (h.slotAt pos) [⟨w.data, false⟩])

/-- What arrival of a packet's first word leads to. -/
inductive Arrival where
  | refused | tooLarge | waits | reserved
  deriving DecidableEq, Repr

/-- R262, R279, R514: whether a core's queue takes a packet of `n` data words. -/
def State.arrival (s : State) (c : CoreId) (q n : Nat) : Arrival :=
  let k := s.core c
  let h := k.queue q
  let dead := !s.usable c || k.seq.state == .faulted || k.seq.state == .scrubbing
  if dead || !h.on || (k.ringDown h).isSome then .refused
  else if h.depth < n + 1 then .tooLarge
  else if h.free < n + 1 then .waits
  else .reserved

/-- R279: reserves positions and writes the words. A packet with a poisoned word is rewound where it stands. -/
def State.reserve (s : State) (c : CoreId) (q : Nat) (src : BitVec 12) (kind : BitVec 4) (ws : List MWord)
    (x : XferRef) : State :=
  let h := (s.core c).queue q
  let bad := ws.any (·.poison)
  let p : QPacket := ⟨h.wp, ws.length, if bad then .rewound else .arriving, 0, x, src, kind⟩
  let s1 := s.setQ c q { h with wp := (h.wp + ws.length + 1) % h.depth, packets := h.packets ++ [p] }
  if bad then
    (s1.modCb c fun b => { b with mshPoisoned := bumpBy (ws.filter (·.poison)).length b.mshPoisoned }).rewind c q x
  else writeRing c h (h.wp + 1) ws s1

/-- R279: commits the first arriving packet, all earlier ones being committed or rewound. -/
def State.commit (s : State) (c : CoreId) (q : Nat) : State :=
  let h := (s.core c).queue q
  match h.packets.find? fun p => p.state == .arriving with
  | none => s
  | some p =>
    let h1 := { h with
      packets := updFirst (fun p => p.state == .arriving) (fun p => { p with state := .committed }) h.packets
      seq := h.seq + 1 }
    let s1 := (s.spLand c (h.slotAt p.start) [⟨tagWord p.src p.kind h.seq p.n, false⟩]).setQ c q h1
    (s1.modCb c fun b => { b with hqPkts := bump b.hqPkts }).answer (.core c) p.xfer 0

/-- QUEUE_POINTER_MISMATCH (R283). -/
def State.ptrMismatch (s : State) (c : CoreId) (q : Nat) : State :=
  let s1 := s.resetQueue c q
  let h := (s1.core c).queue q
  ((s1.setQ c q { h with perr := true }).modCb c fun b => { b with hqPtrerr := bump b.hqPtrerr }).raiseLoose c
    0x0A01 q .hq

end Sys2Proof.Machine
end

