-- ==== Sys2Proof/Machine/Dma.lean ====
section
/-! DEFINITION. The DMA-and-queue unit at issue: descriptors, DSTART, QPUT, DFENCE, AWAIT, multicast (R274 to R277, R284,
R285, R293, R258). -/

namespace Sys2Proof.Machine

/-! ## Descriptors (R275) -/

/-- A DMA descriptor. `rest` holds the reserved bits. -/
structure DmaDesc where
  src : Nat
  dst : Nat
  len : Nat
  kind : Nat
  cqe : Bool
  cq : Nat
  tag : Nat
  mode : Nat
  xm1 : Nat
  ym1 : Nat
  grp : Nat
  cdc : Bool
  chk : Bool
  rest : Nat
  deriving DecidableEq, Repr

def dmaDescOf (n : Nat) : DmaDesc :=
  { src := fld n 192 64, dst := fld n 128 64, len := fld n 108 20 + 1, kind := fld n 104 4, cqe := tb n 103,
    cq := fld n 96 7, tag := fld n 64 32, mode := fld n 62 2, xm1 := fld n 56 6, ym1 := fld n 50 6, grp := fld n 44 6,
    cdc := tb n 43, chk := tb n 42, rest := fld n 0 42 }

/-- Offset of an address in a core's own window. -/
def ownOff (c : CoreId) (addr : Nat) : Option Nat :=
  if spKey c 0 ≤ addr ∧ addr < spKey c 0 + Config.windowBytes then some (addr - spKey c 0) else none

/-- The core whose window holds an address (R14), fused off or not. -/
def windowCore (addr : Nat) : Option CoreId :=
  if Config.scratchBase ≤ addr ∧ addr < Config.scratchBase + 2304 * Config.windowBytes then
    some (Fin.ofNat 2304 ((addr - Config.scratchBase) / Config.windowBytes))
  else none

/-- The address on its own module that an address names (R384). -/
def localPart (addr : Nat) : Nat := if 2 ^ 51 ≤ addr then addr % 2 ^ 48 else addr

/-- R275: a range that has a byte in a scratchpad window lies wholly in it, on this module or another. -/
def oneWindow (addr len : Nat) : Bool :=
  let a := localPart addr
  let end_ := Config.scratchBase + 2304 * Config.windowBytes
  decide (a + len ≤ Config.scratchBase) || decide (end_ ≤ a)
    || (decide (Config.scratchBase ≤ a) && decide ((a - Config.scratchBase) % Config.windowBytes + len ≤ Config.windowBytes))

/-- R275: wholly in stacked-memory space or wholly in the anchorage. -/
def memSpan (addr len : Nat) : Bool :=
  decide (addr + len ≤ Config.stackedBytes) || (decide (Config.anchBase ≤ addr) && decide (addr + len ≤ 0x020000000000))

/-- MSH_MCBOXg as x0, y0, x1, y1 (R289). -/
def Core.mcBoxAt (k : Core) (g : Nat) : Nat × Nat × Nat × Nat :=
  let b := (Sparse.get 0 k.dqu.mcBox g).toNat
  (fld b 0 6, fld b 6 6, fld b 12 6, fld b 18 6)

def Core.groupUsed (k : Core) (g : Nat) : Bool :=
  let b := k.mcBoxAt g
  decide (b.1 ≤ b.2.2.1) && decide (b.2.1 ≤ b.2.2.2)

/-- R384: an own-slot board-global address stands for its module-local address. -/
def State.normAddr (s : State) (addr : Nat) : Nat :=
  if 2 ^ 51 ≤ addr ∧ addr < 2 ^ 52 then
    match s.globalPlace true addr with
    | .own a => a
    | _ => addr
  else addr

/-- R275: destinations of a multicast mode, or of a scratchpad write: a window address and, for a rectangle, its fit. -/
def multiOk (k : Core) (d : DmaDesc) : Bool :=
  match d.mode with
  | 1 =>
    match windowCore d.dst with
    | some c => oneWindow d.dst d.len && decide (c.val % 48 + d.xm1 ≤ 47) && decide (c.val / 48 + d.ym1 ≤ 47)
    | none => false
  | 2 => decide (d.dst % 2 ^ 20 + d.len ≤ Config.windowBytes) && k.groupUsed d.grp
  | _ => false

/-- R275: whether a descriptor obeys both tables. -/
def State.dmaDescOk (s : State) (c : CoreId) (d : DmaDesc) : Bool :=
  let k := s.core c
  let srcOwn := (ownOff c d.src).isSome
  let dstOwn := (ownOff c d.dst).isSome
  let pool := (s.poolOf d.src).isSome
  d.rest == 0 && d.mode != 3 && d.src % 8 == 0 && d.len % 8 == 0 && (d.kind == 1 || d.dst % 8 == 0)
    && oneWindow d.src d.len && ((d.cdc || d.chk) → d.kind == 0 && d.mode == 0)
    && match d.kind with
      | 0 =>
        if d.mode == 0 then
          oneWindow d.dst d.len && (srcOwn || dstOwn)
            && ((d.cdc || d.chk) → memSpan d.src 8 && d.len % 4096 == 0)
            && ((d.cdc || d.chk) && pool → d.src % 4096 == 0 && !d.cdc)
        else srcOwn && multiOk k d
      | 1 =>
        srcOwn && d.mode == 0 && decide (d.len ≤ 4088) && decide (fld d.dst 0 12 < 2304)
          && d.dst == fld d.dst 0 12 + fld d.dst 16 7 * 2 ^ 16
      | 2 => d.mode == 0 && d.len % 64 == 0 && memSpan d.src d.len && memSpan d.dst d.len
      | 3 =>
        srcOwn && decide (16 ≤ d.len)
          && (if d.mode == 0 then (windowCore d.dst).isSome && oneWindow d.dst d.len else multiOk k d)
      | _ => false

/-! ## Messages -/

/-- Node of a place; the second component is the address its message carries. -/
def Place.node (addr : Nat) : Place → Option (Node × Nat)
  | .mem (.channel ch) _ => some (.channel ch, addr)
  | .mem (.anch a) _ => some (.anch a, addr)
  | .scratch c off => some (.core c, off)
  | .fusedOff => (windowCore addr).map fun c => (.core c, addr % Config.windowBytes)
  | _ => none

/-- Splits [addr, addr + len) at multiples of 64: pieces as (address, bytes). -/
def pieces : Nat → Nat → Nat → List (Nat × Nat)
  | 0, _, _ => []
  | fuel + 1, addr, len =>
    if len = 0 then []
    else
      let n := min len (64 - addr % 64)
      (addr, n) :: pieces fuel (addr + n) (len - n)

def piecesOf (addr len : Nat) : List (Nat × Nat) := pieces (len / 64 + 2) addr len

def State.push0 (s : State) (ms : List Msg) : State := { s with mesh := { s.mesh with vc0 := s.mesh.vc0 ++ ms } }

def State.push1 (s : State) (ms : List Msg) : State := { s with mesh := { s.mesh with vc1 := s.mesh.vc1 ++ ms } }

/-- Write messages from `src` that carry `ws` to the module-local address `dst`. -/
def State.writeMsgs (s : State) (src : Node) (dst : Nat) (ws : List MWord) (ref : XferRef) : List Msg :=
  (piecesOf dst (8 * ws.length)).filterMap fun p =>
    ((s.placeRaw p.1).node p.1).map fun n =>
      ⟨src, n.1, false, .write n.2 ((ws.drop ((p.1 - dst) / 8)).take (p.2 / 8)) ref⟩

/-- Read requests from `src` for `len` bytes at `addr`, whose data land from offset `dst` on. -/
def State.readMsgs (s : State) (src : Node) (addr len dst : Nat) (ref : XferRef) : List Msg :=
  (piecesOf addr len).filterMap fun p =>
    ((s.placeRaw p.1).node p.1).map fun n => ⟨src, n.1, false, .read n.2 (p.2 / 8) (dst + (p.1 - addr)) ref⟩

/-- R275: read requests of a memory copy. -/
def State.copyMsgs (s : State) (c : CoreId) (src dst len : Nat) (ref : XferRef) : List Msg :=
  (piecesOf src len).filterMap fun p =>
    ((s.placeRaw p.1).node p.1).map fun n => ⟨.core c, n.1, false, .readCopy n.2 (p.2 / 8) (dst + (p.1 - src)) ref⟩

/-- The cores of a box of the die. -/
def boxCores (x0 y0 x1 y1 : Nat) : List CoreId :=
  (List.range (y1 + 1 - y0)).flatMap fun j => (List.range (x1 + 1 - x0)).map fun i => Fin.ofNat 2304 (48 * (y0 + j) + (x0 + i))

/-- R274: the cores at which a multicast is ejected. -/
def State.members (s : State) (c : CoreId) (d : DmaDesc) : List CoreId :=
  if d.mode = 1 then
    match windowCore d.dst with
    | some o => (boxCores (o.val % 48) (o.val / 48) (o.val % 48 + d.xm1) (o.val / 48 + d.ym1)).filter s.usable
    | none => []
  else
    let b := (s.core c).mcBoxAt d.grp
    (boxCores b.1 b.2.1 (min b.2.2.1 47) (min b.2.2.2 47)).filter fun m => (s.core m).dqu.mcMemb.getLsbD d.grp

/-! ## Starting a transfer -/

/-- Kind of a transfer in flight. -/
def State.xferKind (s : State) (d : DmaDesc) : XferKind :=
  match d.kind with
  | 1 => .queueSend
  | 2 => .memCopy
  | 3 => .route
  | _ =>
    if d.cdc || d.chk then (if (s.poolOf d.src).isSome then .berth else .header)
    else if 2 ^ 51 ≤ d.src || (2 ^ 51 ≤ d.dst && d.mode == 0) then .fabric
    else .copy

/-- R293: the status with which a range's check ends a transfer, 0 if it may move. -/
def State.endStatus (s : State) (c : CoreId) (addr len : Nat) : Nat :=
  if (ownOff c addr).isSome then 0
  else if 2 ^ 51 ≤ addr then
    match (if addr < 2 ^ 52 then s.globalPlace (c.val % 2 == 0) addr else .unmapped) with
    | .remote _ _ _ => 0
    | _ => 3
  else s.rangeStatus .module addr len

/-- R293: the check of a transfer against the map. A route send names a window address; a multicast skips fused-off cores. -/
def State.mapStatus (s : State) (c : CoreId) (d : DmaDesc) : Nat :=
  match d.kind with
  | 1 => 0
  | 3 => if d.mode = 0 then s.endStatus c d.dst d.len else 0
  | _ =>
    let srcLen := if s.xferKind d = .header then 16 * (d.len / 4096) else d.len
    let a := s.endStatus c d.src srcLen
    let b := if d.mode = 0 then s.endStatus c d.dst d.len else 0
    if a = 1 ∨ b = 1 then 1 else max a b

/-- R514: the lowest non-zero of two statuses. -/
def mergeStatus (a b : Nat) : Nat := if a = 0 then b else if b = 0 then a else min a b

/-- The messages of a transfer that stays on the module. -/
def State.xferMsgs (s : State) (c : CoreId) (d : DmaDesc) (ref : XferRef) : List Msg :=
  let ws := match ownOff c d.src with
    | some off => s.rdWords (spKey c off) (d.len / 8)
    | none => []
  let tos := if d.mode = 0 then (windowCore d.dst).toList else s.members c d
  match s.xferKind d with
  | .copy =>
    if d.mode != 0 then
      tos.flatMap fun m => (piecesOf (d.dst % 2 ^ 20) d.len).map fun p =>
        ⟨.core c, .core m, false, .write p.1 ((ws.drop ((p.1 - d.dst % 2 ^ 20) / 8)).take (p.2 / 8)) ref⟩
    else
      match ownOff c d.src, ownOff c d.dst with
      | some _, _ => s.writeMsgs (.core c) d.dst ws ref
      | none, some o => s.readMsgs (.core c) d.src d.len o ref
      | none, none => []
  | .queueSend => [⟨.core c, .core (Fin.ofNat 2304 (fld d.dst 0 12)), false, .packet (Fin.ofNat 128 (fld d.dst 16 7)) 1 ws ref⟩]
  | .memCopy => s.copyMsgs c d.src d.dst d.len ref
  | .route =>
    let hdr := packFields 64 ((ws.take 2).map fun w => w.data.toNat)
    tos.map fun m => ⟨.core c, .core m, false, .route (BitVec.ofNat 128 hdr) ((ws.drop 2).map (·.data)) [] ref⟩
  | _ => []

/-- R276: a new transfer in the DMA unit, with what it sends. -/
def State.startXfer (s : State) (x : At) (d : DmaDesc) : State :=
  let k := s.core x.c
  let id := k.dqu.nextXfer
  let kind := s.xferKind d
  let st := s.mapStatus x.c d
  let ref := XferRef.dma x.c id
  let msgs := if st = 0 then s.xferMsgs x.c d ref else []
  let t : Transfer :=
    { id := id, bundle := x.pc, kind := kind, src := d.src, dst := d.dst, len := d.len, cqe := d.cqe,
      cq := Fin.ofNat 128 d.cq, tag := BitVec.ofNat 32 d.tag, cdc := d.cdc, chk := d.chk,
      left := if st ≠ 0 then 0 else if kind = .fabric then 1 else msgs.length,
      tile := if st ≠ 0 then d.len / 4096 else 0, held := false, struck := [], status := st }
  let s1 := s.modDqu x.c fun q => { q with nextXfer := id + 1, transfers := q.transfers ++ [t] }
  if st ≠ 0 then { s1 with ms := { s1.ms with unmapped := bump s1.ms.unmapped } }
  else if kind = .fabric then
    match ownOff x.c d.src, s1.globalPlace (x.c.val % 2 == 0) (if 2 ^ 51 ≤ d.src then d.src else d.dst) with
    | some off, .remote dest a p =>
      s1.sendWrite x.c id dest p off a ((s.rdWords (spKey x.c off) (d.len / 8)).map (·.data))
    | none, .remote dest a p => s1.sendRead x.c id dest p (d.dst % Config.windowBytes) a d.len
    | _, _ => s1
  else s1.push0 msgs

/-- R216: the fault of a transfer that is a scatter step's write, with the handle of the request whose quay it names. -/
def State.scatterOf (s : State) (c : CoreId) (d : DmaDesc) : Option (Nat × W32) :=
  if d.kind = 0 ∧ d.mode = 0 then
    (ownOff c d.src).bind fun off => s.scatterFault d.dst (s.rdWords (spKey c off) (d.len / 8))
  else none

/-- R216: a transfer starts, unless it is a scatter step's write that faults. -/
def State.scatterXfer (s : State) (x : At) (d : DmaDesc) : State :=
  match s.scatterOf x.c d with
  | some f =>
    (s.modCore x.c fun k => if k.seq.faultThisTask then k else { k with faultQuay := some f.2 }).raise x.c
      ⟨f.1, 3, 0, x.pc, 0, .hq⟩
  | none => s.startXfer x d

/-- "DMA descriptor error" (R287). -/
def badDma (off : Nat) : Plan := Plan.bad 0x0A04 off

/-- DSTART (R275 to R277, R285). -/
def dstartPlan (s : State) (x : At) (sDesc : RegIx) : Plan :=
  let k := s.core x.c
  let off := (k.sreg sDesc).toNat
  let full := stallIf (decide (16 ≤ k.dqu.transfers.length)) stallQueue
  if off % 32 ≠ 0 ∨ !inWin off 32 then (badDma off).after full
  else
    let d0 := dmaDescOf (s.spRd x.c off 32)
    let d := { d0 with src := s.normAddr d0.src, dst := if d0.kind = 1 then d0.dst else s.normAddr d0.dst }
    withDesc s x off 32 full
      (if !s.dmaDescOk x.c d then badDma off
       else
         match (if d.cqe then k.queueFault d.cq else none) with
         | some f => Plan.bad f.1 f.2
         | none =>
           let from_ := max (x.now + 1) k.dqu.readEnd
           let end_ := from_ + ceilDiv d.len 64
           let desc := spRange .read off 32 (.atCc (x.now + 2))
           match (if d.kind = 2 then none else ownOff x.c d.src) with
           | some so =>
             { fault := none, stall := 0, flow := .seq, ranges := [desc, spRange .read so d.len (.atCc end_)],
               act := readOr x 3 .hq so d.len fun s =>
                 (s.modDqu x.c fun q => { q with readEnd := end_ }).scatterXfer x d }
           | none =>
             { fault := none, stall := 0, flow := .seq, ranges := [desc], act := fun s => s.scatterXfer x d })

/-- QPUT (R284, R277). -/
def qputPlan (k : Core) (x : At) (sDst sFirst : RegIx) (nm1 : BitVec 2) : Plan :=
  let dest := (k.sreg sDst).toNat
  let full := stallIf (decide (32 ≤ k.dqu.puts.length)) stallQueue
  if sFirst.toNat + nm1.toNat > 31 ∨ fld dest 0 12 > 2303 then badMove.after full
  else
    { Plan.nop with
        stall := full
        act := fun s =>
          let id := k.dqu.nextXfer
          let ws := (List.range (nm1.toNat + 1)).map fun i =>
            (⟨k.sreg (BitVec.ofNat 5 (sFirst.toNat + i)), false⟩ : MWord)
          (s.modDqu x.c fun q => { q with nextXfer := id + 1, puts := q.puts ++ [⟨id, x.pc⟩] }).push0
            [⟨.core x.c, .core (Fin.ofNat 2304 (fld dest 0 12)), false,
              .packet (Fin.ofNat 128 (fld dest 16 7)) 0 ws (.put x.c id)⟩] }

/-- DFENCE (R284). -/
def dfencePlan (k : Core) : Plan :=
  { Plan.nop with stall := stallIf (k.dqu.transfers != [] || k.dqu.puts != []) stallDrain }

/-- AWAIT (R258). -/
def awaitPlan (k : Core) (sAddr sLen sCnt : RegIx) : Plan :=
  let a := (k.sreg sAddr).toNat
  let len := (k.sreg sLen).toNat
  let n := (k.sreg sCnt).toNat
  if n = 0 then Plan.nop
  else if n > len ∨ n > 1048575 ∨ !inWin a len then Plan.bad 0x0904 n
  else { Plan.nop with ranges := [{ spRange .await a len .byBytes with left := n }] }

end Sys2Proof.Machine
end

