-- ==== Sys2Proof/Machine/Paths.lean ====
section
/-! DEFINITION. Where things stand on the die, and the paths that mesh packets take (R14, R269, R274). -/

namespace Sys2Proof.Machine

/-- R357: hops between two core positions. -/
def hops (a b : Nat) : Nat :=
  ((Int.ofNat (a % 48) - Int.ofNat (b % 48)).natAbs + (Int.ofNat (a / 48) - Int.ofNat (b / 48)).natAbs)

/-- R14: the basin of a core, and the core at a basin's centre. -/
def basinOf (c : Nat) : Nat := (c / 48 / 12 * 4 + c % 48 / 12) * 16 + c / 48 % 12 / 3 * 4 + c % 12 / 3

def basinCentre (b : Nat) : Nat :=
  (b / 16 / 4 * 12 + b % 16 / 4 * 3 + 1) * 48 + b / 16 % 4 * 12 + b % 4 * 3 + 1

/-- R14: the reticle field of a core, as column and row. -/
def fieldOf (c : Nat) : Nat × Nat := (c % 48 / 24, c / 48 / 24)

/-- R269: the core of a position. -/
def coreAtXY (x y : Nat) : Nat := 48 * y + x

/-- R269: the core whose router an anchorage controller attaches to. -/
def anchRouter (k : Nat) : Nat :=
  match k / 4 with
  | 0 => coreAtXY (6 + 12 * k) 0
  | 1 => coreAtXY 47 (6 + 12 * (k - 4))
  | 2 => coreAtXY (42 - 12 * (k - 8)) 47
  | _ => coreAtXY 0 (42 - 12 * (k - 12))

/-- R372: the core whose router a port's controller attaches to. -/
def portRouter (p : Nat) : Nat :=
  match p with
  | 0 => coreAtXY 47 12
  | 1 => coreAtXY 0 12
  | 2 => coreAtXY 12 47
  | 3 => coreAtXY 12 0
  | 4 => coreAtXY 47 35
  | 5 => coreAtXY 0 35
  | 6 => coreAtXY 35 0
  | _ => coreAtXY 35 47

/-- R269: the core whose router a node attaches to; the manual does not give those of the PCIe controller and the
harbourmaster. DESIGN CHOICE (log 158). -/
def routerOf : Node → Nat
  | .core c => c.val
  | .channel ch => basinCentre ch.val
  | .anch k => anchRouter k.val
  | .port p => portRouter p.val
  | .pcie => (Config.edgeRouter 0).val
  | .harbourmaster => (Config.edgeRouter 1).val
  | .debug => (Config.edgeRouter 1).val

/-- Whether coordinate `r` is reached by a walk from `a` to `b` that has left `a`. -/
def walksTo (a b r : Nat) : Bool := r != a && decide (min a b ≤ r) && decide (r ≤ max a b)

/-- R269: whether a packet from router `a` to router `b` crosses a link into router `r`: along x to the column of `b`, then
along y to its row. -/
def crosses (a b r : Nat) : Bool :=
  (r / 48 == a / 48 && walksTo (a % 48) (b % 48) (r % 48)) || (r % 48 == b % 48 && walksTo (a / 48) (b / 48) (r / 48))

end Sys2Proof.Machine
end

