-- ==== Sys2Proof/Machine/Mesh.lean ====
section
/-! DEFINITION. What arrives over the mesh: inbound writes and reads, acknowledgements, packets, channel and controller
accesses, link words (R257, R258, R263, R270, R272, R276 to R279, R297 to R299, R514). -/

namespace Sys2Proof.Machine

/-! ## Messages in order -/

def Msg.between (src dst : Node) (m : Msg) : Bool := m.src == src && m.dst == dst

def MsgBody.isWrite : MsgBody → Bool
  | .write _ _ _ => true
  | _ => false

def MsgBody.isData : MsgBody → Bool
  | .data _ _ _ => true
  | _ => false

def MsgBody.isAck : MsgBody → Bool
  | .ack _ _ => true
  | _ => false

/-- R270: the first VC0 message from `src` to `dst`. -/
def State.head0 (s : State) (src dst : Node) : Option Msg := s.mesh.vc0.find? (Msg.between src dst)

def State.drop0 (s : State) (src dst : Node) : State :=
  { s with mesh := { s.mesh with vc0 := dropFirst (Msg.between src dst) s.mesh.vc0 } }

def State.hold0 (s : State) (src dst : Node) : State :=
  { s with mesh := { s.mesh with vc0 := updFirst (Msg.between src dst) (fun m => { m with held := true }) s.mesh.vc0 } }

/-- R270: the first VC1 message from `src` to `dst`. VC1 always drains. -/
def State.head1 (s : State) (src dst : Node) : Option Msg := s.mesh.vc1.find? (Msg.between src dst)

def State.drop1 (s : State) (src dst : Node) : State :=
  { s with mesh := { s.mesh with vc1 := dropFirst (Msg.between src dst) s.mesh.vc1 } }

/-! ## Inbound writes (R257, R258, R514) -/

/-- What a destination does with an inbound write. -/
inductive Inbound where
  | refuse
  | refuseFault (cause off : Nat)
  | hold
  | land
  deriving DecidableEq, Repr

/-- R514: a core that performs no inbound access. -/
def State.shut (s : State) (c : CoreId) : Bool :=
  let k := s.core c
  !s.usable c || k.seq.state == .faulted || k.seq.state == .scrubbing

/-- R257: a live read or write entry that an inbound write overlaps. -/
def Core.holdsInbound (k : Core) (off len : Nat) : Bool :=
  k.sb.toList.any fun o =>
    match o with
    | some e => e.live k.seq.cc && e.kind != .await && (spRange .write off len .byBytes).overlaps e
    | none => false

/-- Table "Inbound accesses not performed", then R257. -/
def State.inbound (s : State) (c : CoreId) (off len : Nat) : Inbound :=
  let k := s.core c
  let last := off + len - 1
  if s.shut c then .refuse
  else
    match k.downByte off last with
    | some o => if k.taskRuns then .refuseFault 0x0907 o else .refuse
    | none =>
      match (if k.taskRuns then meets off last k.region.1 k.region.2 else none) with
      | some o => .refuseFault 0x0905 o
      | none =>
        match (if k.taskRuns then meets off last k.queueArea.1 k.queueArea.2 else none) with
        | some o => .refuseFault 0x0A03 o
        | none => if k.holdsInbound off len then .hold else .land

/-- R258: bytes that `n` landed bytes from `off` on share with an await's range. -/
def SbEntry.share (e : SbEntry) (off n : Nat) : Nat := min (e.last + 1) (off + n) - max e.first off

/-- R258: landed bytes count toward every await they lie in, and free it when its count is reached. -/
def Core.countAwaits (k : Core) (off n : Nat) : Core :=
  { k with sb := k.sb.map fun o =>
      match o with
      | some e =>
        if e.kind == .await && !e.acc then
          (if e.left ≤ e.share off n then none else some { e with left := e.left - e.share off n })
        else some e
      | none => none }

/-- Lands words: R263 marks, R272 and R258 counts. -/
def State.landWords (s : State) (c : CoreId) (off : Nat) (ws : List MWord) : State :=
  let s1 := s.spLand c off ws
  let n := (ws.filter (·.poison)).length
  s1.modCore c fun k =>
    { k.countAwaits off (8 * ws.length) with cb := { k.cb with mshPoisoned := bumpBy n k.cb.mshPoisoned } }

/-- The fault that an inbound access raises at the target core. -/
def State.raiseInbound (s : State) (c : CoreId) (cause off : Nat) : State :=
  s.raiseLoose c cause off (if cause = 0x0A03 then .hq else .seq)

/-- Status of delivered words (R277). -/
def deliveredStatus (ws : List MWord) : Nat := if ws.any (·.poison) then 5 else 0

/-- One part of a transfer has ended with a status. -/
def Transfer.part (t : Transfer) (st : Nat) : Transfer := { t with left := t.left - 1, status := mergeStatus t.status st }

def State.modXfer (s : State) (c : CoreId) (id : Nat) (f : Transfer → Transfer) : State :=
  s.modDqu c fun q => { q with transfers := updFirst (fun t => t.id == id) f q.transfers }

/-- A part of a transfer is done where its data land: the reader's own transfer. -/
def State.partDone (s : State) (ref : XferRef) (st : Nat) : State :=
  match ref with
  | .dma c id => s.modXfer c id fun t => t.part st
  | _ => s

/-- Takes a write or read data into a scratchpad; `drop` takes the message off its channel, `hold` marks it held,
`done` tells the sender. -/
def State.takeInbound (s : State) (c : CoreId) (off : Nat) (ws : List MWord) (held : Bool) (drop hold : State → State)
    (done : Nat → State → State) : State :=
  match s.inbound c off (8 * ws.length) with
  | .refuse => done 1 (drop s)
  | .refuseFault cause o => done 1 ((drop s).raiseInbound c cause o)
  | .hold => if held then s else (hold s).modCa c fun a => { a with spdHeld := bump a.spdHeld }
  | .land => done (deliveredStatus ws) ((drop s).landWords c off ws)

/-- R257, R270: read data that the scoreboard holds leave VC1 and wait in the DMA unit. -/
def State.parkData (s : State) (c : CoreId) (src : Node) (m : Msg) : State :=
  (s.drop1 src (.core c)).modDqu c fun q => { q with landing := q.landing ++ [{ m with held := true }] }

/-- Takes waiting read data of a source out of the DMA unit. -/
def State.unpark (s : State) (c : CoreId) (src : Node) : State :=
  s.modDqu c fun q => { q with landing := dropFirst (fun m => m.src == src) q.landing }

/-- Where the next inbound write of a source stands. -/
inductive InSpot where
  | vc0 | vc1 | dma
  deriving DecidableEq, Repr

/-- R257: the inbound write or read data that is held for a source. -/
def State.heldInbound (s : State) (c : CoreId) (src : Node) : Option (Msg × InSpot) :=
  match (s.head0 src (.core c)).filter fun m => m.body.isWrite && m.held with
  | some m => some (m, .vc0)
  | none => ((s.core c).dqu.landing.find? fun m => m.src == src).map fun m => (m, .dma)

/-- The next inbound write or read data of a source that is not held: a write first. DESIGN CHOICE (log 159). -/
def State.freshInbound (s : State) (c : CoreId) (src : Node) : Option (Msg × InSpot) :=
  match (s.head0 src (.core c)).filter (·.body.isWrite) with
  | some m => some (m, .vc0)
  | none => ((s.head1 src (.core c)).filter (·.body.isData)).map fun m => (m, .vc1)

/-- Does what R257 says with a message. -/
def State.inboundStep (s : State) (c : CoreId) (src : Node) (m : Msg) (spot : InSpot) : State :=
  match m.body with
  | .write off ws ref =>
    s.takeInbound c off ws m.held (·.drop0 src (.core c)) (·.hold0 src (.core c)) fun st s => s.answer (.core c) ref st
  | .data off ws ref =>
    s.takeInbound c off ws m.held (fun s => if spot = .dma then s.unpark c src else s.drop1 src (.core c))
      (fun s => s.parkData c src m) fun st s => s.partDone ref st
  | _ => s

/-- INBOUND_WRITE (R257): the next inbound write of a source. While one of the source is held, a write waits behind it on VC0,
and read data leave VC1 and wait behind it in the DMA unit. -/
def State.inboundWrite (s : State) (c : CoreId) (src : Node) : State :=
  match s.heldInbound c src with
  | some _ =>
    match (s.head1 src (.core c)).filter (·.body.isData) with
    | some m => s.parkData c src m
    | none => s
  | none =>
    match s.freshInbound c src with
    | some (m, spot) => s.inboundStep c src m spot
    | none => s

/-- HELD_INBOUND_WRITE_LAND (R257): a held write lands once no entry blocks it. -/
def State.heldLand (s : State) (c : CoreId) (src : Node) : State :=
  match s.heldInbound c src with
  | some (m, spot) => s.inboundStep c src m spot
  | none => s

/-! ## Inbound reads (R278) -/

/-- INBOUND_READ (R278): served as it arrives, or refused. -/
def State.inboundRead (s : State) (c : CoreId) (src : Node) : State :=
  match s.head0 src (.core c) with
  | some m =>
    match m.body with
    | .read off n dst ref =>
      let s1 := s.drop0 src (.core c)
      let no := fun (s : State) => s.push1 [⟨.core c, src, false, .ack ref 1⟩]
      if s.shut c then no s1
      else
        match (s.core c).downByte off (off + 8 * n - 1) with
        | some o => no (if (s.core c).taskRuns then s1.raiseInbound c 0x0907 o else s1)
        | none =>
          let s2 := s1.senseSp c off (8 * n)
          s2.push1 [⟨.core c, src, false, .data dst (s2.rdWords (spKey c off) n) ref⟩]
    | _ => s
  | none => s

/-! ## Acknowledgements (R276, R277) -/

/-- "DMA target error" (R277). -/
def State.targetError (s : State) (c : CoreId) (bundle : BitVec 20) (st : Nat) : State :=
  s.raise c ⟨0x0A05, 3, 0, bundle, st + bundle.toNat * 2 ^ 16, .hq⟩

/-- R277: a QPUT's answer. -/
def State.putDone (s : State) (c : CoreId) (id st : Nat) : State :=
  match (s.core c).dqu.puts.find? (fun p => p.id == id) with
  | none => s
  | some p =>
    let s1 := s.modDqu c fun q => { q with puts := dropFirst (fun p => p.id == id) q.puts }
    if st = 0 then s1
    else (s1.modCb c fun b => { b with hqDmaerr := bump b.hqDmaerr }).targetError c p.bundle st

/-- An acknowledgement or refusal reaches a core. -/
def State.coreAck (s : State) (c : CoreId) (src : Node) : State :=
  match (s.head1 src (.core c)).filter (·.body.isAck) with
  | some m =>
    let s1 := s.drop1 src (.core c)
    match m.body with
    | .ack (.dma d id) st => s1.partDone (.dma d id) st
    | .ack (.put d id) st => s1.putDone d id st
    | _ => s1
  | none => s

/-! ## Completion (R276, R277) -/

/-- Tiles that a checked transfer still has to take. -/
def Transfer.tiles (t : Transfer) : Nat :=
  match t.kind with
  | .header | .berth => t.len / 4096
  | _ => 0

def Transfer.complete (t : Transfer) : Bool := t.left == 0 && decide (t.tiles ≤ t.tile)

/-- R277, R279: a completion packet reserves and commits in the local queue. None while it waits for room. -/
def State.postCompletion (s : State) (c : CoreId) (q : QueueId) (w : W64) : Option State :=
  match s.arrival c q.val 1 with
  | .waits => none
  | .refused => some s
  | .tooLarge => some (s.rewind c q.val .none)
  | .reserved =>
    let open_ := ((s.core c).queue q.val).packets.any fun p => p.state == .arriving
    let s1 := s.reserve c q.val (BitVec.ofNat 12 c.val) 2 [⟨w, false⟩] .none
    some (if open_ then s1 else s1.commit c q.val)

/-- R277, R279: the first completion packet that waits tries again; those behind it wait for it. -/
def State.tryPost (s : State) (c : CoreId) : State :=
  match (s.core c).dqu.posts with
  | [] => s
  | p :: r => ((s.postCompletion c p.2.1 p.2.2).map fun s => s.modDqu c fun q => { q with posts := r }).getD s

/-- The data word of a completion packet (R277). -/
def Transfer.completionWord (t : Transfer) : W64 := BitVec.ofNat 64 (t.tag.toNat * 2 ^ 32 + t.status)

/-- DMA_COMPLETE (R276, R277): the transfer ends, with a completion packet or, after an error, a fault. For a transfer that is
complete but whose packet waits for room, the packet tries again. -/
def State.dmaComplete (s : State) (c : CoreId) (id : Nat) : State :=
  match (s.core c).dqu.transfers.find? (fun t => t.id == id) with
  | none => if (s.core c).dqu.posts.any (fun p => p.1 == id) then s.tryPost c else s
  | some t =>
    if !t.complete then s
    else
      let s1 := (s.modDqu c fun q => { q with transfers := dropFirst (fun t => t.id == id) q.transfers }).modCb c fun b =>
        { b with hqDmas := bump b.hqDmas, hqDmaerr := bumpBy (bit (t.status != 0)) b.hqDmaerr }
      if t.cqe then
        let alone := (s.core c).dqu.posts == []
        let s2 := s1.modDqu c fun q => { q with posts := q.posts ++ [(id, t.cq, t.completionWord)] }
        if alone then s2.tryPost c else s2
      else if t.status = 0 then s1
      else s1.targetError c t.bundle t.status

/-! ## Packets (R279) -/

/-- PACKET_ARRIVE (R279): the next message from a source is a packet, which reserves, waits or is sent back. -/
def State.packetArrive (s : State) (c : CoreId) (src : Node) : State :=
  match s.head0 src (.core c) with
  | some m =>
    match m.body with
    | .packet q kind ws ref =>
      let s1 := s.drop0 src (.core c)
      let from_ : BitVec 12 := match src with
        | .core d => BitVec.ofNat 12 d.val
        | _ => 0
      match s.arrival c q.val ws.length with
      | .refused => s1.answer (.core c) ref 1
      | .tooLarge => s1.rewind c q.val ref
      | .waits => s.hold0 src (.core c)
      | .reserved => s1.reserve c q.val from_ kind ws ref
    | _ => s
  | none => s

/-! ## Channels and controllers (R297 to R300) -/

def ctrlNode : Ctrl → Node
  | .channel ch => .channel ch
  | .anch k => .anch k

/-- Index of a controller's counters: channels, then anchorage controllers. -/
def ctrlIx : Ctrl → Nat
  | .channel ch => ch.val
  | .anch k => 256 + k.val

def State.modChan (s : State) (k : Ctrl) (f : ChanCtr → ChanCtr) : State :=
  { s with ms := { s.ms with chans := Sparse.put ⟨0, 0, 0, 0⟩ s.ms.chans (ctrlIx k) (f (Sparse.get ⟨0, 0, 0, 0⟩ s.ms.chans (ctrlIx k))) } }

/-- R299: bytes of a burst: 32 of stacked memory, one word of the anchorage. -/
def burstUnit (addr : Nat) : Nat := if Config.anchBase ≤ addr then 8 else 32

/-- R299: number of the burst that holds word `i` of an access. -/
def burstNo (addr i : Nat) : Nat := (addr + 8 * i) / burstUnit addr - addr / burstUnit addr

/-- R299: the words of an access, those of an uncorrectable burst poisoned. -/
def markBursts (addr : Nat) (sevs : List (Nat × Severity)) (ws : List MWord) : List MWord :=
  ws.zipIdx.map fun p => if assoc? (burstNo addr p.2) sevs = some .uncorrectable then { p.1 with poison := true } else p.1

/-- R299, R325: one burst reports a severity. -/
def State.burst (s : State) (addr : Nat) (sev : Severity) : State :=
  match s.placeRaw addr, sev with
  | .mem k _, .corrected => s.modChan k fun c => { c with corr := bump c.corr }
  | .mem k _, .uncorrectable =>
    (s.modChan k fun c => { c with uncorr := bump c.uncorr }).note 0x0B06 0 0 0 0 0
      [BitVec.ofNat 64 (ctrlIx k), BitVec.ofNat 64 addr]
  | _, _ => s

/-- R299: the severities of an access of `n` words, in address order. DEDUCED (log 50). -/
def State.bursts (s : State) (addr n : Nat) (sevs : List (Nat × Severity)) : State :=
  (List.range (burstNo addr (n - 1) + 1)).foldl (fun s b =>
    s.burst ((addr / burstUnit addr + b) * burstUnit addr) ((assoc? b sevs).getD .clean)) s

/-- CHANNEL_READ (R300): the next message from a source is a read, which is served; its bursts report their severities, by number.
DEDUCED (log 50). -/
def State.channelRead (s : State) (k : Ctrl) (src : Node) (sevs : List (Nat × Severity)) : State :=
  match s.head0 src (ctrlNode k) with
  | some m =>
    let s1 := s.drop0 src (ctrlNode k)
    let counted := fun (addr n : Nat) => (s1.modChan k fun c => { c with rd := bumpBy (8 * n) c.rd }).bursts addr n sevs
    match m.body with
    | .read addr n dst ref =>
      (counted addr n).push1 [⟨(ctrlNode k), src, false, .data dst (markBursts addr sevs (s.devRead addr n)) ref⟩]
    | .readCopy addr n dst ref =>
      let ws := markBursts addr sevs (s.devRead addr n)
      let s2 := counted addr n
      -- the part is counted once however many messages carry it on
      let ms := s2.writeMsgs (ctrlNode k) dst ws ref
      match ref with
      | .dma c id => (s2.modXfer c id fun t => { t with left := t.left + ms.length - 1 }).push0 ms
      | _ => s2.push0 ms
    | _ => s
  | none => s

/-- CHANNEL_WRITE (R297): the next message from a source is a write, which lands whole words and is acknowledged.
DEDUCED (log 50). -/
def State.channelWrite (s : State) (k : Ctrl) (src : Node) : State :=
  match s.head0 src (ctrlNode k) with
  | some m =>
    match m.body with
    | .write addr ws ref =>
      let s1 := (s.drop0 src (ctrlNode k)).modChan k fun c => { c with wr := bumpBy (8 * ws.length) c.wr }
      match s.placeRaw addr with
      | .mem _ _ => (s1.devWrite addr ws |>.markStale addr).answer (ctrlNode k) ref (deliveredStatus ws)
      | _ => s1.answer (ctrlNode k) ref 3
    | _ => s
  | none => s

/-! ## Link words (R269, R272, R274) -/

/-- Data words that a message carries. -/
def MsgBody.wordCount : MsgBody → Nat
  | .write _ ws _ => ws.length
  | .data _ ws _ => ws.length
  | .packet _ _ ws _ => ws.length
  | .route _ es _ _ => 2 + es.length
  | _ => 0

/-- Marks word `i` of a message poisoned. A route packet's word keeps no mark beyond the packet: its value is free. -/
def MsgBody.poisonWord (i : Nat) (free : W64) : MsgBody → MsgBody
  | .write a ws x => .write a (ws.modify i fun w => { w with poison := true }) x
  | .data a ws x => .data a (ws.modify i fun w => { w with poison := true }) x
  | .packet q kd ws x => .packet q kd (ws.modify i fun w => { w with poison := true }) x
  | .route h es n x =>
    let h1 := match i with
      | 0 => h / 2 ^ 64 * 2 ^ 64 + free.setWidth 128
      | 1 => free.setWidth 128 * 2 ^ 64 + h % 2 ^ 64
      | _ => h
    .route h1 (if i < 2 then es else es.modify (i - 2) fun _ => free) (NSet.add i n) x
  | b => b

/-- R269: whether a message crosses a link into a router. -/
def Msg.crosses (m : Msg) (r : Nat) : Bool := Machine.crosses (routerOf m.src) (routerOf m.dst) r

/-- R274: copies of one multicast share the way that their paths share. -/
def Msg.twin (m n : Msg) : Bool := m.src == n.src && m.body == n.body

/-- R272: a word of a message crosses a link into router `r`. -/
def State.msgLink (s : State) (r : CoreId) (i word : Nat) (ecc : Ecc) : State :=
  let n := s.mesh.vc0.length
  match (s.mesh.vc0 ++ s.mesh.vc1)[i]? with
  | none => s
  | some m =>
    if !m.crosses r.val || decide (m.body.wordCount ≤ word) then s
    else
      match ecc with
      | .clean => s
      | .single => s.modCb r fun b => { b with mshCorrected := bump b.mshCorrected }
      | .double =>
        let f := fun (q : Msg) =>
          if q.twin m && q.crosses r.val then { q with body := q.body.poisonWord word (Config.freeWord s.free) } else q
        { s with
            free := s.free + 1
            mesh := if i < n then { s.mesh with vc0 := s.mesh.vc0.map f } else { s.mesh with vc1 := s.mesh.vc1.map f } }

end Sys2Proof.Machine
end

