-- ==== Sys2Proof/Machine/Tiles.lean ====
section
/-! DEFINITION. Tile verdicts of header and berth transfers, and their re-verification (R303 to R306, R309, R312). -/

namespace Sys2Proof.Machine

/-- Bytes read, by controller (R326 counters). -/
def State.countRead (s : State) (addr len : Nat) : State :=
  (piecesOf addr len).foldl (fun s p =>
    match s.placeRaw p.1 with
    | .mem k _ => s.modChan k fun c => { c with rd := bumpBy p.2 c.rd }
    | _ => s) s

/-- What the content of a stored block comes to. -/
inductive Stored where
  | content (bytes : List Byte)
  | badCodec
  | unmapped
  deriving DecidableEq, Repr

/-- R303, R312: the content behind a tile header. -/
def State.stored (s : State) (h : TileHdr) : Stored :=
  if (h.coded && (h.slen == 4096 || (s.regionAt h.baddr).isSome)) || (!h.coded && h.slen != 4096) then .badCodec
  else if s.rangeStatus .module h.baddr h.slen ≠ 0 then .unmapped
  else
    let block := leBytes h.slen (s.devNum h.baddr (h.slen / 8))
    if h.coded then
      match codecDecode block with
      | some b => .content b
      | none => .badCodec
    else .content block

/-- R303: the tile index that a header transfer expects at its tile `i`: the first header's index and the tiles since. -/
def State.expectedTile (s : State) (t : Transfer) : Nat := (tileHdrOf (s.devNum t.src 2)).tile + t.tile

/-- R303: whether the stored tile passes: it decodes and, when checked, has the index and the check value. -/
def State.tilePasses (s : State) (chk : Bool) (expect : Nat) (h : TileHdr) : Bool :=
  match s.stored h with
  | .content b => !chk || (h.tile == expect && tileCrc h.tile b == h.crc)
  | _ => false

/-- R304: whether a fetch brings a tile that passes: what is stored passes, and it arrived as it is stored. -/
def State.fetchPasses (s : State) (chk : Bool) (expect : Nat) (h : TileHdr) (f : TileFetch) : Bool :=
  s.tilePasses chk expect h &&
    match f.outcome with
    | .asStored => true
    | .badCrc => !chk
    | .badDecode => !h.coded

/-- The marks of the stored words of a tile as a fetch brings them (R272, R299). -/
def fetchMarks (addr : Nat) (f : TileFetch) (struck : List Nat) (ws : List MWord) : List Bool :=
  (markBursts addr f.bursts ws).zipIdx.map fun p => p.1.poison || struck.contains p.2

/-- The words that land for a tile that passes: a poisoned word of a codec block poisons the whole tile.
DESIGN CHOICE (log 160). -/
def State.tileWords (s : State) (h : TileHdr) (f : TileFetch) (struck : List Nat) : List MWord :=
  match s.stored h with
  | .content b =>
    let marks := fetchMarks h.baddr f struck (s.devRead h.baddr (h.slen / 8))
    if h.coded then (bytesToWords 512 b).map fun w => ⟨w, marks.any id⟩
    else (bytesToWords 512 b).zip marks |>.map fun p => ⟨p.1, p.2⟩
  | _ => []

/-- R304: the destination as it stands, every word poisoned. -/
def State.poisonTile (s : State) (c : CoreId) (off : Nat) : List MWord :=
  (s.rdWords (spKey c off) 512).map fun w => { w with poison := true }

/-- Scratchpad offset of the destination of a transfer's next tile. -/
def Transfer.tileDst (t : Transfer) : Nat := t.dst % Config.windowBytes + 4096 * t.tile

/-- The transfer's tile is over, with a status. -/
def tileOver (c : CoreId) (id st : Nat) (s : State) : State :=
  s.modXfer c id fun t => { t with tile := t.tile + 1, held := false, struck := [], status := mergeStatus t.status st }

/-- Lands a tile; `st` is the status when it lands, `after` what else its verdict does. -/
def State.landTile (s : State) (c : CoreId) (t : Transfer) (ws : List MWord) (st : Nat) (after : State → State) : State :=
  s.takeInbound c t.tileDst ws t.held id (fun s => s.modXfer c t.id fun t => { t with held := true })
    fun got s => tileOver c t.id (if got = 0 ∨ got = 5 then mergeStatus got st else got) (after s)

def State.report (s : State) (c : CoreId) (header : Nat) (berth : Bool) : State :=
  { s with ms := { s.ms with reports := s.ms.reports ++ [⟨header, berth, c.val⟩] } }

/-- The transfer of a core that is at a tile of the kind. -/
def State.tileXfer (s : State) (c : CoreId) (id : Nat) (kind : XferKind) : Option Transfer :=
  (s.core c).dqu.transfers.find? fun t => t.id == id && t.kind == kind && decide (t.tile < t.len / 4096)

/-- R304: a tile that failed its retry counts and is reported. -/
def State.failed (s : State) (c : CoreId) (header : Nat) (berth codec : Bool) : State :=
  (s.modCb c fun b => if codec then { b with cdcCodecfail := bump b.cdcCodecfail }
    else { b with cdcCrcfail := bump b.cdcCrcfail }).report c header berth

/-- R306: the tiles that a core's task has fetched. -/
def State.noteFetched (s : State) (c : CoreId) (addr : Nat) (berth : Bool) : State :=
  s.modDqu c fun q => { q with fetched := if q.fetched.contains (addr, berth) then q.fetched else q.fetched ++ [(addr, berth)] }

/-- R304, R459: a retry that succeeded is counted, and journalled for the core. -/
def State.retried (s : State) (c : CoreId) (again : Bool) : State := if again then s.noteRetry 1 c.val [] else s

/-- One fetch of the words of a tile: counted, with the severities of its bursts (R299). -/
def State.countFetch (s : State) (addr n : Nat) (f : TileFetch) : State := (s.countRead addr (8 * n)).bursts addr n f.bursts

/-- TILE_VERDICT (R303, R304): the next tile of a header transfer, as its first fetch and, after a failure, its retry bring it.
DESIGN CHOICE (log 160). -/
def State.tileVerdict (s : State) (c : CoreId) (id : Nat) (tries : TileTries) : State :=
  let first := tries.first
  let retry := tries.retry
  match s.tileXfer c id .header with
  | none => s
  | some t =>
    let addr := t.src + 16 * t.tile
    let h := tileHdrOf (s.devNum addr 2)
    let header := fun s : State => s.countRead addr 16
    if h.dmg then s.landTile c t (s.poisonTile c t.tileDst) 4 header
    else
      let once := fun (f : TileFetch) (s : State) => s.countFetch h.baddr (h.slen / 8) f
      let fetched := fun s : State => (header s).noteFetched c addr false
      let pass := fun (f : TileFetch) (again : Bool) => s.landTile c t (s.tileWords h f t.struck) 0 fun s =>
        ((if again then once retry (once first (fetched s)) else once first (fetched s)).retried c again).modCb c fun b =>
          { b with cdcBlocks := bumpBy (bit h.coded) b.cdcBlocks,
                   cdcRaw := bumpBy (bit (!h.coded && t.chk)) b.cdcRaw,
                   cdcRetryok := bumpBy (bit again) b.cdcRetryok }
      let fail := fun (codec : Bool) (after : State → State) =>
        s.landTile c t (s.poisonTile c t.tileDst) 4 fun s => (after s).failed c addr false codec
      match s.stored h with
      | .unmapped =>
        let s1 := s.modXfer c id fun t => { t with tile := t.len / 4096, status := mergeStatus t.status 3 }
        { s1 with ms := { s1.ms with unmapped := bump s1.ms.unmapped } }
      | .badCodec => fail true fun s => if h.coded then once retry (once first (fetched s)) else header s
      | .content _ =>
        let ok := s.fetchPasses t.chk (s.expectedTile t) h
        if ok first then pass first false
        else if ok retry then pass retry true
        else fail (retry.outcome == .badDecode && h.coded) fun s => once retry (once first (fetched s))

/-- R308: the stored check value of berth tile `k` in the entry at `e`. -/
def State.berthCrc (s : State) (e k : Nat) : W32 := BitVec.ofNat 32 (fld (s.devNum e 8) (32 * k) 32)

/-- R309: whether the berth tile at an address may be taken: stale, or its check value agrees. -/
def State.berthTileOk (s : State) (addr : Nat) : Bool :=
  match s.berthEntry addr with
  | some e =>
    tb (s.devNum (e.1 + 32) 1) e.2 || s.berthCrc e.1 e.2 == tileCrc e.2 (leBytes 4096 (s.devNum addr 512))
  | none => true

def State.berthStale (s : State) (addr : Nat) : Bool :=
  match s.berthEntry addr with
  | some e => tb (s.devNum (e.1 + 32) 1) e.2
  | none => false

/-- BERTH_TILE_CHECK (R309): the next tile of a berth transfer, as its first fetch and, after a failure, its retry bring it. A stale
tile is not compared. DESIGN CHOICE (log 160). -/
def State.berthTileCheck (s : State) (c : CoreId) (id : Nat) (tries : TileTries) : State :=
  let first := tries.first
  let retry := tries.retry
  match s.tileXfer c id .berth with
  | none => s
  | some t =>
    let addr := t.src + 4096 * t.tile
    let stale := s.berthStale addr
    let once := fun (f : TileFetch) (s : State) => s.countFetch addr 512 f
    let ok := fun (f : TileFetch) => stale || (s.berthTileOk addr && f.outcome == .asStored)
    let pass := fun (f : TileFetch) (again : Bool) =>
      let ws := s.devRead addr 512
      let marked := (ws.zip (fetchMarks addr f t.struck ws)).map fun p => { p.1 with poison := p.2 }
      s.landTile c t marked 0 fun s =>
        ((if again then once retry (once first (s.noteFetched c addr true)) else once first (s.noteFetched c addr true)).retried
          c again).modCb c fun b =>
            { b with cdcStale := bumpBy (bit stale) b.cdcStale, cdcRaw := bumpBy (bit (!stale)) b.cdcRaw,
                     cdcRetryok := bumpBy (bit again) b.cdcRetryok }
    if ok first then pass first false
    else if ok retry then pass retry true
    else s.landTile c t (s.poisonTile c t.tileDst) 4 fun s =>
      (once retry (once first (s.noteFetched c addr true))).failed c addr true false

/-! ## Link words of tiles (R272) -/

/-- The stored words that the next tile of a transfer is fetched from: their address and number. -/
def State.tileSource (s : State) (t : Transfer) : Nat × Nat :=
  match t.kind with
  | .header =>
    let h := tileHdrOf (s.devNum (t.src + 16 * t.tile) 2)
    (h.baddr, h.slen / 8)
  | _ => (t.src + 4096 * t.tile, 512)

/-- R272: a word of the tile that a transfer is at crosses a link into router `r`. -/
def State.tileLink (s : State) (r c : CoreId) (id word : Nat) (ecc : Ecc) : State :=
  match (s.core c).dqu.transfers.find? fun t => t.id == id && decide (t.tile < t.tiles) with
  | none => s
  | some t =>
    let src := s.tileSource t
    match s.placeRaw (src.1 + 8 * word) with
    | .mem k _ =>
      if !crosses (routerOf (ctrlNode k)) c.val r.val || decide (src.2 ≤ word) then s
      else
        match ecc with
        | .clean => s
        | .single => s.modCb r fun b => { b with mshCorrected := bump b.mshCorrected }
        | .double => s.modXfer c id fun t => { t with struck := NSet.add word t.struck }
    | _ => s

/-- MESH_LINK_WORD (R272): a word crosses a link into a router. -/
def State.linkWord (s : State) (r : CoreId) (load : LinkLoad) (word : Nat) (ecc : Ecc) : State :=
  match load with
  | .msg i => s.msgLink r i word ecc
  | .tile c id => s.tileLink r c id word ecc

/-! ## Re-verification (R305, R306) -/

/-- R305: sets dmg in a tile header. -/
def State.setDamaged (s : State) (header : Nat) : State :=
  let w := BitVec.ofNat 64 (s.devNum (header + 8) 1)
  s.devWrite (header + 8) [⟨w ||| 2#64, false⟩]

/-- TILE_REVERIFY (R305): the first report of a header. -/
def State.tileReverify (s : State) (header : Nat) : State :=
  match s.ms.reports.find? (fun r => r.header == header) with
  | none => s
  | some r =>
    let s1 := { s with ms := { s.ms with reports := dropFirst (fun r => r.header == header) s.ms.reports } }
    let h := tileHdrOf (s.devNum header 2)
    let ok := if r.berth then s.berthTileOk header else s.tilePasses true h.tile h
    if ok then { s1 with ms := { s1.ms with transient := s1.ms.transient + 1 } }
    else (if r.berth then s1 else s1.setDamaged header).note 0x0B01 0 0 0 0 0 [BitVec.ofNat 64 header]

end Sys2Proof.Machine
end

