-- ==== Sys2Proof/Machine/Faults.lean ====
section
/-! DEFINITION. What the harbourmaster does with faults (R449 to R452), the journal's commands (R460 to R466). -/

namespace Sys2Proof.Machine

/-! ## Contained faults (R450) -/

/-- A core whose task is under way. -/
def Core.inTask (k : Core) : Bool :=
  k.seq.state == .running || k.seq.state == .stalled || k.seq.state == .ending || k.seq.state == .halted

/-- R450: core `n` may run a task of the step: a step runs, and the core is bound. A task of another core, or one outside a step,
belongs to no step. DEDUCED (log 31). -/
def State.stepCore (s : State) (n : Nat) : Bool := s.serv.phase == .step && s.hm.binding.any fun q => q.2 == n

/-- R450: ends the step's tasks on every core; their scrubs are due. DEDUCED (log 96). -/
def State.endTasks (s : State) : State :=
  { s with cores := s.cores.map fun p =>
      (p.1, if s.stepCore p.1 && p.2.inTask then { p.2 with seq := { p.2.seq with state := .scrubbing, stall := 0, wdogCount := 0 } } else p.2) }

/-- R450: the requests and jobs that a fault of core `c` is attributed to: that of the quay which it names, else those that the manifest
assigns the core to, else all with rows. -/
def State.attribute (s : State) (c : CoreId) : State :=
  match (s.core c).faultQuay, (s.logicalOf c).bind (·.owner) with
  | some h, _ => { s with serv := { s.serv with attributed := s.serv.attributed ++ [h] } }
  | none, some (false, n) =>
    { s with serv := { s.serv with attributed :=
        s.serv.attributed ++ (s.serv.reqs.filter fun q => q.handle.toNat % 4096 == n).map (·.handle) } }
  | none, some (true, n) =>
    { s with serv := { s.serv with jobs := s.serv.jobs.map fun j => if j.num = n then { j with faulted := true } else j } }
  | none, none =>
    let rowsOf := s.serv.rowsOf
    { s with serv := { s.serv with
        attributed := s.serv.attributed ++ (s.serv.reqs.filter fun q => rowsOf.any fun r => r.1 == 0 && r.2.1 == q.handle.toNat).map (·.handle),
        jobs := s.serv.jobs.map fun j => if rowsOf.any fun r => r.1 == 1 && r.2.1 == j.num then { j with faulted := true } else j } }

/-- R458: the payload of a core fault's record: the fault record, and for a watchdog the entries that block. -/
def Core.faultPayload (k : Core) : List W64 :=
  let rec_ := (List.range 4).map k.faultWord
  match k.seq.fault, k.seq.frozen with
  | some f, some sb =>
    if f.cause = 0x0908 then
      rec_ ++ (sb.toList.zipIdx.filter fun e => e.1.isSome && tb k.seq.stall.toNat (32 + e.2)).map fun e => sbWord e.1
    else rec_
  | _, _ => rec_

/-- R450, R458: the one request that a fault of core `c` belongs to: the one whose quay it names, or to which the manifest assigns the
core. -/
def State.faultRequest (s : State) (c : CoreId) : Option Request :=
  match (s.core c).faultQuay, (s.logicalOf c).bind (·.owner) with
  | some h, _ => s.serv.reqs.find? fun q => q.handle == h
  | none, some (false, n) => s.serv.reqs.find? fun q => q.handle.toNat % 4096 == n
  | none, _ => none

/-- R389: the core's watchdog fired while an await over a receive area held it: another module has stopped answering.
DEDUCED (log 69). -/
def State.waitsPeer (s : State) (c : CoreId) : Bool :=
  let q := (s.core c).seq
  match q.fault, q.frozen with
  | some f, some sb =>
    f.cause == 0x0908 && s.formed && sb.toList.zipIdx.any fun e =>
      tb q.stall.toNat (32 + e.2) && e.1.any fun x => x.kind == .await && s.fab.slips.any fun l =>
        let a := l.2.1.toNat
        let recv := fld a 20 20
        tb a 51 && fld a 52 12 == c.val && decide (x.first < recv + fld l.2.2.toNat 0 20) && decide (recv ≤ x.last)
  | _, _ => false

/-- R366: copies into a gang that the core belongs to are abandoned. -/
def State.dropCopies (s : State) (c : CoreId) : State :=
  let inGang := fun (y : Copy) =>
    match s.hm.man.bind fun m => (m.layers[y.layer]?).bind (·.moe) with
    | some e =>
      let gang := match y.slot with
        | some i => (e.replicaSlots.getD i (0, 0)).1
        | none => (e.home.getD y.expert (0, 0)).1
      (e.gangCores.getD gang []).any fun l => (assoc? l s.hm.binding) == some c.val
    | none => false
  { s with plc := { s.plc with copies := s.plc.copies.filter fun y => !inGang y } }

/-- R306: after "check failed", every tile that the core's task fetched is to be verified again. -/
def State.reverify (s : State) (c : CoreId) (cause : Nat) : State :=
  if cause = 0x0403 then (s.core c).dqu.fetched.foldl (fun s f => s.report c f.1 f.2) s else s

/-- CONTAINED_FAULT_RESPONSE (R450, R387): steps 1 to 3; the boundary does the rest, and the scrub is due. A fault outside a step
has its record, and ends the copies of the core. DEDUCED (log 31, 92). -/
def State.containedFault (s : State) (c : CoreId) : State :=
  let k := s.core c
  match k.seq.fault with
  | none => s
  | some f =>
    if k.seq.state ≠ .faulted ∨ k.seq.faultRead then s
    else
      let s1 := ((s.reverify c f.cause.toNat).modSeq c fun q => { q with faultRead := true }).note f.cause.toNat 3 1 c.val
        (((s.faultRequest c).map (·.handle)).getD 0) (((s.faultRequest c).map (·.tenant.val)).getD 0) k.faultPayload
      if f.cause = 0x0E01 then s1
      else if !s.stepCore c.val then s1.dropCopies c
      else
        let s2 := ((s1.endTasks.tellSlice (.stepAbort s.fab.step)).attribute c).dropCopies c
        let s3 := { s2 with serv := { s2.serv with aborting := true } }
        if s.waitsPeer c then { s3 with fab := { s3.fab with halting := true } }.tellSlice (.halt s.fab.step) else s3

/-- STEP_ABORT_MESSAGE (R450): a module of the slice ends its tasks for that step. DEDUCED (log 96). -/
def State.stepAborted (s : State) (step : W32) : State :=
  if s.formed && step == s.fab.step then
    let s1 := s.endTasks
    { s1 with serv := { s1.serv with aborting := true } }
  else s

/-! ## The MRAM over the black-box pins (R466) -/

/-- A byte of the MRAM as stored. -/
def State.mramByte (s : State) (o : Nat) : Byte :=
  let a := o % 0x4000000
  (Sparse.get 0 s.bbx.slots (a / 256)).extractLsb' (8 * (a % 256)) 8

def State.mramBytes (s : State) (o n : Nat) : List Byte := (List.range n).map fun i => s.mramByte (o + i)

/-- DEDUCED (log 95). -/
def State.spi (s : State) (x : Option (List Byte)) : State := { s with bbx := { s.bbx with miso := x } }

/-! ## Rows -/

/-- CONTAINED_FAULT_RESPONSE (R450). -/
def execContainedFaultResponse (c : CoreId) (s : State) : Host.Outcome State Fault Refusal := .next (s.containedFault c)

/-- FATAL_FAULT (R451); a module in state 3 stays as it is. -/
def execFatalFault (cause : W16) (snapshot : List W64) (s : State) : Host.Outcome State Fault Refusal :=
  s.live fun s => if s.hm.state = 3 then s else s.fatal cause.toNat snapshot

/-- HM_WATCHDOG (R452, R495): suspended while the harbourmaster core is halted by debug. -/
def execHmWatchdog (h : BitVec 2) (s : State) : Host.Outcome State Fault Refusal :=
  s.live fun s =>
    if s.hm.state = 3 ∨ (s.dbg.hms.toList.getD h.toNat HmCore.reset).halted = true then s
    else s.fatal 0x1102 [BitVec.ofNat 64 h.toNat]

/-- HM_SRAM_ERROR (R452). -/
def execHmSramError (s : State) : Host.Outcome State Fault Refusal :=
  s.live fun s => if s.hm.state = 3 then s else s.fatal 0x1101 []

/-- JOURNAL_COMMIT (R460). -/
def execJournalCommit (firstOk retryOk : Bool) (s : State) : Host.Outcome State Fault Refusal :=
  .next (s.journalCommit firstOk retryOk)

/-- STEP_ABORT_MESSAGE (R450). -/
def execStepAbortMessage (step : W32) (s : State) : Host.Outcome State Fault Refusal := .next (s.stepAborted step)

/-- BBX_READ_SERIAL (R466): the serial, then zeros. -/
def execBbxReadSerial (n : Nat) (s : State) : Host.Outcome State Fault Refusal :=
  .next (s.spi (some ((leBytes 8 s.ident.serial.toNat ++ List.replicate n 0).take n)))

/-- BBX_READ_STATUS (R466): bit 0 while commits are in progress. -/
def execBbxReadStatus (n : Nat) (s : State) : Host.Outcome State Fault Refusal :=
  .next (s.spi (some (List.replicate n (BitVec.ofNat 8 (bit (s.bbx.waiting != [] && !s.bbx.broken))))))

/-- BBX_READ_DATA (R466). -/
def execBbxReadData (addr : W32) (n : Nat) (s : State) : Host.Outcome State Fault Refusal :=
  .next (s.spi (some (s.mramBytes addr.toNat n)))

/-- BBX_UNDEFINED_COMMAND (R466): high impedance; a defined command byte is no such command. -/
def execBbxUndefinedCommand (cmd : Byte) (_n : Nat) (s : State) : Host.Outcome State Fault Refusal :=
  .next (if cmd = 0x9F ∨ cmd = 0x05 ∨ cmd = 0x13 then s else s.spi none)

end Sys2Proof.Machine
end

