-- ==== Sys2Proof/Machine/FabricIn.lean ====
section
/-! DEFINITION. The receiving side of the torus ports: checks, violations and fences, delivery, transit, contributions
(R374 to R390, R394). -/

namespace Sys2Proof.Machine

/-! ## Ports that the slice uses, fences and violations -/

/-- R382, R388: whether the formed slice's collectives go over a port: the partner in bit k lies on the + side when the
own bit is 0, and on an axis of extent 2 both links join the pair. -/
def State.sliceUses (s : State) (n rank : Nat) (p : PortId) : Bool :=
  let k := p.val / 2
  let ext := fld s.fab.coord.toNat (48 + 4 * k) 4
  decide (2 ^ (k + 1) ≤ n) && (p.val % 2 == rank / 2 ^ k % 2 || ext == 2)

/-- R389: a formed slice that loses a port halts at the next boundary. DEDUCED (log 69). -/
def State.lostPort (s : State) (p : PortId) : State :=
  if s.formed && s.sliceUses s.modules s.rank p then { s with fab := { s.fab with halting := true } } else s

/-- An event of a torus port (R395). -/
def State.portEvent (s : State) (code : Nat) (p : Nat) : State := s.note code 0 4 p 0 0 [BitVec.ofNat 64 p]

/-- R394: the port is fenced. -/
def State.fence (s : State) (p : PortId) : State :=
  (((s.modPort p fun f => { f with link := .fenced, retrain := false, sent := some (s.identityFrame p) }).portEvent 0x0E12 p.val).lostPort p)

/-- R394: a violation is counted; more than 64 in 1 ms fence the port. -/
def State.violation (s : State) (p : PortId) : State :=
  let now := s.hm.timeNs.toNat
  let f := s.port p
  let recent := now :: f.viols.filter fun t => decide (now < t + 1000000)
  let s1 := s.setPort p { f with viol := bump f.viol, viols := recent }
  if recent.length > 64 then s1.fence p else s1

/-- R374, R378, R394: the port retrains; three retrains within 1 s fence it. -/
def State.retrain (s : State) (p : PortId) : State :=
  let now := s.hm.timeNs.toNat
  let f := s.port p
  let recent := now :: f.trains.filter fun t => decide (now < t + 1000000000)
  let s1 := (s.setPort p { f with retrain := true, replays := 0, retrains := bump f.retrains, trains := recent }).train p
  if recent.length ≥ 3 then s1.fence p else s1

/-! ## Link layer (R376 to R378) -/

/-- The virtual channel that a frame type travels on; none for link frames, and none at all for undefined types. -/
def vcOfType (t : Nat) : Option (Option Nat) :=
  match t with
  | 0x00 | 0x08 | 0x09 => some none
  | 0x01 | 0x02 => some (some 0)
  | 0x03 | 0x04 | 0x05 => some (some 1)
  | 0x06 => some (some 2)
  | 0x07 => some (some 3)
  | _ => none

/-- R376, R394: undefined type, type on the wrong channel, too many words, a reserved bit set. -/
def frameMalformed (f : Frame) : Bool :=
  !f.reservedZero || decide (512 < f.words.toNat) || f.words.toNat != f.payload.length
    || match vcOfType f.ftype.toNat with
      | none => true
      | some none => false
      | some (some v) => f.vc.toNat != v

/-- R377, R378: the trailer frees acknowledged frames and returns credits. -/
def FPort.trailer (f : FPort) (x : Frame) : FPort :=
  let acked := fun (y : Frame) => seqLater x.ack y.lseq
  let left := f.replay.dropWhile acked
  let v := x.crvc.toNat
  { f with replay := left, replays := if left.length = f.replay.length then f.replays else 0,
           credits := f.credits.set! v (min (vcCredits.toList.getD v 0) (f.credits.toList.getD v 0 + x.cr.toNat)) }

/-- R378: the link NAK names the lseq that is expected. -/
def State.sendNak (s : State) (p : PortId) : State :=
  let f := s.port p
  let q := f.stamp { s.frame 8 0 s.here 0 0 f.rxSeq.toNat true [] with lseq := f.txSeq }
  s.setPort p { q.1 with naks := bump q.1.naks, sent := some q.2 }

/-- R377: a frame has left its receive buffer; its credits are to be returned. -/
def State.owe (s : State) (p : PortId) (x : Frame) : State :=
  let v := x.vc.toNat
  s.modPort p fun f => { f with owed := f.owed.set! v (f.owed.toList.getD v 0 + frameUnits x) }

/-- Waiting frames go out as credits allow, else an idle frame returns what is owed. -/
def State.pumpPort (s : State) (p : PortId) : State :=
  let f := s.port p
  let ready := f.waiting.toList.any (· != [])
  s.setPort p (if ready then f.run else FPort.idle s f)

/-! ## Transfers that are served here (R384, R385) -/

def inXferOf (fr : Frame) (x : InXfer) : Bool := x.src == frameSrc fr && x.num == fr.xfer

def State.inXfer (s : State) (fr : Frame) : Option InXfer := s.fab.ins.find? (inXferOf fr)

def State.modIn (s : State) (src : Coord) (num : W16) (f : InXfer → InXfer) : State :=
  { s with fab := { s.fab with ins := updFirst (fun x => x.src == src && x.num == num) f s.fab.ins } }

def State.addIn (s : State) (x : InXfer) : State := { s with fab := { s.fab with ins := s.fab.ins ++ [x] } }

def State.dropIn (s : State) (src : Coord) (num : W16) : State :=
  { s with fab := { s.fab with ins := dropFirst (fun x => x.src == src && x.num == num) s.fab.ins } }

/-- R379: the side that an answer to a transfer takes on a tie. DESIGN CHOICE (log 60). -/
def answerEven (dest : Coord) (num : W16) : Bool := Config.evenSource dest.slot num

/-- Gives the answer frames of a transfer to the port on their way. -/
def State.answerFrames (s : State) (dest : Coord) (num : W16) (mk : PortId → State → State × List Frame) : State :=
  match s.routeFrom s.here dest (answerEven dest num) with
  | some p => let q := mk p s; q.1.queueFrames p 1 q.2
  | none => s

/-- R384: a refusal carries the status; a write ack none. -/
def State.sendRefusal (s : State) (dest : Coord) (num : W16) (st : Nat) : State :=
  s.answerFrames dest num fun _ s => (s, [s.frame 5 1 dest num 0 0 true [BitVec.ofNat 64 st]])

def State.sendAck (s : State) (dest : Coord) (num : W16) : State :=
  s.answerFrames dest num fun _ s => (s, [s.frame 4 1 dest num 0 0 true []])

/-- R384: read responses; data that arrived poisoned are refused with the status of poisoned words. -/
def State.sendData (s : State) (x : InXfer) : State :=
  let ws := x.data.flatMap (·.2)
  if ws.any (·.poison) then s.sendRefusal x.src x.num 5
  else s.answerFrames x.src x.num fun p s => s.dataFrames p 3 1 x.src x.num 0 x.prot (ws.map (·.data))

/-- A transfer whose last frame has come and whose parts have all been answered on the mesh is answered on the fabric. -/
def State.settleIn (s : State) (src : Coord) (num : W16) : State :=
  match s.fab.ins.find? fun x => x.src == src && x.num == num with
  | none => s
  | some x =>
    if !x.last || x.left ≠ 0 then s
    else
      let s1 := s.dropIn src num
      if x.refused then s1
      else if x.status ≠ 0 then s1.sendRefusal src num x.status
      else if x.read then s1.sendData x
      else s1.sendAck src num

/-- A frame's transfer is refused: one refusal, and its further frames are dropped. -/
def State.refuseIn (s : State) (p : PortId) (fr : Frame) (st : Nat) : State :=
  let src := frameSrc fr
  let s1 := match s.inXfer fr with
    | some _ => s.modIn src fr.xfer fun x => { x with refused := true, last := fr.last }
    | none => s.addIn ⟨p, src, fr.xfer, false, fr.ftype == 6, 0, fr.last, 0, true, false, []⟩
  (s1.sendRefusal src fr.xfer st).settleIn src fr.xfer

/-- Data of a transfer enter the mesh as inbound writes from the port. DEDUCED (log 66). -/
def State.landFrame (s : State) (p : PortId) (fr : Frame) (ws : List W64) : State :=
  let src := frameSrc fr
  let ref := XferRef.frame p fr.srcX fr.srcY fr.srcZ fr.xfer
  let ms := s.writeMsgs (.port p) (fr.addr.toNat / 8 * 8) (ws.map fun w => ⟨w, false⟩) ref
  let s1 := match s.inXfer fr with
    | some _ => s.modIn src fr.xfer fun x => { x with left := x.left + ms.length, last := fr.last }
    | none => s.addIn ⟨p, src, fr.xfer, false, fr.ftype == 6, ms.length, fr.last, 0, false, false, []⟩
  (s1.push0 ms).settleIn src fr.xfer

/-- WRITE at its destination (R384): mapped with the frame's tenant. -/
def State.writeHere (s : State) (p : PortId) (fr : Frame) (ws : List W64) : State :=
  match (s.inXfer fr).filter (·.refused) with
  | some _ => if fr.last then (s.modIn (frameSrc fr) fr.xfer fun x => { x with last := true }).settleIn (frameSrc fr) fr.xfer else s
  | none =>
    match s.rangeStatus (.frame fr.tenant.val) (fr.addr.toNat / 8 * 8) (8 * ws.length) with
    | 0 => s.landFrame p fr ws
    | st => s.refuseIn p fr st

/-- READ_REQUEST at its destination (R384). DEDUCED (log 67). -/
def State.readHere (s : State) (p : PortId) (fr : Frame) : State :=
  let len := wordAt fr.payload 0 / 8 * 8
  let addr := fr.addr.toNat / 8 * 8
  let src := frameSrc fr
  match s.rangeStatus (.frame fr.tenant.val) addr len with
  | 0 =>
    let ms := s.readMsgs (.port p) addr len 0 (.frame p fr.srcX fr.srcY fr.srcZ fr.xfer)
    let x : InXfer := ⟨p, src, fr.xfer, true, false, ms.length, true, 0, false, (s.regionAt addr).isSome, []⟩
    ((s.addIn x).push0 ms).settleIn src fr.xfer
  | st => s.sendRefusal src fr.xfer st

/-- ACKNOWLEDGEMENT at a port (R277, R384): a part of a transfer that the port carries is done on the mesh. -/
def State.portAck (s : State) (p : PortId) (src : Node) : State :=
  match s.head1 src (.port p) with
  | none => s
  | some m =>
    let s1 := s.drop1 src (.port p)
    match m.body with
    | .ack (.frame _ x y z num) st =>
      let c : Coord := ⟨x.toNat, y.toNat, z.toNat⟩
      (s1.modIn c num fun t => { t with left := t.left - 1, status := mergeStatus t.status st }).settleIn c num
    | .data off ws (.frame _ x y z num) =>
      let c : Coord := ⟨x.toNat, y.toNat, z.toNat⟩
      (s1.modIn c num fun t => { t with left := t.left - 1, data := Sparse.insert off ws t.data }).settleIn c num
    | _ => s1

/-! ## Answers to this module's transfers (R384) -/

def outXferOf (fr : Frame) (read : Bool) (x : OutXfer) : Bool :=
  x.num == fr.xfer && x.dest == frameSrc fr && x.read == read

def State.modOut (s : State) (num : W16) (f : OutXfer → OutXfer) : State :=
  { s with fab := { s.fab with outs := updFirst (fun x => x.num == num) f s.fab.outs } }

def State.dropOut (s : State) (num : W16) : State :=
  { s with fab := { s.fab with outs := dropFirst (fun x => x.num == num) s.fab.outs } }

/-- READ_RESPONSE: the data go on over the mesh to the scratchpad of the core that reads. -/
def State.respHere (s : State) (p : PortId) (fr : Frame) (ws : List W64) : State :=
  match s.fab.outs.find? (outXferOf fr true) with
  | none => s.violation p
  | some x =>
    if x.left < 8 * ws.length then s.violation p
    else
      match x.ref with
      | .dma c id =>
        let ms : List Msg := (piecesOf x.next (8 * ws.length)).map fun q =>
          ⟨.port p, .core c, false,
            .data q.1 (((ws.drop ((q.1 - x.next) / 8)).take (q.2 / 8)).map fun w => ⟨w, false⟩) x.ref⟩
        let done := fr.last || x.left == 8 * ws.length
        let s1 := (s.push1 ms).modXfer c id fun t => { t with left := t.left + ms.length - bit done }
        if done then s1.dropOut x.num
        else
          s1.modOut x.num fun y => { y with next := y.next + 8 * ws.length, left := y.left - 8 * ws.length }
      | _ => s.dropOut x.num

/-- WRITE_ACK. -/
def State.ackHere (s : State) (p : PortId) (fr : Frame) : State :=
  match s.fab.outs.find? (outXferOf fr false) with
  | none => s.violation p
  | some x => (s.partDone x.ref 0).dropOut x.num

/-- REFUSAL: the transfer ends with the status. -/
def State.refusalHere (s : State) (p : PortId) (fr : Frame) : State :=
  match s.fab.outs.find? fun x => outXferOf fr true x || outXferOf fr false x with
  | none => s.violation p
  | some x => (s.partDone x.ref (wordAt fr.payload 0 % 2 ^ 16)).dropOut x.num

/-! ## Contributions (R385 to R388) -/

/-- Table "Contribution header". -/
structure ContHdr where
  kind : Nat
  level : Nat
  rank : Nat
  seq : Nat
  layer : Nat
  rdig : Nat
  step : Nat
  bytes : Nat
  deriving DecidableEq, Repr

def contHdrOf (n : Nat) : ContHdr :=
  ⟨fld n 248 8, fld n 240 8, fld n 232 8, fld n 208 16, fld n 192 16, fld n 160 32, fld n 128 32, fld n 96 32⟩

/-- R385: the enabled slip whose receive offset an address is: the core, the send offset and the slip's length. -/
def State.slipTo (s : State) (addr : Nat) : Option (CoreId × Nat × Nat) :=
  match windowCore addr with
  | none => none
  | some c =>
    s.fab.slips.findSome? fun e =>
      let a := e.2.1.toNat
      if tb a 51 && fld a 52 12 == c.val && fld a 20 20 == addr % 2 ^ 20 then some (c, fld a 0 20, fld e.2.2.toNat 0 20)
      else none

/-- What R386 says of a contribution. -/
inductive ContVerdict where
  | accepted
  | held
  | mismatch (field : Nat)
  deriving DecidableEq, Repr

/-- R386: the first case that holds. Fields are numbered as Config.fieldCode numbers them. -/
def contVerdict (cfgdig : W64) (step : W32) (rank : Nat) (cfg : W64) (fstep : W32) (h l : ContHdr) : ContVerdict :=
  if cfg ≠ cfgdig then .mismatch 0
  else if fstep = step + 1 then .held
  else if fstep ≠ step then .mismatch 1
  else if l.seq < h.seq ∨ (l.seq = h.seq ∧ l.level < h.level) then .held
  else if h.seq < l.seq then .mismatch 2
  else if h.level < l.level then .mismatch 3
  else if h.kind ≠ l.kind then .mismatch 4
  else if h.layer ≠ l.layer then .mismatch 5
  else if h.rdig ≠ l.rdig then .mismatch 6
  else if h.step ≠ l.step then .mismatch 1
  else if h.bytes ≠ l.bytes then .mismatch 7
  else if h.rank ≠ rank ^^^ 2 ^ h.level then .mismatch 8
  else .accepted

/-- R387: the task of every core that runs one ends with "collective aborted". -/
def State.abortCollectives (s : State) : State :=
  let s1 := s.cores.foldl (fun s p =>
    if p.2.inTask then s.raiseLoose (Fin.ofNat 2304 p.1) 0x0E01 0 .seq else s) s
  { s1 with fab := { s1.fab with aborted := true, halting := true } }

/-- R387: what the port and the harbourmaster do on a mismatch. DESIGN CHOICE (log 76). -/
def State.mismatched (s : State) (p : PortId) (fr : Frame) (hdr loc : List W64) (h : ContHdr) (field : Nat) : State :=
  let code := (Config.fieldCode field).toNat
  let w : W64 := BitVec.ofNat 64 (code * 2 ^ 56 + p.val * 2 ^ 52 + h.seq * 2 ^ 32 + h.layer)
  let s1 := s.refuseIn p fr 1
  let s2 := { s1 with fab := { s1.fab with
    mismatches := bump s1.fab.mismatches, mismatch := if s1.fab.mismatch = 0 then w else s1.fab.mismatch } }
  let s3 := s2.note 0x0E14 0 4 p.val 0 0 (hdr ++ loc ++ [BitVec.ofNat 64 code])
  s3.abortCollectives.tellSlice (.halt s.fab.step)

/-- What becomes of a contribution frame; none while it is held. A frame after its transfer's first has no header. R386's cases come
first; an accepted header whose length is not the slip's (R385) is refused. DESIGN CHOICE (log 163). -/
def State.contribute (s : State) (p : PortId) (fr : Frame) : Option State :=
  let src := frameSrc fr
  match s.inXfer fr with
  | some x =>
    some (if x.refused then (if fr.last then (s.modIn src fr.xfer fun x => { x with last := true }).settleIn src fr.xfer else s)
      else s.landFrame p fr fr.payload)
  | none =>
    let hdr := (List.range 4).map fun i => fr.payload.getD i 0
    let h := contHdrOf (packFields 64 (hdr.map (·.toNat)))
    match s.slipTo fr.addr.toNat with
    | none => some (s.refuseIn p fr 1)
    | some (c, send, len) =>
      let loc := (s.rdWords (spKey c send) 4).map (·.data)
      let l := contHdrOf (packFields 64 (loc.map (·.toNat)))
      match contVerdict s.fab.cfgdig s.fab.step s.rank fr.cfg fr.step h l with
      | .held => none
      | .mismatch field => some (s.mismatched p fr hdr loc h field)
      | .accepted =>
        some (if fr.payload.length < 4 ∨ h.bytes + 32 ≠ len then s.refuseIn p fr 1 else s.landFrame p fr fr.payload)

/-- R386: a frame is held in VC2; it is counted when its check first holds it. -/
def State.holdFrame (s : State) (p : PortId) (fr : Frame) (count : Bool) : State :=
  let s1 := s.modPort p fun f => { f with held := f.held ++ [fr] }
  if count then { s1 with fab := { s1.fab with heldCtr := bump s1.fab.heldCtr } } else s1

/-! ## Transit and delivery -/

/-- R379: the port by which a frame leaves here. -/
def State.exitPort (s : State) (fr : Frame) : Option PortId :=
  s.routeFrom s.here (frameDst fr) (fr.ftype == 7 || Config.evenSource (frameSrc fr).slot fr.xfer)

/-- R394: a destination outside the torus, or one that the frame was sent away from. -/
def State.strayFrame (s : State) (p : PortId) (fr : Frame) : Bool :=
  let w := s.fab.coord.toNat
  let d := frameDst fr
  decide (fld w 48 4 ≤ d.x) || decide (fld w 52 4 ≤ d.y) || decide (fld w 56 8 ≤ d.z) || s.exitPort fr == some p

/-- R376: a message frame is delivered to the harbourmaster. -/
def State.addMessage (s : State) (fr : Frame) : State := { s with fab := { s.fab with hmIn := s.fab.hmIn ++ [fr] } }

/-- R390: a coded payload as words; none when it does not decode. -/
def framePayload (fr : Frame) : Option (List W64) :=
  if fr.cdc then (codecDecode (wordsToBytes fr.payload)).map (bytesToWords 512) else some fr.payload

/-- A VC2 frame in its turn: forwarded, or checked as a contribution; none while it is held. -/
def State.vc2Frame (s : State) (p : PortId) (fr : Frame) : Option State :=
  match s.exitPort fr with
  | some q => some (s.queueFrames q 2 [fr])
  | none => s.contribute p fr

/-- R390: what a second decoding failure of a transfer's block does: the sender's write or contribution is refused, this
module's own read ends, with status 0x0004. DEDUCED (log 64). -/
def State.codecRefused (s : State) (p : PortId) (fr : Frame) : State :=
  if fr.ftype = 3 then
    match s.fab.outs.find? (outXferOf fr true) with
    | some x => (s.partDone x.ref 4).dropOut x.num
    | none => s.violation p
  else s.refuseIn p fr 4

/-- A frame on a virtual channel that passed the link's checks. -/
def State.deliverFrame (s : State) (p : PortId) (fr : Frame) : State :=
  if fr.ftype = 6 then
    if (s.port p).held != [] then s.holdFrame p fr false
    else
      match s.vc2Frame p fr with
      | some s1 => s1.owe p fr
      | none => s.holdFrame p fr true
  else
    let s0 := s.owe p fr
    match s.exitPort fr with
    | some q => s0.queueFrames q fr.vc.toNat [fr]
    | none =>
      match framePayload fr with
      | none => s0.codecRefused p fr
      | some ws =>
        match fr.ftype.toNat with
        | 1 => s0.writeHere p fr ws
        | 2 => s0.readHere p fr
        | 3 => s0.respHere p fr ws
        | 4 => s0.ackHere p fr
        | 5 => s0.refusalHere p fr
        | _ => s0.addMessage fr

/-- R390: a coded block for this module that does not decode and was not sent back before. -/
def State.mustNak (s : State) (p : PortId) (fr : Frame) : Bool :=
  fr.cdc && fr.ftype != 6 && (s.exitPort fr).isNone && (framePayload fr).isNone && !(s.port p).naked

/-- R378: a frame that has passed CRC, lseq and R390's replay. -/
def State.acceptFrame (s : State) (p : PortId) (fr : Frame) (withinCredits : Bool) : State :=
  let s1 := s.modPort p fun f =>
    { f.trailer fr with rxSeq := f.rxSeq + 1, rxFrames := bump f.rxFrames, naked := false }
  let s2 :=
    if frameMalformed fr || fr.ftype == 9 then (s1.violation p).owe p fr
    else if !withinCredits then s1.violation p
    else if s1.strayFrame p fr then (s1.violation p).owe p fr
    else s1.deliverFrame p fr
  s2.pumpPort p

/-- R378: a sequenced frame arrives. DEDUCED (log 62). -/
def State.sequenced (s : State) (p : PortId) (fr : Frame) (withinCredits : Bool) : State :=
  if !fr.crcOk || fr.lseq != (s.port p).rxSeq then s.sendNak p
  else if s.mustNak p fr then (s.modPort p fun f => { f with naked := true }).sendNak p
  else s.acceptFrame p fr withinCredits

/-- R376: an idle frame takes no number of its own; it carries the number of the next frame. -/
def State.idleIn (s : State) (p : PortId) (fr : Frame) : State :=
  if !fr.crcOk || fr.lseq != (s.port p).rxSeq then s.sendNak p
  else
    let s1 := s.modPort p fun f => { f.trailer fr with rxFrames := bump f.rxFrames }
    let s2 := if frameMalformed fr then s1.violation p else s1
    s2.modPort p FPort.run

/-- Frames from `lseq` on that are in the replay buffer. -/
def FPort.from_ (f : FPort) (lseq : W16) : List Frame := f.replay.dropWhile fun y => decide (0x8000 < (y.lseq - lseq).toNat)

/-- LINK_NAK (R378): replay, and the eighth replay of the same frame retrains the port. -/
def State.nakIn (s : State) (p : PortId) (fr : Frame) : State :=
  if !fr.crcOk then s.sendNak p
  else
    let s1 := s.modPort p fun f => { f.trailer fr with rxFrames := bump f.rxFrames }
    if frameMalformed fr then s1.violation p
    else
      let f := s1.port p
      let again := f.from_ (fr.addr.extractLsb' 0 16)
      match again.getLast? with
      | none => s1
      | some x =>
        let q := f.stamp x
        let s2 := (s1.setPort p { q.1 with replays := f.replays + 1, replayed := bumpBy again.length f.replayed, sent := some q.2 }).noteRetry
          4 p.val [BitVec.ofNat 64 p.val]
        if f.replays + 1 ≥ 8 then s2.retrain p else s2

/-- R378, R394: a frame arrives on a link; a port that is not up takes none. DESIGN CHOICE (log 156). -/
def State.receiveFrame (s : State) (p : PortId) (fr : Frame) (withinCredits : Bool) : State :=
  if !(s.port p).link.up then s
  else if fr.ftype = 0 then s.idleIn p fr
  else if fr.ftype = 8 then s.nakIn p fr
  else if fr.ftype = 9 then (if fr.crcOk then s.violation p else s.sendNak p)
  else s.sequenced p fr withinCredits

/-- A frame of one type; another type is no such command. -/
def State.typedFrame (s : State) (t : Nat) (p : PortId) (fr : Frame) : State :=
  if fr.ftype.toNat = t then s.receiveFrame p fr true else s

/-- CONTRIBUTION_RECHECK (R386): held frames go on as far as their checks allow. -/
def State.recheck : Nat → PortId → State → State
  | 0, _, s => s
  | n + 1, p, s =>
    match (s.port p).held with
    | [] => s
    | fr :: rest =>
      match s.vc2Frame p fr with
      | none => s
      | some s1 => State.recheck n p ((s1.modPort p fun f => { f with held := rest }).owe p fr)

/-! ## Identity frames (R375) -/

/-- The neighbour's coordinates that a port's direction asks for. DESIGN CHOICE (log 68). -/
def State.expectNeigh (s : State) (p : PortId) : Coord :=
  let w := s.fab.coord.toNat
  let h := s.here
  let step := fun (ext v : Nat) => if ext = 0 then v else if p.val % 2 = 0 then (v + 1) % ext else (v + ext - 1) % ext
  match p.val / 2 with
  | 0 => { h with x := step (fld w 48 4) h.x }
  | 1 => { h with y := step (fld w 52 4) h.y }
  | _ => { h with z := step (fld w 56 8) h.z }

/-- R375: the neighbour's port is not the opposite one, or both have coordinates that do not fit. -/
def State.miswired (s : State) (p : PortId) (port : Nat) (set : Bool) (c : Coord) : Bool :=
  port != (p.val ^^^ 1) || (set && tb s.fab.coord.toNat 16 && c != s.expectNeigh p)

/-- IDENTITY (R375): during training only. DESIGN CHOICE (log 68). -/
def State.identity (s : State) (p : PortId) (serial : BitVec 48) (port : BitVec 3) (set : Bool) (c : Coord) : State :=
  match (s.port p).link with
  | .training =>
    let xyz := (c.x + c.y * 16 + c.z * 256) % 4096
    let s1 := s.modPort p fun f =>
      { f with neigh := BitVec.ofNat 64 (serial.toNat * 2 ^ 16 + port.toNat * 2 ^ 12 + xyz) }
    if s.miswired p port.toNat set c then
      ((s1.modPort p fun f => { f with miswired := true }).portEvent 0x0E13 p.val).fence p
    else s1
  | .wide | .narrow => s.violation p
  | _ => s

/-! ## Training (R374, R394) -/

/-- Whether a link goes round the edge of the torus (XLK_STATUS wrap). -/
def State.wrapLink (s : State) (p : PortId) : Bool :=
  let w := s.fab.coord.toNat
  let h := s.here
  let edge := fun (ext v : Nat) => if p.val % 2 = 0 then v + 1 == ext else v == 0
  match p.val / 2 with
  | 0 => edge (fld w 48 4) h.x
  | 1 => edge (fld w 52 4) h.y
  | _ => edge (fld w 56 8) h.z

/-- PORT_ENABLE for a torus port. -/
def State.enablePort (s : State) (p : PortId) : State :=
  if (s.port p).en then s else (s.modPort p fun f => { f with en := true }).train p

/-- PORT_TRAINED (R374). -/
def State.trained (s : State) (p : PortId) (low high : Bool) : State :=
  let f := s.port p
  if f.link ≠ .training then s
  else
    let w := s.wrapLink p
    let g := { f with wrap := w, retrain := false, again := false, half := false }
    if low && high then (s.setPort p { g with link := .wide }).modPort p FPort.run
    else if low || high then
      ((s.setPort p { g with link := .narrow, half := high }).modPort p FPort.run).portEvent 0x0E11 p.val
    else
      let s1 := s.setPort p { g with link := .down }
      if f.again then s1 else (s1.portEvent 0x0E10 p.val).lostPort p

/-- PORT_RETRY (R374). -/
def State.retryPort (s : State) (p : PortId) : State :=
  let f := s.port p
  if f.en && f.link == .down then (s.setPort p { f with again := true }).train p else s

/-- PORT_DOWN (R374, R389). DEDUCED (log 69). -/
def State.portDown (s : State) (p : PortId) : State :=
  if (s.port p).link.up then
    ((s.modPort p fun f => { f with link := .down }).portEvent 0x0E10 p.val).lostPort p
  else s

/-- R394: unfencing clears what fenced the port, and it retrains. -/
def State.unfence (s : State) (p : PortId) : State :=
  let f := s.port p
  if f.link == .fenced then
    (s.setPort p { f with retrain := true, miswired := false, viols := [], trains := [], replays := 0 }).train p
  else s

/-- R374, R389: a port that is disabled carries no frames. -/
def State.disablePort (s : State) (p : PortId) : State :=
  let s1 := s.modPort p fun f => { f with en := false, link := .disabled }
  if (s.port p).link.up then s1.lostPort p else s1

end Sys2Proof.Machine
end

