-- ==== Sys2Proof/Machine/Mailbox.lean ====
section
/-! DEFINITION. Mailboxes and tickets (R400, R411 to R417, R420). -/

namespace Sys2Proof.Machine

/-! ## Status codes (table "Status codes") -/

def stDone : W16 := 0x0000
def stTicket : W16 := 0x0001
def stBusy : W16 := 0x0002
def stRefused : W16 := 0x0003
def stBadArg : W16 := 0x0004
def stNotFound : W16 := 0x0005
def stNoSpace : W16 := 0x0006
def stDigest : W16 := 0x0007
def stTimeout : W16 := 0x0008
def stCancelled : W16 := 0x0009
def stPoisoned : W16 := 0x000A
def stContextFull : W16 := 0x000B
def stFaulted : W16 := 0x000C
def stUnknownOp : W16 := 0x000D
def stDenied : W16 := 0x000E
def stSigFail : W16 := 0x000F
def stRollback : W16 := 0x0010
def stNotReady : W16 := 0x0011
def stHostError : W16 := 0x0012

/-! ## Commands (table "Commands") -/

/-- Who may issue a mailbox command: `f` every function, else the physical function; `r` the rack as well. -/
structure CmdInfo where
  f : Bool
  r : Bool
  deriving DecidableEq, Repr

/-- The commands that a mailbox takes; REQ_SUBMIT (0x0301) is a ring entry. -/
def cmdInfo (op : Nat) : Option CmdInfo :=
  match op with
  | 0x0001 | 0x0002 | 0x0003 | 0x0004 | 0x0005 | 0x0501 => some ⟨true, true⟩
  | 0x0101 | 0x0102 | 0x0103 | 0x0104 | 0x0105 | 0x0201 | 0x0202 | 0x0203 | 0x0502 | 0x0503 | 0x0601 | 0x0602 =>
    some ⟨false, true⟩
  | 0x0302 | 0x0303 | 0x0304 | 0x0305 | 0x0306 | 0x0401 | 0x0402 | 0x0403 | 0x0404 | 0x0406 => some ⟨true, false⟩
  | 0x0504 => some ⟨false, false⟩
  | _ => none

/-- R417: whether an issuer may use a command. -/
def CmdInfo.allows (i : CmdInfo) : Issuer → Bool
  | .fn f => i.f || f == 0
  | .rack => i.r

/-- R400: commands served in PCI_STATE state `st`. DEDUCED (log 82). -/
def servedIn (st : BitVec 3) (op : Nat) : Bool :=
  st == 1 || op == 0x0002 || op == 0x0003 || op == 0x0601 || (st == 3 && op == 0x0502)

/-! ## Mailboxes -/

def State.mbx (s : State) : Issuer → Mbx
  | .fn f => (s.fn f).mbx
  | .rack => s.host.rack

def State.modMbx (s : State) (i : Issuer) (g : Mbx → Mbx) : State :=
  match i with
  | .fn f => s.modFn f fun x => { x with mbx := g x.mbx }
  | .rack => { s with host := { s.host with rack := g s.host.rack } }

/-- R411: whether the harbourmaster has taken the command of the issuer's mailbox. -/
def State.taken (s : State) (i : Issuer) (op : W16) : Bool := (s.mbx i).st == 1 && (s.mbx i).op == op

/-- R411: the answer; state becomes 2, and vector 0 goes out if ien was set. -/
def State.answerMbx (s : State) (i : Issuer) (status : W16) (ticket : W32) (result : List Byte) : State :=
  let m := s.mbx i
  let s1 := s.modMbx i fun m => { m with st := 2, resp := ⟨status, m.op, m.seq, ticket, result⟩ }
  match i with
  | .fn f => if m.ien then s1.interrupt f 0 else s1
  | .rack => s1

def State.reply (s : State) (i : Issuer) (status : W16) (result : List Byte) : State := s.answerMbx i status 0 result

/-- A command that the mailbox of an issuer holds is carried out; no other is. -/
def State.command (s : State) (i : Issuer) (op : W16) (f : State → State) : State := if s.taken i op then f s else s

/-- R417: bytes that a command's arguments need: none where the table gives it no arguments; else what the manual leaves open,
but never more than the request window has room for (R411). DEDUCED (log 80). -/
def argNeed (op : W16) : Nat :=
  if [0x0001, 0x0002, 0x0003, 0x0203].contains op.toNat then 0 else min (Config.argSize op) 1920

/-- R417, R400: the answer that a command gets as it is taken, if it goes no further. DEDUCED (log 80, 82). -/
def State.turnedAway (s : State) (i : Issuer) (op : W16) (arglen : Nat) : Option W16 :=
  if !servedIn s.hm.state op.toNat then some stNotReady
  else if op = 0x0301 then some stDenied
  else
    match cmdInfo op.toNat with
    | none => some stUnknownOp
    | some c =>
      if !c.allows i then some stDenied
      else if arglen > 1920 ∨ arglen < argNeed op then some stBadArg
      else none

/-- R411: the harbourmaster takes a command. -/
def State.take (s : State) (i : Issuer) (seq : W32) (ien : Bool) (op : W16) (arglen : Nat) : State :=
  let s1 := s.modMbx i fun m => { m with st := 1, seq := seq, ien := ien, op := op }
  match s.turnedAway i op arglen with
  | some st => s1.reply i st []
  | none => s1

/-- MBX_DOORBELL (R411, R412). The request header stands at offset 0x040. -/
def State.doorbell (s : State) (f : FnId) (v : W64) : State :=
  let m := (s.fn f).mbx
  if m.st = 1 then
    s.modFn f fun x => { x.flag errCollide with hosterrs := bump x.hosterrs, mbx := { x.mbx with collide := true } }
  else
    let h := (Sparse.get 0 m.win 0x40).toNat
    s.take (.fn f) (v.extractLsb' 0 32) (tb v.toNat 32) (BitVec.ofNat 16 h) (fld h 32 16)

/-- MAILBOX_WINDOW_WRITE (R412): the request header and the arguments are written while no command is in progress;
MBX_STATUS has one W1C bit, and a write at offset 0 is one of MBX_DOORBELL. -/
def State.windowWrite (s : State) (f : FnId) (off : BitVec 12) (v : W64) : State :=
  let o := off.toNat
  let m := (s.fn f).mbx
  let lost := fun (s : State) => s.modFn f fun x => { x with hosterrs := bump x.hosterrs }
  if o % 8 ≠ 0 then lost s
  else if o = 0 then s.doorbell f v
  else if o = 8 then s.modFn f fun x => { x with mbx := { x.mbx with collide := x.mbx.collide && !tb v.toNat 2 } }
  else if (0x40 ≤ o ∧ o < 0x50) ∨ (0x80 ≤ o ∧ o < 0x800) then
    if m.st = 1 then
      s.modFn f fun x => { x.flag errCollide with hosterrs := bump x.hosterrs, mbx := { x.mbx with collide := true } }
    else s.modFn f fun x => { x with mbx := { x.mbx with win := Sparse.put 0 x.mbx.win o v } }
  else lost s

/-! ## Tickets (R415) -/

/-- Number of an issuer in its tickets. -/
def issuerNo : Issuer → Nat
  | .fn f => f.val
  | .rack => 64

def ticketIssuer (t : W32) : Nat := t.toNat / 2 ^ 25

def State.ticketOf (s : State) (t : W32) : Option Ticket := s.host.tickets.find? fun x => x.num == t

def State.modTicket (s : State) (t : W32) (g : Ticket → Ticket) : State :=
  { s with host := { s.host with tickets := updFirst (fun x => x.num == t) g s.host.tickets } }

/-- R415: 16 live tickets for an issuer. -/
def State.ticketsFull (s : State) (i : Issuer) : Bool :=
  decide (16 ≤ (s.host.tickets.filter fun x => ticketIssuer x.num == issuerNo i).length)

/-- R415: answers TICKET, or BUSY; the number of the ticket goes to what follows. -/
def State.issue (s : State) (i : Issuer) (op : W16) (unit : Byte) (total object : Nat) (go : W32 → State → State) : State :=
  if s.ticketsFull i then s.reply i stBusy []
  else
    let n := Sparse.get 0 s.host.serials (issuerNo i)
    let t : W32 := BitVec.ofNat 32 (issuerNo i * 2 ^ 25 + n)
    let x : Ticket := ⟨t, op, .running, unit, 0xFFFF, total, 0, 0, object⟩
    let s1 := { s with host := { s.host with
      tickets := s.host.tickets ++ [x], serials := Sparse.put 0 s.host.serials (issuerNo i) ((n + 1) % 2 ^ 25) } }
    go t (s1.answerMbx i stTicket t [])

/-- R415, R416: a ticket finishes; one that is being cancelled finishes CANCELLED. -/
def State.finish (s : State) (t : W32) (status : W16) (result : W64) : State :=
  s.modTicket t fun x =>
    if x.st = .finished then x
    else
      { x with st := .finished, status := if x.st = .cancelling then stCancelled else status, result := result,
               progress := if x.unit = 0 ∧ status = stDone ∧ x.st = .running then 10000 else x.progress }

/-- The same for a ticket that a piece of work may have. -/
def State.finish? (s : State) (t : Option W32) (status : W16) (result : W64) : State :=
  match t with
  | some t => s.finish t status result
  | none => s

/-- R415: progress is monotonic. -/
def State.progressTo (s : State) (t : W32) (n : Nat) : State :=
  s.modTicket t fun x => if x.st = .finished then x else { x with progress := max x.progress n }

/-- A command that ends at once under its ticket. -/
def State.ticketed (s : State) (i : Issuer) (op : W16) (unit : Byte) (total : Nat) (status : W16) (result : W64)
    (go : State → State) : State :=
  s.issue i op unit total 0 fun t s => (go s).finish t status result

def TicketState.code : TicketState → Nat
  | .running => 0
  | .finished => 1
  | .cancelling => 2

/-- Table "Ticket record". -/
def Ticket.bits (x : Ticket) : Nat :=
  x.result.toNat + x.progress % 2 ^ 64 * 2 ^ 64 + x.total % 2 ^ 48 * 2 ^ 128 + x.status.toNat * 2 ^ 176
    + x.unit.toNat * 2 ^ 192 + x.st.code * 2 ^ 200 + x.op.toNat * 2 ^ 208 + x.num.toNat * 2 ^ 224

/-- A live ticket of the issuer. -/
def State.myTicket (s : State) (i : Issuer) (t : W32) : Option Ticket :=
  if ticketIssuer t = issuerNo i then s.ticketOf t else none

/-! ## Rows -/

/-- MBX_DOORBELL (R411). -/
def execMbxDoorbell (f : FnId) (v : W64) (s : State) : Host.Outcome State Fault Refusal :=
  s.live fun s => s.doorbell f v

/-- MAILBOX_WINDOW_WRITE (R412). -/
def execMailboxWindowWrite (f : FnId) (off : BitVec 12) (v : W64) (s : State) : Host.Outcome State Fault Refusal :=
  s.live fun s => s.windowWrite f off v

/-- MBX_NOP (R417). -/
def execMbxNop (i : Issuer) (s : State) : Host.Outcome State Fault Refusal :=
  .next (s.command i 0x0001 fun s => s.reply i stDone [])

/-- TICKET_QUERY (R415). -/
def execTicketQuery (i : Issuer) (t : W32) (s : State) : Host.Outcome State Fault Refusal :=
  .next (s.command i 0x0004 fun s =>
    match s.myTicket i t with
    | some x => s.reply i stDone (leBytes 32 x.bits)
    | none => s.reply i stNotFound [])

/-- TICKET_EXPIRY (R415): the time of a finished ticket is over. -/
def execTicketExpiry (t : W32) (s : State) : Host.Outcome State Fault Refusal :=
  .next { s with host := { s.host with tickets := s.host.tickets.filter fun x => !(x.num == t && x.st == .finished) } }

end Sys2Proof.Machine
end

