-- ==== Sys2Proof/Machine/Muster.lean ====
section
/-! DEFINITION. Slice formation (R382, R383), halt messages (R387), and the commands of the torus ports. -/

namespace Sys2Proof.Machine

/-! ## Formation (R382, R383) -/

/-- log2 of 1, 2, 4, 8. -/
def lg2 (n : Nat) : Nat := if n < 2 then 0 else if n < 4 then 1 else if n < 8 then 2 else 3

def isPow (n : Nat) : Bool := n == 1 || n == 2 || n == 4 || n == 8

/-- R382: the board slot of this module. -/
def State.slot (s : State) : Nat := s.here.slot

/-- R382, R396: a shape of the table whose slots hold this module. -/
def State.shapeOk (s : State) (n d sq origin : Nat) : Bool :=
  isPow n && isPow d && isPow sq && n == d * sq && origin % n == 0 && decide (origin < 8)
    && decide (origin ≤ s.slot) && decide (s.slot < origin + n)

/-- R383: this module's muster record. DESIGN CHOICE (log 75). -/
def State.myMuster (s : State) (f : Forming) : Muster :=
  let model := (s.hm.man.map (·.digest)).getD 0
  { slot := s.slot, serial := s.ident.serial, rank := s.slot - f.origin, fwMajor := s.sec.run.major, model := model,
    config := Config.configDigest model f.n f.d f.sq }

/-- R383: what every module must share. -/
def musterTriple (m : Muster) : W16 × BitVec 384 × BitVec 384 := (m.fwMajor, m.model, m.config)

/-- R383: the most common triple; on a tie that of the lowest rank among the tied. `rs` is in rank order. -/
def commonTriple (rs : List Muster) : Option (W16 × BitVec 384 × BitVec 384) :=
  let count := fun (m : Muster) => (rs.filter fun r => musterTriple r == musterTriple m).length
  let top := (rs.map count).foldl max 0
  (rs.find? fun m => count m == top).map musterTriple

/-- Ports of this module that the slice's collectives would use and that do not carry frames. -/
def State.badPorts (s : State) (n rank : Nat) : List PortId :=
  (List.finRange 6).filter fun p => s.sliceUses n rank p && !(s.port p).link.up

/-- The records in rank order. -/
def Forming.inOrder (f : Forming) : List Muster :=
  (List.range f.n).filterMap fun r => f.records.find? fun m => m.slot == f.origin + r

/-- R383: the entries of slot, reason and port. -/
def State.musterEntries (s : State) (f : Forming) : List (Nat × Nat × Nat) :=
  let rs := f.inOrder
  let t := commonTriple rs
  let own := (s.badPorts f.n (s.slot - f.origin)).map fun p => (s.slot, 3, p.val)
  ((List.range f.n).map fun r =>
    match rs.find? fun m => m.slot == f.origin + r with
    | none => (f.origin + r, 1, 0)
    | some m => (f.origin + r, if some (musterTriple m) = t then 0 else 2, 0)) ++ own

/-- R383, R397: the module's registers when the slice has formed. DEDUCED (log 72). -/
def State.setFormed (s : State) (f : Forming) (step : W64) : State :=
  let w := f.n + lg2 f.d * 2 ^ 4 + lg2 f.sq * 2 ^ 6 + f.origin * 2 ^ 8 + (s.slot - f.origin) * 2 ^ 12 + 2 ^ 16
  let cfg := (s.myMuster f).config
  { s with fab := { s.fab with
             slice := BitVec.ofNat 64 w, step := step.extractLsb' 0 32, cfgdig := cfg.extractLsb' 0 64, forming := none,
             halting := false, aborted := false, halted := false },
           hm := { s.hm with step := step } }

/-- R383: the slice does not form. DEDUCED (log 71). -/
def State.notFormed (s : State) (f : Forming) (status : W16) (es : List (Nat × Nat × Nat)) : State :=
  let w := s.fab.slice &&& ~~~(0x10000#64)
  let s1 := { s with fab := { s.fab with slice := w, forming := none } }
  (s1.note 0x0E16 0 0 0 0 0 [Config.musterResult es]).finish f.ticket status (Config.musterResult es)

/-- R383: rank 0 compares the records and replies to every module. DEDUCED (log 71). -/
def State.decideMuster (s : State) (f : Forming) : State :=
  let es := s.musterEntries f
  let ok := es.all fun e => e.2.1 == 0
  let others := (List.range f.n).filter fun r => r != s.slot - f.origin
  let s1 := { s with fab := { s.fab with hmOut := s.fab.hmOut ++ others.map fun r => (r, HmMsg.musterReply ok (s.hm.step.extractLsb' 0 32)) } }
  if ok then (s1.setFormed f s.hm.step).finish f.ticket stDone (Config.musterResult es)
  else s1.notFormed f (if es.any fun e => e.2.1 == 1 then stTimeout else stDigest) es

/-- SLICE_FORM (R383): formation begins; a slice of one module is formed by its own record. DEDUCED (log 70). -/
def State.sliceForm (s : State) (i : Issuer) (n d sq origin : Nat) : State :=
  if !s.shapeOk n d sq origin then s.reply i stBadArg []
  else
    s.issue i 0x0201 0 0 0 fun t s =>
      let s0 := match s.fab.forming with
        | some f => s.finish f.ticket stTimeout 0
        | none => s
      let f0 : Forming := ⟨t, n, d, sq, origin, []⟩
      let me := s0.myMuster f0
      if s0.slot = origin then
        let f : Forming := { f0 with records := [me] }
        let s1 := { s0 with fab := { s0.fab with forming := some f } }
        if n = 1 then s1.decideMuster f else s1
      else
        { s0 with fab := { s0.fab with forming := some f0, hmOut := s0.fab.hmOut ++ [(0, .muster me)] } }

/-- MUSTER_RECORD (R383) at rank 0. -/
def State.musterRecord (s : State) (m : Muster) : State :=
  match s.fab.forming with
  | none => s
  | some f =>
    if s.slot ≠ f.origin ∨ m.slot < f.origin ∨ f.origin + f.n ≤ m.slot ∨ (f.records.any fun r => r.slot == m.slot) = true then s
    else
      let g := { f with records := f.records ++ [m] }
      let s1 := { s with fab := { s.fab with forming := some g } }
      if g.inOrder.length = f.n then s1.decideMuster g else s1

/-- MUSTER_TIMEOUT (R383): 1 s is over; a module that is not rank 0 has had no reply. -/
def State.musterTimeout (s : State) : State :=
  match s.fab.forming with
  | none => s
  | some f => if s.slot = f.origin then s.decideMuster f else s.notFormed f stTimeout [(f.origin, 1, 0)]

/-- R383: rank 0's reply at another module; its own ports must carry frames too. -/
def State.musterReplied (s : State) (f : Forming) (ok : Bool) (step : W32) : State :=
  let own := (s.badPorts f.n (s.slot - f.origin)).map fun p => (s.slot, 3, p.val)
  if ok && own == [] then (s.setFormed f (step.setWidth 64)).finish f.ticket stDone (Config.musterResult [])
  else s.notFormed f stDigest own

/-- MESSAGE (R376): a frame on VC3; the reply to a muster acts on the formation. DESIGN CHOICE (log 73). -/
def State.messageIn (s : State) (p : PortId) (fr : Frame) : State :=
  let before := s.fab.hmIn.length
  let s1 := s.typedFrame 7 p fr
  match s1.fab.forming, (if before < s1.fab.hmIn.length then Config.musterReply fr.payload else none) with
  | some f, some (ok, step) => if s1.slot = f.origin then s1 else s1.musterReplied f ok step
  | _, _ => s1

/-- HALT_MESSAGE (R387, R451): the module of a slice ends its step's tasks, writes its own record, and halts at the
boundary. DESIGN CHOICE (log 73). -/
def State.haltIn (s : State) (step : W32) : State :=
  if !s.formed then s
  else
    let s1 := if s.fab.aborted then s else s.note 0x0E14 0 6 0 0 0 []
    if step = s.fab.step then s1.abortCollectives else { s1 with fab := { s1.fab with halting := true } }

/-! ## Rows -/

/-- SLICE_FORM (R383). -/
def execSliceForm (i : Issuer) (n d s_ origin : Byte) (s : State) : Host.Outcome State Fault Refusal :=
  .next (s.command i 0x0201 fun s => s.sliceForm i n.toNat d.toNat s_.toNat origin.toNat)

/-- MUSTER_RECORD (R383). -/
def execMusterRecord (m : Muster) (s : State) : Host.Outcome State Fault Refusal := .next (s.musterRecord m)

/-- MUSTER_TIMEOUT (R383). -/
def execMusterTimeout (s : State) : Host.Outcome State Fault Refusal := .next s.musterTimeout

/-- HALT_MESSAGE (R387). -/
def execHaltMessage (step : W32) (s : State) : Host.Outcome State Fault Refusal := .next (s.haltIn step)

/-- MESSAGE (R376). -/
def execMessageFrame (p : PortId) (fr : Frame) (s : State) : Host.Outcome State Fault Refusal := .next (s.messageIn p fr)

/-- FRAME_RECEIVE (R378). -/
def execFrameReceive (p : PortId) (fr : Frame) (withinCredits : Bool) (s : State) : Host.Outcome State Fault Refusal :=
  .next (s.receiveFrame p fr withinCredits)

/-- IDLE (R376). -/
def execIdleFrame (p : PortId) (fr : Frame) (s : State) : Host.Outcome State Fault Refusal := .next (s.typedFrame 0 p fr)

/-- WRITE (R384). -/
def execWriteFrame (p : PortId) (fr : Frame) (s : State) : Host.Outcome State Fault Refusal := .next (s.typedFrame 1 p fr)

/-- READ_REQUEST (R384). -/
def execReadRequest (p : PortId) (fr : Frame) (s : State) : Host.Outcome State Fault Refusal := .next (s.typedFrame 2 p fr)

/-- READ_RESPONSE (R384). -/
def execReadResponse (p : PortId) (fr : Frame) (s : State) : Host.Outcome State Fault Refusal := .next (s.typedFrame 3 p fr)

/-- WRITE_ACK (R384). -/
def execWriteAck (p : PortId) (fr : Frame) (s : State) : Host.Outcome State Fault Refusal := .next (s.typedFrame 4 p fr)

/-- REFUSAL (R384). -/
def execRefusalFrame (p : PortId) (fr : Frame) (s : State) : Host.Outcome State Fault Refusal := .next (s.typedFrame 5 p fr)

/-- CONTRIBUTION (R386). -/
def execContributionFrame (p : PortId) (fr : Frame) (s : State) : Host.Outcome State Fault Refusal :=
  .next (s.typedFrame 6 p fr)

/-- CONTRIBUTION_RECHECK (R386). -/
def execContributionRecheck (p : PortId) (s : State) : Host.Outcome State Fault Refusal :=
  .next ((s.recheck (s.port p).held.length p).pumpPort p)

/-- LINK_NAK (R378). -/
def execLinkNak (p : PortId) (fr : Frame) (s : State) : Host.Outcome State Fault Refusal := .next (s.typedFrame 8 p fr)

/-- IDENTITY (R375). -/
def execIdentityFrame (p : PortId) (serial : BitVec 48) (port : BitVec 3) (set : Bool) (x y : BitVec 4) (z : Byte)
    (s : State) : Host.Outcome State Fault Refusal :=
  .next (s.identity p serial port set ⟨x.toNat, y.toNat, z.toNat⟩)

/-- PORT_DOWN (R389). -/
def execPortDown (p : PortId) (s : State) : Host.Outcome State Fault Refusal := .next (s.portDown p)

/-- XLK_UNFENCE (R394): a write of unfence; on a port that is not fenced it does nothing. -/
def execXlkUnfence (p : PortId) (s : State) : Host.Outcome State Fault Refusal := .next (s.unfence p)

/-- PORT_UNFENCE (R394). -/
def execPortUnfence (i : Issuer) (p : PortId) (s : State) : Host.Outcome State Fault Refusal :=
  .next (s.command i 0x0202 fun s =>
    if (s.port p).link = .fenced then (s.unfence p).reply i stDone [] else s.reply i stRefused [])

/-- XLK_MISMATCH_CLEAR (R397). -/
def execXlkMismatchClear (s : State) : Host.Outcome State Fault Refusal :=
  .next { s with fab := { s.fab with mismatch := 0 } }

/-- ACKNOWLEDGEMENT (R277): at a core, or at a port for a transfer that it carries; another node's answer is taken off VC1. -/
def execAcknowledgement (at_ src : Node) (s : State) : Host.Outcome State Fault Refusal :=
  .next (match at_ with
    | .core c => s.coreAck c src
    | .port p => s.portAck p src
    | _ => if ((s.head1 src at_).filter (·.body.isAck)).isSome then s.drop1 src at_ else s)

end Sys2Proof.Machine
end

