-- ==== Sys2Proof/Machine/Uplink.lean ====
section
/-! DEFINITION. The uplinks: flows of datagrams, link changes, module time (R391 to R394), and the training commands that
ports and uplinks share (R374). -/

namespace Sys2Proof.Machine

def State.up (s : State) (u : UplinkId) : UPort := s.fab.ups[u]

def State.modUp (s : State) (u : UplinkId) (f : UPort → UPort) : State :=
  { s with fab := { s.fab with ups := s.fab.ups.set u.val (f (s.up u)) } }

/-- R392: 8 MiB. -/
def fullWindow : Nat := 0x800000

/-- A flow that has carried nothing. DEDUCED (log 77). -/
def UFlow.fresh (id : W32) (dclass : Byte) (expect : W32) : UFlow :=
  ⟨id, dclass, 0, 0, expect, [], [], [], 0, fullWindow, fullWindow, 0, false⟩

def State.flow (s : State) (id : W32) : Option UFlow := s.fab.flows.find? fun f => f.id == id

def State.setFlow (s : State) (g : UFlow) : State :=
  { s with fab := { s.fab with flows := updFirst (fun f => f.id == g.id) (fun _ => g) s.fab.flows } }

def State.dropFlow (s : State) (id : W32) : State :=
  { s with fab := { s.fab with flows := s.fab.flows.filter fun f => f.id != id } }

/-- R392: the uplink of a flow. -/
def State.flowUplink (s : State) (id : W32) : Option UplinkId :=
  let own : UplinkId := Fin.ofNat 2 (id.toNat % 2)
  let other : UplinkId := Fin.ofNat 2 (1 - id.toNat % 2)
  if (s.up own).link.up then some own else if (s.up other).link.up then some other else none

/-- A datagram of a type (1 data, 2 ack, 3 open, 4 close, 5 reset) goes out; its bytes are counted. -/
def State.sendDatagram (s : State) (typ : Byte) (d : Datagram) : State :=
  match s.flowUplink d.flow with
  | none => s
  | some u => (s.modUp u fun x => { x with tx := bumpBy (32 + d.data.length) x.tx }).send (.datagram u typ d)

/-- R392: the bytes of a datagram of a type: the uplink header, then the data. -/
def datagramImage (typ : Byte) (d : Datagram) : List Byte :=
  leBytes 32 (bit d.ce + (crc32c d.data).toNat * 2 ^ 32 + d.data.length * 2 ^ 64 + d.window.toNat * 2 ^ 96 + d.ack.toNat * 2 ^ 128
    + d.seq.toNat * 2 ^ 160 + d.flow.toNat * 2 ^ 192 + d.dclass.toNat * 2 ^ 240 + typ.toNat * 2 ^ 248) ++ d.data

/-- Free window in KiB that this module tells its peer. -/
def UFlow.datagram (g : UFlow) (seq : W32) (ce : Bool) (data : List Byte) : Datagram :=
  ⟨g.dclass, g.id, seq, g.expect, BitVec.ofNat 32 (fullWindow / 1024), true, ce, true, data⟩

/-- R392: a cumulative acknowledgement, echoing congestion seen. -/
def State.sendAckOf (s : State) (g : UFlow) : State :=
  (s.setFlow { g with sinceAck := 0, ce := false }).sendDatagram 2 (g.datagram g.nextSeq g.ce [])

def UFlow.inFlight (g : UFlow) : Nat := (g.unacked.map fun d => d.data.length).sum

/-- R392: flows of one peer; 0 names none. -/
def samePeer (f g : UFlow) : Bool := f.id == g.id || (f.peer != 0 && f.peer == g.peer)

/-- R392: the window is the peer's: what its flows have not had acknowledged counts together. -/
def State.peerInFlight (s : State) (g : UFlow) : Nat := ((s.fab.flows.filter (samePeer g)).map UFlow.inFlight).sum

/-- A flow changes, and with it the window of its peer's other flows. -/
def State.setPeer (s : State) (g : UFlow) : State :=
  { s with fab := { s.fab with flows := s.fab.flows.map fun f =>
      if f.id = g.id then g else if samePeer f g then { f with window := g.window, peerWindow := g.peerWindow } else f } }

/-- R392: data go out in seq order within the window, in datagrams of up to 8,192 bytes. -/
def State.pumpFlow : Nat → W32 → State → State
  | 0, _, s => s
  | n + 1, id, s =>
    match s.flow id with
    | none => s
    | some g =>
      let part := g.toSend.take 8192
      if part = [] ∨ min g.window g.peerWindow < s.peerInFlight g + part.length then s
      else
        let d := g.datagram g.nextSeq false part
        let s1 := s.setFlow { g with nextSeq := g.nextSeq + 1, unacked := g.unacked ++ [d], toSend := g.toSend.drop 8192 }
        State.pumpFlow n id (s1.sendDatagram 1 d)

def State.runFlow (s : State) (id : W32) : State :=
  match s.flow id with
  | some g => s.pumpFlow (g.toSend.length / 8192 + 1) id
  | none => s

/-- The flows of a peer send what its window allows. -/
def State.runPeer (s : State) (id : W32) : State :=
  match s.flow id with
  | some g => (s.fab.flows.filter (samePeer g)).foldl (fun s f => s.runFlow f.id) s
  | none => s

/-- R394: a header or its data that are malformed. -/
def badDatagram (d : Datagram) : Bool := !d.reservedZero || !d.crcOk || decide (8192 < d.data.length) || decide (3 < d.dclass.toNat)

def State.uplinkViol (s : State) (u : UplinkId) : State := s.modUp u fun x => { x with viol := bump x.viol }

/-- A datagram arrives: an uplink that is down takes none, a malformed one is a violation. DEDUCED (log 77). -/
def State.datagramIn (s : State) (u : UplinkId) (d : Datagram) (f : State → State) : State :=
  if !(s.up u).link.up then s
  else
    let s1 := s.modUp u fun x => { x with rx := bumpBy (32 + d.data.length) x.rx }
    if badDatagram d then s1.uplinkViol u else f s1

/-- R392: an acknowledgement frees datagrams; congestion halves the window, a round trip without it adds 64 KiB. -/
def UFlow.acked (g : UFlow) (ack : W32) (ce : Bool) (peer : Nat) : UFlow :=
  let left := g.unacked.dropWhile fun d => let k := (ack - d.seq).toNat; decide (0 < k) && decide (k ≤ 2 ^ 31)
  let trip := left.length != g.unacked.length && decide ((ack - g.mark).toNat ≤ 2 ^ 31)
  let w := if ce then g.window / 2 else if trip then min fullWindow (g.window + 0x10000) else g.window
  { g with unacked := left, window := w, peerWindow := peer, mark := if trip then g.nextSeq else g.mark }

/-- UPLINK_DATA (R392): in order within the window it is taken; ahead of its turn it is discarded and comes again. -/
def State.uplinkData (s : State) (u : UplinkId) (d : Datagram) : State :=
  s.datagramIn u d fun s =>
    match s.flow d.flow with
    | none => s.uplinkViol u
    | some g =>
      if 1024 ≤ (d.seq - g.expect).toNat then s.uplinkViol u
      else if d.seq ≠ g.expect then s
      else
        let g1 := { (g.acked d.ack false (d.window.toNat * 1024)) with
          expect := g.expect + 1, got := g.got ++ d.data, sinceAck := g.sinceAck + 1, ce := g.ce || d.ce }
        let s1 := s.setPeer g1
        (if g1.sinceAck ≥ 16 then s1.sendAckOf g1 else s1).runPeer d.flow

/-- UPLINK_ACK (R392). -/
def State.uplinkAck (s : State) (u : UplinkId) (d : Datagram) : State :=
  s.datagramIn u d fun s =>
    match s.flow d.flow with
    | none => s.uplinkViol u
    | some g => (s.setPeer (g.acked d.ack d.ce (d.window.toNat * 1024))).runPeer d.flow

/-- UPLINK_OPEN (R392): the flow's first data datagram carries the seq after the open's. -/
def State.uplinkOpen (s : State) (u : UplinkId) (d : Datagram) : State :=
  s.datagramIn u d fun s =>
    let s1 := s.dropFlow d.flow
    { s1 with fab := { s1.fab with flows := s1.fab.flows ++ [UFlow.fresh d.flow d.dclass (d.seq + 1)] } }

/-- UPLINK_CLOSE (R392). -/
def State.uplinkClose (s : State) (u : UplinkId) (d : Datagram) : State :=
  s.datagramIn u d fun s =>
    match s.flow d.flow with
    | none => s.uplinkViol u
    | some g => (s.sendAckOf { g with expect := g.expect + 1 }).dropFlow d.flow

/-- UPLINK_RESET (R392): the flow begins again. DEDUCED (log 77). -/
def State.uplinkReset (s : State) (u : UplinkId) (d : Datagram) : State :=
  s.datagramIn u d fun s =>
    match s.flow d.flow with
    | none => s.uplinkViol u
    | some g => s.setFlow (UFlow.fresh g.id g.dclass (d.seq + 1))

/-- UPLINK_ACK_TIMER (R392): 20 µs after the first datagram not acknowledged. -/
def State.uplinkAckTimer (s : State) (id : W32) : State :=
  match s.flow id with
  | some g => if g.sinceAck = 0 then s else s.sendAckOf g
  | none => s

/-- UPLINK_RETRANSMIT (R392): everything from the first unacknowledged datagram on. -/
def State.uplinkRetransmit (s : State) (id : W32) : State :=
  match s.flow id, s.flowUplink id with
  | some g, some u =>
    ((g.unacked.foldl (fun s d => s.sendDatagram 1 d) s).modUp u fun x =>
      { x with retx := bumpBy g.unacked.length x.retx }).noteRetry 4 (6 + u.val) []
  | _, _ => s

/-- R392: the tickets whose work a flow carries: a shipment's. -/
def flowTicket (id : W32) (t : Ticket) : Bool := t.op == 0x0305 && t.object == id.toNat && t.st != .finished

/-- UPLINK_FLOW_TIMEOUT (R392): the flow ends, and its operation with status TIMEOUT. -/
def State.uplinkFlowTimeout (s : State) (id : W32) : State :=
  match s.flow id with
  | none => s
  | some _ =>
    let s1 := s.dropFlow id
    (s1.host.tickets.filter (flowTicket id)).foldl (fun s t => s.finish t.num stTimeout 0) s1

/-! ## Rows -/

/-- UPLINK_DATA (R392). -/
def execUplinkData (u : UplinkId) (d : Datagram) (s : State) : Host.Outcome State Fault Refusal := .next (s.uplinkData u d)

/-- UPLINK_ACK (R392). -/
def execUplinkAck (u : UplinkId) (d : Datagram) (s : State) : Host.Outcome State Fault Refusal := .next (s.uplinkAck u d)

/-- UPLINK_OPEN (R392). -/
def execUplinkOpen (u : UplinkId) (d : Datagram) (s : State) : Host.Outcome State Fault Refusal := .next (s.uplinkOpen u d)

/-- UPLINK_CLOSE (R392). -/
def execUplinkClose (u : UplinkId) (d : Datagram) (s : State) : Host.Outcome State Fault Refusal :=
  .next (s.uplinkClose u d)

/-- UPLINK_RESET (R392). -/
def execUplinkReset (u : UplinkId) (d : Datagram) (s : State) : Host.Outcome State Fault Refusal :=
  .next (s.uplinkReset u d)

/-- UPLINK_ACK_TIMER (R392). -/
def execUplinkAckTimer (flow : W32) (s : State) : Host.Outcome State Fault Refusal := .next (s.uplinkAckTimer flow)

/-- UPLINK_RETRANSMIT (R392). -/
def execUplinkRetransmit (flow : W32) (s : State) : Host.Outcome State Fault Refusal := .next (s.uplinkRetransmit flow)

/-- UPLINK_FLOW_TIMEOUT (R392). -/
def execUplinkFlowTimeout (flow : W32) (s : State) : Host.Outcome State Fault Refusal := .next (s.uplinkFlowTimeout flow)

/-- UPLINK_DOWN (R392). -/
def execUplinkDown (u : UplinkId) (s : State) : Host.Outcome State Fault Refusal :=
  .next (if (s.up u).link.up then (s.modUp u fun x => { x with link := .down }).portEvent 0x0E19 (6 + u.val) else s)

/-- UPLINK_UP (R392). -/
def execUplinkUp (u : UplinkId) (s : State) : Host.Outcome State Fault Refusal :=
  .next (if (s.up u).link = .down then s.modUp u fun x => { x with link := .wide } else s)

/-- UPLINK_FRAME_DROPPED (R394). -/
def execUplinkFrameDropped (u : UplinkId) (pause : Bool) (s : State) : Host.Outcome State Fault Refusal :=
  .next (if !(s.up u).link.up then s
    else s.modUp u fun x => if pause then { x with pause := bump x.pause } else { x with drops := bump x.drops })

/-- PTP_MESSAGE (R393): module time follows the master. -/
def execPtpMessage (u : UplinkId) (masterNs : W64) (errNs : W32) (s : State) : Host.Outcome State Fault Refusal :=
  .next (if !(s.up u).link.up then s
    else
      let s1 := s.modUp u fun x => { x with ptp := true, ptpErr := errNs, ptpState := 1 }
      { s1 with hm := { s1.hm with timeNs := masterNs, synced := true } })

/-- TIME_SOURCE_LOST (R393): holdover. -/
def execTimeSourceLost (s : State) : Host.Outcome State Fault Refusal :=
  .next (if !s.hm.synced then s
    else
      let f := fun (x : UPort) => if x.ptpState = 1 then { x with ptp := false, ptpState := 2 } else x
      let s1 := (s.modUp 0 f).modUp 1 f
      ({ s1 with hm := { s1.hm with synced := false } }).note 0x0E18 0 0 0 0 0 [])

/-- Torus port or uplink of a port number (R372). -/
def State.onPort (s : State) (p : BitVec 3) (torus : PortId → State) (uplink : UplinkId → State) : State :=
  if s.hm.down then s
  else if p.toNat < 6 then torus (Fin.ofNat 6 p.toNat) else uplink (Fin.ofNat 2 (p.toNat - 6))

/-- PORT_ENABLE (R374). -/
def State.enableAny (s : State) (p : BitVec 3) : State :=
  s.onPort p s.enablePort fun u => s.modUp u fun x => if x.link = .disabled then { x with link := .training } else x

/-- PORT_ENABLE (R374). -/
def execPortEnable (p : BitVec 3) (s : State) : Host.Outcome State Fault Refusal := .next (s.enableAny p)

/-- PORT_TRAINED (R374); an uplink comes up only whole. -/
def execPortTrained (p : BitVec 3) (low high : Bool) (s : State) : Host.Outcome State Fault Refusal :=
  .next (s.onPort p (fun q => s.trained q low high) fun u => s.modUp u fun x =>
    if x.link = .training then { x with link := if low && high then .wide else .down, retrain := false } else x)

/-- PORT_RETRY (R374). -/
def execPortRetry (p : BitVec 3) (s : State) : Host.Outcome State Fault Refusal :=
  .next (s.onPort p s.retryPort fun u => s.modUp u fun x => if x.link = .down then { x with link := .training } else x)

end Sys2Proof.Machine
end

