-- ==== Sys2Proof/Machine/Power.lean ====
section
/-! DEFINITION. Input power, rails, clocks, heat (R468 to R479). -/

namespace Sys2Proof.Machine

/-! ## Off and on -/

/-- R457, R467: the journal after a start has scanned the MRAM. -/
def Bbx.kept (b : Bbx) : Bbx :=
  let q := Bbx.scan b.slots
  { Bbx.reset with slots := b.slots, newest := q.1, oldest := q.2, miso := b.miso }

/-- R469: what survives when the module is turned off: flash, fuses, the journal, the start-failure latch and what the
power sequencer keeps of failed starts. DEDUCED (log 11). -/
def State.powerOff (s : State) : State :=
  { State.reset with
    pending := s.pending, free := s.free, ident := s.ident, flash := s.flash,
    bbx := s.bbx.kept,
    hm := { Hm.reset with down := true }, pwr := { Pwr.reset with fails := s.pwr.fails, off := s.pwr.off },
    host := { HostIf.reset with out := s.host.out } }

/-- R468, R461: the power-loss record, then every rail turns off. DEDUCED (log 109). -/
def State.inputLost (s : State) (code : Nat) : State := (s.powerLoss code).powerOff

/-- R481, R472: the power sequencer keeps the stage and the cause, and every rail is off. DEDUCED (log 109). -/
def State.latchOff (s : State) (stage cause : Nat) : State :=
  let s1 := s.powerOff
  { s1 with flash := { s1.flash with latch := some (stage, cause) } }

/-- R481: a start failed in stage 2 or 3; after three failures in a row the module stays off. -/
def State.startFailed (s : State) (stage cause : Nat) : State :=
  let s1 := s.latchOff stage cause
  { s1 with pwr := { s1.pwr with fails := s.pwr.fails + 1, off := decide (2 ≤ s.pwr.fails) } }

/-- R451: a fatal fault, unless the module is in state 3 already. -/
def State.fatalOnce (s : State) (cause : Nat) (snapshot : List W64) : State :=
  if s.hm.state = 3 then s else s.fatal cause snapshot

def State.modPwr (s : State) (f : Pwr → Pwr) : State := { s with pwr := f s.pwr }

/-- An event of the power, clock and thermal logic (R486). -/
def State.pwrEvent (s : State) (code : Nat) (payload : List W64) : State := s.note code 0 7 0 0 0 payload

/-! ## Throttle (R475 to R479) -/

/-- R477: an action starts above its threshold and ends at or below its fall-back value. -/
def hyst (was : Bool) (x high low : Int) : Bool := if was then decide (low < x) else decide (high < x)

/-- R318: the refresh rate code after a sample at `t`. -/
def nextRate (rate : Nat) (t : Int) : Nat :=
  if 95 < t then 2
  else if rate = 2 ∧ 92 < t then 2
  else if 85 < t then 1
  else if rate ≠ 0 ∧ 82 < t then 1
  else 0

/-- MEM_TEMPs (table). -/
def tempWord (rate : Nat) (t : Int) : W64 := BitVec.ofNat 64 (rate * 2 ^ 8 + Machine.pat 8 t)

/-- R318: one stack's sample; a change of rate raises "refresh rate". -/
def State.sampleStack (s : State) (i : Fin 16) (t : Int) : State :=
  let was := fld s.ms.temps[i].toNat 8 2
  let now := nextRate was t
  let s1 := { s with ms := { s.ms with temps := s.ms.temps.set i.val (tempWord now t) } }
  if now = was then s1
  else s1.note 0x0B04 0 0 0 0 0 [BitVec.ofNat 64 i.val, BitVec.ofInt 64 t, BitVec.ofNat 64 now]

/-- The hottest of some sensors. -/
def hottest (xs : List Int) : Int := xs.foldl max (xs.headD 0)

/-- R476: whether any sensor is above its throttle threshold, and whether every one is at or below its fall-back value. -/
def throttleUp (dram junc : Int) (power : Nat) : Bool := decide (95 < dram) || decide (100 < junc) || decide (2000 < power)

def throttleDown (dram junc : Int) (power : Nat) : Bool := decide (dram ≤ 92) && decide (junc ≤ 97) && decide (power ≤ 1900)

/-- R476, R478: k after a sample; `enters` that the module enters thermal hold with it. -/
def nextK (k kmax : Nat) (up down enters : Bool) : Nat :=
  if enters then 1 else if up then max 1 (k - 1) else if down then min kmax (k + 1) else k

/-- R478: thermal hold. -/
def Pwr.hold (p : Pwr) : Bool := p.holdDram || p.holdJunc

/-- R475: pulse `n` of the CORE divider passes. -/
def pulsePasses (n k : Nat) : Bool := decide (n * k % 8 < k)

/-- R475: the pulses swallowed of `8 * groups`. -/
def swallowedIn (groups k : Nat) : Nat := groups * (List.range 8).countP fun n => !pulsePasses n k

/-- R477: the registers and the throttle after a sample. CORE pulses are counted for the 64,000 groups of eight in 256 µs. -/
def Pwr.sample (p : Pwr) (r : Sensors) : Pwr :=
  let d := hottest r.dram.toList
  let j := hottest r.junc.toList
  let hd := hyst p.holdDram d 105 102
  let hj := hyst p.holdJunc j 110 107
  let up := throttleUp d j r.powerW
  let k := nextK p.k p.kmax up (throttleDown d j r.powerW) ((hd || hj) && !p.hold)
  { p with
    power := BitVec.ofNat 16 r.powerW, current := r.currentTenMa, voltage := r.voltageTenMv,
    k := k, dDram := decide (95 < d), dJunc := decide (100 < j), dPower := decide (2000 < r.powerW),
    holdDram := hd, holdJunc := hj, dramHot := decide (112 < d), juncHot := decide (115 < j),
    inletHigh := hyst p.inletHigh r.inlet 45 43, swallowed := bumpBy (swallowedIn 64000 p.k) p.swallowed,
    junc := r.junc.map fun t => BitVec.ofInt 8 t, inlet := BitVec.ofInt 8 r.inlet,
    downs := bumpBy (bit (decide (k < p.k))) p.downs, samples := p.samples + 1 }

/-- R453: the hour of corrected errors is over after 14,062,500 samples of 256 µs. DEDUCED (log 43). -/
def State.hourOver (s : State) : State :=
  if s.pwr.samples % 14062500 = 0 then
    s.cores.foldl (fun s p => s.modSeq (Fin.ofNat 2304 p.1) fun q => { q with corrHour := 0 }) s
  else s

/-- R479: a trip at the second sample in a row above its threshold. DEDUCED (log 110). -/
def tripped (p q : Pwr) : Bool := (p.dramHot && q.dramHot) || (p.juncHot && q.juncHot)

/-- THERMAL_SAMPLE (R476 to R479). A module in state 3 keeps its registers; module time goes on. DEDUCED (log 78, 108, 110). -/
def State.thermalSample (s : State) (r : Sensors) : State :=
  let s0 := { s with hm := { s.hm with timeNs := s.hm.timeNs + 256000 } }
  if s.hm.state = 3 then s0
  else
    let p := s.pwr
    let q := p.sample r
    let s1 := (List.finRange 16).foldl (fun s i => s.sampleStack i r.dram[i]) { s0 with pwr := q }
    let s2 := if q.hold && !p.hold then s1.pwrEvent 0x1211 [] else if p.hold && !q.hold then s1.pwrEvent 0x1212 [] else s1
    let s3 := if q.inletHigh && !p.inletHigh then s2.pwrEvent 0x1213 [] else s2
    let s4 := s3.hourOver
    if tripped p q then (s4.modPwr fun x => { x with k := 1 }).fatalOnce 0x1105 [BitVec.ofInt 64 (hottest r.dram.toList), BitVec.ofInt 64 (hottest r.junc.toList)] else s4

/-! ## Rows -/

/-- THERMAL_SAMPLE (R476). -/
def execThermalSample (r : Sensors) (s : State) : Host.Outcome State Fault Refusal := s.live fun s => s.thermalSample r

/-- INPUT_UNDERVOLTAGE (R468, R481): an input below 36.0 V also ends the wait after three failed starts. -/
def execInputUndervoltage (s : State) : Host.Outcome State Fault Refusal :=
  .next ((if s.hm.down then s else s.inputLost 0x1112).modPwr fun p => { p with off := false, fails := 0 })

/-- INPUT_OVERVOLTAGE (R468). -/
def execInputOvervoltage (s : State) : Host.Outcome State Fault Refusal := s.live fun s => s.inputLost 0x1203

/-- INPUT_LOW (R468, R476). -/
def execInputLow (s : State) : Host.Outcome State Fault Refusal :=
  s.live fun s =>
    if s.pwr.band = 1 then s
    else
      (s.modPwr fun p => { p with band := 1, kmax := 4, k := min p.k 4, downs := bumpBy (bit (decide (4 < p.k))) p.downs }).pwrEvent
        0x1201 []

/-- INPUT_HIGH (R468). -/
def execInputHigh (s : State) : Host.Outcome State Fault Refusal :=
  s.live fun s => if s.pwr.band = 2 then s else (s.modPwr fun p => { p with band := 2, kmax := 8 }).pwrEvent 0x1202 []

/-- INPUT_BAND_RETURN (R468). -/
def execInputBandReturn (s : State) : Host.Outcome State Fault Refusal :=
  s.live fun s => s.modPwr fun p => { p with band := 0, kmax := 8 }

/-- RAIL_OUT_OF_REGULATION (R472): VAUX and VHM are rails 0 and 1. -/
def State.railOut (s : State) (rail : Fin 11) : State :=
  let cause := 0x1104 + rail.val * 2 ^ 16
  if s.pwr.stage = 1 then s.startFailed 2 cause
  else if !s.pwr.good.getLsbD rail.val then s
  else if rail.val < 2 then s.latchOff s.pwr.stage cause
  else
    (s.modPwr fun p => { p with good := p.good &&& ~~~(BitVec.ofNat 11 (2 ^ rail.val)) }).fatalOnce 0x1104 [BitVec.ofNat 64 rail.val]

/-- RAIL_OUT_OF_REGULATION (R472). -/
def execRailOutOfRegulation (rail : Fin 11) (s : State) : Host.Outcome State Fault Refusal := s.live fun s => s.railOut rail

/-- PLL_LOSS_OF_LOCK (R474): after stage 3. -/
def execPllLossOfLock (s : State) : Host.Outcome State Fault Refusal :=
  s.live fun s => if s.pwr.stage < 3 then s else (s.modPwr fun p => { p with root := false }).fatalOnce 0x1103 []

end Sys2Proof.Machine
end

