-- ==== Sys2Proof/Machine/Startup.lean ====
section
/-! DEFINITION. Start-up and resets of the module (R480 to R485, R426, R427, R431). PWR_START stage is the last stage
completed; each command is the work of one stage and waits for the stage before it. -/

namespace Sys2Proof.Machine

/-! ## Starts -/

/-- R480: stage 7 is due when the self-test flag, as `flag` has it, is set or the newest record has class fatal. -/
def State.selfTestDue (s : State) (flag : Bool) : Bool :=
  let rec_ := Sparse.get 0 s.bbx.slots (s.bbx.newest.toNat % Config.bbxSlots)
  flag || (!s.bbx.none && rec_.extractLsb' 296 8 == 4)

/-- COLD_START (R480, R484): the input enters the operating band after being absent, and is held in it. DEDUCED (log 105). -/
def State.coldStart (s : State) : State :=
  if s.pwr.off || s.pwr.fails != 0 || !(s.hm.down || s.pwr.stage == 0) then s
  else
    let s1 := s.powerOff
    { s1 with
      hm := Hm.reset, pwr := { Pwr.reset with stage := 1, flag := s.flash.selfTest, due := s.selfTestDue s.flash.selfTest },
      flash := { s1.flash with boots := s1.flash.boots + 1 } }

/-- START_RETRY (R481): 1 s after a failure, from stage 2. -/
def State.startRetry (s : State) : State :=
  if s.hm.down && !s.pwr.off && s.pwr.fails != 0 then
    { s with hm := { s.hm with down := false }, pwr := { s.pwr with stage := 1, flag := s.flash.selfTest, due := s.selfTestDue s.flash.selfTest } }
  else s

/-- WARM_START (R484): as a cold start keeps, and the debugged flag and the count of failed unlocks; rails and root PLL
stay up, so stage 4 is next. The self-test flag is as the last cold start read it (R499). Memory is zeroed in stage 6.
DEDUCED (log 57). -/
def State.warmStart (s : State) : State :=
  let s1 := s.powerOff
  { s1 with
    hm := Hm.reset, mem := s.mem, poison := s.poison,
    bbx := { s1.bbx with broken := s.bbx.broken },
    sec := { Sec.reset with debugged := s.sec.debugged, rackaddr := s.sec.rackaddr },
    dbg := { Dbg.reset with ir := s.dbg.ir, dr := s.dbg.dr, pended := s.dbg.pended, resp := s.dbg.resp,
                            issued := s.dbg.issued, fails := s.dbg.fails },
    pwr := { Pwr.reset with
      power := s.pwr.power, current := s.pwr.current, voltage := s.pwr.voltage, band := s.pwr.band, good := s.pwr.good,
      ppm := s.pwr.ppm, lanes := s.pwr.lanes, pcie := s.pwr.pcie, root := s.pwr.root, kmax := s.pwr.kmax, k := s.pwr.kmax,
      perst := s.pwr.perst, linkUp := !s.pwr.perst, stage := 3, warm := true, flag := s.pwr.flag,
      due := s.selfTestDue s.pwr.flag } }

/-! ## Stages -/

/-- The work of the stage after stage `n`: only in a start that has completed stage `n` and has not failed. -/
def State.afterStage (s : State) (n : Nat) (f : State → State) : State :=
  if s.hm.down || s.hm.state == 3 || s.pwr.stage != n then s else f s

/-- DEDUCED (log 105). -/
def State.stageDone (s : State) (n : Nat) : State := s.modPwr fun p => { p with stage := n }

/-- RAIL_SEQUENCING (R471). -/
def State.rails (s : State) (failed : Option (Fin 11)) : State :=
  s.afterStage 1 fun s =>
    match failed with
    | none => (s.modPwr fun p => { p with good := 0x7FF }).stageDone 2
    | some r => s.startFailed 2 (0x1104 + r.val * 2 ^ 16)

/-- R474: the reference's error in ppm, a free value within ±20. DESIGN CHOICE (log 106). -/
def State.drawPpm (s : State) : State :=
  let x := (Config.freeWord s.free).toNat % 41
  { s with free := s.free + 1, pwr := { s.pwr with ppm := BitVec.ofInt 16 (Int.ofNat x - 20) } }

/-- PLL_LOCK (R474, R482). -/
def State.pllLock (s : State) (ok pcieUp : Bool) : State :=
  s.afterStage 2 fun s =>
    if ok then
      (s.drawPpm.modPwr fun p =>
        { p with root := true, lanes := 0xFF, pcie := true, linkUp := pcieUp && !p.perst, fails := 0 }).stageDone 3
    else s.startFailed 3 0x1103

/-- BOOT_ROM (R480, R481, R509): module time counts from here. -/
def State.bootRom (s : State) (sramOk : Bool) (straps : BitVec 7) : State :=
  s.afterStage 3 fun s =>
    let s1 := { s with hm := { s.hm with timeNs := 0, synced := false }, sec := { s.sec with rackaddr := straps } }
    if !sramOk then s1.fatalOnce 0x1101 []
    else
      let s2 := match s1.flash.latch with
        | some l =>
          ({ s1 with flash := { s1.flash with latch := none } }).pwrEvent 0x1221 [BitVec.ofNat 64 l.1, BitVec.ofNat 64 l.2]
        | none => s1
      s2.stageDone 4

/-- R424: what a verification says: both signatures and the content's digest. DESIGN CHOICE (log 8). -/
def sigVerifies (b : SigBlock) : Bool := b.digestOk && b.rsaOk && b.slhOk

/-- R425: the block itself is well formed, for a kind. -/
def sigFormed (b : SigBlock) (kind : Nat) : Bool := b.magicOk && b.reservedZero && b.kind.toNat == kind

/-- R424: a refused object is counted. -/
def State.sigFailed (s : State) : State := { s with sec := { s.sec with sigfail := bump s.sec.sigfail } }

def Flash.slot (f : Flash) (b : Bool) : Option FwImage := if b then f.slotB else f.slotA

/-- R426: the image of a slot, if it verifies and its svn is at least the fuse counter. A signature that fails counts. -/
def State.verifySlot (s : State) (b : Bool) (sig : Option SigBlock) : State × Option FwImage :=
  match s.flash.slot b, sig with
  | some img, some x =>
    if !sigVerifies x then (s.sigFailed, none)
    else (s, if !sigFormed x 1 || img.svn.toNat < s.flash.fuses then none else some img)
  | _, _ => (s, none)

/-- R426: a slot's image starts. -/
def State.startImage (s : State) (b : Bool) (img : FwImage) (fallback : Bool) : State :=
  let s1 := { s with sec := { s.sec with run := img, bootedB := b, fallback := fallback, recovery := false } }
  (if fallback then s1.note 0x1001 0 0 0 0 0 [] else s1).stageDone 5

/-- FIRMWARE_VERIFICATION (R426): the active slot, the other one, or recovery. -/
def State.firmware (s : State) (a b : Option SigBlock) : State :=
  s.afterStage 4 fun s =>
    let act := s.flash.activeB
    match s.verifySlot act (if act then b else a) with
    | (s1, some img) => s1.startImage act img false
    | (s1, none) =>
      match s1.verifySlot (!act) (if act then a else b) with
      | (s2, some img) => s2.startImage (!act) img true
      | (s2, none) => { s2 with sec := { s2.sec with recovery := true }, hm := { s2.hm with state := 3 } }

/-- R480: every channel and controller holds zeros. DEDUCED (log 57). -/
def State.zeroMemory (s : State) : State := { s with mem := [], poison := [], flips := [] }

/-- MEMORY_TRAINING (R480). -/
def State.memTraining (s : State) (failed : Option Ctrl) : State :=
  s.afterStage 5 fun s =>
    match failed with
    | none => s.zeroMemory.stageDone 6
    | some k => s.fatalOnce 0x1106 [BitVec.ofNat 64 (ctrlIx k)]

/-- MEMORY_SELF_TEST (R480): only when it is due. -/
def State.memSelfTest (s : State) (failed : Option ChannelId) : State :=
  s.afterStage 6 fun s =>
    if !s.pwr.due then s
    else
      match failed with
      | none => (s.zeroMemory.modPwr fun p => { p with selftest := true }).stageDone 7
      | some ch => (s.modPwr fun p => { p with selftest := true }).fatalOnce 0x1107 [BitVec.ofNat 64 ch.val]

/-- PORT_TRAINING_STAGE (R480): enables every port; it follows stage 6 when no self-test is due. -/
def State.portStage (s : State) : State :=
  s.afterStage (if s.pwr.due then 7 else 6) fun s =>
    ((List.range 8).foldl (fun s p => s.enableAny (BitVec.ofNat 3 p)) s).stageDone 8

/-- IDENTITY_CHECK (R431). -/
def State.identityCheck (s : State) (crossOk : Bool) : State :=
  s.afterStage 8 fun s => if s.ident.ok && crossOk then s.stageDone 9 else s.fatalOnce 0x1108 []

/-- R427: fuses follow the svn of the image that has brought the module to ready. -/
def State.raiseFuses (s : State) : State :=
  let svn := s.sec.run.svn.toNat
  if s.flash.fuses < svn then ({ s with flash := { s.flash with fuses := svn } }).note 0x1002 0 0 0 0 0 [BitVec.ofNat 64 svn]
  else s

/-- MODULE_READY (R480, R483). DEDUCED (log 107). -/
def State.moduleReady (s : State) (ms : W32) : State :=
  s.afterStage 9 fun s =>
    let s1 := (s.modPwr fun p => { p with ms := ms, k := p.kmax }).stageDone 10
    (({ s1 with hm := { s1.hm with state := 1 } }).pwrEvent 0x1220 []).raiseFuses

/-! ## Rows -/

/-- COLD_START (R480). -/
def execColdStart (s : State) : Host.Outcome State Fault Refusal := .next s.coldStart

/-- RAIL_SEQUENCING (R471). -/
def execRailSequencing (failed : Option (Fin 11)) (s : State) : Host.Outcome State Fault Refusal := .next (s.rails failed)

/-- PLL_LOCK (R474). -/
def execPllLock (ok pcieUp : Bool) (s : State) : Host.Outcome State Fault Refusal := .next (s.pllLock ok pcieUp)

/-- BOOT_ROM (R480). -/
def execBootRom (sramOk : Bool) (straps : BitVec 7) (s : State) : Host.Outcome State Fault Refusal :=
  .next (s.bootRom sramOk straps)

/-- FIRMWARE_VERIFICATION (R426). -/
def execFirmwareVerification (a b : Option SigBlock) (s : State) : Host.Outcome State Fault Refusal :=
  .next (s.firmware a b)

/-- MEMORY_TRAINING (R480). -/
def execMemoryTraining (failed : Option Ctrl) (s : State) : Host.Outcome State Fault Refusal := .next (s.memTraining failed)

/-- MEMORY_SELF_TEST (R480). -/
def execMemorySelfTest (failed : Option ChannelId) (s : State) : Host.Outcome State Fault Refusal :=
  .next (s.memSelfTest failed)

/-- PORT_TRAINING_STAGE (R480). -/
def execPortTrainingStage (s : State) : Host.Outcome State Fault Refusal := .next s.portStage

/-- IDENTITY_CHECK (R431). -/
def execIdentityCheck (crossOk : Bool) (s : State) : Host.Outcome State Fault Refusal := .next (s.identityCheck crossOk)

/-- MODULE_READY (R483). -/
def execModuleReady (ms : W32) (s : State) : Host.Outcome State Fault Refusal := .next (s.moduleReady ms)

/-- START_RETRY (R481). -/
def execStartRetry (s : State) : Host.Outcome State Fault Refusal := .next s.startRetry

/-- WARM_START (R484). -/
def execWarmStart (s : State) : Host.Outcome State Fault Refusal := s.live State.warmStart

end Sys2Proof.Machine
end

