-- ==== Sys2Proof/Machine/Rings.lean ====
section
/-! DEFINITION. What the host does to rings, functions and the link (R399 to R409, R413, R421, R422, R436). -/

namespace Sys2Proof.Machine

/-- R337: a command that acts at a boundary is accepted. -/
def State.addCmd (s : State) (c : BCmd) : State := { s with serv := { s.serv with cmds := s.serv.cmds ++ [c] } }

/-! ## Entries of request rings (R402, R413) -/

/-- R402: cons goes over the run of entries that have left. -/
def Ring.advance : Nat → Ring → Ring
  | 0, g => g
  | n + 1, g =>
    if g.left.contains g.cons then
      Ring.advance n { g with cons := g.cons + 1, left := g.left.filter (· != g.cons),
                              fetched := g.fetched.filter fun e => e.1 != g.cons.toNat }
    else g

/-- R402: entry `ix` leaves the ring. -/
def State.leave (s : State) (f : FnId) (r : RingId) (ix : W32) : State :=
  s.modRing f r fun g => Ring.advance (g.left.length + 1) { g with left := ix :: g.left }

/-- Reads of a ring that are outstanding. -/
def State.reading (s : State) (f : FnId) (r : RingId) (ix : W32) : Bool :=
  s.host.reads.any fun x => x.f == f && x.ring == r && x.ix == ix

/-- R398: no more than 768 reads are outstanding. A read that is tried again has its place. DEDUCED (log 89). -/
def State.addRead (s : State) (f : FnId) (r : RingId) (ix : W32) (tries : Nat) : State :=
  if 768 ≤ s.host.reads.length then s
  else { s with host := { s.host with reads := s.host.reads ++ [⟨f, s.host.nextTag, tries, r, ix⟩], nextTag := s.host.nextTag + 1 } }

/-- R403, R407: reads of the entries that are visible and not fetched, while the function may be read for. -/
def State.openReads (s : State) (f : FnId) (r : RingId) : State :=
  let g := s.ring f r
  if !s.mastering f || !g.serves 1 then s
  else
    (List.range (g.prod - g.next).toNat).foldl (fun s i =>
      let ix := g.next + BitVec.ofNat 32 i
      if s.reading f r ix || (g.fetched.any fun e => e.1 == ix.toNat) then s else s.addRead f r ix 1) s

/-- The read of a tag, taken off the list. -/
def State.dropRead (s : State) (f : FnId) (tag : Nat) : State :=
  { s with host := { s.host with reads := s.host.reads.filter fun x => !(x.f == f && x.tag == tag) } }

/-- R413, R422: a try of a read failed; after the third its entry leaves the ring and PCI_ERR host is set. -/
def State.readFailed (s : State) (x : HostRead) : State :=
  let s1 := (s.dropRead x.f x.tag).modFn x.f fun y => { y with hosterrs := bump y.hosterrs }
  if x.tries < 3 then s1.addRead x.f x.ring x.ix (x.tries + 1)
  else
    let s2 := s1.modFn x.f fun y => y.flag errHost
    let s3 := s2.leave x.f x.ring x.ix
    s3.modRing x.f x.ring fun g => if g.next = x.ix then { g with next := g.next + 1 } else g

def State.readOf (s : State) (f : FnId) (tag : Nat) : Option HostRead := s.host.reads.find? fun x => x.f == f && x.tag == tag

/-- Reads that waited for a tag are opened. -/
def State.nextReads (s : State) : State :=
  s.host.fns.foldl (fun s x => x.2.rings.foldl (fun s y => s.openReads (Fin.ofNat 64 x.1) (Fin.ofNat 128 y.1)) s) s

/-- HOST_READ_COMPLETION (R413). DEDUCED (log 89). -/
def State.readDone (s : State) (f : FnId) (tag : Nat) (ok poisoned : Bool) (data : List W64) : State :=
  match s.readOf f tag with
  | none => s
  | some x =>
    if ok && !poisoned then
      ((s.dropRead f tag).modRing f x.ring fun g =>
        { g with fetched := Sparse.insert x.ix.toNat (BitVec.ofNat 256 (packFields 64 ((data.take 4).map (·.toNat)))) g.fetched }).nextReads
    else (s.readFailed x).nextReads

/-! ## Doorbells (R405) -/

/-- R405: a doorbell is refused. -/
def State.refuseBell (s : State) (f : FnId) (r : RingId) : State :=
  (s.modRing f r fun g => { g with cfg := g.cfg ||| 4#64 }).modFn f fun x =>
    { x.flag errDbell with ringerrs := bump x.ringerrs }

/-- PCI_RDB_DOORBELL (R405, R400, R451). DEDUCED (log 89). -/
def State.bell (s : State) (f : FnId) (r : RingId) (v : W32) : State :=
  let g := s.ring f r
  if s.hm.state = 0 ∨ s.hm.state = 3 then s.refuseBell f r
  else if g.serves 1 then
    if (v - g.prod).toNat ≤ g.room then (s.modRing f r fun g => { g with prod := v }).openReads f r else s.refuseBell f r
  else if g.serves 2 || g.serves 3 then
    if (v - g.cons).toNat ≤ g.used then (s.modRing f r fun g => { g with cons := v }).flushKept f r else s.refuseBell f r
  else s.refuseBell f r

/-! ## Ring registers (R401, R408) -/

/-- RW bits of PCI_RCFGr while the ring is disabled, and while it is enabled. -/
def rcfgIdle : W64 := 0xFFFFFFFFFFF00001
def rcfgBusy : W64 := 0xFFFFFFFFF8000001

/-- R11: RW bits taken, W1C bits 2 and 1 cleared where written 1. -/
def rcfgWrite (old v mask : W64) : W64 := (v &&& mask) ||| (old &&& ~~~mask &&& ~~~(v &&& 6#64))

/-- The requests of a function that name a completion ring. -/
def State.usesCring (s : State) (f : FnId) (r : RingId) : Bool :=
  s.serv.reqs.any fun q => q.f == f && fld q.record.toNat 440 7 == r.val

/-- R401, R408: the ring is enabled: indices zero; kept records first, if it is a completion ring; with another kind the
requests that name it are cancelled and their records dropped. -/
def State.enableRing (s : State) (f : FnId) (r : RingId) (cfg : W64) : State :=
  let s1 := s.modRing f r fun g =>
    { g with cfg := cfg, cons := 0, prod := 0, next := 0, left := [], fetched := [], unsig := 0 }
  if (s1.ring f r).kind = 2 then s1.flushKept f r
  else if s1.usesCring f r || (s1.ring f r).kept != [] then
    (s1.modRing f r fun g => { g with kept := [] }).addCmd (.endCring f r)
  else s1

/-- R401: the ring is disabled at once; a request ring loses its entries. -/
def State.disableRing (s : State) (f : FnId) (r : RingId) (cfg : W64) : State :=
  let was := s.ring f r
  let s1 := s.modRing f r fun g => { g with cfg := cfg }
  if was.serves 1 then
    ({ s1 with host := { s1.host with reads := s1.host.reads.filter fun x => !(x.f == f && x.ring == r) } }).addCmd (.endRing f r)
  else s1

/-- A write of PCI_RCFGr. -/
def State.writeRcfg (s : State) (f : FnId) (r : RingId) (v : W64) : State :=
  let g := s.ring f r
  let cfg := rcfgWrite g.cfg v (if g.en then rcfgBusy else rcfgIdle)
  if !g.en && tb v.toNat 0 then s.enableRing f r cfg
  else if g.en && !tb v.toNat 0 then s.disableRing f r cfg
  else s.modRing f r fun g => { g with cfg := cfg }

/-- RING_POINTER_MISMATCH (R286): of a host request ring. -/
def State.ringMismatch (s : State) (f : FnId) (r : RingId) : State :=
  if (s.ring f r).serves 1 then
    let s1 := s.modRing f r fun g =>
      { g with cfg := g.cfg ||| 2#64, cons := 0, prod := 0, next := 0, left := [], fetched := [] }
    (({ s1 with host := { s1.host with reads := s1.host.reads.filter fun x => !(x.f == f && x.ring == r) } }).modFn f fun x =>
      { x.flag errPtr with ringerrs := bump x.ringerrs }).addCmd (.endRing f r)
  else s

/-! ## Functions (R407, R421, R436) -/

/-- Rings of a function that are not as after reset. -/
def Func.ringIds (x : Func) : List RingId := x.rings.map fun p => Fin.ofNat 128 p.1

/-- R409: the message of a vector that is pending and not masked goes out. -/
def State.sendPending (s : State) (f : FnId) (v : Nat) : State :=
  if (s.fn f).pba.getLsbD v then
    (s.modFn f fun x => { x with pba := x.pba &&& ~~~(BitVec.ofNat 32 (2 ^ v)) }).interrupt f v
  else s

/-- R407: kept records go out, entries are fetched again, and interrupts that waited are sent. DEDUCED (log 85). -/
def State.resumeFn (s : State) (f : FnId) : State :=
  (List.range 32).foldl (fun s v => s.sendPending f v) ((s.fn f).ringIds.foldl (fun s r => (s.flushKept f r).openReads f r) s)

/-- BUS_MASTER_ENABLE (R407). -/
def State.busMaster (s : State) (f : FnId) (on : Bool) : State :=
  let s1 := s.modFn f fun x => { x with bme := on }
  if on then s1.resumeFn f else s1

/-- Functions that belong to a tenant. -/
def State.fnsOf (s : State) (t : TenantId) : List FnId := (List.finRange 64).filter fun f => (s.fn f).tenant == t

/-- R421: one function is reset. DEDUCED (log 87). -/
def State.resetFn (s : State) (f : FnId) : State :=
  let t := (s.fn f).tenant
  let s1 := if t ≠ 0 ∧ s.fnsOf t = [f] then s.addCmd (.dropTenant t) else s
  let s2 := (s1.setFn f Func.reset).addCmd (.endFn f)
  let mine := fun (i : Issuer) => i == .fn f
  { s2 with
    host := { s2.host with
      tickets := s2.host.tickets.filter fun x => ticketIssuer x.num != f.val,
      reads := s2.host.reads.filter fun x => x.f != f },
    serv := { s2.serv with jobs := s2.serv.jobs.map fun j => if mine j.issuer then { j with cancelled := true } else j } }

/-- FUNCTION_LEVEL_RESET (R421): the physical function's resets every function. DEDUCED (log 87). -/
def State.flr (s : State) (f : FnId) : State :=
  if f = 0 then (List.finRange 64).foldl State.resetFn s else s.resetFn f

/-- IDE_INTEGRITY_FAIL (R436). -/
def State.ideFail (s : State) (fns : List FnId) : State :=
  if s.sec.ide.any fun i => i.fns == fns && i.secure then
    { s with sec := { s.sec with
      idefail := bump s.sec.idefail,
      ide := s.sec.ide.map fun i => if i.fns = fns then { i with secure := false } else i } }
  else s

/-- IDE_KM (R436): inside a secure session on the physical function's DOE. -/
def State.ideKm (s : State) (stream : Nat) (fns : List FnId) (sess : Nat) : State :=
  if (s.fn 0).sessions.contains (sess, true) ∧ stream ≤ 64 then
    let s1 := { s with sec := { s.sec with
      ide := (s.sec.ide.filter fun i => i.num != stream) ++ [⟨stream, fns, true⟩] } }
    fns.foldl State.resumeFn s1
  else s

/-- HOST_PROTOCOL_ERROR (R422). -/
def State.hostProtocol (s : State) (f : FnId) (k : HostViolation) : State :=
  let count := fun (s : State) => s.modFn f fun x => { x with hosterrs := bump x.hosterrs }
  match k with
  | .undefinedWrite | .roWrite => count s
  | .badWidth | .poisonedTlp => (((count s).modFn f fun x => x.flag errHost)).send (.aer f k)
  | .malformed => s.send (.aer f k)

/-- MSIX_VECTOR_UNMASK (R409): a pending message goes out. -/
def State.unmask (s : State) (f : FnId) (v : BitVec 5) : State :=
  let e := (s.fn f).vec v.toNat
  let s1 := s.modFn f fun x => { x with msix := Sparse.put (0, 0, true) x.msix v.toNat (e.1, e.2.1, false) }
  s1.sendPending f v.toNat

/-! ## BAR0 (R399) -/

/-- A write that the BAR0 map does not take: discarded and counted (R399, R422). -/
def State.lostWrite (s : State) (f : FnId) : State := s.modFn f fun x => { x with hosterrs := bump x.hosterrs }

/-- Ring registers at BAR0 0x3000 + 32 r. -/
def State.writeRing (s : State) (f : FnId) (off : Nat) (v : W64) : State :=
  let r : RingId := Fin.ofNat 128 ((off - 0x3000) / 32)
  let g := s.ring f r
  match off % 32 with
  | 0 => if g.en then s else s.modRing f r fun g => { g with base := v &&& 0xFFFFFFFFFFFFF000 }
  | 8 => s.writeRcfg f r v
  | 24 => if g.en then s else s.modRing f r fun g => { g with wb := v &&& 0xFFFFFFFFFFFFFFF8 }
  | _ => s.lostWrite f

/-- MSI-X table: an entry's address, then its data and mask. -/
def State.writeMsix (s : State) (f : FnId) (off : Nat) (v : W64) : State :=
  let i := (off - 0x8000) / 16
  let e := (s.fn f).vec i
  if off % 16 = 0 then s.modFn f fun x => { x with msix := Sparse.put (0, 0, true) x.msix i (v, e.2.1, e.2.2) }
  else
    let s1 := s.modFn f fun x => { x with msix := Sparse.put (0, 0, true) x.msix i (e.1, v.extractLsb' 0 32, tb v.toNat 32) }
    if tb v.toNat 32 then s1 else s1.unmask f (BitVec.ofNat 5 i)

/-- R399: a host write of 8 bytes to BAR0 of a function. DESIGN CHOICE (log 83). -/
def State.barWrite (s : State) (f : FnId) (off : Nat) (v : W64) : State :=
  if off % 8 ≠ 0 then s.lostWrite f
  else if off = 0x18 then s.modFn f fun x => { x with err := x.err &&& ~~~(v.extractLsb' 0 6) }
  else if off = 0x20 then s.modFn f fun x => { x with evring := v.extractLsb' 0 8 }
  else if off = 0x1000 then s.doorbell f v
  else if 0x1000 < off ∧ off < 0x2000 then s.windowWrite f (BitVec.ofNat 12 off) v
  else if 0x2000 ≤ off ∧ off < 0x2400 then s.bell f (Fin.ofNat 128 ((off - 0x2000) / 8)) (v.extractLsb' 0 32)
  else if 0x3000 ≤ off ∧ off < 0x4000 then s.writeRing f off v
  else if 0x8000 ≤ off ∧ off < 0x8200 then s.writeMsix f off v
  else s.lostWrite f

/-- PCI_STATE (R399). -/
def State.pciState (s : State) (f : FnId) : W64 :=
  BitVec.ofNat 64 ((s.fn f).tenant.val * 2 ^ 8 + bit s.formed * 2 ^ 5 + bit s.hm.man.isSome * 2 ^ 4 + s.hm.state.toNat)

/-- PCI_IDENT (R399). -/
def State.pciIdent (s : State) (f : FnId) : W64 :=
  s.sec.run.major ++ s.sec.run.minor ++ s.sec.run.patch ++ s.ident.hwrev ++ BitVec.ofNat 8 f.val

/-- R398: what configuration space gives: vendor, device, subsystem vendor, subsystem, class code, serial number. -/
structure PciConfig where
  vendor : W16
  device : W16
  subVendor : W16
  subsystem : W16
  classCode : BitVec 24
  serial : W64
  deriving DecidableEq, Repr

def State.pciConfig (s : State) : PciConfig :=
  let d := s.ident.pciIds
  ⟨d.extractLsb' 0 16, d.extractLsb' 16 16, d.extractLsb' 32 16, d.extractLsb' 48 16, 0x120000, s.ident.serial⟩

/-- The response header's first word and second (table "Response header"). -/
def Resp.word (r : Resp) (i : Nat) : W64 :=
  if i = 0 then r.seq ++ r.opcode ++ r.status else BitVec.ofNat 64 (r.result.length * 2 ^ 32 + r.ticket.toNat)

/-- The mailbox window (table "Mailbox window"): MBX_DOORBELL reads zero, the request as written, the response. -/
def Mbx.read (m : Mbx) (off : Nat) : W64 :=
  if off = 8 then BitVec.ofNat 64 (m.seq.toNat * 2 ^ 32 + bit m.collide * 4 + m.st.toNat)
  else if (0x40 ≤ off ∧ off < 0x50) ∨ (0x80 ≤ off ∧ off < 0x800) then Sparse.get 0 m.win off
  else if 0x800 ≤ off ∧ off < 0x810 then m.resp.word ((off - 0x800) / 8)
  else if 0x840 ≤ off then BitVec.ofNat 64 (ofLe ((m.resp.result.drop (off - 0x840)).take 8))
  else 0

/-- The registers of a ring: PCI_RBASEr, PCI_RCFGr, PCI_RSTATr, PCI_RWBr. -/
def Ring.read (g : Ring) (off : Nat) : W64 :=
  match off with
  | 0 => g.base
  | 8 => g.cfg
  | 16 => g.cons ++ g.prod
  | _ => g.wb

/-- R399, R11: what a host read of 8 bytes of a function's BAR0 returns: zero for WO registers and for offsets that the map does not
define. DESIGN CHOICE (log 83). -/
def State.barRead (s : State) (f : FnId) (off : Nat) : W64 :=
  let x := s.fn f
  if off % 8 ≠ 0 then 0
  else if 0x1000 ≤ off ∧ off < 0x2000 then x.mbx.read (off - 0x1000)
  else if 0x3000 ≤ off ∧ off < 0x4000 then (s.ring f (Fin.ofNat 128 ((off - 0x3000) / 32))).read (off % 32)
  else if 0x8000 ≤ off ∧ off < 0x8200 then
    let e := x.vec ((off - 0x8000) / 16)
    if off % 16 = 0 then e.1 else BitVec.ofNat 64 (e.2.1.toNat + bit e.2.2 * 2 ^ 32)
  else
    match off with
    | 0x00 => s.pciIdent f
    | 0x08 => s.ident.serial
    | 0x10 => s.pciState f
    | 0x18 => x.err.setWidth 64
    | 0x20 => x.evring.setWidth 64
    | 0x80 => x.hosterrs
    | 0x88 => x.ringerrs
    | 0x90 => x.holds
    | 0x98 => x.evlost
    | 0xC000 => x.pba.setWidth 64
    | _ => 0

/-! ## Rows -/

/-- PCI_RDB_DOORBELL (R405). -/
def execPciRdbDoorbell (f : FnId) (r : RingId) (v : W32) (s : State) : Host.Outcome State Fault Refusal :=
  s.live fun s => s.bell f r v

/-- RING_ENABLE (R401): a write of PCI_RCFGr with en set. -/
def execRingEnable (f : FnId) (r : RingId) (v : W64) (s : State) : Host.Outcome State Fault Refusal :=
  s.live fun s => if tb v.toNat 0 then s.writeRcfg f r v else s

/-- RING_DISABLE (R408): a write of PCI_RCFGr with en clear. -/
def execRingDisable (f : FnId) (r : RingId) (v : W64) (s : State) : Host.Outcome State Fault Refusal :=
  s.live fun s => if tb v.toNat 0 then s else s.writeRcfg f r v

/-- RING_INTERRUPT_TIMER (R409). -/
def execRingInterruptTimer (f : FnId) (r : RingId) (s : State) : Host.Outcome State Fault Refusal :=
  .next (let g := s.ring f r
    if g.modUs = 0 ∨ g.unsig = 0 then s else (s.modRing f r fun g => { g with unsig := 0 }).interrupt f g.vector)

/-- RING_POINTER_MISMATCH (R286). -/
def execRingPointerMismatch (f : FnId) (r : RingId) (s : State) : Host.Outcome State Fault Refusal :=
  .next (s.ringMismatch f r)

/-- BUS_MASTER_ENABLE (R407). -/
def execBusMasterEnable (f : FnId) (on : Bool) (s : State) : Host.Outcome State Fault Refusal :=
  s.live fun s => s.busMaster f on

/-- FUNCTION_LEVEL_RESET (R421). -/
def execFunctionLevelReset (f : FnId) (s : State) : Host.Outcome State Fault Refusal := s.live fun s => s.flr f

/-- PERST_ASSERT (R421, R482). -/
def execPerstAssert (s : State) : Host.Outcome State Fault Refusal :=
  s.live fun s => (s.flr 0).modPwr fun p => { p with perst := true, linkUp := false }

/-- PERST_DEASSERT (R482): the link trains from the end of stage 3. -/
def execPerstDeassert (s : State) : Host.Outcome State Fault Refusal :=
  s.live fun s => s.modPwr fun p => { p with perst := false, linkUp := p.linkUp || decide (3 ≤ p.stage) }

/-- IDE_INTEGRITY_FAIL (R436). -/
def execIdeIntegrityFail (fns : List FnId) (s : State) : Host.Outcome State Fault Refusal := .next (s.ideFail fns)

/-- IDE_KM (R436). -/
def execIdeKm (stream : Nat) (fns : List FnId) (sess : Nat) (s : State) : Host.Outcome State Fault Refusal :=
  .next (s.ideKm stream fns sess)

/-- HOST_READ_COMPLETION (R413). -/
def execHostReadCompletion (f : FnId) (tag : Nat) (ok poisoned : Bool) (data : List W64) (s : State) :
    Host.Outcome State Fault Refusal := .next (s.readDone f tag ok poisoned data)

/-- HOST_READ_TIMEOUT (R413). -/
def execHostReadTimeout (f : FnId) (tag : Nat) (s : State) : Host.Outcome State Fault Refusal :=
  .next (match s.readOf f tag with
    | some x => (s.readFailed x).nextReads
    | none => s)

/-- MSIX_VECTOR_UNMASK (R409). -/
def execMsixVectorUnmask (f : FnId) (v : BitVec 5) (s : State) : Host.Outcome State Fault Refusal :=
  s.live fun s => s.unmask f v

/-- HOST_PROTOCOL_ERROR (R422). -/
def execHostProtocolError (f : FnId) (kind : HostViolation) (s : State) : Host.Outcome State Fault Refusal :=
  s.live fun s => s.hostProtocol f kind

end Sys2Proof.Machine
end

