-- ==== Sys2Proof/Machine/Control.lean ====
section
/-! DEFINITION. The control slot: scalar arithmetic, loads and stores, branches, loops, END (R252 to R254). -/

namespace Sys2Proof.Machine

/-- R252: a number that is 1 if the condition holds, else 0. -/
def flag64 (b : Bool) : W64 := if b then 1 else 0

/-- R252: register-register operations. -/
def aluVal (op : AluOp) (a b : W64) : W64 :=
  match op with
  | .add => a + b
  | .sub => a - b
  | .and => a &&& b
  | .or => a ||| b
  | .xor => a ^^^ b
  | .shl => a <<< (b.toNat % 64)
  | .shr => a >>> (b.toNat % 64)
  | .sra => a.sshiftRight (b.toNat % 64)
  | .slt => flag64 (a.slt b)
  | .sltu => flag64 (a.ult b)
  | .seq => flag64 (a == b)
  | .min => if a.slt b then a else b
  | .max => if a.slt b then b else a

/-- R252: register-immediate operations. -/
def aluImmVal (op : AluImmOp) (a : W64) (imm : W32) : W64 :=
  match op with
  | .addi => a + imm.signExtend 64
  | .andi => a &&& imm.setWidth 64
  | .ori => a ||| imm.setWidth 64
  | .shli => a <<< (imm.toNat % 64)
  | .shri => a >>> (imm.toNat % 64)
  | .srai => a.sshiftRight (imm.toNat % 64)

/-- Shift immediates use imm[5:0]; the bits above must be zero (R252). -/
def aluImmOk (op : AluImmOp) (imm : W32) : Bool :=
  match op with
  | .addi | .andi | .ori => true
  | .shli | .shri | .srai => decide (imm.toNat < 64)

/-- "bad control instruction" (R266). -/
def badCtl : Plan := Plan.bad 0x0901 0

/-- A scalar result of the control slot. -/
def ctlResult (x : At) (lat : Nat) (rd : RegIx) (val : State → W64) : Plan :=
  { Plan.nop with act := fun s => s.modCore x.c fun k => k.putS x 0 lat rd (val s) }

/-- R254: whether a target lies in the innermost open body. -/
def Core.inBody (k : Core) (t : Int) : Bool :=
  match k.seq.loops with
  | [] => true
  | f :: _ => decide ((f.first : Int) ≤ t) && decide (t ≤ (f.last : Int))

/-- R253, R254: a taken branch to `t`. -/
def takenPlan (k : Core) (t : Int) (act : State → State) : Plan :=
  if k.inBody t then { Plan.nop with flow := .jump t, act := act } else badCtl

/-- R252: the target of a branch with an offset in bundles. -/
def branchTo (pc : BitVec 20) (imm : BitVec 24) : Int := (pc.toNat : Int) + 32 * imm.toInt

/-- R254: LOOP and LOOPI with their count. -/
def loopPlan (k : Core) (pc : BitVec 20) (count : Nat) (body : BitVec 12) : Plan :=
  let last := pc.toNat + 32 * (body.toNat + 1)
  let nestBad := match k.seq.loops with
    | [] => false
    | f :: _ => decide (f.last < last) || f.last == pc.toNat
  if count > 2 ^ 32 - 1 ∨ k.seq.loops.length ≥ 4 ∨ nestBad = true then badCtl
  else { Plan.nop with flow := .loop count (body.toNat + 1) }

/-- R252 to R254: the control slot's plan. -/
def ctlPlan (s : State) (x : At) (i : CtlInstr) : Plan :=
  let k := s.core x.c
  match i with
  | .nop => Plan.nop
  | .alu op rd ra rb => ctlResult x 1 rd fun _ => aluVal op (k.sreg ra) (k.sreg rb)
  | .aluImm op rd ra imm =>
    if aluImmOk op imm then ctlResult x 1 rd fun _ => aluImmVal op (k.sreg ra) imm else badCtl
  | .lih rd imm => ctlResult x 1 rd fun _ => imm ++ (k.sreg rd).extractLsb' 0 32
  | .sld rd ra imm =>
    let a := k.addr ra imm
    if a % 8 = 0 ∧ inWin a 8 then
      { Plan.nop with
          ranges := [spRange .read a 8 (.atCc (x.now + 2))]
          act := readOr x 0 .seq a 8 fun s =>
            s.modCore x.c fun k => k.putS x 0 4 rd (BitVec.ofNat 64 (s.spRd x.c a 8)) }
    else badCtl
  | .sst ra rb imm =>
    let a := k.addr ra imm
    if a % 8 = 0 ∧ inWin a 8 then
      { Plan.nop with
          ranges := [spRange .write a 8 (.atCc (x.now + 2))]
          act := fun s => s.spWr x.c a 8 (k.sreg rb).toNat }
    else badCtl
  | .rdcr rd imm => ctlResult x 6 rd fun _ => k.readReg imm.toNat
  | .sbdrain =>
    { Plan.nop with stall := stallIf (k.sb.toList.any Option.isSome) (stallDrain + packFields 1 (k.sb.toList.map fun o => bit o.isSome) * 2 ^ 32) }
  | .jmp imm => takenPlan k (branchTo x.pc imm) id
  | .bz ra imm => if k.sreg ra = 0 then takenPlan k (branchTo x.pc imm) id else Plan.nop
  | .bnz ra imm => if k.sreg ra = 0 then Plan.nop else takenPlan k (branchTo x.pc imm) id
  | .jal rd imm =>
    takenPlan k (branchTo x.pc imm) fun s => s.modCore x.c fun k => k.putS x 0 1 rd (BitVec.ofNat 64 (x.pc.toNat + 32))
  | .jr ra =>
    let t : Nat := (k.sreg ra).toNat % 2 ^ 20
    if t % 32 = 0 then takenPlan k (Int.ofNat t) id else badCtl
  | .loop ra body => loopPlan k x.pc (k.sreg ra).toNat body
  | .loopi count body => loopPlan k x.pc count.toNat body
  | .endTask => { Plan.nop with flow := .stop }
  | .undefined => badCtl

end Sys2Proof.Machine
end

