-- ==== Sys2Proof/Machine/Random.lean ====
section
/-! DEFINITION. The counter-based generator Philox-4×32 with ten rounds (R170). -/

namespace Sys2Proof.Machine

/-- The four words of a counter or of a draw. -/
structure Quad where
  a : W32
  b : W32
  c : W32
  d : W32
  deriving DecidableEq, Repr

/-- High and low word of a 32 × 32-bit product. -/
def mulHi (x y : W32) : W32 := BitVec.ofNat 32 (x.toNat * y.toNat / 2 ^ 32)

/-- R170: `n` rounds, with round keys k0 and k1. -/
def philoxRounds : Nat → W32 → W32 → Quad → Quad
  | 0, _, _, q => q
  | n + 1, k0, k1, q =>
    philoxRounds n (k0 + 0x9E3779B9#32) (k1 + 0xBB67AE85#32)
      ⟨mulHi 0xCD9E8D57#32 q.c ^^^ q.b ^^^ k0, 0xCD9E8D57#32 * q.c,
       mulHi 0xD2511F53#32 q.a ^^^ q.d ^^^ k1, 0xD2511F53#32 * q.a⟩

def philox (key : W64) (q : Quad) : Quad :=
  philoxRounds 10 (key.extractLsb' 0 32) (key.extractLsb' 32 32) q

/-- Word `i` of a draw. -/
def Quad.word (q : Quad) (i : Nat) : W32 :=
  match i % 4 with
  | 0 => q.a
  | 1 => q.b
  | 2 => q.c
  | _ => q.d

end Sys2Proof.Machine
end

