-- ==== Sys2Proof/Machine/Output.lean ====
section
/-! DEFINITION. The output stage: OQNT with its descriptor, the six steps in their order, rotation, records and tallies
(R127 to R147). -/

namespace Sys2Proof.Machine

/-- Fields of the output descriptor (R129). -/
structure OutDesc where
  dst : Nat
  srcv : Nat
  scale : Nat
  fop : Nat
  ascale : Nat
  atile : Nat
  site : Nat
  rotId : W32
  elem0 : Nat
  tensor : W32
  tally : Nat
  reserved : Nat
  deriving DecidableEq, Repr

def outDescOf (n : Nat) : OutDesc :=
  ⟨fld n 236 20, fld n 216 20, fld n 196 20, fld n 176 20, fld n 156 20, fld n 150 6, fld n 140 10,
   BitVec.ofNat 32 (fld n 108 32), fld n 76 32, BitVec.ofNat 32 (fld n 44 32), fld n 24 20, fld n 0 24⟩

/-- Elements of an instruction (R130). -/
def outElems (a : OqntArgs) : Nat := 80 * (a.nrec.toNat + 1)

/-- Rotation block size of a rot field, 0 for none. -/
def rotSize (rot : Nat) : Nat := if rot = 0 then 0 else 16 * 2 ^ rot

/-- R135: the rotation constants. -/
def rotConst (b : Nat) : W32 :=
  match b with
  | 32 => 0x3E3504F3#32
  | 64 => 0x3E000000#32
  | 128 => 0x3DB504F3#32
  | _ => 0x3D800000#32

/-- R132: bytes of one unit of 80 elements. -/
def unitBytes (ofmt : Nat) : Nat :=
  match ofmt with
  | 0 => 48
  | 1 | 2 => 88
  | 3 => 160
  | _ => 320

/-- R129: field values of the instruction that are defined. -/
def oqntFieldsOk (a : OqntArgs) : Bool :=
  a.src != 3#2 && decide (a.ofmt.toNat < 5) && decide (a.rot.toNat < 5) && a.fuse != 3#2
    && (a.src == 0#2 || (!a.adp && a.tile == 0 && a.entry == 0))

def ffmtBytes (a : OqntArgs) : Nat := if a.ffmt then 2 else 4

/-- The scratchpad ranges that the instruction reads or writes, other than the descriptor: offset and length. -/
def outReads (a : OqntArgs) (d : OutDesc) : List (Nat × Nat) :=
  let n := outElems a
  (if a.src = 0#2 then [] else [(d.srcv, n * (if a.src = 1#2 then 4 else 2))])
    ++ (if a.adp then [(d.ascale, 4 * n)] else []) ++ (if a.sc then [(d.scale, 4 * n)] else [])
    ++ (if a.fuse = 0#2 then [] else [(d.fop, n * ffmtBytes a)])

def outBytes (a : OqntArgs) : Nat := (a.nrec.toNat + 1) * unitBytes a.ofmt.toNat

/-- R129 to R131: the descriptor's checks. -/
def outDescOk (a : OqntArgs) (d : OutDesc) : Bool :=
  let n := outElems a
  let b := rotSize a.rot.toNat
  d.reserved == 0 && d.dst % 8 == 0 && d.elem0 % 80 == 0 && (!a.tal || (d.tally % 32 == 0 && inWin d.tally 32))
    && (a.src != 0#2 || decide (a.tile.toNat + (a.entry.toNat + n - 1) / 256 ≤ 63))
    && (!a.adp || decide (d.atile + (a.entry.toNat + n - 1) / 256 ≤ 63))
    && (b == 0 || (d.elem0 % b == 0 && n % b == 0))
    && (outReads a d).all (fun r => inWin r.1 r.2) && inWin d.dst (outBytes a)

/-! ## The steps on one element -/

/-- A value on its way, and whether the element is poisoned (R144). -/
structure Elem where
  y : W32
  poison : Bool
  deriving DecidableEq, Repr

def spF32 (s : State) (c : CoreId) (off : Nat) : W32 := BitVec.ofNat 32 (s.spRd c off 4)

def spB16 (s : State) (c : CoreId) (off : Nat) : W32 := BitVec.ofNat 32 (ofBf16 (s.spRd c off 2))

/-- Step 1: read-out. -/
def outRead (s : State) (c : CoreId) (a : OqntArgs) (d : OutDesc) (k : Nat) : Elem :=
  let sg := if a.sc then spF32 s c (d.scale + 4 * k) else 0x3F800000#32
  if a.src = 0#2 then
    let e := (s.core c).accAt (a.tile.toNat * 256 + a.entry.toNat + k)
    let y := e.pair.readOut sg
    ⟨y, e.poison || e.ovf || !fisFin sg || !fisFin y⟩
  else
    let v := if a.src = 1#2 then spF32 s c (d.srcv + 4 * k) else spB16 s c (d.srcv + 2 * k)
    let y := if a.sc then fmul sg v else v
    ⟨y, !fisFin v || !fisFin sg || !fisFin y⟩

/-- Step 2: adapter leaf. -/
def outAdapt (s : State) (c : CoreId) (a : OqntArgs) (d : OutDesc) (k : Nat) (x : Elem) : Elem :=
  if a.adp then
    let e := (s.core c).accAt (d.atile * 256 + a.entry.toNat + k)
    let sg := spF32 s c (d.ascale + 4 * k)
    let ya := e.pair.readOut sg
    let y := fadd x.y ya
    ⟨y, x.poison || e.poison || e.ovf || !fisFin sg || !fisFin ya || !fisFin y⟩
  else x

/-- Step 3: fuse. -/
def outFuse (s : State) (c : CoreId) (a : OqntArgs) (d : OutDesc) (k : Nat) (x : Elem) : Elem :=
  if a.fuse = 0#2 then x
  else
    let f := if a.ffmt then spB16 s c (d.fop + 2 * k) else spF32 s c (d.fop + 4 * k)
    let y := if a.fuse = 1#2 then fadd x.y f else fmul x.y f
    ⟨y, x.poison || !fisFin f || !fisFin y⟩

/-- Steps 1 to 3 for every element. -/
def outFront (s : State) (c : CoreId) (a : OqntArgs) (d : OutDesc) : List Elem :=
  (List.range (outElems a)).map fun k => outFuse s c a d k (outAdapt s c a d k (outRead s c a d k))

/-! ## Rotation (R135) -/

/-- The random sign of element `j` of a block. -/
def rotSign (seed : W64) (rotId : W32) (blk j : Nat) (x : W32) : W32 :=
  let w := (philox seed ⟨rotId, BitVec.ofNat 32 blk, BitVec.ofNat 32 (j / 128), 0⟩).word (j % 128 / 32)
  if w.getLsbD (j % 32) then fneg x else x

/-- One Hadamard stage with half-width `h`. -/
def hadamard (h : Nat) (xs : List W32) : List W32 :=
  (List.range xs.length).map fun j =>
    if j / h % 2 = 0 then fadd (xs.getD j 0) (xs.getD (j + h) 0) else fsub (xs.getD (j - h) 0) (xs.getD j 0)

/-- `n` stages, with half-widths h, 2h, 4h, ... -/
def stages : Nat → Nat → List W32 → List W32
  | 0, _, xs => xs
  | n + 1, h, xs => stages n (2 * h) (hadamard h xs)

/-- The rotation of one block of B elements. -/
def rotBlock (seed : W64) (rotId : W32) (blk b : Nat) (xs : List W32) : List W32 :=
  let signed := xs.zipIdx.map fun p => rotSign seed rotId blk p.2 p.1
  (stages (Nat.log2 b) 1 signed).map fun x => fmul x (rotConst b)

/-- Step 4: every block of B elements; one poisoned element poisons its block. -/
def outRotate (seed : W64) (d : OutDesc) (b : Nat) (xs : List Elem) : List Elem :=
  if b = 0 then xs
  else (List.range (xs.length / b)).flatMap fun i =>
    let part := (xs.drop (i * b)).take b
    let p := part.any (·.poison)
    (rotBlock seed d.rotId ((d.elem0 + i * b) / b) b (part.map (·.y))).map fun y => ⟨y, p⟩

/-! ## Units of 80 elements -/

/-- What one unit writes and counts (R137, R145). -/
structure UnitOut where
  bytes : List Byte
  capped : Bool
  zero : Bool
  poisoned : Bool
  deriving DecidableEq, Repr

/-- Step 5: quantise or convert one unit. `draw` gives the random words of R44. -/
def outUnit (ofmt : Nat) (draw : Nat → W32) (xs : List Elem) : UnitOut :=
  let ys := xs.map (·.y)
  let p := xs.any (·.poison)
  if ofmt < 3 then
    let r := if p then RecOut.poisoned ofmt else if ofmt = fmtG8 then quantiseG8 draw ys else quantise ofmt ys
    ⟨r.bytes, r.capLim, r.zero, r.poison⟩
  else
    let n := if ofmt = 3 then 2 else 4
    let vals := xs.map fun x =>
      if x.poison then (if ofmt = 3 then bf16.nan else fp32.nan)
      else if ofmt = 3 then toBf16 x.y.toNat else x.y.toNat
    ⟨vals.flatMap (leBytes n), false, !p && vals.all (fun v => v % 2 ^ (8 * n - 1) == 0), p⟩

/-- R44: the words that serve a block's elements. -/
def g8Draw (k : Core) (d : OutDesc) (r i : Nat) : W32 :=
  (philox k.ost.g8Seed ⟨k.ost.step.extractLsb' 0 32, d.tensor, BitVec.ofNat 32 (d.elem0 / 80 + r),
    BitVec.ofNat 32 (i / 4)⟩).word i

/-- Steps 4 and 5 over the whole instruction. -/
def outUnits (k : Core) (a : OqntArgs) (d : OutDesc) (front : List Elem) : List UnitOut :=
  let xs := outRotate k.ost.rotSeed d (rotSize a.rot.toNat) front
  (List.range (a.nrec.toNat + 1)).map fun r =>
    outUnit a.ofmt.toNat (g8Draw k d r) ((xs.drop (80 * r)).take 80)

/-! ## Tally (R137) -/

/-- The elements that enter the sum of squares: a poisoned record adds none (R145). -/
def squares (a : OqntArgs) (front : List Elem) (units : List UnitOut) : List W32 :=
  (front.zipIdx.filter fun p =>
    !p.1.poison && (decide (a.ofmt.toNat ≥ 3) || match units[p.2 / 80]? with | some u => !u.poisoned | none => false)).map
    fun p => p.1.y

/-- R137: each count stops at 0xFFFF_FFFF. -/
def addCap (x n : Nat) : Nat := min (x + n) 0xFFFFFFFF

/-- The tally record after the instruction's counts are added. -/
def tallyAdd (old : Nat) (units : List UnitOut) (sq : List W32) : Nat :=
  let p0 : Pair := ⟨BitVec.ofNat 32 (fld old 32 32), BitVec.ofNat 32 (fld old 64 32)⟩
  let p := sq.foldl (fun (p : Pair) y => (p.add (fmul y y)).1) p0
  let cnt := fun f : UnitOut → Bool => (units.filter f).length
  packFields 32
    [0, p.s.toNat, p.c.toNat, addCap (fld old 96 32) sq.length, addCap (fld old 128 32) (cnt (·.poisoned)),
     addCap (fld old 160 32) (cnt (·.zero)), addCap (fld old 192 32) (cnt (·.capped)),
     addCap (fld old 224 32) units.length]

/-! ## The instruction -/

/-- R138: cycles spent on reading the source. -/
def outReadCc (a : OqntArgs) : Nat :=
  if a.src = 0#2 then outElems a * (if a.adp then 2 else 1) else ceilDiv (outElems a) 8

/-- R138: L_rot. -/
def rotCc (rot : Nat) : Nat :=
  match rot with
  | 0 => 0
  | 1 => 3
  | 2 => 6
  | 3 => 14
  | _ => 32

/-- R133, R138: when the instruction starts behind those in the queue, and when its parts are done. DEDUCED (log 41). -/
def outJob (k : Core) (x : At) (a : OqntArgs) : OstJob :=
  let start := k.ost.jobs.foldl (fun t j => max t j.done) x.now
  let done := start + 6 + outReadCc a + rotCc a.rot.toNat
  ⟨start, done, a.rot != 0, if a.tal then done + 2 else 0⟩

/-- Accumulator indices that the instruction reads. -/
def outEntries (a : OqntArgs) (d : OutDesc) : List Nat :=
  if a.src = 0#2 then
    (List.range (outElems a)).flatMap fun k =>
      (a.tile.toNat * 256 + a.entry.toNat + k) :: (if a.adp then [d.atile * 256 + a.entry.toNat + k] else [])
  else []

/-- R134: the ranges. -/
def outRanges (x : At) (a : OqntArgs) (desc : Nat) (d : OutDesc) (j : OstJob) : List SbEntry :=
  let read := SbFree.atCc (j.start + outReadCc a)
  let n := outElems a
  [spRange .read desc 32 (.atCc (x.now + 2))]
    ++ (if a.src = 0#2 then [accRange .read (a.tile.toNat * 256 + a.entry.toNat) n read] else [])
    ++ (if a.adp then [accRange .read (d.atile * 256 + a.entry.toNat) n read] else [])
    ++ (outReads a d).map (fun r => spRange .read r.1 r.2 read)
    ++ [spRange .write d.dst (outBytes a) (.atCc j.done)]
    ++ (if a.tal then [spRange .write d.tally 32 (.atCc j.tallyAt)] else [])

/-- R146, R147: the counters and health events of an instruction. -/
def outReport (c : CoreId) (d : OutDesc) (units : List UnitOut) (long : Bool) (s : State) : State :=
  let n := fun f : UnitOut → Bool => (units.filter f).length
  let s1 := s.modCb c fun b =>
    { b with ostRecords := bumpBy units.length b.ostRecords, ostCapped := bumpBy (n (·.capped)) b.ostCapped,
             ostZero := bumpBy (n (·.zero)) b.ostZero, ostPoison := bumpBy (n (·.poisoned)) b.ostPoison,
             ostLongout := if long then bump b.ostLongout else b.ostLongout }
  let s2 := if long then s1.health d.site 0x0516 (s1.siteBaseline d.site) cNan else s1
  if units.any (·.poisoned) && !(s2.core c).ost.poisonSeen then
    (s2.modCore c fun k => { k with ost := { k.ost with poisonSeen := true } }).health d.site 0x0514 (s2.siteBaseline d.site) cNan
  else s2

/-- The effect of an OQNT whose operands can be read. DEDUCED (log 41). -/
def outAct (x : At) (a : OqntArgs) (d : OutDesc) (s : State) : State :=
  let k := s.core x.c
  let front := outFront s x.c a d
  let units := outUnits k a d front
  let long := (outEntries a d).any fun i => (k.accAt i).long
  let s1 := s.wrBytes (spKey x.c d.dst) (units.flatMap (·.bytes))
  let s2 := if a.tal then s1.spWr x.c d.tally 32 (tallyAdd (s.spRd x.c d.tally 32) units (squares a front units)) else s1
  outReport x.c d units long s2

/-- The fault that reading element `k` meets, if one: the cause and its detail (R102, R263).
DEDUCED (log 30). DESIGN CHOICE (log 179). -/
def outBadAt (s : State) (c : CoreId) (a : OqntArgs) (d : OutDesc) (k : Nat) : Option (Nat × Nat) :=
  let sp := fun (off len : Nat) => (s.spPoison? c off len).map fun o => (0x0906, o)
  let entry := fun (i : Nat) => if ((s.core c).accAt i).bad then some (0x0404, 0) else none
  let src :=
    if a.src = 0#2 then entry (a.tile.toNat * 256 + a.entry.toNat + k)
    else if a.src = 1#2 then sp (d.srcv + 4 * k) 4 else sp (d.srcv + 2 * k) 2
  let adp := if a.adp then (entry (d.atile * 256 + a.entry.toNat + k)).or (sp (d.ascale + 4 * k) 4) else none
  let sc := if a.sc then sp (d.scale + 4 * k) 4 else none
  let fop := if a.fuse = 0#2 then none else sp (d.fop + ffmtBytes a * k) (ffmtBytes a)
  src.or (adp.or (sc.or fop))

/-- R153: unit `r` is written although the read of element `k` faults: its elements and their rotation blocks were read before. -/
def unitDone (a : OqntArgs) (k r : Nat) : Bool :=
  let b := rotSize a.rot.toNat
  let last := 80 * r + 79
  decide ((if b = 0 then last else last / b * b + (b - 1)) < k)

/-- R153: the effect of an OQNT that faults when it reads element `k` (all elements, where only its tally record cannot be
read): the units that are done are written and counted, and the tally record is left. DEDUCED (log 30). -/
def outPart (x : At) (a : OqntArgs) (d : OutDesc) (k : Nat) (s : State) : State :=
  let all := outUnits (s.core x.c) a d (outFront s x.c a d)
  let units := (all.zipIdx.filter fun u => unitDone a k u.2).map (·.1)
  let long := (outEntries a d).zipIdx.any fun i => decide (i.2 < (if a.adp then 2 * k else k)) && ((s.core x.c).accAt i.1).long
  outReport x.c d units long (s.wrBytes (spKey x.c d.dst) (units.flatMap (·.bytes)))

/-- An OQNT that meets a word it cannot read. -/
def outFaulted (x : At) (a : OqntArgs) (d : OutDesc) (s : State) : State :=
  match (List.range (outElems a)).findSome? fun k => (outBadAt s x.c a d k).map fun f => (k, f) with
  | some (k, cause, detail) => (outPart x a d k s).raise x.c ⟨cause, 3, 0, x.pc, detail, .ost⟩
  | none => (outPart x a d (outElems a) s).raise x.c ⟨0x0906, 3, 0, x.pc, ((s.spPoison? x.c d.tally 32).getD d.tally), .ost⟩

/-- The scratchpad bytes that the instruction reads, other than the descriptor. -/
def outSpots (a : OqntArgs) (d : OutDesc) : List (Nat × Nat) := outReads a d ++ (if a.tal then [(d.tally, 32)] else [])

/-- The reads of the instruction find what errors its bytes and entries hold (R102, R263). -/
def outSense (c : CoreId) (a : OqntArgs) (d : OutDesc) (s : State) : State :=
  (outEntries a d).foldl (fun s i => s.senseAcc c i) ((outSpots a d).foldl (fun s r => s.senseSp c r.1 r.2) s)

/-- OQNT (R127 to R138, R153). -/
def oqntPlan (s : State) (x : At) (a : OqntArgs) : Plan :=
  let k := s.core x.c
  let desc := (k.sreg a.sDesc).toNat
  let bad := Plan.bad 0x0501 0
  let live := k.ost.jobs.filter fun j => decide (x.now ≤ j.done)
  let wait := stallIf (decide (live.length ≥ 4)) stallQueue
  if !oqntFieldsOk a ∨ desc % 32 ≠ 0 ∨ !inWin desc 32 then bad.after wait
  else
    withDesc s x desc 32 wait <|
      let d := outDescOf (s.spRd x.c desc 32)
      if !outDescOk a d then bad
      else
        let j := outJob k x a
        { fault := none, stall := 0, ranges := outRanges x a desc d j,
          flow := .seq,
          act := fun s =>
            let s1 := s.modCore x.c fun k =>
              { k with ost := { k.ost with jobs := k.ost.jobs.filter (fun j => decide (x.now ≤ max j.done j.tallyAt)) ++ [j] } }
            let s2 := outSense x.c a d s1
            if (outSpots a d).any (fun r => (s2.spPoison? x.c r.1 r.2).isSome)
                || (outEntries a d).any (fun i => ((s2.core x.c).accAt i).bad) then
              outFaulted x a d s2
            else outAct x a d s2 }

end Sys2Proof.Machine
end

