-- ==== Sys2Proof/Machine/Router.lean ====
section
/-! DEFINITION. The router block: route packets, RTAKE, contribution records, digest packets (R224 to R233). -/

namespace Sys2Proof.Machine

/-- The manifest's mixture-of-experts entry of a layer. -/
def State.moe (s : State) (layer : Nat) : Option MoeSpec :=
  s.hm.man.bind fun m => (m.layers[layer]?).bind (·.moe)

/-- R226: slots of a gang: homes and replica slots. -/
def moeSlots (m : MoeSpec) (gang : Nat) : Nat := ((m.home ++ m.replicaSlots).filter fun p => p.1 == gang).length

def State.bMax (s : State) : Nat :=
  match s.hm.man with
  | some m => m.bMax
  | none => 0

/-- Scratchpad offset of a route bank (R225). DESIGN CHOICE (log 45). -/
def State.bankBase (s : State) (c : CoreId) (bank : Nat) : Nat :=
  (s.core c).dqu.rtArea.toNat * 64 + bank * Config.routeBankGap s.bMax

def Core.bank (k : Core) (i : Nat) : RtBank := k.dqu.banks.toList.getD i RtBank.free

def State.modBank (s : State) (c : CoreId) (i : Nat) (f : RtBank → RtBank) : State :=
  s.modDqu c fun q => { q with banks := q.banks.set! i (f (q.banks.toList.getD i RtBank.free)) }

/-- R224: the choice position that slot `j` serves, 15 if it does not want the row. -/
def smapAt (e : W64) (j : Nat) : Nat := fld e.toNat (4 * j) 4

/-- R224: slots that an entry names. -/
def smapSlots (e : W64) : List Nat := (List.range 12).filter fun j => smapAt e j != 15

/-- R226: an entry that the bank cannot take. -/
def entryBad (bMax slots : Nat) (e : W64) : Bool :=
  decide (bMax ≤ fld e.toNat 48 16) || (smapSlots e).any fun j => decide (slots ≤ j)

/-- R257, R258: the router block's write lands: its bytes count toward the awaits that they lie in. -/
def State.rtWrite (s : State) (c : CoreId) (off n x : Nat) : State := (s.spWr c off n x).modCore c fun k => k.countAwaits off n

/-- R234: a count rises by one; one that has stopped sets the sticky bit of word 15. -/
def countRow (c : CoreId) (base j : Nat) (s : State) : State :=
  let n := s.spRd c (base + 4 * j) 4
  if n < 0xFFFFFFFF then s.rtWrite c (base + 4 * j) 4 (n + 1)
  else
    let w := s.spRd c (base + 60) 4
    s.rtWrite c (base + 60) 4 (w % 2 ^ 31 + 2 ^ 31)

/-- R225: appends a row to the list of slot `j`. A poisoned count word raises "scratchpad memory error" (R263).
DEDUCED (log 161). -/
def appendRow (c : CoreId) (base bMax row j : Nat) (s0 : State) : State :=
  let s := s0.senseSp c (base + 4 * j) 4
  match s.spPoison? c (base + 4 * j) 4 with
  | some o => s.raiseLoose c 0x0906 o .rt
  | none =>
    let n := s.spRd c (base + 4 * j) 4
    countRow c base j (s.rtWrite c (base + 64 + 2 * bMax * j + 2 * n) 2 row)

/-- R225: appends an entry's row to the list of each slot that wants it. -/
def appendEntry (c : CoreId) (base bMax : Nat) (e : W64) (s : State) : State :=
  (smapSlots e).foldl (fun s j => appendRow c base bMax (fld e.toNat 48 16) j s) s

/-- R225: appends the packets that are next in the order of routing cores. -/
def drainBank (c : CoreId) (i base bMax : Nat) : Nat → State → State
  | 0, s => s
  | fuel + 1, s =>
    let b := (s.core c).bank i
    match b.waiting.find? (fun p => p.1 == b.next) with
    | none => s
    | some p =>
      let s1 := p.2.foldl (fun s e => appendEntry c base bMax e s) s
      drainBank c i base bMax fuel
        ((s1.modBank c i fun b => { b with waiting := dropFirst (fun q => q.1 == p.1) b.waiting, next := b.next + 1 }).modCb c
          fun t => { t with rtEntries := bumpBy p.2.length t.rtEntries })

/-- The entries that `drainBank` would append, in order: those of the packets next in the order of routing cores. -/
def dueEntries : Nat → Nat → List (Nat × List W64) → List W64
  | 0, _, _ => []
  | fuel + 1, next, waiting =>
    match waiting.find? (fun p => p.1 == next) with
    | none => []
    | some p => p.2 ++ dueEntries fuel (next + 1) waiting

/-- The bytes that the router block writes when it appends entries to a bank: the count table, and the places of each slot's list,
as offset and length. -/
def State.routeSpans (s : State) (c : CoreId) (base bMax : Nat) (fresh : Bool) (es : List W64) : List (Nat × Nat) :=
  let wanted := fun j => (es.filter fun e => (smapSlots e).contains j).length
  let table := if fresh || es.any (fun e => smapSlots e != []) then [(base, 64)] else []
  table ++ (List.range 12).filterMap fun j =>
    let n := if fresh then 0 else s.spRd c (base + 4 * j) 4
    if wanted j = 0 then none else some (base + 64 + 2 * bMax * j + 2 * n, 2 * wanted j)

/-- What comes first of several answers to inbound writes: a refusal, then a hold. -/
def Inbound.worst : Inbound → Inbound → Inbound
  | .land, b => b
  | .hold, b => if b = .land then .hold else b
  | a, _ => a

/-- R257, R514: what the router block's writes meet at the scratchpad. DEDUCED (log 161). -/
def State.inboundAll (s : State) (c : CoreId) (spans : List (Nat × Nat)) : Inbound :=
  spans.foldl (fun a r => a.worst (s.inbound c r.1 r.2)) .land

/-- "route mismatch" (R226, R231). -/
def State.routeMismatch (s : State) (c : CoreId) : State := s.raiseLoose c 0x0802 0 .rt

/-- R234: the count table of a bank whose route is complete holds the per-step counts of its gang's slots. -/
def State.stepCounts (s : State) (c : CoreId) (layer gang base slots : Nat) : State :=
  { s with plc := { s.plc with counts := (List.range slots).foldl (fun l j =>
      Sparse.put 0 l (layer * 1024 + gang * 16 + j) (s.spRd c (base + 4 * j) 4)) s.plc.counts } }

/-- Slots of a gang of a layer, and routing cores of the layer. -/
def State.routeShape (s : State) (layer gang : Nat) : Nat × Nat :=
  match s.moe layer with
  | some m => (moeSlots m gang, m.nRouting)
  | none => (0, 0)

/-- R225, R226: a packet for a bank that is free or holds its layer and step. -/
def State.acceptRoute (s : State) (c : CoreId) (i layer rcore gang : Nat) (step : W32) (es : List W64) : State :=
  let shape := s.routeShape layer gang
  let base := s.bankBase c i
  let b := (s.core c).bank i
  let s1 := if b.holds.isNone then s.rtWrite c base 64 0 else s
  let s2 := s1.modBank c i fun b =>
    { b with holds := some (BitVec.ofNat 16 layer, step), got := b.got ++ [rcore], waiting := b.waiting ++ [(rcore, es)] }
  let s3 := drainBank c i base s.bMax (b.waiting.length + 1) s2
  let done := decide (shape.2 ≤ b.got.length + 1)
  let s4 := if done then s3.stepCounts c layer gang base shape.1 else s3
  (s4.modBank c i fun b => { b with complete := done }).modCb c fun t => { t with rtPkts := bump t.rtPkts }

/-- R226: a packet that raises "route mismatch": of a routing core heard before or not of the layer, or with a bad entry. -/
def State.routeBad (s : State) (c : CoreId) (i layer rcore gang : Nat) (es : List W64) : Bool :=
  let shape := s.routeShape layer gang
  ((s.core c).bank i).got.contains rcore || decide (shape.2 ≤ rcore) || es.any (entryBad s.bMax shape.1)

/-- ROUTE_PACKET (R225): the next message from a source is a route packet. It is held for its bank, or for the scoreboard entries
that its writes meet (R257). -/
def State.routePacket (s : State) (c : CoreId) (src : Node) : State :=
  match s.head0 src (.core c) with
  | some m =>
    match m.body with
    | .route hdr es0 bad ref =>
      let h := hdr.toNat
      let layer := fld h 112 16
      let rcore := fld h 96 16
      let gang := fld h 48 16
      let step := BitVec.ofNat 32 (fld h 64 32)
      let es := es0.take (fld h 32 16)
      let i := layer % 2
      let b := (s.core c).bank i
      let s1 := s.drop0 src (.core c)
      let poisoned := fun s : State => s.modCb c fun t => { t with mshPoisoned := bumpBy bad.length t.mshPoisoned }
      let status := if bad = [] then 0 else 5
      if s.shut c then s1.answer (.core c) ref 1
      else if b.holds.isSome && b.holds != some (BitVec.ofNat 16 layer, step) then
        if m.held then s else (s.hold0 src (.core c)).modCb c fun t => { t with rtHold := bump t.rtHold }
      else if s.routeBad c i layer rcore gang es then ((poisoned s1).routeMismatch c).answer (.core c) ref status
      else
        let due := dueEntries (b.waiting.length + 1) b.next (b.waiting ++ [(rcore, es)])
        match s.inboundAll c (s.routeSpans c (s.bankBase c i) s.bMax b.holds.isNone due) with
        | .refuse => s1.answer (.core c) ref 1
        | .refuseFault cause o => (s1.raiseInbound c cause o).answer (.core c) ref 1
        | .hold => if m.held then s else (s.hold0 src (.core c)).modCa c fun a => { a with spdHeld := bump a.spdHeld }
        | .land => ((poisoned s1).acceptRoute c i layer rcore gang step es).answer (.core c) ref status
    | _ => s
  | none => s

/-- "bad router instruction" (R227). -/
def badRouter : Plan := Plan.bad 0x0801 0

/-- RTAKE (R227). DEDUCED (log 37). -/
def rtakePlan (s : State) (x : At) (sb : RegIx) (nsm1 : BitVec 4) (bank : Bool) : Plan :=
  let i := bit bank
  let wait := stallIf (!((s.core x.c).bank i).complete) stallRtake
  if nsm1.toNat > 11 ∨ sb.toNat + nsm1.toNat > 31 then badRouter.after wait
  else
    { Plan.nop with
        stall := wait
        act := fun s =>
          let base := s.bankBase x.c i
          readOr x 3 .rt base (4 * (nsm1.toNat + 1)) (fun s =>
            (List.range (nsm1.toNat + 1)).foldl (fun s j =>
              s.modCore x.c fun k =>
                k.putS x 3 2 (BitVec.ofNat 5 (sb.toNat + j)) (BitVec.ofNat 64 (s.spRd x.c (base + 4 * j) 4))) s)
            (s.modBank x.c (1 - i) fun _ => RtBank.free) }

/-- R231: whether an await takes `n` bytes from `off` on without passing its count. -/
def Core.awaitTakes (k : Core) (off n : Nat) : Bool :=
  k.sb.toList.any fun o =>
    match o with
    | some e => e.kind == .await && !e.acc && e.share off n == n && decide (n ≤ e.left)
    | none => false

/-- R231: whether a contribution record names the layer that the combine core's program has reached, and its step,
which is OST_STEP. -/
def Core.recordOk (k : Core) (layer : W16) (ws : List W64) : Bool :=
  fld (wordAt ws 1) 48 16 == layer.toNat && fld (wordAt ws 1) 0 32 == k.ost.step.toNat % 2 ^ 32

/-- The inbound write or read data of a source that is held, or else its next. -/
def State.nextInbound (s : State) (c : CoreId) (src : Node) : Option (Msg × InSpot) :=
  (s.heldInbound c src).or (s.freshInbound c src)

/-- CONTRIBUTION_RECORD (R230, R231): the next write from a source holds a contribution record, when `layer` names the
combine core's layer, or data that follow one. -/
def State.contributionRecord (s : State) (c : CoreId) (src : Node) (layer : Option W16) : State :=
  match s.nextInbound c src with
  | some (m, d) =>
    match m.body with
    | .write off ws _ =>
      let same := match layer with
        | some l => (s.core c).recordOk l (ws.map (·.data))
        | none => true
      let fits := (s.core c).awaitTakes off (8 * ws.length)
      let go := s.inbound c off (8 * ws.length) = .land
      let s1 := s.inboundStep c src m d
      if go ∧ !(same && fits) then s1.routeMismatch c else s1
    | _ => s
  | none => s

/-- DIGEST_PACKET (R233): the next write from a source is a digest packet; its digest is XORed into the layer's.
DESIGN CHOICE (log 46). -/
def State.digestPacket (s : State) (c : CoreId) (src : Node) (layer : W16) : State :=
  match s.nextInbound c src with
  | some (m, d) =>
    match m.body with
    | .write off ws _ =>
      let s1 := s.inboundStep c src m d
      if s.inbound c off (8 * ws.length) = .land then
        let step := (s.core c).ost.step.extractLsb' 0 32
        let part := Config.digestField (ws.map (·.data) |>.getD 0 0) (ws.map (·.data) |>.getD 1 0)
        s1.modDqu c fun q =>
          { q with digest := if q.digestOf = some (layer, step) then q.digest ^^^ part else part,
                   digestOf := some (layer, step) }
      else s1
    | _ => s
  | none => s

end Sys2Proof.Machine
end

