-- ==== Sys2Proof/Machine/Reduction.lean ====
section
/-! DEFINITION. The reduction contexts: streams of FP32 elements kept as a sum, a maximum, an argmax or a top-k list
(R166 to R169). -/

namespace Sys2Proof.Machine

/-- R168: whether element `a` ranks before `b` by value and index. Any NaN ranks above +∞; −0 and +0 are equal. -/
def ranksBefore (a b : W32 × W32) : Bool :=
  match fisNan a.1, fisNan b.1 with
  | true, true => a.2.ult b.2
  | true, false => true
  | false, true => false
  | false, false => flt b.1 a.1 || (!flt a.1 b.1 && a.2.ult b.2)

/-- R168: the element takes its place behind those that rank before it or were fed earlier and tie. -/
def insertRank (x : W32 × W32) : List (W32 × W32) → List (W32 × W32)
  | [] => [x]
  | y :: r => if ranksBefore x y then x :: y :: r else y :: insertRank x r

/-- R167: complete subtrees of equal size are combined, the earlier one as the lower-index operand. -/
def foldTree (size : Nat) (p : Pair) : List (Nat × Pair) → List (Nat × Pair)
  | [] => [(size, p)]
  | (n, q) :: r => if n = size then foldTree (2 * size) (Pair.combine q p).1 r else (size, p) :: (n, q) :: r

/-- R167: at read-out the partial subtrees are combined from the smallest upward. -/
def closeTree : List (Nat × Pair) → Pair
  | [] => ⟨0, 0⟩
  | (_, p) :: r => r.foldl (fun acc q => (Pair.combine q.2 acc).1) p

/-- R166: the context that RBEG starts. -/
def RedCtx.begin (mode : RedMode) (k : Nat) (base : W32) : RedCtx :=
  ⟨true, mode, k, base, 0, false, false, [], []⟩

/-- How many elements a context keeps (R168). -/
def RedCtx.keep (c : RedCtx) : Nat :=
  match c.mode with
  | .sum => 0
  | .max | .argmax => 1
  | .topk => c.k

/-- R166 to R168: one element with its stream index. DEDUCED (log 33). -/
def RedCtx.feed1 (c : RedCtx) (x : W32 × W32) : RedCtx :=
  match c.mode with
  | .sum =>
    { c with count := c.count + 1, tree := foldTree 1 ⟨x.1, 0⟩ c.tree, poison := c.poison || !fisFin x.1,
             long := c.long || decide (c.count + 1 > 2 ^ 20) }
  | _ =>
    { c with count := c.count + 1, best := (insertRank x c.best).take c.keep, poison := c.poison || fisNan x.1 }

/-- R166: elements in stream order; without indices of their own they are numbered from base + count. -/
def RedCtx.feed (c : RedCtx) (xs : List W32) (ixs : Option (List W32)) : RedCtx :=
  let start := c.base + BitVec.ofNat 32 c.count
  let own := (List.range xs.length).map fun l => start + BitVec.ofNat 32 l
  (xs.zip (ixs.getD own)).foldl RedCtx.feed1 c

/-- R167: a fed NaN or infinity makes the sum the canonical NaN. DEDUCED (log 32, 33). -/
def RedCtx.sum (c : RedCtx) : Pair := if c.poison then ⟨cNan, 0⟩ else closeTree c.tree

/-- R169: rank `i` of the kept elements; −∞ and index 0xFFFF_FFFF past those fed. A NaN reads as the canonical one (R56). -/
def RedCtx.rank (c : RedCtx) (i : Nat) : W32 × W32 :=
  match c.best[i]? with
  | some x => if fisNan x.1 then (cNan, x.2) else x
  | none => (0xFF800000#32, 0xFFFFFFFF#32)

/-- R169: whether the table "Reduction read-out" defines the part. -/
def RedCtx.partOk (c : RedCtx) (part : Nat) : Bool :=
  part == 0 || part == 4 ||
    match c.mode with
    | .sum => part == 1
    | .max | .argmax => false
    | .topk => decide (part ≤ 3)

/-- R169: lane `l` of a part. DEDUCED (log 32). -/
def RedCtx.partLane (c : RedCtx) (part l : Nat) : W32 :=
  if part = 4 then
    (match l with
     | 0 => BitVec.ofNat 32 c.count
     | 1 => BitVec.ofNat 32 (bit c.poison + 2 * bit c.long)
     | _ => 0)
  else
    match c.mode with
    | .sum =>
      if part = 0 then c.sum.readOut 0x3F800000#32
      else (match l with | 0 => c.sum.s | 1 => c.sum.c | _ => 0)
    | .max => (c.rank 0).1
    | .argmax => (match l with | 0 => (c.rank 0).1 | 1 => (c.rank 0).2 | _ => 0)
    | .topk => if part < 2 then (c.rank (32 * part + l)).1 else (c.rank (32 * (part - 2) + l)).2

end Sys2Proof.Machine
end

