-- ==== Sys2Proof/Machine/Special.lean ====
section
/-! DEFINITION. The special functions (R164). Each result is the exact value rounded to FP32, moved by a free value
within the bound that the table gives. The exact values are formed in fixed point with 128 fraction bits. -/

namespace Sys2Proof.Machine

/-- Fraction bits of the fixed-point values. -/
def fxP : Nat := 128

/-- ln 2 in fixed point, truncated. -/
def fxLn2 : Nat := 1013035739299659071135698605846798551586536899366 / 2 ^ 32

def fxOne : Int := 2 ^ fxP

def fxMul (a b : Int) : Int := (a * b) / fxOne

/-- A dyadic number in fixed point, rounded down. -/
def Dy.fx (x : Dy) : Int := (x.scale fxP).floor

/-- 1 + r/1 (1 + r/2 (1 + ...)): `n` terms of the exponential series, from term `i` on. -/
def expSeries : Nat → Nat → Int → Int
  | 0, _, _ => fxOne
  | n + 1, i, r => fxOne + fxMul r (expSeries n (i + 1) r) / (i : Int)

/-- e^x = E × 2^k with E in fixed point, near 1. -/
def fxExp (x : Int) : Int × Int :=
  let l := (fxLn2 : Int)
  let k := (2 * x + l) / (2 * l)
  (expSeries 36 1 (x - k * l), k)

/-- z² powers of the series of artanh: z (1 + z²/3 + z⁴/5 + ...), `n` terms from the odd number `i` on. -/
def atanhSeries : Nat → Nat → Int → Int
  | 0, _, _ => 0
  | n + 1, i, z2 => fxOne / (i : Int) + fxMul z2 (atanhSeries n (i + 2) z2)

/-- ln x for a positive x. -/
def fxLog (x : Dy) : Int :=
  let b : Int := (Nat.log2 x.m.natAbs : Nat)
  let m := Dy.fx ⟨x.m, -b⟩
  let z := ((m - fxOne) * fxOne) / (m + fxOne)
  2 * fxMul z (atanhSeries 48 1 (fxMul z z)) + (x.e + b) * (fxLn2 : Int)

/-- Integer square root, bit by bit from bit `b` down. -/
def isqrtFrom : Nat → Nat → Nat → Nat
  | 0, n, r => if (r + 1) * (r + 1) ≤ n then r + 1 else r
  | b + 1, n, r =>
    let t := r + 2 ^ (b + 1)
    isqrtFrom b n (if t * t ≤ n then t else r)

def isqrt (n : Nat) : Nat := isqrtFrom (Nat.log2 n / 2 + 1) n 0

/-- x^(−1/2), rounded to FP32, for a positive x. -/
def rsqrtRef (x : Dy) : Nat :=
  let odd := x.e % 2 = 1
  let m := if odd then 2 * x.m.natAbs else x.m.natAbs
  let e := if odd then x.e - 1 else x.e
  let r := isqrt (2 ^ 256 / m)
  fp32.roundNat false r (-128 - e / 2) (decide (r * r * m ≠ 2 ^ 256))

/-- 1 / (1 + e^−x) as a positive dyadic number. -/
def fxSig (x : Int) : Dy :=
  let ek := fxExp (if x < 0 then x else -x)
  let d := fxOne + ek.1 / 2 ^ (-ek.2).toNat
  if x < 0 then ⟨ek.1 * fxOne / d, ek.2 - fxP⟩ else ⟨fxOne * fxOne / d, -(fxP : Int)⟩

/-- tanh x for a positive x. -/
def fxTanh (x : Dy) : Dy :=
  if Dy.lt x ⟨1, -20⟩ then
    let f := x.fx
    let q := fxMul f f
    x.mul ⟨fxOne - q / 3 + 2 * fxMul q q / 15, -(fxP : Int)⟩
  else
    let ek := fxExp (-2 * x.fx)
    let t := ek.1 / 2 ^ (-ek.2).toNat
    ⟨(fxOne - t) * fxOne / (fxOne + t), -(fxP : Int)⟩

/-- The dyadic value rounded to FP32; the exact value is not representable. -/
def roundFx (neg : Bool) (x : Dy) : Nat := fp32.roundNat neg x.m.natAbs x.e true

/-- Magnitude at and past which the fixed-point forms have saturated. -/
def past (x : Dy) (n : Int) : Bool := Dy.le ⟨n, 0⟩ ⟨x.m.natAbs, x.e⟩

/-- R164: the correctly rounded result for a finite input, special inputs included. -/
def specialFin (fn : Nat) (neg : Bool) (bits : Nat) (x : Dy) : Nat :=
  match fn with
  | 0 =>
    if Dy.lt ⟨887228, 0⟩ ⟨x.m * 10000, x.e⟩ then fp32.inf
    else if neg && past x 200 then 0
    else let ek := fxExp x.fx; fp32.roundNat false ek.1.toNat (ek.2 - fxP) true
  | 1 =>
    if x.m = 0 then fp32.pack true fp32.inf fp32.emin
    else if neg then fp32.nan
    else let l := fxLog x; if l = 0 then 0 else roundFx (decide (l < 0)) ⟨l, -(fxP : Int)⟩
  | 2 =>
    if x.m = 0 then fp32.pack neg fp32.inf fp32.emin else if neg then fp32.nan else rsqrtRef x
  | 3 => fp32.div 0x3F800000 bits
  | 4 => if past x 200 then (if neg then 0 else 0x3F800000) else roundFx false (fxSig x.fx)
  | 5 =>
    if x.m = 0 then bits
    else if past x 200 then (if neg then 2 ^ 31 else bits)
    else roundFx neg (x.mul (fxSig x.fx))
  | _ =>
    if x.m = 0 then bits
    else if past x 40 then 0x3F800000 + bit neg * 2 ^ 31
    else roundFx neg (fxTanh ⟨x.m.natAbs, x.e⟩)

/-- R164: results for infinite inputs. -/
def specialInf (fn : Nat) (neg : Bool) : Nat :=
  match fn with
  | 0 => if neg then 0 else fp32.inf
  | 1 => if neg then fp32.nan else fp32.inf
  | 2 => if neg then fp32.nan else 0
  | 3 => bit neg * 2 ^ 31
  | 4 => if neg then 0 else 0x3F800000
  | 5 => if neg then 2 ^ 31 else fp32.inf
  | _ => 0x3F800000 + bit neg * 2 ^ 31

/-- R164: the FP32 bound in ulp; VRCP is correctly rounded. -/
def specialBound (fn : Nat) : Nat :=
  match fn with
  | 3 => 0
  | 4 | 6 => 2
  | 5 => 3
  | _ => 1

/-- Exponent of one ulp of a finite pattern; 2^−149 for subnormals. -/
def ulpExp (bits : Nat) : Int := max 1 (fld bits 23 8 : Nat) - 150

/-- The pattern `off` places above the finite pattern `bits` in the order of the numbers. -/
def stepBits (bits : Nat) (off : Int) : Nat :=
  let mag : Int := (fld bits 0 31 : Nat)
  let o := (if tb bits 31 then -mag else mag) + off
  o.natAbs + bit (decide (o < 0)) * 2 ^ 31

/-- R164: moves a correctly rounded finite result by the free value as far as the bound allows. DESIGN CHOICE (log 35). -/
def withinUlp (n : Nat) (ref : Nat) (off : Int) : Nat :=
  let o := max (-2 * (n : Int)) (min (n : Int) off)
  let y := stepBits ref o
  let d := (fp32.dy y).add (fp32.dy ref).neg
  if o ≠ 0 ∧ fp32.isFin ref ∧ fp32.isFin y ∧ Dy.le ⟨d.m.natAbs, d.e⟩ ⟨n, ulpExp ref⟩ then y else ref

/-- R164: a special function of an FP32 input. FREE VALUE: its place within the bound. DESIGN CHOICE (log 35). -/
def specialFp32 (fn : Nat) (x : W32) : W32 :=
  match fp32.dec x.toNat with
  | .nan => cNan
  | .inf neg => BitVec.ofNat 32 (specialInf fn neg)
  | .fin neg d =>
    BitVec.ofNat 32 (withinUlp (specialBound fn) (specialFin fn neg x.toNat d) (Config.specialOffset fn x))

/-- R164: a BF16 form computes the FP32 function and rounds it once to BF16. -/
def specialBf16 (fn : Nat) (x : W16) : W16 :=
  BitVec.ofNat 16 (toBf16 (specialFp32 fn (BitVec.ofNat 32 (ofBf16 x.toNat))).toNat)

end Sys2Proof.Machine
end

