-- ==== Sys2Proof/Machine/Vector.lean ====
section
/-! DEFINITION. The vector slot but for the accumulator class: arithmetic, conversions, memory, tiles, reduction,
random (R155 to R171). -/

namespace Sys2Proof.Machine

/-! ## Lane operations -/

def fMin (f : FFmt) (a b : Nat) : Nat :=
  if f.isNan a || f.isNan b then f.nan
  else if f.lt a b then a else if f.lt b a then b else if tb a (f.w - 1) then a else b

def fMax (f : FFmt) (a b : Nat) : Nat :=
  if f.isNan a || f.isNan b then f.nan
  else if f.lt a b then b else if f.lt b a then a else if tb a (f.w - 1) then b else a

/-- A lane mask of all ones or zero. -/
def fMask (f : FFmt) (b : Bool) : Nat := if b then 2 ^ f.w - 1 else 0

/-- R160, R161: one lane of classes 0x1 and 0x2. -/
def fpLane (f : FFmt) (op : FpOp) (a b c : Nat) : Nat :=
  match op with
  | .add => f.add a b
  | .sub => f.sub a b
  | .mul => f.mul a b
  | .fma => f.fma a b c
  | .min => fMin f a b
  | .max => fMax f a b
  | .abs => if f.isNan a then f.nan else a % 2 ^ (f.w - 1)
  | .neg => if f.isNan a then f.nan else f.flip a
  | .ceq => fMask f (f.eqv a b)
  | .clt => fMask f (f.lt a b)
  | .cle => fMask f (f.lt a b || f.eqv a b)
  | .sel => if c ≠ 0 then a else b

/-- Latencies of classes 0x1 and 0x2. -/
def fpLat (op : FpOp) : Nat :=
  match op with
  | .add | .sub | .mul | .fma => 4
  | _ => 2

/-- R159: fields that the function does not use are zero. -/
def fpFieldsOk (op : FpOp) (r : VRegs) : Bool :=
  match op with
  | .abs | .neg => r.vb == 0 && r.vc == 0 && !r.bs
  | .fma | .sel => true
  | _ => r.vc == 0

/-- R160: one lane of class 0x3. -/
def intLane (op : IntOp) (a b : W32) : W32 :=
  match op with
  | .add => a + b
  | .sub => a - b
  | .and => a &&& b
  | .or => a ||| b
  | .xor => a ^^^ b
  | .shl => a <<< (b.toNat % 32)
  | .shr => a >>> (b.toNat % 32)
  | .sra => a.sshiftRight (b.toNat % 32)
  | .ceq => if a == b then 0xFFFFFFFF#32 else 0
  | .clt => if a.slt b then 0xFFFFFFFF#32 else 0

/-- R162. -/
def cvtFI (x : W32) : W32 :=
  match fp32.dec x.toNat with
  | .nan => 0x80000000#32
  | .inf neg => if neg then 0x80000001#32 else 0x7FFFFFFF#32
  | .fin _ d =>
    let v := d.rne
    if v > 2 ^ 31 - 1 then 0x7FFFFFFF#32
    else if v < -(2 ^ 31 - 1) then 0x80000001#32
    else BitVec.ofInt 32 v

def bf (x : W32) : W16 := BitVec.ofNat 16 (toBf16 x.toNat)

def unbf (x : W16) : W32 := BitVec.ofNat 32 (ofBf16 x.toNat)

/-- Class number of a special function (R164). -/
def specialNum : SpecialFn → Nat
  | .exp => 0
  | .log => 1
  | .rsqrt => 2
  | .rcp => 3
  | .sig => 4
  | .silu => 5
  | .tanh => 6

def specialLat : SpecialFn → Nat
  | .exp => 10
  | .log => 12
  | .rsqrt | .rcp => 8
  | .sig | .tanh => 14
  | .silu => 16

/-- R171: word of lane `l`. -/
def vrndLane (key b c : W64) (l : Nat) : W32 :=
  (philox key ⟨b.extractLsb' 0 32, b.extractLsb' 32 32, c.extractLsb' 0 32,
    c.extractLsb' 32 32 + BitVec.ofNat 32 (l / 4)⟩).word l

/-! ## Pipes -/

/-- The pipes of R155 by number: arithmetic, special-function, memory, tile, reduction, random. -/
def pipeArith : Nat := 0
def pipeSpecial : Nat := 1
def pipeMem : Nat := 2
def pipeTile : Nat := 3
def pipeRed : Nat := 4
def pipeRand : Nat := 5

/-- R155: the pipe takes the instruction; VEC_ISSUED counts it. -/
def Core.usePipe (k : Core) (x : At) (p interval lat : Nat) : Core :=
  let o := k.pipe p
  { k with pipes := k.pipes.set! p ⟨x.now + interval, max o.idle (x.now + lat)⟩
           cb := { k.cb with vecIssued := bump k.cb.vecIssued } }

/-- "bad vector instruction" (R176). -/
def badVec : Plan := Plan.bad 0x0601 0

/-- R155: what an instruction of pipe `p` waits for. -/
def Core.pipeWait (k : Core) (x : At) (p : Nat) : Nat := stallIf (decide (x.now < (k.pipe p).next)) stallQueue

/-- R155: an instruction on pipe `p`. -/
def onPipe (k : Core) (x : At) (p interval lat : Nat) (ranges : List SbEntry) (act : State → State) : Plan :=
  { fault := none, stall := k.pipeWait x p, ranges := ranges, flow := .seq,
    act := fun s => act (s.modCore x.c fun k => k.usePipe x p interval lat) }

/-- Whether a register image has a canonical NaN lane in a view (R178). -/
def hasNan (half : Bool) (v : BitVec 1024) : Bool :=
  if half then (List.range 64).any fun l => lane16 v l == 0x7FC0#16 else (List.range 32).any fun l => lane v l == cNan

/-- What a vector result is counted as: bits only, FP32 lanes or BF16 lanes. DEDUCED (log 34). -/
inductive NanView where
  | none | full | half
  deriving DecidableEq, Repr

/-- A vector result: the register, and VEC_NANOUT when a lane of the view is the canonical NaN. DEDUCED (log 34). -/
def vecOut (x : At) (lat : Nat) (vd : RegIx) (view : NanView) (val : BitVec 1024) (s : State) : State :=
  let n := match view with
    | .none => false
    | .full => hasNan false val
    | .half => hasNan true val
  s.modCore x.c fun k =>
    { k.putV x lat vd val with cb := if n then { k.cb with vecNanout := bump k.cb.vecNanout } else k.cb }

/-- A lane operation on the arithmetic pipe. -/
def arith (k : Core) (x : At) (lat : Nat) (vd : RegIx) (view : NanView) (val : BitVec 1024) : Plan :=
  onPipe k x pipeArith 1 lat [] (vecOut x lat vd view val)

/-! ## Memory forms -/

/-- R163: issue interval of a memory access. -/
def memInterval (a size : Nat) : Nat := if a % size = 0 then 1 else 2

/-- R163: a load of `size` bytes with latency `lat` and interval `iv`. -/
def vecLoad (k : Core) (x : At) (a size align lat iv : Nat) (act : State → State) : Plan :=
  if a % align = 0 ∧ inWin a size then
    onPipe k x pipeMem iv lat [spRange .read a size (.atCc (x.now + lat - 2 + bit (iv == 2)))]
      (readOr x 2 .vec a size act)
  else badVec.after (k.pipeWait x pipeMem)

/-- R163: a store. -/
def vecStore (k : Core) (x : At) (a size align lat iv : Nat) (bytes : List Byte) : Plan :=
  if a % align = 0 ∧ inWin a size then
    onPipe k x pipeMem iv lat [spRange .write a size (.atCc (x.now + lat + bit (iv == 2)))]
      fun s => s.wrBytes (spKey x.c a) bytes
  else badVec.after (k.pipeWait x pipeMem)

/-! ## Tile forms (R165) -/

/-- The elements of row or column `ix` and the next one, as a mask over the 256 elements. -/
def pairMask (col : Bool) (ix : Nat) : BitVec 256 :=
  BitVec.ofNat 256 (packFields 1 ((List.range 256).map fun e =>
    bit (let n := if col then e % 16 else e / 16; n == ix || n == ix + 1)))

/-- Element of lane `l` in rows or columns ix and ix + 1. -/
def pairElem (t : BitVec 8192) (col : Bool) (ix l : Nat) : W32 :=
  let n := ix + l / 16
  if col then tileElem t (l % 16) n else tileElem t n (l % 16)

/-- The tile image that puts the lanes of `v` into rows or columns ix and ix + 1. -/
def pairTile (v : BitVec 1024) (col : Bool) (ix : Nat) : BitVec 8192 :=
  tileOf fun e =>
    let n := if col then e % 16 else e / 16
    let m := if col then e / 16 else e % 16
    lane v ((n - ix) * 16 + m)

def allElems : BitVec 256 := BitVec.allOnes 256

/-! ## Reduction forms -/

def redMode (m : BitVec 2) : RedMode :=
  match m.toNat with
  | 0 => .sum
  | 1 => .max
  | 2 => .argmax
  | _ => .topk

def Core.ctxAt (k : Core) (cx : BitVec 2) : RedCtx := k.ctx.toList.getD cx.toNat RedCtx.inactive

def Core.setCtx (k : Core) (cx : BitVec 2) (r : RedCtx) : Core := { k with ctx := k.ctx.set! cx.toNat r }

/-- R166: a feed of lanes 0 to nm1. -/
def feedPlan (k : Core) (x : At) (va : RegIx) (cx : BitVec 2) (nm1 : BitVec 5) (ixs : Option RegIx) : Plan :=
  let c := k.ctxAt cx
  let n := nm1.toNat + 1
  let wait := k.pipeWait x pipeRed
  if !c.active || (ixs.isSome && c.mode == .sum) then (Plan.bad 0x0602 0).after wait
  else if c.count + n > 2 ^ 32 - 1 then (Plan.bad 0x0603 0).after wait
  else
    let xs := (List.range n).map fun l => lane (k.vreg va) l
    let ix := ixs.map fun vb => (List.range n).map fun l => lane (k.vreg vb) l
    onPipe k x pipeRed (if ixs.isSome || c.mode == .topk then 2 else 1) 1 [] fun s =>
      s.modCore x.c fun k =>
        { k.setCtx cx (c.feed xs ix) with cb := { k.cb with vecFeeds := bumpBy n k.cb.vecFeeds } }

/-- R169: RGET. -/
def rgetPlan (k : Core) (x : At) (vd : RegIx) (cx : BitVec 2) (part : BitVec 3) : Plan :=
  let c := k.ctxAt cx
  let p := part.toNat
  let wait := k.pipeWait x pipeRed
  if p > 4 then badVec.after wait
  else if !c.active then (Plan.bad 0x0602 0).after wait
  else if !c.partOk p then badVec.after wait
  else
    let lat := if c.mode = .sum ∧ p = 0 then 10 else 6
    let view := if p = 4 ∨ (c.mode = .topk ∧ 2 ≤ p) then .none else .full
    onPipe k x pipeRed 1 lat [] (vecOut x lat vd view (lanesOf (c.partLane p)))

/-! ## The slot -/

/-- R160: the vector slot's plan, accumulator class excepted. DEDUCED (log 36). -/
def vecPlan (s : State) (x : At) (i : VecInstr) : Plan :=
  let k := s.core x.c
  match i with
  | .vnop => Plan.nop
  | .fp op half r =>
    if fpFieldsOk op r then
      let a := k.vreg r.va
      let c := k.vreg r.vc
      if half then
        let b := k.opB16 r
        arith k x (fpLat op) r.vd .half
          (lanes16Of fun l => BitVec.ofNat 16 (fpLane bf16 op (lane16 a l).toNat (lane16 b l).toNat (lane16 c l).toNat))
      else
        let b := k.opB32 r
        arith k x (fpLat op) r.vd .full
          (lanesOf fun l => BitVec.ofNat 32 (fpLane fp32 op (lane a l).toNat (lane b l).toNat (lane c l).toNat))
    else badVec.after (k.pipeWait x pipeArith)
  | .int op r =>
    if r.vc = 0 then
      arith k x 2 r.vd .none (lanesOf fun l => intLane op (lane (k.vreg r.va) l) (lane (k.opB32 r) l))
    else badVec.after (k.pipeWait x pipeArith)
  | .special fn half vd va =>
    if half then
      onPipe k x pipeSpecial 4 (specialLat fn) []
        (vecOut x (specialLat fn) vd .half (lanes16Of fun l => specialBf16 (specialNum fn) (lane16 (k.vreg va) l)))
    else
      onPipe k x pipeSpecial 2 (specialLat fn) []
        (vecOut x (specialLat fn) vd .full (lanesOf fun l => specialFp32 (specialNum fn) (lane (k.vreg va) l)))
  | .vcvtif vd va => arith k x 3 vd .full (lanesOf fun l => fpOfInt (lane (k.vreg va) l).toInt 0)
  | .vcvtfi vd va => arith k x 3 vd .none (lanesOf fun l => cvtFI (lane (k.vreg va) l))
  | .vpackh vd va vb =>
    arith k x 3 vd .half
      (lanes16Of fun l => bf (if l < 32 then lane (k.vreg va) l else lane (k.vreg vb) (l - 32)))
  | .vunpk high vd va =>
    arith k x 3 vd .full (lanesOf fun l => unbf (lane16 (k.vreg va) (if high then 32 + l else l)))
  | .vbcst vd va => arith k x 2 vd .full (lanesOf fun _ => (k.sreg va).extractLsb' 0 32)
  | .vext vd va ln =>
    onPipe k x pipeArith 1 3 [] fun s =>
      s.modCore x.c fun k' => k'.putS x 2 3 vd ((lane (k.vreg va) ln.toNat).setWidth 64)
  | .vins vd va ln =>
    arith k x 2 vd .full
      (lanesOf fun l => if l = ln.toNat then (k.sreg va).extractLsb' 0 32 else lane (k.vreg vd) l)
  | .vmov vd va => arith k x 2 vd .full (k.vreg va)
  | .vld half vd va off =>
    let a := k.addr va off
    if half then
      vecLoad k x a 64 2 6 (memInterval a 64) fun s =>
        let n := s.spRd x.c a 64
        vecOut x 6 vd .full (lanesOf fun l => unbf (BitVec.ofNat 16 (fld n (16 * l) 16))) s
    else
      vecLoad k x a 128 4 6 (memInterval a 128) fun s => vecOut x 6 vd .full (BitVec.ofNat 1024 (s.spRd x.c a 128)) s
  | .vst half va vb off =>
    let a := k.addr va off
    if half then
      vecStore k x a 64 2 4 (memInterval a 64)
        (leBytes 64 (packFields 16 ((List.range 32).map fun l => (bf (lane (k.vreg vb) l)).toNat)))
    else vecStore k x a 128 4 4 (memInterval a 128) (leBytes 128 (k.vreg vb).toNat)
  | .mld tm va off =>
    let a := k.addr va off
    vecLoad k x a 1024 4 12 8 fun s =>
      s.modCore x.c fun k => k.putM x 12 tm allElems (BitVec.ofNat 8192 (s.spRd x.c a 1024))
  | .mst tm va off => vecStore k x (k.addr va off) 1024 4 8 8 (leBytes 1024 (k.mreg tm).toNat)
  | .mtr tm =>
    onPipe k x pipeTile 4 8 [] fun s =>
      s.modCore x.c fun k' =>
        k'.putM x 8 tm allElems (tileOf fun e => tileElem (k.mreg tm) (e % 16) (e / 16))
  | .mget col vd tm ix =>
    if ix.toNat % 2 = 0 then
      onPipe k x pipeTile 1 3 [] (vecOut x 3 vd .full (lanesOf fun l => pairElem (k.mreg tm) col ix.toNat l))
    else badVec.after (k.pipeWait x pipeTile)
  | .mput col va tm ix =>
    if ix.toNat % 2 = 0 then
      onPipe k x pipeTile 1 3 [] fun s =>
        s.modCore x.c fun k' => k'.putM x 3 tm (pairMask col ix.toNat) (pairTile (k.vreg va) col ix.toNat)
    else badVec.after (k.pipeWait x pipeTile)
  | .rbeg va cx mode km1 =>
    if mode.toNat = 3 ∨ km1 = 0 then
      onPipe k x pipeRed 1 1 [] fun s =>
        s.modCore x.c fun k' =>
          k'.setCtx cx (RedCtx.begin (redMode mode) (km1.toNat + 1) ((k.sreg va).extractLsb' 0 32))
    else badVec.after (k.pipeWait x pipeRed)
  | .rfeed va cx nm1 => feedPlan k x va cx nm1 none
  | .rfeedx va vb cx nm1 => feedPlan k x va cx nm1 (some vb)
  | .rget vd cx part => rgetPlan k x vd cx part
  | .vrnd vd va vb vc =>
    onPipe k x pipeRand 2 12 []
      (vecOut x 12 vd .none (lanesOf fun l => vrndLane (k.sreg va) (k.sreg vb) (k.sreg vc) l))
  | _ => badVec

end Sys2Proof.Machine
end

