-- ==== Sys2Proof/Machine/Issue.lean ====
section
/-! DEFINITION. Issue: the sequencer issues a bundle with all four slots or stalls, or faults (R245 to R250, R253 to R257,
R265, R494, R515). -/

namespace Sys2Proof.Machine

open Decode

/-- The vector slot's plan, accumulator class included (R121, R160). -/
def vecSlot (s : State) (x : At) (i : VecInstr) : Plan :=
  match i with
  | .acfg tile sCd en => acfgPlan s x tile sCd en
  | .aclr tile entry nm1 => aclrPlan x tile entry nm1
  | .amrg ta tb entry nm1 => amrgPlan x ta tb entry nm1
  | .aldp tile entry nm1 sAddr => aldpPlan s x tile entry nm1 sAddr
  | .astp tile entry nm1 sAddr => astpPlan s x tile entry nm1 sAddr
  | .undefinedAcc => badAcc
  | i => vecPlan s x i

/-- The move slot's plan. -/
def movPlan (s : State) (x : At) (i : MovInstr) : Plan :=
  let k := s.core x.c
  match i with
  | .mnop => Plan.nop
  | .dstart d => dstartPlan s x d
  | .qput d f n => qputPlan k x d f n
  | .qrd rd q => qrdPlan k x rd q
  | .qmv q a n => qmvPlan k x q a n
  | .qcnt rd q => qcntPlan k x rd q
  | .qrst q => qrstPlan k x q
  | .dfence => dfencePlan k
  | .await a l n => awaitPlan k a l n
  | .rtake sb n bank => rtakePlan s x sb n bank
  | .oqnt a => oqntPlan s x a
  | .undefined => badMove
  | .undefinedAwait n => Plan.bad 0x0904 (k.sreg n).toNat
  | .undefinedRouter => badRouter
  | .undefinedOutput => Plan.bad 0x0501 0

/-- The plans of a bundle, in slot order. -/
def plans (s : State) (x : At) (b : Slots) : List Plan :=
  [ctlPlan s x b.ctl, punPlan s x b.pun, vecSlot s x b.vec, movPlan s x b.mov]

/-! ## Stalls (R248, R257) -/

/-- R255: forgets the entries whose last cc has passed. -/
def Core.sweep (k : Core) (now : Nat) : Core := { k with sb := k.sb.map fun o => o.filter (SbEntry.live now) }

/-- Whether a range meets a stall case with an entry. -/
def rangeStalls (e : SbEntry) (o : Option SbEntry) : Bool :=
  match o with
  | some old => e.waitsFor old
  | none => false

/-- R268: bit n is set when entry n blocks the waiting bundle. -/
def Core.blockMask (k : Core) (rs : List SbEntry) : Nat :=
  packFields 1 (k.sb.toList.map fun o => bit (rs.any fun e => rangeStalls e o))

/-- R92, R268: a fresh PLOOK that waits for another PLOOK's entries. -/
def Core.freshWait (k : Core) (rs : List SbEntry) : Bool :=
  rs.any fun e => e.plook && e.fresh && k.sb.toList.any fun o =>
    match o with
    | some old => old.plook && e.waitsFor old
    | none => false

/-- R257: entries that are free. -/
def Core.freeEntries (k : Core) : Nat := (k.sb.toList.filter (·.isNone)).length

/-- SEQ_STALL for a bundle, 0 if it may issue. -/
def Core.stallWord (k : Core) (ps : List Plan) : Nat :=
  let rs := ps.flatMap (·.ranges)
  let block := k.blockMask rs
  ps.foldl (fun n p => n ||| p.stall) 0 ||| stallIf (block != 0) stallRange
    ||| stallIf (decide (k.freeEntries < rs.length)) stallFull ||| stallIf (k.freshWait rs) stallDrain
    ||| block * 2 ^ 32

/-- What a stalled cc leaves behind (R257, R259, R268). -/
def Core.stalled (k : Core) (b : Slots) (ps : List Plan) (w : Nat) : Core :=
  let vec := match ps[2]? with
    | some p => p.stall &&& stallQueue != 0
    | none => false
  let mov := match ps[3]? with
    | some p => p.stall != 0
    | none => false
  { k with
      seq := { k.seq with state := .stalled, stall := BitVec.ofNat 64 w, cc := k.seq.cc + 1 }
      dqu := { k.dqu with
        takeWait := mov && (match b.mov with | .rtake _ _ _ => true | _ => false)
        fenceWait := mov && b.mov == .dfence }
      ca := { k.ca with seqStallcc := bump k.ca.seqStallcc }
      cb := { k.cb with vecStalls := bumpBy (bit vec) k.cb.vecStalls } }

/-! ## Faults at issue -/

/-- The unit that shows a fault of a slot. DEDUCED (log 21). -/
def faultBy (b : Slots) (slot cause : Nat) : FUnit :=
  match cause / 256 with
  | 3 =>
    match b.pun with
    | .plook a => .eng a.eng
    | .pbld _ => .bld
    | _ => .seq
  | 4 => if slot = 1 then (match b.pun with | .plook a => .eng a.eng | _ => .acc) else .acc
  | 5 => .ost
  | 6 => .vec
  | 8 => .rt
  | 10 => .hq
  | _ => .seq

/-- R265: engine number for faults of slot 1. DESIGN CHOICE (log 174). -/
def faultUnitNo (b : Slots) (slot : Nat) : Nat :=
  match slot, b.pun with
  | 1, .plook a => a.eng.val
  | _, _ => 0

/-- R250: two ranges that may not issue together. -/
def clash (a b : SbEntry) : Bool := a.overlaps b && !(a.kind == .read && b.kind == .read)

/-- R250: a read and a write of one instruction that overlap. -/
def selfClash (rs : List SbEntry) : Bool :=
  rs.any fun a => rs.any fun b => a.kind == .write && b.kind == .read && a.overlaps b

def crossClash : List (List SbEntry) → Bool
  | [] => false
  | r :: rest => (r.any fun a => rest.any fun q => q.any fun b => clash a b) || crossClash rest

/-- DEDUCED (log 22). -/
def bundleConflict (ps : List Plan) : Bool :=
  let rs := ps.map (·.ranges)
  rs.any selfClash || crossClash rs

/-- The lowest slot whose ranges conflict, within themselves or with those of a later slot. DEDUCED (log 22). -/
def conflictSlot : Nat → List (List SbEntry) → Nat
  | _, [] => 0
  | i, r :: rest =>
    if selfClash r || (r.any fun a => rest.any fun q => q.any fun b => clash a b) then i else conflictSlot (i + 1) rest

/-- The faults of a bundle's slots, lowest slot first. DEDUCED (log 21). -/
def slotFaults (k : Core) (x : At) (b : Slots) (ps : List Plan) : List FaultReq :=
  ps.zipIdx.filterMap fun p =>
    (p.1.faultAt k).map fun f => (⟨f.1, p.2, faultUnitNo b p.2, x.pc, f.2, faultBy b p.2 f.1⟩ : FaultReq)

/-- A fault takes its place behind those of its slot and of lower slots (R265). -/
def insertFault (f : FaultReq) : List FaultReq → List FaultReq
  | [] => [f]
  | g :: r => if g.slot ≤ f.slot then g :: insertFault f r else f :: g :: r

/-- The faults of a bundle, lowest slot first, "bundle conflict" among them. DEDUCED (log 20, 21, 22). -/
def issueFaults (k : Core) (x : At) (b : Slots) (ps : List Plan) : List FaultReq :=
  let fs := slotFaults k x b ps
  let slot := conflictSlot 0 (ps.map (·.ranges))
  if bundleConflict ps then insertFault ⟨0x0903, slot, faultUnitNo b slot, x.pc, 0, .seq⟩ fs else fs

/-! ## Where control goes (R253, R254) -/

/-- Puts new entries into the free places of the scoreboard, lowest first. -/
def placeAll : List (Option SbEntry) → List SbEntry → List (Option SbEntry)
  | [], _ => []
  | l, [] => l
  | none :: l, e :: es => some e :: placeAll l es
  | some o :: l, es => some o :: placeAll l es

def Core.place (k : Core) (rs : List SbEntry) : Core :=
  { k with sb := Vector.ofFn fun i => (placeAll k.sb.toList rs).getD i.val none }

/-- R254: after the bundle at `pc` in sequence: the frames left, the next offset, and the cost in cc. -/
def loopEnd (pc : Nat) : List LoopFrame → List LoopFrame × Nat × Nat
  | [] => ([], pc + 32, 1)
  | f :: r =>
    if f.last ≠ pc then (f :: r, pc + 32, 1)
    else if f.left = 0 then loopEnd pc r
    else ({ f with left := f.left - 1 } :: r, f.first, if f.last + 32 - f.first ≤ 64 * 32 then 1 else 8)

/-- Puts a group of four bundles into the instruction buffer of 16 groups, newest first. DESIGN CHOICE (log 25). -/
def bufAdd (buf : List Nat) (g : Nat) : List Nat := if buf.contains g then buf else (g :: buf).take 16

/-- R253: the instruction buffer when the bundle at `pc` issues. The bundle after it, which may issue in the next cc, is in it.
DESIGN CHOICE (log 25). -/
def fetched (buf : List Nat) (pc : Nat) : List Nat := bufAdd (bufAdd buf (pc / 128)) ((pc + 32) / 128)

/-- R253, R254: moves the sequencer on; a target outside the window is "program region violation" (R245). The next bundle
issues `cost` cc after this one at the earliest, and until then it has not been fetched. -/
def Core.flow (k : Core) (pc : Nat) (f : Flow) : Core :=
  let q := { k.seq with ibuf := fetched k.seq.ibuf pc }
  let toward := fun (frames : List LoopFrame) (t : Int) (cost : Nat) =>
    let k' := { k with seq := { q with
      loops := frames, pc := BitVec.ofNat 20 t.toNat, cc := q.cc + 1, fetchAt := q.cc + cost } }
    if t < 0 ∨ (Config.windowBytes : Int) ≤ t then
      k'.raise ⟨0x0905, 0, 0, BitVec.ofNat 20 pc, pat 64 t, .seq⟩
    else k'
  match f with
  | .seq => let e := loopEnd pc q.loops; toward e.1 e.2.1 e.2.2
  | .jump t => toward q.loops t (if q.ibuf.contains (t.toNat / 128) then 2 else 8)
  | .loop count body =>
    if count = 0 then let e := loopEnd (pc + 32 * body) q.loops; toward e.1 e.2.1 2
    else toward (⟨pc + 32, pc + 32 * body, count - 1⟩ :: q.loops) (pc + 32) 1
  | .stop => { k with seq := { q with ended := true, state := .ending, cc := q.cc + 1 } }

/-- The control slot's flow; a core that faulted in this cc issues nothing further. -/
def Core.afterIssue (k : Core) (pc : Nat) (f : Flow) : Core :=
  let k1 := { k with
    seq := { k.seq with stall := 0, wdogCount := 0, issues := k.seq.issues + 1 }
    dqu := { k.dqu with takeWait := false, fenceWait := false }
    ca := { k.ca with seqBundles := bump k.ca.seqBundles } }
  if k1.seq.state = .faulted then { k1 with seq := { k1.seq with cc := k1.seq.cc + 1 } }
  else
    let k2 := { k1 with seq := { k1.seq with state := .running } }.flow pc f
    if k.seq.stepOnce && (k2.seq.state == .running || k2.seq.state == .ending) then
      { k2 with seq := { k2.seq with state := .halted, stepOnce := false, passBreak := false } }
    else { k2 with seq := { k2.seq with stepOnce := false, passBreak := false } }

/-! ## Issuing -/

/-- R494: a breakpoint at the next bundle; a core that resumes at one issues its bundle. -/
def Core.atBreak (k : Core) : Bool :=
  !k.seq.stepOnce && !k.seq.passBreak && k.seq.breaks.toList.any (· == some k.seq.pc)

def Core.mayIssue (k : Core) : Bool :=
  (k.seq.state == .running || k.seq.state == .stalled) && !k.seq.ended

/-- R494: halts before the next bundle. -/
def Core.halt (k : Core) : Core := 
  { k with seq := { k.seq with state := .halted, wdogCount := 0, stepOnce := false, passBreak := false } }

/-- The control slot says where control goes. -/
def planFlow : List Plan → Flow
  | p :: _ => p.flow
  | [] => .seq

/-- The descriptors of a bundle's instructions are read (R515), and what errors they hold is found (R263). -/
def readDescs (c : CoreId) (ps : List Plan) (s : State) : State :=
  (ps.flatMap (·.descs)).foldl (fun s d => s.senseSp c d.1 d.2) s

/-- A bundle that does not stall faults, or issues with the effects of its slots in slot order. -/
def issueNow (x : At) (b : Slots) (s : State) : State :=
  let ps := plans s x b
  let k := s.core x.c
  match issueFaults k x b ps with
  | [] =>
    let s1 := s.setCore x.c (k.place (ps.flatMap (·.ranges)))
    let s2 := ps.foldl (fun s p => p.act s) s1
    s2.modCore x.c fun k => k.afterIssue x.pc.toNat (planFlow ps)
  | fs => s.modCore x.c fun k => fs.foldl Core.raise { k with seq := { k.seq with stall := 0 } }

/-- The point of issue of a core's next bundle. -/
def Core.point (k : Core) (c : CoreId) : At := ⟨c, k.seq.cc, k.seq.pc, 4 * k.seq.issues⟩

/-- One cc of issue for a bundle that has been fetched: it stalls, faults or issues. DEDUCED (log 4, 20). -/
def issueAt (c : CoreId) (b : Slots) (s : State) : State :=
  let k := s.core c
  let x := k.point c
  let ps := plans s x b
  let w := k.stallWord ps
  if w ≠ 0 then s.setCore c (k.stalled b ps w) else issueNow x b (readDescs c ps s)

/-- The core as it stands in its present cc: results that are due have landed, entries that are over are free. -/
def Core.present (k : Core) : Core := (k.settle k.seq.cc).sweep k.seq.cc

/-- R248, R253: a cc in which the next bundle has not been fetched. It is no ready bundle, so SEQ_STALLCC and the watchdog do not
count it. DEDUCED (log 24). -/
def Core.awaitFetch (k : Core) : Core :=
  { k with seq := { k.seq with state := .stalled, stall := BitVec.ofNat 64 stallFetch, cc := k.seq.cc + 1 } }

/-- A fault that stops the sequencer before it issues a bundle (R245, R263). -/
def State.raiseFetch (s : State) (c : CoreId) (cause detail : Nat) : State :=
  s.modCore c fun k => Core.raise { k with seq := { k.seq with stall := 0 } } ⟨cause, 0, 0, k.seq.pc, detail, .seq⟩

/-- What comes before issue: a core that issues nothing, a module in state 3 (R451), a bundle not yet fetched (R248), a
breakpoint, an offset outside the region (R245, R494). DEDUCED (log 5). -/
def beforeIssue (c : CoreId) (s : State) (go : State → State) : State :=
  let k := s.core c
  let pc := k.seq.pc.toNat
  if !k.mayIssue || s.hm.state == 3 then s
  else if k.seq.cc < k.seq.fetchAt then s.setCore c k.awaitFetch
  else if k.atBreak then s.setCore c k.halt
  else if pc < k.region.1 ∨ k.region.2 < pc + 32 then s.raiseFetch c 0x0905 pc
  else go (s.setCore c k.present)

/-- A slot instruction's row: the next bundle of core `c` holds it and no-ops in the other slots. DEDUCED (log 5). -/
def issueBundle (c : CoreId) (b : Slots) (s : State) : State := beforeIssue c s (issueAt c b)

/-- BUNDLE_ISSUE (R248): the bundle stands in scratchpad at the program counter. A poisoned word of it faults when it
would issue (R263). DEDUCED (log 4). -/
def issueNext (c : CoreId) (s : State) : State :=
  beforeIssue c s fun s0 =>
    let pc := (s0.core c).seq.pc
    let s := s0.senseSp c pc.toNat 32
    match s.spPoison? c pc.toNat 32 with
    | some o => s.raiseFetch c 0x0906 o
    | none => issueAt c (bundle (s.spRd c pc.toNat 32)) s

end Sys2Proof.Machine
end

