-- ==== Sys2Proof/Machine/Tasks.lean ====
section
/-! DEFINITION. Tasks: start, end, watchdog, end-of-task scrub, bank power, the idle scrubber, scoreboard entries that free
(R244, R246, R255, R259, R261, R262, R264). -/

namespace Sys2Proof.Machine

/-! ## Start (R244) -/

/-- A write of start to SEQ_CTRL (R244): ignored unless the core is idle; a start that fails raises "program region violation".
DESIGN CHOICE (log 26). -/
def State.startTask (s : State) (c : CoreId) : State :=
  let k := s.core c
  if !s.usable c || k.seq.state != .idle || k.seq.filling then s
  else
    let entry := k.seq.entry.toNat * 32
    let k1 := { k with
      faultUnit := none
      faultQuay := none
      seq := { k.seq with
        fault := none, faultThisTask := false, faultRead := false, startCc := k.seq.cc, stall := 0, fetchAt := 0, wdogCount := 0,
        ended := false, loops := [], ibuf := [], frozen := none, pc := BitVec.ofNat 20 entry,
        state := if k.seq.haltAtStart then .halted else .running, haltAtStart := false, stepOnce := false, passBreak := false } }
    let bad := decide (Config.windowBytes < k.region.2) || (k.downByte k.region.1 (k.region.2 - 1)).isSome
      || decide (entry < k.region.1) || decide (k.region.2 ≤ entry)
    let s1 := s.setCore c k1
    if bad then s1.raise c ⟨0x0905, 0, 0, BitVec.ofNat 20 entry, entry, .seq⟩ else s1

/-! ## Scoreboard (R255) -/

/-- SCOREBOARD_RANGE_FREE (R255): an entry that a cycle of its instruction frees; the core's clock moves past it. -/
def State.freeRange (s : State) (c : CoreId) (n : Nat) : State :=
  let k := s.core c
  match k.sb[n]! with
  | some e =>
    match e.free with
    | .atCc t =>
      let now := max k.seq.cc (t + 1)
      let k1 := { k with
        seq := { k.seq with cc := now }
        ca := { k.ca with seqStallcc := if k.seq.state = SeqState.stalled ∧ k.seq.fetchAt ≤ k.seq.cc then bumpBy (now - k.seq.cc) k.ca.seqStallcc else k.ca.seqStallcc } }
      s.setCore c (k1.sweep now)
    | _ => s
  | none => s

/-! ## End (R246) -/

/-- The last cc in which something that the core has issued still happens at a known time. -/
def Core.lastTime (k : Core) : Nat :=
  let sb := k.sb.toList.foldl (fun t o =>
    match o with
    | some e => (match e.free with | .atCc u => max t u | _ => t)
    | none => t) 0
  let pend := k.pend.foldl (fun t w => max t w.time) sb
  let ost := k.ost.jobs.foldl (fun t j => max t (max j.done j.tallyAt)) pend
  k.pipes.toList.foldl (fun t p => max t p.idle) ost

/-- R246: nothing waits for another unit or for bytes. -/
def Core.quiet (k : Core) : Bool :=
  k.engines.toList.all (fun e => e.queue == []) && k.builds == [] && k.pinvs == [] && k.dqu.transfers == []
    && k.dqu.puts == [] && k.sb.toList.all fun o =>
      match o with
      | some e => (match e.free with | .atCc _ => true | _ => false)
      | none => true

/-- TASK_END (R246): after END, once everything issued has completed and every entry is free, the task ends and its
scrub is due. -/
def State.taskEnd (s : State) (c : CoreId) : State :=
  let k := s.core c
  if k.seq.state = .ending ∧ k.quiet then
    let now := max k.seq.cc (k.lastTime + 1)
    let k1 := (k.settle now).sweep now
    s.setCore c { k1 with seq := { k1.seq with state := .scrubbing, cc := now, stall := 0, wdogCount := 0 } }
  else s

/-- WATCHDOG (R259): the count of a bundle, or an END, that stalls reaches the limit. DEDUCED (log 24). -/
def State.watchdogFire (s : State) (c : CoreId) : State :=
  let k := s.core c
  if (k.seq.state = SeqState.stalled ∧ k.seq.fetchAt ≤ k.seq.cc) ∨ k.seq.state = .ending then
    let n := k.seq.wdogLimit.toNat
    let k1 := { k with seq := { k.seq with wdogCount := n, frozen := some (k.sweep k.seq.cc).sb } }
    s.setCore c (k1.raise ⟨0x0908, 0, 0, k.seq.pc, n, .seq⟩)
  else s

/-- SEQ_WDOG_WRITE (R259): the limit is clamped to 250 to 250,000,000. -/
def State.wdogWrite (s : State) (c : CoreId) (v : W64) : State :=
  s.modSeq c fun q => { q with wdogLimit := BitVec.ofNat 28 (min (max (fld v.toNat 0 28) 250) 250000000) }

/-! ## Scrub (R262) -/

/-- Zeroes the powered banks of a core's scratchpad, marks included. -/
def State.zeroBank (s : State) (c : CoreId) (b : Nat) : State :=
  let lo := spKey c (b * 0x10000)
  let hi := lo + 0x10000
  { s with
      mem := s.mem.filter fun p => !(decide (lo ≤ p.1) && decide (p.1 < hi))
      poison := s.poison.filter fun w => !(decide (lo / 8 ≤ w) && decide (w < hi / 8))
      flips := s.flips.filter fun f => !(decide (lo / 8 ≤ f.1) && decide (f.1 < hi / 8)) }

def State.zeroBanks (s : State) (c : CoreId) (on : W16) : State :=
  (List.range 16).foldl (fun s b => if on.getLsbD b then s.zeroBank c b else s) s

/-- R262, R242, R84, R101, R157, R251: what the scrub clears inside the core. -/
def Core.scrubbed (k : Core) : Core :=
  { k with
      seq := { k.seq with state := .scrubbing, zeroing := true, loops := [], ibuf := [], ended := false, stall := 0,
                          wdogCount := 0, frozen := none, stepOnce := false, passBreak := false }
      sb := Vector.replicate 32 none
      s := Vector.replicate 32 0
      v := Vector.replicate 32 0
      m := Vector.replicate 4 0
      pend := []
      ctx := Vector.replicate 4 RedCtx.inactive
      pipes := Vector.replicate 6 ⟨0, 0⟩
      acc := []
      checks := []
      punnets := []
      upsets := []
      builds := []
      engines := Vector.replicate 4 Engine.idle
      pinvs := []
      ost := { k.ost with jobs := [] }
      dqu := { k.dqu with banks := Vector.replicate 2 RtBank.free, takeWait := false, fenceWait := false, readEnd := 0,
                          fetched := [] } }

/-- R282: the scrub resets every queue and clears its sticky bits. -/
def State.clearQueues (s : State) (c : CoreId) : State :=
  (s.core c).dqu.queues.foldl (fun s q =>
    let s1 := s.resetQueue c q.1
    s1.setQ c q.1 { (s1.core c).queue q.1 with perr := false, rewound := false, underrun := false }) s

/-- R273, R514: the held words of a core are discarded and refused: writes on VC0, read data in the DMA unit, the tile of a
transfer. -/
def State.refuseHeld (s : State) (c : CoreId) : State :=
  let mine := fun (m : Msg) => m.dst == .core c && m.held && m.body.isWrite
  let gone := s.mesh.vc0.filter mine ++ (s.core c).dqu.landing
  let s1 := { s with mesh := { s.mesh with vc0 := s.mesh.vc0.filter fun m => !mine m } }
  let s2 := s1.modDqu c fun q =>
    { q with
        landing := []
        transfers := q.transfers.map fun t =>
          if t.held then { t with tile := t.tile + 1, held := false, struck := [], status := mergeStatus t.status 1 } else t }
  gone.foldl (fun s m =>
    match m.body with
    | .write _ _ ref => s.answer (.core c) ref 1
    | .data _ _ ref => s.partDone ref 1
    | _ => s) s2

/-- R246, R265: whether a core's scrub is due: its task has ended, by END or by a fault whose record was read. -/
def Core.scrubDue (k : Core) : Bool :=
  (k.seq.state == .scrubbing && !k.seq.zeroing) || (k.seq.state == .faulted && k.seq.faultRead)

/-- END_OF_TASK_SCRUB (R262). -/
def State.scrub (s : State) (c : CoreId) : State :=
  let k := s.core c
  if k.scrubDue then
    (((s.zeroBanks c k.seq.bankOn).modCore c Core.scrubbed).clearQueues c).refuseHeld c
  else s

/-- END_OF_TASK_SCRUB_DONE (R262): after 1,024 cc. DESIGN CHOICE (log 44). -/
def State.scrubDone (s : State) (c : CoreId) : State :=
  if (s.core c).seq.state = .scrubbing ∧ (s.core c).seq.zeroing then
    s.modSeq c fun q => { q with state := .idle, zeroing := false, cc := q.cc + 1024 }
  else s

/-! ## Bank power (R261) -/

/-- SPD_BANKPWR_WRITE (R261): discarded while the core is not idle; a bank that powers up is filled with zeros. -/
def State.bankpwrWrite (s : State) (c : CoreId) (on : W16) : State :=
  let k := s.core c
  if k.seq.state != .idle || !s.usable c then s
  else
    let up := on &&& ~~~k.seq.bankOn
    (s.zeroBanks c up).modSeq c fun q => { q with bankOn := on, filling := q.filling || up != 0 }

/-- BANK_FILL_DONE (R261): after 1,024 cc. -/
def State.fillDone (s : State) (c : CoreId) : State :=
  if (s.core c).seq.filling then s.modSeq c fun q => { q with filling := false, cc := q.cc + 1024 } else s

/-! ## The idle scrubber (R264) -/

/-- Powered banks in address order. -/
def Core.banks (k : Core) : List Nat := (List.range 16).filter fun b => k.seq.bankOn.getLsbD b

/-- R264: accesses of a pass. -/
def Core.passLength (k : Core) : Nat := 1024 * k.banks.length + 8192

/-- The memory of access `p` of a pass, and the index in it of the first of its eight words. -/
def Core.scrubAt (k : Core) (p : Nat) : ScrubMem × Nat :=
  let n := 1024 * k.banks.length
  if p < n then (.scratchpad, k.banks.getD (p / 1024) 0 * 8192 + p % 1024 * 8)
  else if p < n + 4096 then (.punnet, (p - n) * 8)
  else (.accumulator, (p - n - 4096) * 8)

/-- The eight words of a scrubber access are read: the errors that lie in them are found. -/
def State.senseWords (s : State) (c : CoreId) (mem : ScrubMem) (first : Nat) : State :=
  match mem with
  | .scratchpad => s.senseSp c (8 * first) 64
  | m => s.senseCore c fun f => f.mem == m && decide (first ≤ f.word) && decide (f.word < first + 8)

/-- SCRUB_ACCESS (R264): one 64-byte access; a completed pass counts. `struck` are the bit errors that have struck the core's
memories since the last access; the access finds those that lie in its words, and the others stay until a read finds them.
DESIGN CHOICE (log 44). -/
def State.scrubAccess (s : State) (c : CoreId) (struck : List ScrubFind) : State :=
  if !s.usable c then s
  else
    let k := s.core c
    let at_ := k.scrubAt k.seq.scrubPos
    let s1 := (struck.foldl (fun s f => s.strike c f) s).senseWords c at_.1 at_.2
    if k.seq.scrubPos + 1 < k.passLength then s1.modSeq c fun q => { q with scrubPos := k.seq.scrubPos + 1 }
    else (s1.modSeq c fun q => { q with scrubPos := 0 }).modCa c fun a => { a with spdPasses := bump a.spdPasses }

end Sys2Proof.Machine
end

