-- ==== Sys2Proof/Machine/Tgc.lean ====
section
/-! DEFINITION. The traffic generators and checkers, in-service bits, berth pools' counts, anchorage temperature (R217, R218,
R321 to R324). -/

namespace Sys2Proof.Machine

def State.tgc (s : State) (ch : ChannelId) : Tgc := Sparse.get Tgc.reset s.ms.tgcs ch.val

def State.setTgc (s : State) (ch : ChannelId) (g : Tgc) : State :=
  { s with ms := { s.ms with tgcs := Sparse.put Tgc.reset s.ms.tgcs ch.val g } }

/-- TGC_CTRL and TGC_RANGE fields. -/
def Tgc.op (g : Tgc) : Nat := fld g.ctrl.toNat 8 4
def Tgc.pat (g : Tgc) : Nat := fld g.ctrl.toNat 12 4
def Tgc.rnd (g : Tgc) : Bool := tb g.ctrl.toNat 7
def Tgc.stopErr (g : Tgc) : Bool := tb g.ctrl.toNat 6
def Tgc.first (g : Tgc) : Nat := fld g.range.toNat 0 20
def Tgc.npages (g : Tgc) : Nat := fld g.range.toNat 32 20

/-- R323: the word of the random pattern at channel byte address `b`. -/
def Tgc.random (g : Tgc) (ch b : Nat) : W64 :=
  let m := b / 16
  let q := philox g.seed ⟨BitVec.ofNat 32 m, BitVec.ofNat 32 (m / 2 ^ 32), BitVec.ofNat 32 ch, 0x5447⟩
  if b / 8 % 2 = 0 then q.b ++ q.a else q.d ++ q.c

/-- R323: the word of the pattern at channel byte address `b`. -/
def Tgc.word (g : Tgc) (ch b : Nat) : W64 :=
  match g.pat with
  | 0 => g.random ch b
  | 1 => BitVec.ofNat 64 b
  | 2 => BitVec.ofNat 64 (2 ^ (b / 8 % 64))
  | 3 => if (dramPlace b).row % 2 = 0 then 0x5555555555555555 else 0xAAAAAAAAAAAAAAAA
  | _ => g.fixed

/-- What a page visit of a run does. -/
inductive Visit where
  | write | compare | read
  deriving DecidableEq, Repr

/-- The items in the order in which draws take them from those left; what no draw takes follows in order. -/
def drawOrder {α : Type} : List Nat → List α → List α
  | [], xs => xs
  | k :: ks, xs =>
    match xs[k % xs.length]? with
    | some x => x :: drawOrder ks (xs.eraseIdx (k % xs.length))
    | none => []

/-- R323: the generator's words for the page order of a channel: draw `m` has the counter of R323 with last word 0x5448. -/
def Tgc.orderWord (g : Tgc) (ch m : Nat) : BitVec 128 :=
  let q := philox g.seed ⟨BitVec.ofNat 32 m, BitVec.ofNat 32 (m / 2 ^ 32), BitVec.ofNat 32 ch, 0x5448⟩
  q.d ++ q.c ++ q.b ++ q.a

/-- R323: the pages of one pass, in order. DESIGN CHOICE (log 53). -/
def Tgc.pages (g : Tgc) (ch : Nat) : List Nat :=
  let ps := (List.range g.npages).map (g.first + ·)
  if g.rnd then drawOrder (Config.pageDraws ((List.range g.npages).map (g.orderWord ch))) ps else ps

/-- R323: the visits of one pass. -/
def Tgc.visits (g : Tgc) (ch : Nat) : List (Nat × Visit) :=
  let ps := g.pages ch
  match g.op with
  | 0 => ps.map fun p => (p, .write)
  | 1 => ps.map fun p => (p, .compare)
  | 2 => ps.map (fun p => (p, .write)) ++ ps.map fun p => (p, .compare)
  | 3 => ps.map fun p => (p, .read)
  | _ => ps.flatMap fun p => [(p, .write), (p, .compare)]

/-- R324: a mismatched word. -/
def Tgc.mismatch (g : Tgc) (b : Nat) (want got : W64) : Tgc :=
  if g.err then { g with errs := bump g.errs }
  else { g with err := true, errs := bump g.errs, firstA := BitVec.ofNat 32 b, firstX := want, firstG := got }

/-- Compares `n` words from channel byte address `b` on; with stop_err the burst of four words that holds the first
mismatch is the last. -/
def Tgc.compareWords (mem : List Host.Cell) (ch : Nat) : Nat → Nat → Tgc → Tgc
  | _, 0, g => g
  | b, n + 1, g =>
    let got : W64 := BitVec.ofNat 64 (memRead mem (ch * Config.channelBytes + b) 8)
    let want := g.word ch b
    let g1 := if got = want then g else g.mismatch b want got
    let g2 := { g1 with bytes := bumpBy 8 g1.bytes }
    if g2.stopErr && g2.err && b % 32 == 24 then g2 else compareWords mem ch (b + 8) n g2

/-- The first `n` bursts of 32 bytes of a page visit; a whole page has 128. The bytes are as the stack stores them (R317). -/
def State.visit (s : State) (ch : ChannelId) (n : Nat) (v : Nat × Visit) (g : Tgc) : State × Tgc :=
  let b := v.1 * 4096
  match v.2 with
  | .write =>
    let ws := (List.range (4 * n)).map fun i => (⟨g.word ch.val (b + 8 * i), false⟩ : MWord)
    ((s.wrWords (ch.val * Config.channelBytes + b) ws).1, { g with bytes := bumpBy (32 * n) g.bytes })
  | .compare => (s, Tgc.compareWords s.mem ch.val b (4 * n) g)
  | .read => (s, { g with bytes := bumpBy (32 * n) g.bytes })

/-- R324: visits until the first mismatch with stop_err, or all of them. -/
def runVisits (ch : ChannelId) : List (Nat × Visit) → State × Tgc → State × Tgc
  | [], q => q
  | v :: r, q => if q.2.stopErr && q.2.err then q else runVisits ch r (q.1.visit ch 128 v q.2)

/-- Passes of a run; a pass counts when it is completed. DESIGN CHOICE (log 54). -/
def runPasses (ch : ChannelId) (vs : List (Nat × Visit)) : Nat → State × Tgc → State × Tgc
  | 0, q => q
  | n + 1, q =>
    if q.2.stopErr && q.2.err then q
    else
      let r := runVisits ch vs q
      runPasses ch vs n (if r.2.stopErr && r.2.err then r else (r.1, { r.2 with passes := r.2.passes + 1 }))

/-- R322, R323: whether a start is refused. -/
def State.tgcRefused (s : State) (ch : ChannelId) (g : Tgc) : Bool :=
  s.ms.chsvc.getLsbD ch.val || decide (4 < g.op) || decide (4 < g.pat) || decide (Config.channelPages < g.first + g.npages)

/-- TGC_GO (R323, R324): ignored while busy. -/
def State.tgcGo (s : State) (ch : ChannelId) : State :=
  let g := s.tgc ch
  if g.busy then s
  else if s.tgcRefused ch g then s.setTgc ch { g with refused := true, done := true }
  else
    s.setTgc ch { g with
      passes := 0, err := false, done := false, busy := true, refused := false, errs := 0, firstA := 0, firstX := 0,
      firstG := 0, bytes := 0, memcc := 0, stopReq := false }

/-- TGC_STOP (R324): the run stops at the end of its burst. DESIGN CHOICE (log 54). -/
def State.tgcStop (s : State) (ch : ChannelId) : State :=
  let g := s.tgc ch
  if g.busy then s.setTgc ch { g with stopReq := true } else s

/-- TGC_STATUS (table). DEDUCED (log 55). -/
def Tgc.statusWord (g : Tgc) : W64 :=
  BitVec.ofNat 64 (g.passes.toNat * 2 ^ 32 + bit g.err * 8 + bit g.done * 4 + bit g.busy * 2 + bit g.refused)

/-- The first `k` bursts of the visits: whole pages, then a part of the next one. -/
def runBursts (ch : ChannelId) (vs : List (Nat × Visit)) (k : Nat) (q : State × Tgc) : State × Tgc :=
  let r := runVisits ch (vs.take (k / 128)) q
  match vs[k / 128]? with
  | some v => if r.2.stopErr && r.2.err then r else r.1.visit ch (k % 128) v r.2
  | none => r

/-- The run's effect on memory and on its registers. At which burst a run that was stopped had come is a free value; a run
without end ends by itself only at a mismatch, which its first pass shows. DESIGN CHOICE (log 54). -/
def State.tgcRun (s : State) (ch : ChannelId) (g : Tgc) : State × Tgc :=
  let vs := g.visits ch.val
  let draw := (Config.freeWord s.free).toNat
  if g.stopReq then
    let n := if g.loops = 0 then draw / 2 ^ 32 else draw / 2 ^ 32 % g.loops.toNat
    runBursts ch vs (draw % 2 ^ 32 % (128 * vs.length + 1)) (runPasses ch vs n ({ s with free := s.free + 1 }, g))
  else runPasses ch vs (if g.loops = 0 then 1 else g.loops.toNat) (s, g)

/-- The ticket of a TGC_RUN of the channel finishes. DEDUCED (log 55). -/
def State.tgcTicket (s : State) (ch : ChannelId) (result : W64) : State :=
  match s.host.tickets.find? fun t => t.op == 0x0602 && t.object == ch.val && t.st != .finished with
  | some t => s.finish t.num stDone result
  | none => s

/-- TGC_RUN_END (R324). A channel whose in-service bit was written meanwhile returns to service (R322). -/
def State.tgcRunEnd (s : State) (ch : ChannelId) (memcc : Nat) : State :=
  let g := s.tgc ch
  if !g.busy then s
  else
    let q := s.tgcRun ch g
    if g.loops == 0 && !g.stopReq && !(g.stopErr && q.2.err) then s
    else
      let g2 := { q.2 with busy := false, done := true, memcc := bumpBy memcc 0, stopReq := false, svcReq := false }
      let s2 := (q.1.setTgc ch g2).tgcTicket ch g2.statusWord
      if g.svcReq then { s2 with ms := { s2.ms with chsvc := s2.ms.chsvc ||| BitVec.ofNat 256 (2 ^ ch.val) } } else s2

/-- MEM_CHSVC_WRITE (R322): a busy channel's bit is set when its run has stopped. -/
def State.chsvcWrite (s : State) (i : BitVec 2) (v : W64) : State :=
  (List.range 64).foldl (fun s j =>
    let ch : ChannelId := Fin.ofNat 256 (64 * i.toNat + j)
    let one : BitVec 256 := BitVec.ofNat 256 (2 ^ ch.val)
    let g := s.tgc ch
    if tb v.toNat j then
      if g.busy then s.setTgc ch { g with stopReq := true, svcReq := true }
      else { s with ms := { s.ms with chsvc := s.ms.chsvc ||| one } }
    else
      let s1 := if g.svcReq then s.setTgc ch { g with svcReq := false } else s
      { s1 with ms := { s1.ms with chsvc := s1.ms.chsvc &&& ~~~one } }) s

/-- BPOOL_COUNT_WRITE (R217, R218): every berth of a new pool is free; discarded while a model is bound. DEDUCED (log 56). -/
def State.poolCount (s : State) (anch : Bool) (v : W32) : State :=
  if s.hm.man.isSome then s
  else if anch then { s with ms := { s.ms with apCount := v, apFree := v } }
  else { s with ms := { s.ms with bpCount := v, bpFree := v } }

/-- TGC_RUN (R417): the registers are written and the run started, unless the channel is in use. -/
def State.tgcCommand (s : State) (i : Issuer) (ch : ChannelId) (ctrl range seed fixed loops : W64) : State :=
  let g := s.tgc ch
  if g.busy || s.ms.chsvc.getLsbD ch.val then s.reply i stRefused []
  else
    s.issue i 0x0602 0 0 ch.val fun _ s =>
      let g1 := { g with ctrl := ctrl &&& 0xFFC0, range := range &&& 0x000FFFFF000FFFFF, seed := seed, fixed := fixed,
                         loops := loops.extractLsb' 0 32 }
      let s1 := (s.setTgc ch g1).tgcGo ch
      if (s1.tgc ch).refused then s1.tgcTicket ch (s1.tgc ch).statusWord else s1

/-- TGC_RUN (R417). -/
def execTgcRun (i : Issuer) (ch : ChannelId) (ctrl range seed fixed loops : W64) (s : State) :
    Host.Outcome State Fault Refusal :=
  .next (s.command i 0x0602 fun s => s.tgcCommand i ch ctrl range seed fixed loops)

/-- TGC_GO (R323). -/
def execTgcGo (ch : ChannelId) (s : State) : Host.Outcome State Fault Refusal := s.live fun s => s.tgcGo ch

/-- TGC_STOP (R324). -/
def execTgcStop (ch : ChannelId) (s : State) : Host.Outcome State Fault Refusal := .next (s.tgcStop ch)

/-- TGC_RUN_END (R324). -/
def execTgcRunEnd (ch : ChannelId) (memcc : Nat) (s : State) : Host.Outcome State Fault Refusal :=
  .next (s.tgcRunEnd ch memcc)

/-- MEM_CHSVC_WRITE (R322). -/
def execMemChsvcWrite (i : BitVec 2) (v : W64) (s : State) : Host.Outcome State Fault Refusal :=
  s.live fun s => s.chsvcWrite i v

/-- BPOOL_COUNT_WRITE (R217). -/
def execBpoolCountWrite (anch : Bool) (v : W32) (s : State) : Host.Outcome State Fault Refusal :=
  s.live fun s => s.poolCount anch v

/-- ANCHORAGE_TEMPERATURE (R321): the controller raises the event and goes on. -/
def execAnchorageTemperature (k : AnchId) (s : State) : Host.Outcome State Fault Refusal :=
  s.live fun s => s.note 0x0B05 0 3 k.val 0 0 [BitVec.ofNat 64 k.val]

end Sys2Proof.Machine
end

