-- ==== Sys2Proof/Machine/GlobalRegs.lean ====
section
/-! DEFINITION. Control space (R292): reads and writes of every register by its address, as R11 and the register maps of the
chapters say (R97, R126, R153, R178, R218, R242, R243, R268, R289, R327, R397, R448, R467, R487, DBG_). -/

namespace Sys2Proof.Machine

/-! ## Where an address lies -/

/-- The blocks of control space. -/
inductive CtlBlock where
  | core (c : CoreId)
  | mem
  | channel (ch : ChannelId)
  | anc
  | ctrl (k : AnchId)
  | fabric
  | port (p : PortId)
  | uplink (u : UplinkId)
  | sec
  | bbx
  | pwr
  | clk
  | thm
  | dbg
  deriving DecidableEq, Repr

/-- The block and the offset in it, or none for an unmapped address. -/
def ctlBlock (addr : Nat) : Option (CtlBlock × Nat) :=
  let a := addr - Config.controlBase
  if addr < Config.controlBase then none
  else if a < 2304 * 0x10000 then some (.core (Fin.ofNat 2304 (a / 0x10000)), a % 0x10000)
  else if 0x10000000 ≤ a ∧ a < 0x10010000 then some (.mem, a - 0x10000000)
  else if 0x11000000 ≤ a ∧ a < 0x11100000 then some (.channel (Fin.ofNat 256 ((a - 0x11000000) / 0x1000)), a % 0x1000)
  else if 0x13000000 ≤ a ∧ a < 0x13010000 then some (.anc, a - 0x13000000)
  else if 0x13100000 ≤ a ∧ a < 0x13110000 then some (.ctrl (Fin.ofNat 16 ((a - 0x13100000) / 0x1000)), a % 0x1000)
  else if 0x14000000 ≤ a ∧ a < 0x14010000 then some (.fabric, a - 0x14000000)
  else if 0x14100000 ≤ a ∧ a < 0x14106000 then some (.port (Fin.ofNat 6 ((a - 0x14100000) / 0x1000)), a % 0x1000)
  else if 0x14200000 ≤ a ∧ a < 0x14202000 then some (.uplink (Fin.ofNat 2 ((a - 0x14200000) / 0x1000)), a % 0x1000)
  else if 0x16000000 ≤ a ∧ a < 0x16010000 then some (.sec, a - 0x16000000)
  else if 0x17000000 ≤ a ∧ a < 0x17010000 then some (.bbx, a - 0x17000000)
  else if 0x18000000 ≤ a ∧ a < 0x18010000 then some (.pwr, a - 0x18000000)
  else if 0x19000000 ≤ a ∧ a < 0x19010000 then some (.clk, a - 0x19000000)
  else if 0x1A000000 ≤ a ∧ a < 0x1A010000 then some (.thm, a - 0x1A000000)
  else if 0x1B000000 ≤ a ∧ a < 0x1B010000 then some (.dbg, a - 0x1B000000)
  else none

/-! ## Reads -/

/-- MEM_CHLIST bytes from entry `i` on. -/
def State.chlistWord (s : State) (i : Nat) : W64 :=
  BitVec.ofNat 64 (packFields 8 ((List.range 8).map fun j => s.chlistAt (i + j)))

/-- MEM_ global block (R325). -/
def State.readMem (s : State) (o : Nat) : W64 :=
  let m := s.ms
  if o < 0x80 then m.temps.toList.getD (o / 8) 0
  else if 0x100 ≤ o ∧ o < 0x120 then m.chsvc.extractLsb' (64 * ((o - 0x100) / 8)) 64
  else if 0x1000 ≤ o ∧ o < 0x2000 then
    let p := s.winAt ((o - 0x1000) / 16)
    if o % 16 = 0 then p.1 else p.2
  else if 0x2000 ≤ o ∧ o < 0x3000 then s.chlistWord (o - 0x2000)
  else if 0x4000 ≤ o ∧ o < 0x5000 then
    let p := Sparse.get (0, 0) m.prots ((o - 0x4000) / 16)
    if o % 16 = 0 then p.1 else p.2
  else match o with
  | 0x200 => m.unmapped
  | 0xC00 => m.bpBase
  | 0xC08 => m.bpCount.setWidth 64
  | 0xC10 => m.bpFree.setWidth 64
  | 0xC18 => m.bcow
  | 0xC20 => m.bevict
  | 0xC28 => m.bcompact
  | 0xC30 => m.bunwind
  | 0xC38 => m.bhold
  | 0xC40 => m.bchk
  | _ => 0

/-- MEM_CH counters or ANC_ counters. -/
def State.readCtr (s : State) (k : Ctrl) (o : Nat) : W64 :=
  let c := Sparse.get ⟨0, 0, 0, 0⟩ s.ms.chans (ctrlIx k)
  match o with
  | 0x00 => c.corr
  | 0x08 => c.uncorr
  | 0x10 => c.rd
  | 0x18 => c.wr
  | _ => 0

/-- TGC_ registers; go and stop read zero. -/
def Tgc.read (g : Tgc) (o : Nat) : W64 :=
  match o with
  | 0x100 => g.ctrl
  | 0x108 => g.range
  | 0x110 => g.seed
  | 0x118 => g.fixed
  | 0x120 => g.loops.setWidth 64
  | 0x128 => g.statusWord
  | 0x130 => g.errs
  | 0x138 => g.firstA.setWidth 64
  | 0x140 => g.firstX
  | 0x148 => g.firstG
  | 0x150 => g.bytes
  | 0x158 => g.memcc
  | _ => 0

/-- ANC_ global block (R218). -/
def State.readAnc (s : State) (o : Nat) : W64 :=
  match o with
  | 0x400 => s.ms.apBase
  | 0x408 => s.ms.apCount.setWidth 64
  | 0x410 => s.ms.apFree.setWidth 64
  | 0x418 => s.ms.bexpire
  | 0x420 => s.ms.ancBchk
  | _ => 0

/-- Global fabric block (R397). -/
def State.readFabric (s : State) (o : Nat) : W64 :=
  let f := s.fab
  if 0x100 ≤ o ∧ o < 0x500 then
    let p := Sparse.get (0, 0) f.slips ((o - 0x100) / 16)
    if o % 16 = 0 then p.1 else p.2
  else match o with
  | 0x00 => f.coord
  | 0x08 => f.slice
  | 0x10 => f.step.setWidth 64
  | 0x18 => f.cfgdig
  | 0x20 => f.mismatch
  | 0x28 => f.mismatches
  | 0x30 => f.heldCtr
  | _ => 0

/-- State code of XLK_STATUS and UPL_STATUS. -/
def LinkState.code : LinkState → Nat
  | .disabled => 0
  | .training => 1
  | .wide => 2
  | .narrow => 3
  | .down => 4
  | .fenced => 5

def FPort.status (f : FPort) : W64 :=
  BitVec.ofNat 64 (f.link.code * 2 ^ 5 + bit f.wrap * 2 ^ 4 + bit f.miswired * 2 ^ 3 + bit f.half * 2 ^ 2 + bit f.retrain * 2)

def FPort.read (f : FPort) (o : Nat) : W64 :=
  match o with
  | 0x00 => BitVec.ofNat 64 (f.cdcEn.toNat * 2 ^ 4 + bit f.en)
  | 0x08 => f.status
  | 0x10 => f.neigh
  | 0x100 => f.txFrames
  | 0x108 => f.rxFrames
  | 0x110 => f.naks
  | 0x118 => f.replayed
  | 0x120 => f.viol
  | 0x128 => f.retrains
  | 0x130 => f.cdcSaved
  | _ => 0

def UPort.status (u : UPort) : W64 := BitVec.ofNat 64 (u.link.code * 2 ^ 5 + bit u.retrain * 2 + bit u.ptp)

def UPort.ptpStat (u : UPort) : W64 := BitVec.ofNat 64 (u.ptpState.toNat * 2 ^ 32 + u.ptpErr.toNat)

def UPort.read (u : UPort) (o : Nat) : W64 :=
  match o with
  | 0x00 => u.status
  | 0x08 => u.ip0
  | 0x10 => u.ip1
  | 0x18 => u.udp.setWidth 64
  | 0x20 => u.vlan.setWidth 64
  | 0x28 => u.ptpStat
  | 0x100 => u.tx
  | 0x108 => u.rx
  | 0x110 => u.drops
  | 0x118 => u.viol
  | 0x120 => u.pause
  | 0x128 => u.retx
  | _ => 0

/-- SEC_STATE (R447). -/
def State.secState (s : State) : W64 :=
  BitVec.ofNat 64
    (s.flash.fuses * 2 ^ 16 + s.sec.run.svn.toNat * 2 ^ 8 + bit s.sec.debugged * 2 ^ 7 + s.sec.scope.toNat * 2 ^ 4
      + bit s.sec.fallback * 2 ^ 3 + bit s.sec.recovery * 2 ^ 2 + bit s.sec.bootedB * 2)

/-- A key slot (R439). -/
def State.keySlot (s : State) (k : Nat) : KeyS := Sparse.get KeyS.empty s.sec.slots k

/-- SEC_KEYS. -/
def State.secKeys (s : State) : W64 :=
  BitVec.ofNat 64 (((List.range 64).map fun k => if (s.keySlot k).key.isSome then 2 ^ k else 0).sum)

def State.readSec (s : State) (o : Nat) : W64 :=
  match o with
  | 0x00 => s.secState
  | 0x08 => s.secKeys
  | 0x10 => BitVec.ofNat 64 (bit s.sec.regValid * 2 ^ 8 + s.sec.region.toNat)
  | 0x18 => s.sec.rackaddr.setWidth 64
  | 0x100 => s.sec.sigfail
  | 0x108 => s.sec.idefail
  | 0x110 => s.sec.rackviol
  | 0x118 => s.sec.unlockfail
  | _ => 0

/-- BBX_ block (R467). -/
def State.readBbx (s : State) (o : Nat) : W64 :=
  match o with
  | 0x00 => BitVec.ofNat 64 (bit s.bbx.broken * 2 ^ 11 + min 1024 s.bbx.waiting.length)
  | 0x08 => s.bbx.newest.setWidth 64
  | 0x10 => s.bbx.oldest.setWidth 64
  | 0x100 => s.bbx.commits
  | 0x108 => s.bbx.lost
  | _ => 0

def Pwr.readPwr (p : Pwr) (o : Nat) : W64 :=
  match o with
  | 0x00 => BitVec.ofNat 64
      (p.power.toNat * 2 ^ 48 + p.current.toNat * 2 ^ 32 + p.voltage.toNat * 2 ^ 16 + p.band.toNat)
  | 0x08 => p.good.setWidth 64
  | 0x10 => BitVec.ofNat 64 (p.ms.toNat * 2 ^ 32 + bit p.warm * 2 ^ 28 + p.stage % 16 * 2 ^ 24 + bit p.selftest)
  | _ => 0

def Pwr.readClk (p : Pwr) (o : Nat) : W64 :=
  match o with
  | 0x00 => BitVec.ofNat 64 (p.ppm.toNat * 2 ^ 32 + p.lanes.toNat * 2 ^ 2 + bit p.pcie * 2 + bit p.root)
  | 0x08 => BitVec.ofNat 64
      (bit p.hold * 2 ^ 19 + bit p.dPower * 2 ^ 18 + bit p.dJunc * 2 ^ 17 + bit p.dDram * 2 ^ 16 + p.kmax % 16 * 2 ^ 8 + p.k % 16)
  | 0x100 => p.swallowed
  | _ => 0

def Pwr.readThm (p : Pwr) (o : Nat) : W64 :=
  match o with
  | 0x00 => p.junc[0].setWidth 64
  | 0x08 => p.junc[1].setWidth 64
  | 0x10 => p.junc[2].setWidth 64
  | 0x18 => p.junc[3].setWidth 64
  | 0x20 => p.inlet.setWidth 64
  | 0x100 => p.downs
  | 0x108 => p.holds
  | _ => 0

/-- R496: debug hold: some core, or harbourmaster core, is halted by debug. DEDUCED (log 181). -/
def State.debugHold (s : State) : Bool :=
  (s.cores.any fun p => p.2.seq.state == .halted) || s.dbg.hms.toList.any (·.halted)

/-- DBG_STATUS (R496). -/
def State.dbgStatus (s : State) : W64 :=
  let h := fun (i : Nat) => bit ((s.dbg.hms.toList.getD i HmCore.reset).halted)
  BitVec.ofNat 64
    (bit s.flash.selfTest * 2 ^ 16 + h 3 * 2 ^ 15 + h 2 * 2 ^ 14 + h 1 * 2 ^ 13 + h 0 * 2 ^ 12 + bit s.debugHold * 2 ^ 11
      + bit s.dbg.chal.isSome * 2 ^ 10 + s.dbg.fails % 16 * 2 ^ 6 + bit (decide (8 ≤ s.dbg.fails)) * 2 ^ 5
      + bit s.sec.debugged * 2 ^ 4 + s.sec.scope.toNat)

def State.readDbg (s : State) (o : Nat) : W64 :=
  match o with
  | 0x00 => s.dbgStatus
  | 0x100 => s.dbg.cmds
  | 0x108 => s.dbg.denied
  | _ => 0

/-- A read of a control-space word. None: the address is unmapped, or names a fused-off core. -/
def State.ctlRead (s : State) (addr : Nat) : Option W64 :=
  match ctlBlock addr with
  | none => none
  | some (b, o) =>
    match b with
    | .core c => if s.usable c then some ((s.core c).readReg o) else none
    | .mem => some (s.readMem o)
    | .channel ch => some (if o < 0x100 then s.readCtr (.channel ch) o else (s.tgc ch).read o)
    | .anc => some (s.readAnc o)
    | .ctrl k => some (s.readCtr (.anch k) o)
    | .fabric => some (s.readFabric o)
    | .port p => some ((s.port p).read o)
    | .uplink u => some ((s.up u).read o)
    | .sec => some (s.readSec o)
    | .bbx => some (s.readBbx o)
    | .pwr => some (s.pwr.readPwr o)
    | .clk => some (s.pwr.readClk o)
    | .thm => some (s.pwr.readThm o)
    | .dbg => some (s.readDbg o)

/-! ## Writes -/

/-- R261, R289: registers of a core that are written only while it is idle. -/
def idleOnly (o : Nat) : Bool :=
  o == 0x180 || o == 0x500 || o == 0x540 || (decide (0x600 ≤ o) && decide (o < 0x800)) || (decide (0x1000 ≤ o) && decide (o < 0x1400))

/-- HQ_QSTATq (R282): W1C bits, and rst. A bit that the reset sets ends set (R13). -/
def State.writeQstat (s : State) (c : CoreId) (q : Nat) (v : Nat) : State :=
  let s1 := s.modCore c fun k =>
    let h := k.queue q
    k.setQueue q { h with perr := h.perr && !tb v 3, rewound := h.rewound && !tb v 2, underrun := h.underrun && !tb v 1 }
  if tb v 7 then s1.resetQueue c q else s1

/-- A write of a core's control window (R243). -/
def State.writeCore (s : State) (c : CoreId) (o : Nat) (v : W64) : State :=
  let k := s.core c
  let n := v.toNat
  if !s.usable c || o % 8 != 0 || (idleOnly o && k.seq.state != .idle) then s
  else if 0x600 ≤ o ∧ o < 0x800 then
    s.modDqu c fun q => { q with mcBox := Sparse.put 0 q.mcBox ((o - 0x600) / 8) (v.extractLsb' 0 24) }
  else if 0x1000 ≤ o ∧ o < 0x1400 then
    let q := (o - 0x1000) / 8
    s.modCore c fun k => k.setQueue q { k.queue q with cfg := v &&& 0xFFFFF8 }
  else if 0x1800 ≤ o ∧ o < 0x1C00 then s.writeQstat c ((o - 0x1800) / 8) n
  else match o with
  | 0x00 => if tb n 0 then s.startTask c else s
  | 0x08 => s.modSeq c fun q => { q with
      base := BitVec.ofNat 15 (fld n 33 15), nbm1 := BitVec.ofNat 15 (fld n 18 15), entry := BitVec.ofNat 15 (fld n 3 15) }
  | 0x10 => s.wdogWrite c v
  | 0x180 => s.bankpwrWrite c (v.extractLsb' 0 16)
  | 0x308 => s.modCore c fun k => { k with ost := { k.ost with rotSeed := v } }
  | 0x310 => s.modCore c fun k => { k with ost := { k.ost with g8Seed := v } }
  | 0x318 => s.modCore c fun k => { k with ost := { k.ost with step := v, poisonSeen := false } }
  | 0x488 => s.modDqu c fun q => { q with rtArea := BitVec.ofNat 14 (fld n 6 14) }
  | 0x500 => s.modDqu c fun q => { q with area := v &&& 0xFFFFFFFFFF }
  | 0x540 => s.modDqu c fun q => { q with mcMemb := v }
  | _ => s

/-- R315: regions that are enabled, have a size and are treated as disabled, by number: they break one of its two rules. -/
def State.badRegions (s : State) : List Nat :=
  (s.ms.prots.filter fun p =>
    tb p.2.1.toNat 63 && fld p.2.2.toNat 32 26 != 0 && !(s.regions.any fun r => r.1 == fld p.2.2.toNat 0 26 && r.2.1 == fld p.2.2.toNat 32 26)).map (·.1)

/-- SEC_REGERR holds the first such region since it was cleared. -/
def State.checkRegions (s : State) (written : Nat) : State :=
  let bad := s.badRegions
  if s.sec.regValid || bad == [] then s
  else
    let r := if bad.contains written then written else bad.headD 0
    { s with sec := { s.sec with regValid := true, region := BitVec.ofNat 8 r } }

/-- MEM_CHLIST bytes; an entry equal to i % 256 is not listed. -/
def State.writeChlist (s : State) (i : Nat) (v : W64) : State :=
  (List.range 8).foldl (fun s j =>
    let b : Byte := v.extractLsb' (8 * j) 8
    let l := s.ms.chlist.filter fun p => p.1 != i + j
    { s with ms := { s.ms with chlist := if b.toNat = (i + j) % 256 then l else Sparse.insert (i + j) b l } }) s

/-- MEM_ global block. DEDUCED (log 56). -/
def State.writeMemReg (s : State) (o : Nat) (v : W64) : State :=
  if o % 8 ≠ 0 then s
  else if 0x100 ≤ o ∧ o < 0x120 then s.chsvcWrite (BitVec.ofNat 2 ((o - 0x100) / 8)) v
  else if 0x1000 ≤ o ∧ o < 0x2000 then
    let mask : W64 := if o % 16 = 0 then 0x8FFFFFFFFFF00000 else 0x000FFFFFF0000FFF
    { s with ms := { s.ms with wins := putPair s.ms.wins ((o - 0x1000) / 16) (o % 16 == 8) (v &&& mask) } }
  else if 0x2000 ≤ o ∧ o < 0x3000 then s.writeChlist (o - 0x2000) v
  else if 0x4000 ≤ o ∧ o < 0x5000 then
    let r := (o - 0x4000) / 16
    let mask : W64 := if o % 16 = 0 then 0x803F03F000000000 else 0x03FFFFFF03FFFFFF
    ({ s with ms := { s.ms with prots := putPair s.ms.prots r (o % 16 == 8) (v &&& mask) } }).checkRegions r
  else if s.hm.man.isSome then s
  else match o with
  | 0xC00 => { s with ms := { s.ms with bpBase := v &&& 0xFFFFFFFFFFFF8000 } }
  | 0xC08 => s.poolCount false (v.extractLsb' 0 32)
  | 0xC40 => { s with ms := { s.ms with bchk := v &&& 0xFFFFFFFFFFFFFFC0 } }
  | _ => s

/-- TGC_ registers. -/
def State.writeTgc (s : State) (ch : ChannelId) (o : Nat) (v : W64) : State :=
  let g := s.tgc ch
  match o with
  | 0x100 =>
    let s1 := s.setTgc ch { g with ctrl := v &&& 0xFFC0 }
    let s2 := if tb v.toNat 1 then s1.tgcStop ch else s1
    if tb v.toNat 0 then s2.tgcGo ch else s2
  | 0x108 => s.setTgc ch { g with range := v &&& 0x000FFFFF000FFFFF }
  | 0x110 => s.setTgc ch { g with seed := v }
  | 0x118 => s.setTgc ch { g with fixed := v }
  | 0x120 => s.setTgc ch { g with loops := v.extractLsb' 0 32 }
  | _ => s

/-- ANC_ global block. -/
def State.writeAnc (s : State) (o : Nat) (v : W64) : State :=
  if s.hm.man.isSome then s
  else match o with
  | 0x400 => { s with ms := { s.ms with apBase := v &&& 0xFFFFFFFFFFFF8000 } }
  | 0x408 => s.poolCount true (v.extractLsb' 0 32)
  | 0x420 => { s with ms := { s.ms with ancBchk := v &&& 0xFFFFFFFFFFFFFFC0 } }
  | _ => s

/-- Global fabric block: XLK_STEP and XLK_CFGDIG change only as R397 says; formed is RO. DEDUCED (log 79). -/
def State.writeFabric (s : State) (o : Nat) (v : W64) : State :=
  if o % 8 ≠ 0 then s
  else if 0x100 ≤ o ∧ o < 0x500 then
    let mask : W64 := if o % 16 = 0 then 0xFFF800FFFFFFFFFF else 0xFFFFF
    { s with fab := { s.fab with slips := putPair s.fab.slips ((o - 0x100) / 16) (o % 16 == 8) (v &&& mask) } }
  else match o with
  | 0x00 => { s with fab := { s.fab with coord := v &&& 0xFFFF00000001FFFF } }
  | 0x08 => { s with fab := { s.fab with slice := (v &&& 0xFFFF) ||| (s.fab.slice &&& 0x10000) } }
  | 0x20 => if v = 0 then { s with fab := { s.fab with mismatch := 0 } } else s
  | _ => s

/-- XLK_CTRL (R374, R394). -/
def State.writePort (s : State) (p : PortId) (o : Nat) (v : W64) : State :=
  if o ≠ 0 then s
  else
    let s1 := s.modPort p fun f => { f with cdcEn := v.extractLsb' 4 4 }
    let s2 := if tb v.toNat 8 then s1.unfence p else s1
    if tb v.toNat 0 then s2.enablePort p else s2.disablePort p

def State.writeUplink (s : State) (u : UplinkId) (o : Nat) (v : W64) : State :=
  match o with
  | 0x08 => s.modUp u fun x => { x with ip0 := v }
  | 0x10 => s.modUp u fun x => { x with ip1 := v }
  | 0x18 => s.modUp u fun x => { x with udp := v.extractLsb' 0 16 }
  | 0x20 => s.modUp u fun x => { x with vlan := v.extractLsb' 0 13 }
  | _ => s

/-- SEC_REGERR is the block's one writable register (R448). -/
def State.writeSec (s : State) (o : Nat) (v : W64) : State :=
  if o = 0x10 then { s with sec := { s.sec with regValid := s.sec.regValid && !tb v.toNat 8 } } else s

/-- R11: a write of a control-space word by the harbourmaster or the debug port. Blocks whose registers are all RO take
nothing. DEDUCED (log 121). -/
def State.ctlWrite (s : State) (debug : Bool) (addr : Nat) (v : W64) : State :=
  match ctlBlock addr with
  | none => s
  | some (b, o) =>
    match b with
    | .core c => s.writeCore c o v
    | .mem => s.writeMemReg o v
    | .channel ch => s.writeTgc ch o v
    | .anc => s.writeAnc o v
    | .fabric => s.writeFabric o v
    | .port p => s.writePort p o v
    | .uplink u => s.writeUplink u o v
    | .sec => if debug && !s.sec.scope.getLsbD 2 then s else s.writeSec o v
    | .ctrl _ | .bbx | .pwr | .clk | .thm | .dbg => s

/-- REGISTER_WRITE (R11): the harbourmaster and the debug port write control space; the host writes BAR0 of a function,
named by the address as function × 65,536 + offset; any other write is discarded. DESIGN CHOICE (log 83). -/
def State.regWrite (s : State) (addr v : W64) (src : Node) : State :=
  match src with
  | .harbourmaster => s.ctlWrite false addr.toNat v
  | .debug => s.ctlWrite true addr.toNat v
  | .pcie => if addr.toNat < 64 * 0x10000 then s.barWrite (Fin.ofNat 64 (addr.toNat / 0x10000)) (addr.toNat % 0x10000) v else s
  | _ => s

/-- REGISTER_WRITE (R11). -/
def execRegisterWrite (addr v : W64) (src : Node) (s : State) : Host.Outcome State Fault Refusal :=
  s.live fun s => s.regWrite addr v src

end Sys2Proof.Machine
end

