-- ==== Sys2Proof/Machine/Identity.lean ====
section
/-! DEFINITION. Identity, attestation, firmware, tenants, and the commands that report (R426 to R443, R417, R464). -/

namespace Sys2Proof.Machine

/-! ## Issuers -/

/-- R437: the tenant of an issuer; the rack side belongs to the provider. -/
def State.tenantOf (s : State) : Issuer → TenantId
  | .fn f => (s.fn f).tenant
  | .rack => 0

/-- R407: a command that needs host memory waits while its function may not be read or written for. -/
def State.hostCommand (s : State) (i : Issuer) (op : W16) (f : State → State) : State :=
  s.command i op fun s =>
    match i with
    | .fn x => if s.mastering x then f s else s
    | .rack => f s

/-- R413, R392: the status of a fetch. A fetch that brings no completion ends so too, where no cancel can end it. -/
def fetchStatus : FetchEnd → W16
  | .ok => stDone
  | .hostError | .underWay => stHostError
  | .timeout => stTimeout

/-- R416: work whose ticket may be cancelled: while it is under way its ticket runs, else it ends as given.
DEDUCED (log 122). -/
def afterFetch (e : FetchEnd) (s : State) (ends : State → State) : State := if e = .underWay then s else ends s

/-- R413, R414: bytes for the buffer of a command: posted writes, or an uplink flow for the rack. -/
def State.putBuffer (s : State) (i : Issuer) (op : W16) (bs : List Byte) : State :=
  let at_ := Config.bufferAddr op (s.mbx i).win
  match i with
  | .fn f => s.send (.write f at_ bs)
  | .rack =>
    let id : W32 := BitVec.ofNat 32 at_
    match s.flow id with
    | some g => (s.setFlow { g with toSend := g.toSend ++ bs }).runFlow id
    | none => s

/-! ## Identity and status (R432, R417) -/

/-- R432: the identity summary, 368 bytes. -/
def State.summary (s : State) : List Byte :=
  let d := s.ident
  leBytes 8 d.serial.toNat ++ leBytes 8 d.pciIds.toNat ++ [d.hwrev, 0] ++ leBytes 2 d.usable ++ leBytes 4 0
    ++ d.fusedBytes ++ leBytes 48 d.identity.toNat ++ [BitVec.ofNat 8 s.flash.fuses, s.sec.run.svn.setWidth 8] ++ leBytes 6 0

/-- MODULE_STATUS: eight words. -/
def State.statusWords (s : State) (i : Issuer) : List W64 :=
  let f : FnId := match i with
    | .fn f => f
    | .rack => 0
  [s.pciState f, s.fab.slice, s.fab.step.setWidth 64, s.digest64, BitVec.ofNat 64 s.ident.usable,
    s.ms.bpFree.setWidth 64, BitVec.ofNat 64 s.serv.adapters.length, BitVec.ofNat 64 s.serv.offers.length]

/-- PORT_STATUS: two words for each port. -/
def State.portWords (s : State) : List W64 :=
  (List.finRange 6).flatMap (fun p => [(s.port p).status, (s.port p).neigh])
    ++ (List.finRange 2).flatMap fun u => [(s.up u).status, (s.up u).ptpStat]

/-! ## Attestation (R434, R435) -/

/-- R439: (slot, owner, loaded) of every slot that has an owner. -/
def State.slotList (s : State) : List (Nat × Nat × Bool) :=
  s.sec.slots.map fun p => (p.1, (p.2.owner.map fun t => t.val).getD 0, p.2.key.isSome)

/-- R434: a measurement's 48 bytes, for a tenant. DEDUCED (log 99). -/
def State.measurement (s : State) (t : TenantId) : Nat → List Byte
  | 1 => leBytes 48 Config.romDigest.toNat
  | 2 => leBytes 48 s.sec.run.digest.toNat
  | 3 => leBytes 48 (s.sec.run.svn.toNat + s.flash.fuses * 2 ^ 8 + bit s.sec.bootedB * 2 ^ 16)
  | 4 =>
    match s.hm.man with
    | some m => leBytes 48 (Config.modelMeasure m.digest s.hm.signer).toNat
    | none => leBytes 48 0
  | 5 =>
    if s.formed then
      let w := s.fab.slice.toNat
      let model := (s.hm.man.map (·.digest)).getD 0
      leBytes 48 (Config.configDigest model (fld w 0 4) (2 ^ fld w 4 2) (2 ^ fld w 6 2)).toNat
    else leBytes 48 0
  | 6 => leBytes 48 (bit (s.sec.scope == 0) + s.sec.scope.toNat * 2 ^ 8 + bit s.sec.debugged * 2 ^ 16)
  | 7 => leBytes 48 (Config.tenantMeasure t.val s.slotList).toNat
  | _ => leBytes 48 0

/-- R435: the 640-byte body of the report. -/
def State.reportBody (s : State) (t : TenantId) (nonce : BitVec 256) : List Byte :=
  leBytes 4 0x53574B41 ++ leBytes 4 1 ++ leBytes 8 s.ident.serial.toNat ++ leBytes 32 nonce.toNat
    ++ leBytes 48 s.ident.identity.toNat ++ leBytes 16 s.hm.timeNs.toNat
    ++ ((List.range 7).flatMap fun j => leBytes 8 (j + 1 + 48 * 2 ^ 8) ++ leBytes 8 0 ++ s.measurement t (j + 1))
    ++ leBytes 80 0

/-- R435: bytes of a report. -/
def reportBytes : Nat := 17248

/-- R435: the report: the body, the RSA signature, the SLH-DSA signature. DEDUCED (log 101). -/
def State.attestReport (s : State) (t : TenantId) (nonce : BitVec 256) : List Byte :=
  let body := s.reportBody t nonce
  body ++ (Config.reportSignature body ++ List.replicate reportBytes 0).take (reportBytes - 640)

/-- ATTEST (R435). -/
def State.attest (s : State) (i : Issuer) (nonce : BitVec 256) (fetch : FetchEnd) : State :=
  s.issue i 0x0501 0 0 0 fun t s =>
    if fetch = .ok then (s.putBuffer i 0x0501 (s.attestReport (s.tenantOf i) nonce)).finish t stDone (BitVec.ofNat 64 reportBytes)
    else (s.readTries i fetch).finish t (fetchStatus fetch) 0

/-! ## Firmware (R426, R428) -/

/-- DEDUCED (log 103). -/
def State.setImage (s : State) (b : Bool) (x : Option FwImage) : State :=
  { s with flash := if b then { s.flash with slotB := x } else { s.flash with slotA := x } }

/-- The image that a signature block describes. -/
def fwImageOf (b : SigBlock) : FwImage := ⟨b.svn, b.major, b.minor, b.patch, b.digest⟩

/-- R428, R424: how an image that was fetched fares. -/
def State.fwVerdict (s : State) (fetch : FetchEnd) (sig : SigBlock) : W16 :=
  if fetch ≠ .ok then fetchStatus fetch
  else if !sigFormed sig 1 then stBadArg
  else if !sigVerifies sig then stSigFail
  else if sig.svn.toNat < s.flash.fuses then stRollback
  else stDone

/-- FW_UPDATE (R428): the slot that is not active; in recovery the image starts at once (R426). DEDUCED (log 103). -/
def State.fwUpdate (s : State) (i : Issuer) (src : FwSource) (sig : SigBlock) : State :=
  let scatter := match src with
    | .scatter _ => true
    | .uplink _ _ => false
  let fetch := match src with
    | .scatter e => e
    | .uplink _ e => e
  if scatter && i == .rack then s.reply i stBadArg []
  else
    s.issue i 0x0502 0 0 0 fun t s =>
      let b := !s.flash.activeB
      let st := s.fwVerdict fetch sig
      let s1 := (s.readTries i fetch).setImage b none
      if st = stDone then
        let s2 := (s1.setImage b (some (fwImageOf sig))).finish t stDone (BitVec.ofNat 64 (bit b))
        if s2.sec.recovery then ({ s2 with flash := { s2.flash with activeB := b } }).warmStart else s2
      else (if st = stSigFail then s1.sigFailed else s1).finish t st 0

/-- FW_ACTIVATE (R428). -/
def State.fwActivate (s : State) (i : Issuer) (b : Bool) : State :=
  if (s.flash.slot b).isSome then ({ s with flash := { s.flash with activeB := b } }).reply i stDone []
  else s.reply i stNotFound []

/-! ## Tenants (R437 to R443) -/

def State.setKeySlot (s : State) (k : Nat) (x : KeyS) : State :=
  { s with sec := { s.sec with slots := Sparse.put KeyS.empty s.sec.slots k x } }

/-- R443: the protected regions keyed with a slot, by number, as base and size in units of 32 KiB. -/
def State.slotRegions (s : State) (k : Nat) : List (Nat × Nat × Nat) :=
  (s.ms.prots.filter fun p => tb p.2.1.toNat 63 && fld p.2.1.toNat 48 6 == k).map fun p =>
    (p.1, fld p.2.2.toNat 0 26, fld p.2.2.toNat 32 26)

/-- R309: the check entry of the berth tile at an address, if it is one, is that of a tile of zeros. -/
def State.checkZeroTile (s : State) (addr : Nat) : State :=
  match s.berthEntry addr with
  | none => s
  | some e =>
    let crc := (tileCrc e.2 (List.replicate 4096 0#8)).toNat
    let w := s.devNum (e.1 + 8 * (e.2 / 2)) 1
    let stale := s.devNum (e.1 + 32) 1
    let w1 := if e.2 % 2 = 0 then w / 2 ^ 32 * 2 ^ 32 + crc else w % 2 ^ 32 + crc * 2 ^ 32
    (s.devWrite (e.1 + 8 * (e.2 / 2)) [⟨BitVec.ofNat 64 w1, false⟩]).devWrite (e.1 + 32)
      [⟨BitVec.ofNat 64 (if tb stale e.2 then stale - 2 ^ e.2 else stale), false⟩]

/-- R443: the pages of a region are filled with zeros; the check entries of berth tiles in it follow (R309). -/
def State.zeroRegion (s : State) (base size : Nat) : State :=
  let addrs := (List.range (8 * size)).map fun j => base * 32768 + 4096 * j
  let pages := addrs.filterMap fun a => (s.keyOf a).map (· / 4096)
  addrs.foldl State.checkZeroTile
    { s with mem := s.mem.filter fun c => !pages.contains (c.1 / 4096),
             poison := s.poison.filter fun w => !pages.contains (w / 512),
             flips := s.flips.filter fun f => !pages.contains (f.1 / 512) }

/-- The regions with a base are disabled. -/
def State.dropRegions (s : State) (base : Nat) : State :=
  { s with ms := { s.ms with prots := s.ms.prots.foldl (fun l p =>
      if fld p.2.2.toNat 0 26 = base then putPair l p.1 false (p.2.1 &&& 0x7FFFFFFFFFFFFFFF#64) else l) s.ms.prots } }

/-- R443, steps 2 to 4: the slot's regions are disabled, the slot is zeroed, the pages are filled with zeros. -/
def State.zeroSlot (s : State) (k : Nat) : State :=
  let rs := s.slotRegions k
  let off := rs.foldl (fun (s : State) r =>
    let p := Sparse.get (0, 0) s.ms.prots r.1
    { s with ms := { s.ms with prots := putPair s.ms.prots r.1 false (p.1 &&& 0x7FFFFFFFFFFFFFFF#64) } }) s
  rs.foldl (fun s r => s.zeroRegion r.2.1 r.2.2) (off.setKeySlot k KeyS.empty)

/-- A function with pending or running requests, tickets or jobs (R438). -/
def State.fnBusy (s : State) (f : FnId) : Bool :=
  (s.serv.reqs.any fun q => q.f == f) || (s.serv.offers.any fun o => o.f == f)
    || ((s.fn f).rings.any fun p => p.2.serves 1 && p.2.prod != p.2.cons)
    || (s.host.tickets.any fun t => ticketIssuer t.num == f.val) || s.serv.jobs.any fun j => j.issuer == .fn f

/-- TENANT_KEY op 0 (R438): a virtual function. -/
def State.assignFn (s : State) (i : Issuer) (t : TenantId) (f : FnId) : State :=
  if f = 0 then s.reply i stBadArg []
  else if s.fnBusy f then s.reply i stRefused []
  else (s.modFn f fun x => { x with tenant := t }).reply i stDone []

/-- TENANT_KEY op 1 (R438). -/
def State.giveSlot (s : State) (i : Issuer) (t : TenantId) (k : KeySlot) : State :=
  if (s.keySlot k.val).owner.isSome then s.reply i stRefused []
  else (s.setKeySlot k.val ⟨some t, none⟩).reply i stDone []

/-- TENANT_KEY op 2 (R438, R443): the slot of a tenant is cleared at the next boundary. -/
def State.clearSlotCmd (s : State) (i : Issuer) (k : KeySlot) : State :=
  match (s.keySlot k.val).owner with
  | some t => (s.addCmd (.clearSlot k t)).reply i stDone []
  | none => s.reply i stDone []

/-- TENANT_KEY op 3 (R438, R443). -/
def State.releaseTenant (s : State) (i : Issuer) (t : TenantId) : State :=
  if s.fnsOf t = [] then (s.addCmd (.dropTenant t)).reply i stDone [] else s.reply i stRefused []

/-! ## BBX_READ (R464) -/

/-- R464: a record as an issuer receives it; none if it is another tenant's. DEDUCED (log 95). -/
def State.recordFor (s : State) (i : Issuer) (x : BitVec 2048) : Option (List Byte) :=
  let n := x.toNat
  let t := fld n 216 8
  if i = .rack ∨ i = .fn 0 then some (leBytes 256 n)
  else if t = (s.tenantOf i).val ∧ t ≠ 0 then some (leBytes 256 n)
  else if t = 0 then some (leBytes 256 (n - fld n 224 32 * 2 ^ 224 - fld n 480 1536 * 2 ^ 480))
  else none

/-- The records from a seq onward; a slot that holds none (R457) gives none. -/
def State.recordsFrom (s : State) (i : Issuer) (first : W32) (n : Nat) : List (List Byte) :=
  (List.range n).filterMap fun j =>
    let slot := (first.toNat + j) % Config.bbxSlots
    let x := Sparse.get 0 s.bbx.slots slot
    if slotHolds slot x then s.recordFor i x else none

/-- BBX_READ (R464). -/
def State.bbxRead (s : State) (i : Issuer) (first : W32) (count : Nat) (fetch : FetchEnd) : State :=
  let held := (s.bbx.newest - s.bbx.oldest).toNat
  if s.bbx.none ∨ held < (first - s.bbx.oldest).toNat then s.reply i stNotFound []
  else
    s.issue i 0x0601 3 count 0 fun t s => afterFetch fetch s fun s =>
      let n := min count ((s.bbx.newest - first).toNat + 1)
      let rs := s.recordsFrom i first n
      if fetch = .ok then
        ((s.putBuffer i 0x0601 rs.flatten).progressTo t rs.length).finish t stDone (BitVec.ofNat 64 rs.length)
      else (s.readTries i fetch).finish t (fetchStatus fetch) 0

/-! ## Rows -/

/-- IDENTIFY (R432). -/
def execIdentify (i : Issuer) (s : State) : Host.Outcome State Fault Refusal :=
  .next (s.command i 0x0002 fun s => s.reply i stDone s.summary)

/-- MODULE_STATUS (R417). -/
def execModuleStatus (i : Issuer) (s : State) : Host.Outcome State Fault Refusal :=
  .next (s.command i 0x0003 fun s => s.reply i stDone (wordsToBytes (s.statusWords i)))

/-- PORT_STATUS (R417). -/
def execPortStatus (i : Issuer) (s : State) : Host.Outcome State Fault Refusal :=
  .next (s.command i 0x0203 fun s => s.reply i stDone (wordsToBytes s.portWords))

/-- ATTEST (R435). -/
def execAttest (i : Issuer) (nonce : BitVec 256) (fetch : FetchEnd) (s : State) : Host.Outcome State Fault Refusal :=
  .next (s.hostCommand i 0x0501 fun s => s.attest i nonce fetch)

/-- FW_UPDATE (R428). -/
def execFwUpdate (i : Issuer) (src : FwSource) (sig : SigBlock) (s : State) : Host.Outcome State Fault Refusal :=
  .next (s.hostCommand i 0x0502 fun s => s.fwUpdate i src sig)

/-- FW_ACTIVATE (R428). -/
def execFwActivate (i : Issuer) (slotB : Bool) (s : State) : Host.Outcome State Fault Refusal :=
  .next (s.command i 0x0503 fun s => s.fwActivate i slotB)

/-- TENANT_KEY op 0 (R438). -/
def execTenantAssignFunction (i : Issuer) (t : TenantId) (f : FnId) (s : State) : Host.Outcome State Fault Refusal :=
  .next (s.command i 0x0504 fun s => s.assignFn i t f)

/-- TENANT_KEY op 1 (R438). -/
def execTenantGiveSlot (i : Issuer) (t : TenantId) (k : KeySlot) (s : State) : Host.Outcome State Fault Refusal :=
  .next (s.command i 0x0504 fun s => s.giveSlot i t k)

/-- TENANT_KEY op 2 (R443). -/
def execTenantClearSlot (i : Issuer) (k : KeySlot) (s : State) : Host.Outcome State Fault Refusal :=
  .next (s.command i 0x0504 fun s => s.clearSlotCmd i k)

/-- TENANT_KEY op 3 (R438). -/
def execTenantRelease (i : Issuer) (t : TenantId) (s : State) : Host.Outcome State Fault Refusal :=
  .next (s.command i 0x0504 fun s => s.releaseTenant i t)

/-- BBX_READ (R464). -/
def execBbxRead (i : Issuer) (first : W32) (count : Nat) (fetch : FetchEnd) (s : State) : Host.Outcome State Fault Refusal :=
  .next (s.hostCommand i 0x0601 fun s => s.bbxRead i first count fetch)

end Sys2Proof.Machine
end

