-- ==== Sys2Proof/Machine/Binding.lean ====
section
/-! DEFINITION. The manifest's limits, binding and unbinding of a model (R354 to R362). -/

namespace Sys2Proof.Machine

/-! ## Limits of the manifest (R355) -/

def powTwo (n : Nat) : Bool := (List.range 21).any fun k => n == 2 ^ k

def within (lo hi n : Nat) : Bool := decide (lo ≤ n) && decide (n ≤ hi)

/-- R109, R110, R124. -/
def productOk (p : ProductSpec) : Bool :=
  powTwo p.runLength && [1, 2, 4, 8].contains p.parts && p.degree != 0 && p.parts % p.degree == 0

/-- R151: J from 0.5 to 64. -/
def siteOk (x : SiteSpec) : Bool :=
  !x.monitored || (!fisNan x.jump && !flt x.jump 0x3F000000 && !flt 0x42800000 x.jump)

/-- R201. DEDUCED (log 126). -/
def evictOk (e : EvictPolicy) : Bool :=
  within 0 65535 e.sinks && within 80 65536 e.window && within (e.sinks + e.window) 1048576 e.budget
    && within 80 65536 e.period && e.period % 80 == 0

/-- R223, R239, R241: at most one shared expert; slots of a gang as R224 encodes them. -/
def moeOk (e : MoeSpec) : Bool :=
  within 0 1 e.sharedExperts && decide (e.routed + e.sharedExperts ≤ 256) && within 1 8 e.k && within 1 64 e.gangs
    && e.home.length == e.routed + e.sharedExperts
    && (e.home ++ e.replicaSlots).all (fun p => decide (p.1 < e.gangs) && decide (p.2 < 12))
    && match e.sparse with
       | some (q, rp) => within 1 32 q && within 16 256 rp && rp % 16 == 0
       | none => true

/-- R86: tile (u, b) is masked forward exactly when tile (b, u) is masked backward. -/
def maskTransposed (m : MaskSpec) : Bool :=
  m.forward.all (fun p => m.backward.contains (p.2, p.1)) && m.backward.all fun p => m.forward.contains (p.2, p.1)

/-- R86: a masked layer that may be tuned has the transposed mask. -/
def layerOk (x : LayerSpec) : Bool :=
  evictOk x.evict && (!x.tunable || x.mask.all maskTransposed) && match x.moe with
    | some e => moeOk e
    | none => true

/-- R355: logical cores. -/
def coresOk (m : Manifest) : Bool :=
  within 1 2240 m.cores.length
    && m.cores.all (fun l => decide (l.preferred < 2304) && decide (l.reserveBanks ≤ 15))
    && decide (m.cores.map (·.preferred)).Nodup

/-- R181: head dimension of the cache format. -/
def cacheOk (m : Manifest) : Bool := if m.planesKT = 3 then decide (m.headDim ≤ 160) else m.planesKT == 2 && decide (m.headDim ≤ 240)

/-- R365: the copy budget, 64 MiB where the manifest names none. -/
def budgetOf (m : Manifest) : Nat := m.copyBudget.getD 0x4000000

/-- R355: every limit that is stated for a field of the manifest; R31: no more than five planes. -/
def manifestOk (m : Manifest) : Bool :=
  coresOk m && cacheOk m && m.products.all productOk && powTwo m.attnRun && m.sites.all siteOk
    && within 16 65536 m.window && m.window % 16 == 0 && within 1 16384 m.reachLength && (layersOf m).all layerOk
    && within 1 4096 m.bMax && within 0x100000 0x40000000 (budgetOf m) && decide (m.groups.length ≤ 64)
    && m.groups.all (fun g => g.all fun l => decide (l < m.cores.length)) && decide (m.slips.length ≤ 64)
    && within 10 60000 (m.shipTimeoutMs.getD 1000) && m.combineCores.all (fun l => decide (l < m.cores.length))
    && m.senders.all (fun g => within 1 16 g.length && g.all fun l => decide (l < m.cores.length))
    && m.tensors.all fun t => decide (t.lgn ≤ 8) && within 1 5 t.planes

/-! ## Placement (R356, R358) -/

/-- Two ranges, as first and length, that share nothing. -/
def apart (a b : Nat × Nat) : Bool := decide (a.1 + a.2 ≤ b.1) || decide (b.1 + b.2 ≤ a.1)

/-- Ranges that share nothing pairwise. -/
def allApart : List (Nat × Nat) → Bool
  | [] => true
  | a :: r => r.all (apart a) && allApart r

/-- Channel pages that a tensor's window takes on each of its channels. -/
def tensorPages (t : TensorSpec) : Nat := ceilDiv (256 * t.sizeMib) (2 ^ t.lgn)

/-- R356: bytes of stacked memory from `lo` on lie inside window 0. -/
def inWindow0 (w0 : W64 × W64) (r : Nat × Nat) : Bool :=
  decide (fld w0.1.toNat 20 20 * 2 ^ 20 ≤ r.1) && decide (r.1 + r.2 ≤ (fld w0.1.toNat 20 20 + fld w0.1.toNat 40 20) * 2 ^ 20)

/-- What a placement puts into window 0 while the model is bound: the header tables, the pool with its check table, the requests'
tables. -/
def generalRanges (p : Config.Placement) (m : Manifest) : List (Nat × Nat) :=
  (p.spots.zip m.tensors).map (fun x => (x.1.table, 16 * x.2.tiles.length))
    ++ [(p.pool.1, 0x8000 * p.pool.2.1), (p.pool.2.2, 64 * p.pool.2.1), p.tables]

/-- R356, R358, R305, R218, R184: a placement that the harbourmaster may choose. Every tensor has its own window, entries of the
channel list, addresses and channel pages, none of them retired; the pools and tables overlap nothing. -/
def placementOk (m : Manifest) (retired : List Nat) (p : Config.Placement) : Bool :=
  let ts := p.spots.zip m.tensors
  let b := p.w0.2.toNat
  p.spots.length == m.tensors.length && decide (p.spots.map (·.win)).Nodup
    && ts.all (fun x => within 1 255 x.1.win && decide (x.1.list + 2 ^ x.2.lgn ≤ 4096) && x.1.table % 16 == 0)
    && allApart ((fld b 0 12, 2 ^ fld b 28 4) :: ts.map fun x => (x.1.list, 2 ^ x.2.lgn))
    && allApart ((fld p.w0.1.toNat 20 20, fld p.w0.1.toNat 40 20) :: ts.map fun x => (x.1.base, x.2.sizeMib))
    && allApart ((fld b 32 20, ceilDiv (256 * fld p.w0.1.toNat 40 20) (2 ^ fld b 28 4)) :: ts.map fun x => (x.1.page, tensorPages x.2))
    && tb p.w0.1.toNat 63
    && ts.all (fun x => decide (x.1.base + x.2.sizeMib ≤ 589824) && decide (x.1.page + tensorPages x.2 ≤ Config.channelPages)
        && retired.all fun r => decide (r % Config.channelPages < x.1.page) || decide (x.1.page + tensorPages x.2 ≤ r % Config.channelPages))
    && allApart (generalRanges p m) && (generalRanges p m).all (inWindow0 p.w0)
    && p.pool.1 % 0x8000 == 0 && p.pool.2.2 % 64 == 0 && p.anch.1 % 0x8000 == 0 && p.anch.2.2 % 64 == 0 && p.tables.1 % 64 == 0
    && allApart [(p.anch.1, 0x8000 * p.anch.2.1), (p.anch.2.2, 64 * p.anch.2.1)]
    && [(p.anch.1, 0x8000 * p.anch.2.1), (p.anch.2.2, 64 * p.anch.2.1)].all fun r =>
        decide (Config.anchBase ≤ r.1) && decide (r.1 + r.2 ≤ 0x020000000000)

/-- Berths, with their check entries, that `n` bytes hold. -/
def berthsIn (n : Nat) : Nat := n / (0x8000 + 64)

/-- Tensors one after the other: from a window, a base in MiB, a channel page, an entry of the channel list and an address on. -/
def spotsFrom : Nat → Nat → Nat → Nat → Nat → List TensorSpec → List Config.Spot
  | _, _, _, _, _, [] => []
  | win, base, page, list, table, t :: r => ⟨win, base, page, list, table⟩
      :: spotsFrom (win + 1) (base + t.sizeMib) (page + tensorPages t) (list + 2 ^ t.lgn) (table + 16 * t.tiles.length) r

/-- R356: everything one after the other: behind the retired channel pages the tensors, then window 0 on all channels, with the header
tables, a quarter for the requests' tables, and the pool; in the anchorage its pool. DESIGN CHOICE (log 123). -/
def placeInTurn (m : Manifest) (retired : List Nat) : Config.Placement :=
  let page := (retired.map fun r => r % Config.channelPages + 1).foldl max 0
  let mib := (m.tensors.map (·.sizeMib)).sum
  let page0 := page + (m.tensors.map tensorPages).sum
  let size0 := Config.channelPages - page0
  let start := mib * 2 ^ 20
  let tables := start + ceilDiv (16 * (m.tensors.map fun t => t.tiles.length).sum) 64 * 64
  let pool := ceilDiv (tables + size0 * 2 ^ 18) 0x8000 * 0x8000
  let n := berthsIn (start + size0 * 2 ^ 20 - pool)
  let k := berthsIn (0x020000000000 - Config.anchBase)
  { w0 := (BitVec.ofNat 64 (2 ^ 63 + size0 * 2 ^ 40 + mib * 2 ^ 20), BitVec.ofNat 64 (page0 * 2 ^ 32 + 8 * 2 ^ 28))
    spots := spotsFrom 1 0 page 256 start m.tensors
    pool := (pool, n, pool + 0x8000 * n)
    anch := (Config.anchBase, k, Config.anchBase + 0x8000 * k)
    tables := (tables, pool - tables) }

/-- R356, R359: where binding puts everything: the harbourmaster's choice, from the inputs of R359, or else one after the other.
DESIGN CHOICE (log 123). -/
def State.placement (s : State) (m : Manifest) : Config.Placement :=
  let p := Config.placement m.digest s.ident.fused s.flash.retired s.sec.run.major
  if placementOk m s.flash.retired p then p else placeInTurn m s.flash.retired

/-- R356: whether stacked memory and the scratchpads hold what the manifest places. DESIGN CHOICE (log 123). -/
def State.manifestFits (s : State) (m : Manifest) (digest : BitVec 384) : Bool :=
  placementOk m s.flash.retired (s.placement { m with digest := digest })
    && m.tensors.all (fun t => t.tiles.all fun x => decide (x.off + 8 * x.block.length ≤ t.sizeMib * 2 ^ 20))
    && m.cores.all fun l =>
      decide (l.base.toNat * 32 + 8 * l.program.length ≤ Config.windowBytes)
        && l.pinned.all fun p => decide (p.1 + 8 * p.2.length ≤ Config.windowBytes)

/-! ## Logical to physical (R357) -/

/-- The first of the candidates that lies the fewest hops from a position. -/
def nearest (at_ : Nat) (near : Nat → Nat) : List Nat → Option Nat
  | [] => none
  | x :: r =>
    match nearest at_ near r with
    | some y => if hops (near y) at_ < hops (near x) at_ then some y else some x
    | none => some x

/-- R357: the binding, as (logical, physical) pairs. -/
def bindCores (prefs : List Nat) (usable : List Nat) : List (Nat × Nat) :=
  let own := prefs.zipIdx.filterMap fun p => if usable.contains p.1 then some (p.2, p.1) else none
  let others := prefs.zipIdx.filter fun p => !usable.contains p.1
  others.foldl (fun b p =>
    let free := usable.filter fun c => !(b.any fun q => q.2 == c)
    match nearest p.1 id free with
    | some c => Sparse.insert p.2 c b
    | none => b) own

/-- The cores that are not fused off. -/
def State.goodCores (s : State) : List Nat := (List.range 2304).filter fun c => !(s.ident.fused.contains c)

/-- R358: the channel list of a window over 2^n channels, for the cores of its consumers in order. -/
def channelList (n : Nat) (consumers : List Nat) : List Nat :=
  let named := (consumers.take 256).foldl (fun l c =>
    if l.contains (basinOf c) then
      match nearest c basinCentre ((List.range 256).filter fun x => !l.contains x) with
      | some x => l ++ [x]
      | none => l
    else l ++ [basinOf c]) []
  (named ++ (List.range 256).filter fun x => !named.contains x).take (2 ^ n)

/-- DESIGN CHOICE (log 47). -/
def State.physical (s : State) (l : Nat) : Option Nat := assoc? l s.hm.binding

/-- Bytes written at table places, on the cores bound there. -/
def State.putTable (s : State) (places : List (Nat × Nat)) (bs : List Byte) : State :=
  places.foldl (fun s p =>
    match s.physical p.1 with
    | some c => s.wrBytes (spKey (Fin.ofNat 2304 c) p.2) bs
    | none => s) s

/-! ## Binding (R356) -/

/-- Where the j-th streamed tensor of the bound model is. -/
def State.spot (s : State) (m : Manifest) (j : Nat) : Config.Spot := (s.placement m).spots.getD j default

/-- R301: the address of a tile's header. -/
def State.headerAt (s : State) (m : Manifest) (tensor tile : Nat) : Nat := (s.spot m tensor).table + 16 * tile

/-- R354: an address of a bound tensor is put into a word of scratchpad, 48 bits from `shift` on. DEDUCED (log 122). -/
def State.putAddr (s : State) (m : Manifest) (c : CoreId) (x : AddrSpot) : State :=
  let w := (s.rdWords (spKey c x.off) 1).headD ⟨0, false⟩
  let field := (0xFFFFFFFFFFFF#64) <<< x.shift
  let a := BitVec.ofNat 64 (s.headerAt m x.tensor x.tile) <<< x.shift
  s.spLand c x.off [⟨(w.data &&& ~~~field) ||| (a &&& field), false⟩]

/-! ## Experts in reserve banks (R235, R363, R365) -/

/-- Cores of a gang. -/
def gangCoresOf (e : MoeSpec) (gang : Nat) : List Nat := e.gangCores.getD gang []

/-- Bytes that a copy of an expert takes on each core of a gang. -/
def gangShare (e : MoeSpec) (gang : Nat) : Nat := e.sliceBytes / max 1 (gangCoresOf e gang).length

/-- Scratchpad offset of a slot's codes on the cores of its gang. -/
def slotOff (e : MoeSpec) (gang slot : Nat) : Nat :=
  ((e.slotOffs.find? fun x => x.1 == gang && x.2.1 == slot).map (·.2.2)).getD 0

/-- Where the words of tile `i` of an expert's slice go in a slot, as (logical core, scratchpad offset, first word, words): each core
of the gang takes an equal share of the slice's bytes. -/
def slicePieces (e : MoeSpec) (gang slot i : Nat) : List (Nat × Nat × Nat × Nat) :=
  let share := gangShare e gang
  (gangCoresOf e gang).zipIdx.filterMap fun c =>
    let lo := max (4096 * i) (c.2 * share)
    let hi := min (4096 * i + 4096) (c.2 * share + share)
    if lo < hi then some (c.1, slotOff e gang slot + (lo - c.2 * share), (lo - 4096 * i) / 8, (hi - lo) / 8) else none

/-- The header of tile `i` of an expert's slice. -/
def State.sliceHeader (s : State) (m : Manifest) (e : MoeSpec) (expert i : Nat) : Nat :=
  let x := e.sliceTiles.getD expert (0, 0)
  s.headerAt m x.1 (x.2 + i)

/-- The tiles of an expert's slice. -/
def sliceTileCount (e : MoeSpec) : Nat := ceilDiv e.sliceBytes 4096

/-- Whether tile `i` of an expert's slice passes with chk set (R303). -/
def State.slicePasses (s : State) (m : Manifest) (e : MoeSpec) (expert i : Nat) : Bool :=
  s.tilePasses true ((e.sliceTiles.getD expert (0, 0)).2 + i) (tileHdrOf (s.devNum (s.sliceHeader m e expert i) 2))

/-- R365: tile `i` of an expert's slice lands in a slot, on one core of the gang or on all. -/
def State.landSlice (s : State) (m : Manifest) (e : MoeSpec) (gang slot expert i : Nat) (only : Option Nat) : State :=
  match s.stored (tileHdrOf (s.devNum (s.sliceHeader m e expert i) 2)) with
  | .content b =>
    let ws := cleanWords 512 b
    (slicePieces e gang slot i).foldl (fun s p =>
      if only.all (· == p.1) then
        match s.physical p.1 with
        | some c => s.spLand (Fin.ofNat 2304 c) p.2.1 ((ws.drop p.2.2.1).take p.2.2.2)
        | none => s
      else s) s
  | _ => s

/-- An expert's copies: its home slot, then its replicas, as (gang, slot). -/
def State.copiesOf (s : State) (layer : Nat) (e : MoeSpec) (x : Nat) : List (Nat × Nat) :=
  e.home.getD x (0, 0) ::
    (s.plc.reps.filter fun r => r.1 == layer && r.2.2 == x).map fun r => e.replicaSlots.getD r.2.1 (0, 0)

/-- The copies of a layer's experts that stand in reserve banks, as (expert, gang, slot). -/
def State.residents (s : State) (layer : Nat) (e : MoeSpec) : List (Nat × Nat × Nat) :=
  let at_ := fun (x : Nat) (g : Nat × Nat) => (x, g.1, g.2)
  ((s.plc.pins.filter fun p => p / 256 == layer).map fun p => at_ (p % 256) (e.home.getD (p % 256) (0, 0)))
    ++ (s.plc.reps.filter fun r => r.1 == layer).map fun r => at_ r.2.2 (e.replicaSlots.getD r.2.1 (0, 0))

/-- The resident slices of a core, or of every core, are written. -/
def State.landResidents (s : State) (m : Manifest) (only : Option Nat) : State :=
  m.layers.zipIdx.foldl (fun s x =>
    match x.1.moe with
    | none => s
    | some e => (s.residents x.2 e).foldl (fun s r =>
        (List.range (sliceTileCount e)).foldl (fun s i => s.landSlice m e r.2.1 r.2.2 r.1 i only) s) s) s

/-! ## Binding (R356) -/

/-- R244, R354: what the harbourmaster writes into a bound core's scratchpad: its program, its pinned tensors, the addresses of
bound tensors. -/
def State.landCore (s : State) (m : Manifest) (l : LogicalCore) (c : CoreId) : State :=
  let s1 := s.spLand c (l.base.toNat * 32) (l.program.map fun w => ⟨w, false⟩)
  let s2 := l.pinned.foldl (fun s p => s.spLand c p.1 (p.2.map fun w => ⟨w, false⟩)) s1
  l.addrs.foldl (fun s x => s.putAddr m c x) s2

/-- R244, R261: a bound core's banks, program region, seeds, route area and registers. -/
def State.setCoreRegs (s : State) (m : Manifest) (l : LogicalCore) (c : CoreId) : State :=
  let up := l.banks &&& ~~~(s.core c).seq.bankOn
  (s.zeroBanks c up).modCore c fun k =>
    { k with
      seq := { k.seq with bankOn := l.banks, base := l.base, nbm1 := l.nbm1, entry := l.entry }
      ost := { k.ost with rotSeed := m.rotSeed }
      dqu := { k.dqu with rtArea := l.rtArea } }

/-- Step 3: one bound core: banks, program, pinned tensors, registers. -/
def State.bindCore (s : State) (m : Manifest) (l : LogicalCore) (c : CoreId) : State :=
  l.regs.foldl (fun s r => s.writeCore c r.1 r.2) ((s.setCoreRegs m l c).landCore m l c)

/-- R357, R362: an idle core's banks are off. -/
def State.idleCore (s : State) (c : CoreId) : State := s.modSeq c fun q => { q with bankOn := 0 }

/-- Tiles are written from an address on, their headers into a table (R301). -/
def State.putTiles (s : State) (base table : Nat) (ts : List TileSpec) : State :=
  ts.zipIdx.foldl (fun s x =>
    let addr := base + x.1.off
    let h : TileHdr := ⟨addr, 8 * x.1.block.length, x.1.coded, false, x.2, x.1.crc⟩
    (s.devWrite addr (x.1.block.map fun w => ⟨w, false⟩)).devWrite (table + 16 * x.2) (cleanWords 2 (leBytes 16 h.bits))) s

/-- Step 4: a streamed tensor's window, channel list, tiles and header table. -/
def State.bindTensor (s : State) (m : Manifest) (j : Nat) (t : TensorSpec) : State :=
  let p := s.spot m j
  let a := BitVec.ofNat 64 (2 ^ 63 + t.sizeMib * 2 ^ 40 + p.base * 2 ^ 20)
  let b := BitVec.ofNat 64 (p.page * 2 ^ 32 + t.lgn * 2 ^ 28 + p.list)
  let chans := channelList t.lgn (t.consumers.filterMap s.physical)
  let chlist := chans.zipIdx.foldl (fun l e =>
    let l1 := l.filter fun x => x.1 != p.list + e.2
    if e.1 = (p.list + e.2) % 256 then l1 else Sparse.insert (p.list + e.2) (BitVec.ofNat 8 e.1) l1) s.ms.chlist
  let s1 := { s with ms := { s.ms with wins := Sparse.put (0, 0) s.ms.wins p.win (a, b), chlist := chlist } }
  s1.putTiles (p.base * 2 ^ 20) p.table t.tiles

/-- Bit g of MSH_MCMEMB for a core, and the box of group g as MSH_MCBOXg holds it (R274). -/
def groupBox (cores : List Nat) : BitVec 24 :=
  let xs := cores.map (· % 48)
  let ys := cores.map (· / 48)
  BitVec.ofNat 24 (ys.foldl max 0 * 2 ^ 18 + xs.foldl max 0 * 2 ^ 12 + ys.foldl min 47 * 2 ^ 6 + xs.foldl min 47)

/-- Step 5: one multicast group: the box in every usable core, the bit in its members. -/
def State.bindGroup (s : State) (g : Nat) (members : List Nat) : State :=
  let cores := members.filterMap s.physical
  s.goodCores.foldl (fun s c =>
    s.modDqu (Fin.ofNat 2304 c) fun q =>
      let one : W64 := BitVec.ofNat 64 (2 ^ g)
      { q with mcBox := Sparse.put 0 q.mcBox g (groupBox cores),
               mcMemb := if cores.contains c then q.mcMemb ||| one else q.mcMemb &&& ~~~one }) s

/-- R186: the berths of a new pool are free: refs is 0 in every header. -/
def State.emptyPool (s : State) (base count : Nat) : State :=
  (List.range count).foldl (fun s h =>
    let a := base + 32768 * h + 56
    let w := s.devNum a 1
    let refs := fld w 16 16
    if refs = 0 then s else (s.devWrite a [⟨BitVec.ofNat 64 (w - refs * 2 ^ 16), false⟩]).markStale a) s

/-- Step 5: berth pools and check tables. -/
def State.bindPools (s : State) (m : Manifest) : State :=
  let p := s.placement m
  let w := BitVec.ofNat 64
  let keep := s.serv.moorings != []
  let s1 := { s with ms := { s.ms with
    bpBase := w p.pool.1, bpCount := BitVec.ofNat 32 p.pool.2.1, bpFree := BitVec.ofNat 32 p.pool.2.1, bchk := w p.pool.2.2 } }
  let s2 := s1.emptyPool p.pool.1 p.pool.2.1
  if keep then s2
  else ({ s2 with ms := { s2.ms with
    apBase := w p.anch.1, apCount := BitVec.ofNat 32 p.anch.2.1, apFree := BitVec.ofNat 32 p.anch.2.1,
    ancBchk := w p.anch.2.2 } }).emptyPool p.anch.1 p.anch.2.1

/-- R385: slips, by logical core, send offset, receive offset and length. -/
def State.bindSlips (s : State) (m : Manifest) : State :=
  let slips := m.slips.zipIdx.filterMap fun x => (s.physical x.1.1).map fun c =>
    (x.2, (BitVec.ofNat 64 (c * 2 ^ 52 + 2 ^ 51 + x.1.2.2.1 * 2 ^ 20 + x.1.2.1), BitVec.ofNat 64 x.1.2.2.2))
  { s with fab := { s.fab with slips := slips } }

/-- R363: the pin table's byte of a gang slot: pinned if an expert's codes stand in its reserve banks. DEDUCED (log 147). -/
def State.pinByte (s : State) (layer : Nat) (e : MoeSpec) (slot : Nat × Nat) : Byte :=
  if (s.residents layer e).any fun r => (r.2.1, r.2.2) == slot then 1 else 0

/-- R363: the pin and replica tables of a layer are written: a byte for every home slot and replica slot of a gang, and one for
every replica slot. -/
def State.writeTables (s : State) (digest : BitVec 384) (layer : Nat) (e : MoeSpec) : State :=
  let s1 := (e.home ++ e.replicaSlots).foldl (fun s h =>
    s.putTable (Config.pinPlaces digest layer (h.1 * 16 + h.2)) [s.pinByte layer e h]) s
  (List.range e.replicaSlots.length).foldl (fun s i =>
    let b := match s.plc.reps.find? fun r => r.1 == layer && r.2.1 == i with
      | some r => BitVec.ofNat 8 r.2.2
      | none => 0xFF#8
    s.putTable (Config.replicaPlaces digest layer i) [b]) s1

/-- The pin and replica tables of every layer. -/
def State.writePlacement (s : State) : State :=
  match s.hm.man with
  | some m => m.layers.zipIdx.foldl (fun s x =>
      match x.1.moe with
      | some e => s.writeTables m.digest x.2 e
      | none => s) s
  | none => s

/-- R234, R364: counts start at zero, heats from the priors, pins as the manifest pins. -/
def placerAt (m : Manifest) : Placer :=
  let moes := m.layers.zipIdx.filterMap fun x => x.1.moe.map fun e => (x.2, e)
  { Placer.reset with
    heats := moes.flatMap fun x => x.2.priors.zipIdx.map fun h => (x.1 * 256 + h.2, h.1)
    pins := moes.flatMap fun x => x.2.pinnedAtLoad.map fun e => x.1 * 256 + e }

/-- R354: the addresses of bound tensors are written into the descriptors of every bound core. -/
def State.landAddrs (s : State) (m : Manifest) : State :=
  m.cores.zipIdx.foldl (fun s x =>
    match s.physical x.2 with
    | some c => x.1.addrs.foldl (fun s a => s.putAddr m (Fin.ofNat 2304 c) a) s
    | none => s) s

/-- R356, steps 2 to 5. -/
def State.bindModel (s : State) (m : Manifest) (signer : BitVec 384) (staged : Option (BitVec 384)) : State :=
  let b := bindCores (m.cores.map (·.preferred)) s.goodCores
  let s1 := { s with hm := { s.hm with man := some m, signer := signer, staged := staged, binding := b },
                     serv := { s.serv with mons := [] } }
  let s2 := m.cores.zipIdx.foldl (fun s x =>
    match assoc? x.2 b with
    | some c => s.bindCore m x.1 (Fin.ofNat 2304 c)
    | none => s) s1
  let idle := s.goodCores.filter fun c => !(b.any fun p => p.2 == c)
  let s3 := idle.foldl (fun s c => s.idleCore (Fin.ofNat 2304 c)) s2
  let s4 := { s3 with ms := { s3.ms with wins := Sparse.put (0, 0) s3.ms.wins 0 (s.placement m).w0 } }
  let s5 := m.tensors.zipIdx.foldl (fun s x => s.bindTensor m x.2 x.1) s4
  let s6 := m.groups.zipIdx.foldl (fun s x => s.bindGroup x.2 x.1) s5
  let s7 := (s6.bindPools m).bindSlips m
  let s8 := { s7 with plc := placerAt m }
  ((s8.landResidents m none).landAddrs m).writePlacement

/-! ## Unbinding (R361) -/

/-- R262: the scrub of a core, whatever it did. -/
def State.scrubNow (s : State) (c : CoreId) : State :=
  (((s.zeroBanks c (s.core c).seq.bankOn).modCore c Core.scrubbed).clearQueues c).refuseHeld c

/-- R361: the berth-table entries of a mooring record once the pool of stacked memory is freed: those of shared berths there name none.
DESIGN CHOICE (log 165). -/
def looseEntry (e : BitVec 256) : BitVec 256 := if tb e.toNat 170 then e else e ||| BitVec.ofNat 256 (0xFFFFFFFF * 2 ^ 224)

/-- R315, R361: the regions of stacked memory end with the model that used them, their content scrubbed.
DESIGN CHOICE (log 168). -/
def State.closeRegions (s : State) : State :=
  s.regions.foldl (fun s x => if x.1 * 32768 < Config.stackedBytes then (s.dropRegions x.1).zeroRegion x.1 x.2.1 else s) s

/-- R361: every bound core is scrubbed, every window but window 0 is disabled, the pools are freed, the tables cleared. Berths
of moored requests stay in the anchorage. DEDUCED (log 128). -/
def State.unbind (s : State) : State :=
  let s1 := (s.hm.binding.foldl (fun s p => s.scrubNow (Fin.ofNat 2304 p.2)) s).closeRegions
  let moored := s.serv.reqs.any fun q => q.phase == .moored
  let s2 := s.goodCores.foldl (fun s c => s.modDqu (Fin.ofNat 2304 c) fun q => { q with mcBox := [], mcMemb := 0 }) s1
  { s2 with
    hm := { s1.hm with man := none, signer := 0, staged := none, binding := [] },
    fab := { s1.fab with slips := [] },
    ms := { s1.ms with
      wins := MemSys.reset.wins,
      bpBase := 0, bpCount := 0, bpFree := 0, bchk := 0,
      apBase := if moored then s1.ms.apBase else 0, apCount := if moored then s1.ms.apCount else 0,
      apFree := if moored then s1.ms.apFree else 0, ancBchk := if moored then s1.ms.ancBchk else 0 },
    plc := Placer.reset,
    serv := { s1.serv with
      mons := [], groups := []
      moorings := s1.serv.moorings.map fun m => { m with quays := m.quays.map fun k =>
        { k with berths := k.berths.map fun b => (looseEntry b.1, b.2) } } } }

/-! ## MODEL_LOAD (R356, R418, R429) -/

def loadFetch : LoadSource → FetchEnd
  | .scatter _ e => e
  | .uplink _ e => e
  | .relay _ e => e

/-- R414, R423: a source that the command may not name. -/
def loadArgBad (i : Issuer) : LoadSource → Bool
  | .scatter n _ => i == .rack || decide (65536 < n)
  | _ => false

/-- R418: a relay from a module that does not hold the image. -/
def loadUnstaged : LoadSource → Bool
  | .relay staged _ => !staged
  | _ => false

/-- R429: the floor of a signer. -/
def State.floorOf (s : State) (signer : BitVec 384) : Option (BitVec 6) := (s.flash.floors.find? fun p => p.1 == signer).map (·.2)

/-- R429: a raise for a signer that the table has no room for. -/
def State.floorFull (s : State) (b : SigBlock) : Bool :=
  b.raiseFloor && (s.floorOf b.signer).isNone && decide (16 ≤ s.flash.floors.length)

/-- R429: the floor of the image's signer becomes its svn. -/
def State.raiseFloor (s : State) (b : SigBlock) : State :=
  if b.raiseFloor then
    { s with flash := { s.flash with floors := (s.flash.floors.filter fun p => p.1 != b.signer) ++ [(b.signer, b.svn)] } }
  else s

/-- R419: a MODEL_LOAD ticket is running. DEDUCED (log 122). -/
def State.loading (s : State) : Bool := s.host.tickets.any fun x => x.op == 0x0101 && x.st != .finished

/-- How a load fares before anything is bound. -/
def State.loadVerdict (s : State) (src : LoadSource) (expected : BitVec 384) (sig : SigBlock) (m : Manifest) : W16 :=
  if loadUnstaged src then stNotFound
  else if loadFetch src ≠ .ok then fetchStatus (loadFetch src)
  else if !sigFormed sig 2 then stBadArg
  else if !sigVerifies sig then stSigFail
  else if expected ≠ sig.digest then stDigest
  else if (match s.floorOf sig.signer with | some f => decide (sig.svn.toNat < f.toNat) | none => false) then stRollback
  else if !manifestOk m then stBadArg
  else if !s.manifestFits m sig.digest || s.floorFull sig then stNoSpace
  else stDone

/-- R356 step 6: the first tile, as tensor and tile, that does not pass with chk set. `bad` are tiles whose fetch failed twice on
the way (R304). -/
def State.badTile (s : State) (m : Manifest) (bad : List (Nat × Nat)) : Option (Nat × Nat) :=
  m.tensors.zipIdx.findSome? fun t =>
    (List.range t.1.tiles.length).findSome? fun i =>
      let h := tileHdrOf (s.devNum (s.headerAt m t.2 i) 2)
      if s.tilePasses true i h && !bad.contains (t.2, i) then none else some (t.2, i)

/-- R356: a refused load: what it bound is unbound, and every core it touched is scrubbed. -/
def State.unload (s : State) : State := s.goodCores.foldl (fun s c => s.scrubNow (Fin.ofNat 2304 c)) s.unbind

/-- MODEL_LOAD: a load whose tiles fail is unbound and names the tile. DEDUCED (log 122, 127). -/
def State.modelLoad (s : State) (i : Issuer) (src : LoadSource) (expected : BitVec 384) (stage : Bool) (sig : SigBlock)
    (m : Manifest) (bad : List (Nat × Nat)) : State :=
  if s.hm.man.isSome || s.loading then s.reply i stBusy []
  else if loadArgBad i src then s.reply i stBadArg []
  else
    s.issue i 0x0101 0 0 0 fun t s => afterFetch (loadFetch src) s fun s =>
      let st := s.loadVerdict src expected sig m
      let s := s.readTries i (loadFetch src)
      if st ≠ stDone then (if st = stSigFail then s.sigFailed else s).finish t st 0
      else
        let m1 := { m with digest := sig.digest }
        let s1 := s.bindModel m1 sig.signer (if stage then some sig.digest else none)
        match s1.badTile m1 bad with
        | none => (s1.raiseFloor sig).finish t stDone (sig.digest.extractLsb' 0 64)
        | some x => s1.unload.finish t stBadArg (Config.tileName x.1 x.2)

/-! ## MODEL_UNLOAD, BINDING_QUERY, EXPERT_STATS, TILE_WRITE -/

/-- MODEL_UNLOAD (R361, R419). DEDUCED (log 122). -/
def State.modelUnload (s : State) (i : Issuer) (digest : W64) : State :=
  if s.loading then s.reply i stBusy []
  else if s.hm.man.isNone ∨ s.digest64 ≠ digest then s.reply i stNotFound []
  else s.issue i 0x0102 0 0 0 fun t s => s.addCmd (.unload (some t))

/-- R360: bytes of a core's reserve banks that hold pinned experts and replicas: an equal share of each slice for each core of
its gang. -/
def State.pinnedBytes (s : State) (l : Nat) : Nat :=
  match s.hm.man with
  | none => 0
  | some m =>
    (m.layers.zipIdx.map fun x =>
      match x.1.moe with
      | none => 0
      | some e => ((s.residents x.2 e).map fun r => if (gangCoresOf e r.2.1).contains l then gangShare e r.2.1 else 0).sum).sum

/-- R360: a binding record. -/
def State.bindingRecord (s : State) (l : Nat) (x : LogicalCore) : List Byte :=
  let c := (s.physical l).getD 0
  leBytes 16 (l * 2 ^ 116 + x.preferred * 2 ^ 104 + c * 2 ^ 92 + hops x.preferred c * 2 ^ 85 + basinOf c * 2 ^ 77
    + x.banks.toNat * 2 ^ 61 + x.reserveBanks * 2 ^ 52 + s.pinnedBytes l % 2 ^ 24 * 2 ^ 24)

/-- BINDING_QUERY (R360). -/
def State.bindingQuery (s : State) (i : Issuer) (first count : Nat) : State :=
  match s.hm.man with
  | none => s.reply i stNotFound []
  | some m =>
    if !within 1 120 count || decide (m.cores.length < first + count) then s.reply i stBadArg []
    else
      let w := s.sec.run
      let head := (Config.bindingHeader [m.fuornMajor, m.fuornMinor, m.fuornPatch, w.major, w.minor, w.patch] s.digest64
        ++ List.replicate 16 0).take 16
      s.reply i stDone (head ++ ((m.cores.zipIdx.drop first).take count).flatMap fun x => s.bindingRecord x.2 x.1)

/-- EXPERT_STATS (R234). -/
def State.expertStats (s : State) (i : Issuer) (layer first count : Nat) : State :=
  match s.moe layer with
  | none => s.reply i stNotFound []
  | some e =>
    if !within 1 240 count || decide (e.routed + e.sharedExperts < first + count) then s.reply i stBadArg []
    else
      s.reply i stDone ((List.range count).flatMap fun j =>
        leBytes 8 (Sparse.get (0 : W64) s.plc.cum (layer * 256 + first + j)).toNat)

/-- The tile index of an address in the header table of a bound tensor. -/
def State.headerIx (s : State) (header : Nat) : Option Nat :=
  match s.hm.man with
  | none => none
  | some m => m.tensors.zipIdx.findSome? fun x =>
      let table := (s.spot m x.2).table
      if table ≤ header ∧ header < table + 16 * x.1.tiles.length ∧ (header - table) % 16 = 0 then some ((header - table) / 16)
      else none

/-- R304, R419: a re-verification of the tile has not finished. -/
def State.reverifying (s : State) (header : Nat) : Bool := s.ms.reports.any fun r => r.header == header

/-- R305: the retirement list takes a page. -/
def State.retire (s : State) (page : Nat) : State :=
  if s.flash.retired.contains page then s
  else if s.flash.retired.length < 4096 then { s with flash := { s.flash with retired := s.flash.retired ++ [page] } }
  else s.note 0x0B03 0 0 0 0 0 [BitVec.ofNat 64 page]

/-- R305: the page at an address is free: mapped, not retired, and outside every bound tensor, berth pool and table. -/
def State.pageFree (s : State) (m : Manifest) (a : Nat) : Bool :=
  let p := s.placement m
  a % 4096 == 0
    && (match s.stacked a with
        | some x => !s.flash.retired.contains (x.1 * Config.channelPages + x.2.1)
        | none => false)
    && (generalRanges p m).all (apart (a, 4096))
    && (p.spots.zip m.tensors).all fun x => apart (a, 4096) (x.1.base * 2 ^ 20, x.2.sizeMib * 2 ^ 20)

/-- The first of `n` pages from an address on that is free. -/
def firstPage (ok : Nat → Bool) : Nat → Nat → Option Nat
  | 0, _ => none
  | n + 1, a => if ok a then some a else firstPage ok n (a + 4096)

/-- R305: the free page that a tile moves to: the harbourmaster's choice, or else the first in stacked memory. -/
def State.sparePage (s : State) : Option Nat :=
  match s.hm.man with
  | none => none
  | some m =>
    let a := Config.sparePage s.free
    if s.pageFree m a then some a else firstPage (s.pageFree m) (Config.stackedBytes / 4096) 0

/-- R305: the tile is written anew: to a free page, its old page retired, or in place. DESIGN CHOICE (log 52). -/
def State.restoreTile (s : State) (header : Nat) (content : List W64) : Nat × Nat × State :=
  let h := tileHdrOf (s.devNum header 2)
  let spare := s.sparePage
  let s0 := { s with free := s.free + 1, plc := { s.plc with barred := [] } }
  let addr := spare.getD h.baddr
  let page := fun (a : Nat) => (s.keyOf a).getD 0 / 4096
  let bytes := leBytes 4096 (packFields 64 ((content.take 512).map (·.toNat)))
  let h1 : TileHdr := { h with baddr := addr, slen := 4096, coded := false, dmg := false, crc := tileCrc h.tile bytes }
  let s1 := (s0.devWrite addr (cleanWords 512 bytes)).devWrite header (cleanWords 2 (leBytes 16 h1.bits))
  let s2 := if spare.isSome then s1.retire (page h.baddr) else s1
  (page h.baddr, page addr,
   s2.note 0x0B02 0 0 0 0 0 [BitVec.ofNat 64 header, BitVec.ofNat 64 (page h.baddr), BitVec.ofNat 64 (page addr)])

/-- TILE_WRITE (R305, R419). DEDUCED (log 130). -/
def State.tileWrite (s : State) (i : Issuer) (header : Nat) (content : List W64) (fetch : FetchEnd) : State :=
  if (s.headerIx header).isNone then s.reply i stNotFound []
  else if s.reverifying header then s
  else
    s.issue i 0x0104 0 0 0 fun t s =>
      if fetch ≠ .ok then (s.readTries i fetch).finish t (fetchStatus fetch) 0
      else
        let q := s.restoreTile header content
        q.2.2.finish t stDone (Config.pagePair q.1 q.2.1)

/-! ## TICKET_CANCEL (R416) -/

/-- R416: opcodes whose tickets may be cancelled. -/
def cancellable (op : W16) : Bool := op == 0x0101 || op == 0x0403 || op == 0x0601 || op == 0x0602 || op == 0x0404

/-- R416: the work of a ticket stops at its next safe point. -/
def State.cancelWork (s : State) (x : Ticket) : State :=
  if x.op = 0x0602 then s.tgcStop (Fin.ofNat 256 x.object)
  else if x.op = 0x0404 then
    match s.serv.jobs.find? fun j => j.ticket == some x.num with
    | some j => s.addCmd (.cancelJob j.num)
    | none => s
  else s.finish x.num stCancelled 0

/-- TICKET_CANCEL (R416). -/
def State.ticketCancel (s : State) (i : Issuer) (t : W32) : State :=
  match s.myTicket i t with
  | none => s.reply i stNotFound []
  | some x =>
    if x.st = .finished then s.reply i stNotFound []
    else if !cancellable x.op then s.reply i stRefused []
    else ((s.modTicket t fun x => { x with st := .cancelling }).reply i stDone []).cancelWork x

/-! ## Rows -/

/-- MODEL_LOAD (R356). -/
def execModelLoad (i : Issuer) (src : LoadSource) (expected : BitVec 384) (stage : Bool) (sig : SigBlock) (m : Manifest)
    (bad : List (Nat × Nat)) (s : State) : Host.Outcome State Fault Refusal :=
  .next (s.hostCommand i 0x0101 fun s => s.modelLoad i src expected stage sig m bad)

/-- MODEL_UNLOAD (R361). -/
def execModelUnload (i : Issuer) (digest : W64) (s : State) : Host.Outcome State Fault Refusal :=
  .next (s.command i 0x0102 fun s => s.modelUnload i digest)

/-- BINDING_QUERY (R360). -/
def execBindingQuery (i : Issuer) (first count : Nat) (s : State) : Host.Outcome State Fault Refusal :=
  .next (s.command i 0x0103 fun s => s.bindingQuery i first count)

/-- TILE_WRITE (R305). -/
def execTileWrite (i : Issuer) (header : Nat) (content : List W64) (fetch : FetchEnd) (s : State) :
    Host.Outcome State Fault Refusal :=
  .next (s.hostCommand i 0x0104 fun s => s.tileWrite i header content fetch)

/-- EXPERT_STATS (R234). -/
def execExpertStats (i : Issuer) (layer first count : Nat) (s : State) : Host.Outcome State Fault Refusal :=
  .next (s.command i 0x0105 fun s => s.expertStats i layer first count)

/-- TICKET_CANCEL (R416). -/
def execTicketCancel (i : Issuer) (t : W32) (s : State) : Host.Outcome State Fault Refusal :=
  .next (s.command i 0x0005 fun s => s.ticketCancel i t)

end Sys2Proof.Machine
end

