-- ==== Sys2Proof/Machine/Sampling.lean ====
section
/-! DEFINITION. The request record and the drawing of tokens (R173 to R175, R328). -/

namespace Sys2Proof.Machine

/-! ## The request record (R328) -/

def qStop (r : BitVec 1024) (i : Nat) : W32 := r.extractLsb' (768 + 32 * i) 32
def qPlen (r : BitVec 1024) : Nat := fld r.toNat 672 32
def qMaxNew (r : BitVec 1024) : Nat := fld r.toNat 608 32
def qSource (r : BitVec 1024) : W32 := r.extractLsb' 576 32
def qPoint (r : BitVec 1024) : Nat := fld r.toNat 544 32
def qModel (r : BitVec 1024) : W64 := r.extractLsb' 480 64
def qAdapter (r : BitVec 1024) : W16 := r.extractLsb' 464 16
def qNstop (r : BitVec 1024) : Nat := fld r.toNat 456 8
def qDrafts (r : BitVec 1024) : Nat := fld r.toNat 448 8
def qCring (r : BitVec 1024) : Nat := fld r.toNat 440 8
def qFork (r : BitVec 1024) : Bool := r.getLsbD 434
def qPonly (r : BitVec 1024) : Bool := r.getLsbD 433
def qTag (r : BitVec 1024) : W32 := r.extractLsb' 400 32
def qSeed (r : BitVec 1024) : W64 := r.extractLsb' 336 64
def qTemp (r : BitVec 1024) : W32 := r.extractLsb' 304 32
def qTopP (r : BitVec 1024) : W32 := r.extractLsb' 272 32
def qTopK (r : BitVec 1024) : Nat := fld r.toNat 264 8

/-- The completion ring that a record names. DEDUCED (log 88). -/
def cringOf (r : BitVec 1024) : RingId := Fin.ofNat 128 (qCring r)

/-- R172: the sampling record of a request. -/
def samplingRecord (r : BitVec 1024) : List Byte :=
  let seed := (qSeed r).toNat
  leBytes 32 (seed % 2 ^ 32 + (qTemp r).toNat * 2 ^ 32 + (qTopP r).toNat * 2 ^ 64 + qTopK r * 2 ^ 96 + seed / 2 ^ 32 * 2 ^ 104)

/-- R174: temperature from 0 to 100, top_p greater than 0 and at most 1, top_k at most 64. -/
def samplingOk (r : BitVec 1024) : Bool :=
  let t := qTemp r
  let p := qTopP r
  decide (qTopK r ≤ 64) && !fisNan p && flt 0 p && !flt 0x3F800000 p && !fisNan t && !flt t 0 && !flt 0x42C80000 t

/-! ## Drawing a token (R173, R175) -/

/-- R173: the candidate list: the 64 best logits of those that the step formed, in R168 order. -/
def candidates (xs : List Cand) : List Cand := (xs.foldl (fun l x => insertRank x l) []).take 64

/-- Candidate `i` of a list; past those there are, as a reduction reads out (R169). -/
def candAt (cs : List Cand) (i : Nat) : Cand := cs.getD i (0xFF800000#32, 0xFFFFFFFF#32)

/-- R167: the sum of a stream of FP32 elements, read out. -/
def vsum (xs : List W32) : W32 := (((RedCtx.begin .sum 0 0).feed xs none).sum).readOut 0x3F800000#32

/-- Prefix sums in index order, up to the first that reaches `t`. -/
def prefixSums (t : W32) : W32 → List W32 → List W32
  | _, [] => []
  | c, e :: r =>
    let c1 := fadd c e
    c1 :: if !fisNan c1 && !fisNan t && !flt c1 t then [] else prefixSums t c1 r

/-- The first prefix sum that exceeds `x`, else the first that equals the last one. -/
def firstPast (x : W32) (cum : List W32) : Option Nat :=
  let last := cum.getLastD 0
  (cum.findIdx? fun c => flt x c).or (cum.findIdx? fun c => !fisNan c && !fisNan last && !flt c last && !flt last c)

/-- R175: the token drawn at a position with its logit; none when the logits are poisoned. DEDUCED (log 166). -/
def draw (r : BitVec 1024) (position : Nat) (purpose : W32) (xs : List Cand) : Option Cand :=
  let cs := candidates xs
  let top := candAt cs 0
  if fisNan top.1 then none
  else if (qTemp r).toNat % 2 ^ 31 = 0 then some top
  else
    let k := min (if qTopK r = 0 then 64 else qTopK r) (max 1 cs.length)
    let it := specialFp32 3 (qTemp r)
    let e := (List.range k).map fun i => specialFp32 0 (fmul (fsub (candAt cs i).1 top.1) it)
    let cum := prefixSums (fmul (qTopP r) (vsum e)) 0 e
    let w := (philox (qSeed r) ⟨BitVec.ofNat 32 position, purpose, 0, 0⟩).word 0
    let u := fpOfInt (Int.ofNat (w.toNat / 256)) (-24)
    let i := (firstPast (fmul u (cum.getLastD 0)) cum).getD (Config.openDraw (qSeed r) position purpose % k)
    some (candAt cs i)

end Sys2Proof.Machine
end

