-- ==== Sys2Proof/Machine/Serving.lean ====
section
/-! DEFINITION. Requests, their records and commands; adapters, data sets and tuning jobs as commands see them (R328 to R335,
R342 to R349, R402, R403, R417). -/

namespace Sys2Proof.Machine

/-! ## Completion records (R335) -/

/-- Fields of a completion record; `kind` holds end, draft and prefilled as bits 0, 1 and 2. -/
structure CompRec where
  tag : W32
  handle : W32
  position : Nat
  token : W32
  logit : W32
  step : W64
  status : W16
  reason : Byte
  kind : BitVec 3
  seq : W32
  deriving DecidableEq, Repr

def CompRec.bits (c : CompRec) : BitVec 256 :=
  BitVec.ofNat 256 (c.seq.toNat + c.kind.toNat * 2 ^ 32 + c.reason.toNat * 2 ^ 40 + c.status.toNat * 2 ^ 48
    + c.step.toNat % 2 ^ 32 * 2 ^ 64 + c.logit.toNat * 2 ^ 96 + c.token.toNat * 2 ^ 128 + c.position % 2 ^ 32 * 2 ^ 160
    + c.handle.toNat * 2 ^ 192 + c.tag.toNat * 2 ^ 224)

/-- R328: the end record of a refused request. -/
def State.refusalRecord (s : State) (r : BitVec 1024) (status : W16) : BitVec 256 :=
  CompRec.bits ⟨qTag r, 0, 0, 0xFFFFFFFF, 0, s.hm.step, status, 0, 1, 0⟩

/-- R334: the end record of a request. -/
def State.endRecord (s : State) (q : Request) (status : W16) (reason : Byte) (prefilled : Bool) : BitVec 256 :=
  CompRec.bits ⟨qTag q.record, q.handle, q.committed, 0xFFFFFFFF, 0, s.hm.step, status, reason, if prefilled then 5 else 1, q.seq⟩

/-! ## Requests -/

def State.req (s : State) (h : W32) : Option Request := s.serv.reqs.find? fun q => q.handle == h

def State.modReq (s : State) (h : W32) (f : Request → Request) : State :=
  { s with serv := { s.serv with reqs := updFirst (fun q => q.handle == h) f s.serv.reqs } }

def State.dropReq (s : State) (h : W32) : State :=
  { s with serv := { s.serv with reqs := dropFirst (fun q => q.handle == h) s.serv.reqs } }

/-- R417: a request that an issuer may name: its submitting function, or the physical function. -/
def State.visible (s : State) (i : Issuer) (h : W32) : Option Request :=
  match s.req h with
  | some q => if i = .fn 0 ∨ i = .fn q.f then some q else none
  | none => none

/-- Whether this module is a request's home. -/
def State.homeOf (s : State) (q : Request) : Bool := q.home == s.rank

/-! ## Checks of a submission (R328, R403) -/

/-- R403: an entry that is malformed. -/
def entryMalformed (e : BitVec 256) : Bool :=
  let n := e.toNat
  fld n 0 16 != 0x0301 || fld n 16 48 != 0 || fld n 128 128 != 0 || fld n 64 64 % 128 != 0

def State.hasDraft (s : State) : Bool :=
  match s.hm.man with
  | some m => m.draftLayers != []
  | none => false

/-- R343: the resident version of an adapter id that is current, as a tenant sees it. -/
def State.currentAdapter (s : State) (t : TenantId) (id : W16) : Option AdapterVer :=
  s.serv.adapters.find? fun a => a.id == id && a.current && a.tenant == t

/-- R199, R211: whether a fork is refused, and how. DEDUCED (log 133). -/
def State.forkVerdict (s : State) (f : FnId) (r : BitVec 1024) : W16 :=
  match s.visible (.fn f) (qSource r) with
  | none => stBadArg
  | some q =>
    if q.phase = .movingOut ∨ q.phase = .moored ∨ q.phase = .movingIn then stBusy
    else if q.committed < qPoint r ∨ (qPoint r % 5 ≠ 0 ∧ qPoint r ≠ q.committed) then stBadArg
    else stDone

/-- R328: the first condition that matches decides. DEDUCED (log 132). -/
def State.recordVerdict (s : State) (f : FnId) (r : BitVec 1024) : W16 :=
  if !samplingOk r || decide (7 < qDrafts r) || (qDrafts r != 0 && !s.hasDraft) || decide (8 < qNstop r) || qMaxNew r == 0
      || !within 1 1048576 (qMaxContext r) || !within 1 (qMaxContext r) (qPlen r) then stBadArg
  else if s.hm.man.isNone || qModel r != s.digest64 then stDigest
  else if qAdapter r != 0xFFFF && (s.currentAdapter (s.fn f).tenant (qAdapter r)).isNone then stNotFound
  else if qFork r then s.forkVerdict f r
  else stDone

/-- How a submission fares: R403 first, then R328, then the fetch of the prompt. -/
def State.submitVerdict (s : State) (f : FnId) (e : BitVec 256) (r : BitVec 1024) (prompt : FetchEnd) : W16 :=
  if entryMalformed e then stBadArg
  else
    let st := s.recordVerdict f r
    if st = stDone then fetchStatus prompt else st

/-- R406: records that a request reserves. -/
def ringNeed (r : BitVec 1024) : Nat := 2 + qDrafts r

/-- The tokens that a running request has streamed in this step: one at the end of its prompt, else each position after those
that the step began with. -/
def Request.streamed (q : Request) : Nat :=
  match q.top with
  | none => 0
  | some t => if t ≤ q.base then 0 else if q.base < qPlen q.record then 1 else t - q.base

/-- R406: room of a completion ring that running requests still hold reserved in this step. DEDUCED (log 90). -/
def State.ringHeld (s : State) (f : FnId) (r : RingId) : Nat :=
  ((s.serv.reqs.filter fun q => q.phase == .running && q.rows != 0 && s.homeOf q && q.f == f && cringOf q.record == r).map
    fun q => ringNeed q.record - q.streamed).sum

/-- A completion ring that takes a function's records. DEDUCED (log 88). -/
def State.cringOk (s : State) (f : FnId) (r : BitVec 1024) : Bool :=
  decide (qCring r < 128) && (s.ring f (cringOf r)).serves 2

/-- The entry is taken: the next one is due, and its read is no longer outstanding. -/
def State.takeEntry (s : State) (f : FnId) (r : RingId) (ix : W32) : State :=
  let s1 := { s with host := { s.host with reads := s.host.reads.filter fun x => !(x.f == f && x.ring == r && x.ix == ix) } }
  s1.modRing f r fun g => { g with next := ix + 1 }

/-- A ring of which the home may take an entry. -/
def State.hasEntry (s : State) (f : FnId) (r : RingId) : Bool :=
  let g := s.ring f r
  s.mastering f && g.serves 1 && g.next != g.prod

/-- Rings with an entry to take, as f × 128 + r. -/
def State.entryRings (s : State) : List Nat :=
  s.host.fns.flatMap fun x => (x.2.rings.filter fun y => s.hasEntry (Fin.ofNat 64 x.1) (Fin.ofNat 128 y.1)).map fun y => x.1 * 128 + y.1

/-- R329: how far a ring stands behind the one that last gave an entry, in ascending function and ring, wrapping. -/
def State.behind (s : State) (k : Nat) : Nat := (k + 8191 - s.serv.turn) % 8192

/-- R329: it is the ring's turn: no ring with an entry comes before it in the pass. -/
def State.turnOf (s : State) (f : FnId) (r : RingId) : Bool :=
  s.entryRings.all fun k => decide (s.behind (f.val * 128 + r.val) ≤ s.behind k)

/-- The ring has had its turn. -/
def State.passTurn (s : State) (f : FnId) (r : RingId) : State := { s with serv := { s.serv with turn := f.val * 128 + r.val } }

/-- REQ_SUBMIT: the next entry of a request ring, in the ring's turn. Where the ring's read has come, its copy is the entry. -/
def State.submit (s : State) (f : FnId) (r : RingId) (entry : BitVec 256) (rec_ : Option (BitVec 1024)) (prompt : FetchEnd) :
    State :=
  let g := s.ring f r
  if s.hm.state ≠ 1 ∨ !s.hasEntry f r ∨ !s.turnOf f r then s
  else
    let s0 := s.passTurn f r
    let ix := g.next
    let e := (assoc? ix.toNat g.fetched).getD entry
    match rec_ with
    | none => ((s0.takeEntry f r ix).leave f r ix).readTries (.fn f) .hostError
    | some q =>
      if !s.cringOk f q then ((s0.takeEntry f r ix).leave f r ix).modFn f fun x => x.flag errHost
      else
        let st := s.submitVerdict f e q prompt
        let s0 := if st = stHostError then s0.readTries (.fn f) prompt else s0
        if st = stDone then
          let o : Offer := ⟨s.rank, f, (s.fn f).tenant, r, ix, q⟩
          let s1 := s0.takeEntry f r ix
          { s1 with serv := { s1.serv with offers := s1.serv.offers ++ [o] } }
        else if (s.ring f (cringOf q)).room ≤ s.ringHeld f (cringOf q) ∨ (s.ring f (cringOf q)).kept ≠ [] then s0
        else ((s0.takeEntry f r ix).complete f (cringOf q) (s.refusalRecord q st)).leave f r ix

/-! ## Commands that name requests (R345 to R348) -/

/-- REQ_CANCEL: a handle, or with bit 63 a pending entry: ring in [38:32], index in [31:0]. -/
def State.reqCancel (s : State) (i : Issuer) (f : FnId) (name : W64) : State :=
  if tb name.toNat 63 then
    let r : RingId := Fin.ofNat 128 (fld name.toNat 32 7)
    let ix := name.extractLsb' 0 32
    if s.serv.offers.any fun o => o.home == s.rank && o.f == f && o.ring == r && o.ix == ix then
      s.issue i 0x0302 0 0 0 fun t s => s.addCmd (.cancelOffer f r ix (some t))
    else s.reply i stNotFound []
  else
    let h := name.extractLsb' 0 32
    if (s.visible i h).isSome then s.issue i 0x0302 0 0 h.toNat fun t s => s.addCmd (.cancel h (some t))
    else s.reply i stNotFound []

/-- REQ_PAUSE (R208, R209). DEDUCED (log 91). -/
def State.reqPause (s : State) (i : Issuer) (h ttl : W32) : State :=
  if !within 1 604800 ttl.toNat then s.reply i stBadArg []
  else if (s.visible i h).isNone then s.reply i stNotFound []
  else s.issue i 0x0303 1 0 h.toNat fun t s => s.addCmd (.pause h (1000 * ttl.toNat) (some t))

/-- Whether a request is paused, or on its way. -/
def Request.paused (q : Request) : Bool := q.phase == .movingOut || q.phase == .moored

/-- REQ_RESUME (R210): of a paused request. DEDUCED (log 91). -/
def State.reqResume (s : State) (i : Issuer) (h : W32) : State :=
  match s.visible i h with
  | none => s.reply i stNotFound []
  | some q =>
    if !q.paused then s.reply i stNotFound []
    else if s.hm.man.isNone ∨ qModel q.record ≠ s.digest64 then s.reply i stDigest []
    else s.issue i 0x0304 1 0 h.toNat fun t s => s.addCmd (.resume h (some t))

def Phase.code : Phase → Nat
  | .running => 1
  | .held => 2
  | .movingOut => 3
  | .moored => 4
  | .movingIn => 5
  | .prefilled => 6
  | .ending => 7

/-- R209: time to live left, in ms, at the module time. -/
def State.ttlLeft (s : State) (q : Request) : Nat :=
  if q.phase = .moored then q.ttl - (s.hm.timeNs - q.since).toNat / 1000000 else 0

/-- A counter of 32 bits that stops at its maximum. -/
def cap32 (n : Nat) : Nat := min n 0xFFFFFFFF

/-- R348: the statistics record. -/
def State.statRecord (s : State) (q : Request) : List Byte :=
  leBytes 64 (cap32 (s.ttlLeft q) * 2 ^ 32 + q.admitted.toNat * 2 ^ 64 + q.a8.length % 2 ^ 16 * 2 ^ 184 + q.phase.code * 2 ^ 200
    + (if q.aver = 0 then 0xFFFF else (qAdapter q.record).toNat) * 2 ^ 208 + q.aver.toNat * 2 ^ 224 + cap32 q.evicted * 2 ^ 256
    + cap32 q.held * 2 ^ 288 + cap32 q.steps * 2 ^ 320 + cap32 q.accepted * 2 ^ 352 + cap32 q.drafted * 2 ^ 384
    + cap32 q.produced * 2 ^ 416 + cap32 q.committed * 2 ^ 448 + q.handle.toNat * 2 ^ 480)

/-- REQ_STATUS (R348). -/
def State.reqStatus (s : State) (i : Issuer) (h : W32) : State :=
  match s.visible i h with
  | some q => s.reply i stDone (s.statRecord q)
  | none => s.reply i stNotFound []

/-! ## Adapters (R342, R343) -/

/-- An id that a running tuning job names. -/
def State.jobNames (s : State) (id : W16) : Bool :=
  (s.serv.jobs.any fun j => j.args.adapter == id)
    || s.serv.cmds.any fun c => match c with | .tune _ _ a _ => a.adapter == id | _ => false

/-- An id whose versions belong to another tenant. -/
def State.foreignAdapter (s : State) (t : TenantId) (id : W16) : Bool := s.serv.adapters.any fun a => a.id == id && a.tenant != t

/-- R31, R32: the code stream of a T5 matrix given by its output rows. -/
def t5Stream (rows : List (List Int)) : List Nat :=
  rows.flatMap fun r => keyCodes 5 (r ++ List.replicate (ceilDiv r.length 80 * 80 - r.length) 0)

/-- A code stream cut into tiles of 4,096 bytes (R301), the last filled with zeros. -/
def cutTiles (codes : List Nat) : List (List Byte) :=
  (List.range (ceilDiv codes.length 4096)).map fun i =>
    let part := ((codes.drop (4096 * i)).take 4096).map (BitVec.ofNat 8)
    part ++ List.replicate (4096 - part.length) 0

/-- The tiles of a factor pair: A's, then B's. The columns with a scale are the output rows (R33). DEDUCED (log 129). -/
def factorTiles (x : AdapterFactor) : List (List Byte) :=
  let rows := x.cols.map (·.2)
  cutTiles (t5Stream (rows.take x.r)) ++ cutTiles (t5Stream (rows.drop x.r))

/-- R302: the check values of a factor pair's tiles. -/
def factorCrcs (x : AdapterFactor) : List W32 := (factorTiles x).zipIdx.map fun p => tileCrc p.2 p.1

/-- R342: rank, site and shape of a factor pair; R303: its tiles pass. -/
def State.factorOk (s : State) (x : AdapterFactor) : Bool :=
  match s.hm.man.bind fun m => m.sites[x.site]? with
  | some site =>
    within 1 256 x.r && site.adaptable && x.din == site.din && x.dout == site.dout
      && x.cols.length == x.r + x.dout && (x.cols.take x.r).all (fun c => c.2.length == x.din)
      && (x.cols.drop x.r).all (fun c => c.2.length == x.r) && x.crcs == factorCrcs x
  | none => false

/-- R342: versions that are resident, and installs accepted that will add one. -/
def State.versionLoad (s : State) : Nat :=
  s.serv.adapters.length + (s.serv.cmds.filter fun c => match c with | .install _ _ _ _ => true | _ => false).length

/-- ADAPTER_INSTALL: how it fares before its boundary. -/
def State.installVerdict (s : State) (fs : List AdapterFactor) (fetch : FetchEnd) (fits : Bool) : W16 :=
  if fetch ≠ .ok then fetchStatus fetch
  else if !fs.all s.factorOk then stBadArg
  else if !fits || decide (4096 ≤ s.versionLoad) then stNoSpace
  else stDone

/-- ADAPTER_INSTALL (R342). -/
def State.adapterInstall (s : State) (i : Issuer) (id : W16) (fs : List AdapterFactor) (fetch : FetchEnd) (fits : Bool) : State :=
  let t := s.tenantOf i
  if s.foreignAdapter t id then s.reply i stNotFound []
  else if s.jobNames id then s.reply i stBusy []
  else
    s.issue i 0x0401 0 0 id.toNat fun k s =>
      let st := s.installVerdict fs fetch fits
      if st = stDone then s.addCmd (.install id t fs (some k)) else (s.readTries i fetch).finish k st 0

/-- ADAPTER_REMOVE (R343). DEDUCED (log 145). -/
def State.adapterRemove (s : State) (i : Issuer) (id : W16) : State :=
  if (s.currentAdapter (s.tenantOf i) id).isNone then s.reply i stNotFound []
  else if s.jobNames id then s.reply i stBusy []
  else s.issue i 0x0402 0 0 id.toNat fun k s => s.addCmd (.remove id (some k))

/-- The bytes of a resident version. DESIGN CHOICE (log 144). -/
def AdapterVer.package (a : AdapterVer) : List Byte :=
  Config.adapterPackage a.id a.version (a.factors.map fun x => (x.site, x.din, x.r, x.dout, x.cols))

/-- ADAPTER_EXPORT (R417). -/
def State.adapterExport (s : State) (i : Issuer) (id : W16) (version : W32) (fetch : FetchEnd) : State :=
  match s.serv.adapters.find? fun a => a.id == id && a.version == version && a.tenant == s.tenantOf i with
  | none => s.reply i stNotFound []
  | some a =>
    s.issue i 0x0406 0 0 id.toNat fun k s =>
      if fetch = .ok then (s.putBuffer i 0x0406 a.package).finish k stDone (BitVec.ofNat 64 a.package.length)
      else (s.readTries i fetch).finish k (fetchStatus fetch) 0

/-! ## Data sets and tuning jobs (R349) -/

/-- DATA_WRITE (R349). -/
def State.dataWrite (s : State) (i : Issuer) (set : Byte) (data : List W64) (fetch : FetchEnd) (fits : Bool) : State :=
  let t := s.tenantOf i
  s.issue i 0x0403 0 0 set.toNat fun k s => afterFetch fetch s fun s =>
    if fetch ≠ .ok then (s.readTries i fetch).finish k (fetchStatus fetch) 0
    else if !fits then s.finish k stNoSpace 0
    else
      let sets := s.serv.sets.filter fun d => !(d.tenant == t && d.id == set)
      ({ s with serv := { s.serv with sets := sets ++ [(⟨t, set, data⟩ : DataSet)] } }).finish k stDone (BitVec.ofNat 64 (8 * data.length))

/-- R349: a fresh A factor's code for an output row and a group of five reduction columns. -/
def freshCode (seed : W64) (site row group : Nat) : Nat :=
  ((philox seed ⟨BitVec.ofNat 32 site, BitVec.ofNat 32 row, BitVec.ofNat 32 group, 0x4144⟩).word 0).toNat % 243

/-- R349, R28: element (row, column) of a fresh A factor: its trit of the group's code, the same in each of the five planes.
DESIGN CHOICE (log 143). -/
def freshElement (seed : W64) (site row col : Nat) : Int := 121 * codeTrit (freshCode seed site row (col / 5)) (col % 5)

/-- R349: a fresh factor pair: A drawn, B zero, every scale 2^−8. -/
def freshFactor (seed : W64) (site : Nat) (x : SiteSpec) (r : Nat) : AdapterFactor :=
  { site := site, din := x.din, r := r, dout := x.dout, crcs := [],
    cols := ((List.range r).map fun c => (0x3B800000#32, (List.range x.din).map fun d => freshElement seed site c d))
      ++ (List.range x.dout).map fun _ => (0x3B800000#32, List.replicate r 0) }

/-- The factors that a job starts from. -/
def State.startFactors (s : State) (t : TenantId) (a : TuneArgs) : Option (List AdapterFactor) :=
  match s.hm.man with
  | none => none
  | some m =>
    if a.startVersion = 0 then
      some ((Config.freshShape m.digest a.adapter).filterMap fun p => (m.sites[p.1]?).map fun x => freshFactor a.seed p.1 x p.2)
    else (s.serv.adapters.find? fun v => v.id == a.adapter && v.version == a.startVersion && v.tenant == t).map (·.factors)

/-- R349: a layer between an adapted site and the output head that has no transposed copy. -/
def State.untransposed (s : State) (fs : List AdapterFactor) : Bool :=
  match s.hm.man with
  | none => false
  | some m => m.layers.zipIdx.any fun x =>
      !x.1.transposed && fs.any fun f => (m.sites[f.site]?).any fun site => decide (site.layer ≤ x.2)

/-- The smallest number that no job has. -/
def freeJob (js : List Job) : Nat := ((List.range 8).find? fun n => !(js.any fun j => j.num == n)).getD 8

/-- R349: jobs that run, and jobs accepted that will. -/
def State.jobLoad (s : State) : Nat :=
  s.serv.jobs.length + (s.serv.cmds.filter fun c => match c with | .tune _ _ _ _ => true | _ => false).length

/-- TUNE_START (R349): the job runs from the next boundary on. DEDUCED (log 91). -/
def State.tuneStart (s : State) (i : Issuer) (a : TuneArgs) : State :=
  let t := s.tenantOf i
  match s.startFactors t a with
  | none => s.reply i stNotFound []
  | some fs =>
    if s.untransposed fs || decide (s.bMax < a.rowShare) || decide (8 ≤ s.jobLoad) then s.reply i stBadArg []
    else if !(s.serv.sets.any fun d => d.tenant == t && d.id == a.dataSet) || s.foreignAdapter t a.adapter then
      s.reply i stNotFound []
    else s.issue i 0x0404 0 0 a.adapter.toNat fun k s => s.addCmd (.tune i t a (some k))

/-! ## Rows -/

/-- REQ_SUBMIT (R328). -/
def execReqSubmit (f : FnId) (r : RingId) (entry : BitVec 256) (rec_ : Option (BitVec 1024)) (prompt : FetchEnd) (s : State) :
    Host.Outcome State Fault Refusal := .next (s.submit f r entry rec_ prompt)

/-- REQ_CANCEL (R347). -/
def execReqCancel (i : Issuer) (name : W64) (s : State) : Host.Outcome State Fault Refusal :=
  .next (s.command i 0x0302 fun s =>
    match i with
    | .fn f => s.reqCancel i f name
    | .rack => s)

/-- REQ_PAUSE (R208). -/
def execReqPause (i : Issuer) (handle ttl : W32) (s : State) : Host.Outcome State Fault Refusal :=
  .next (s.command i 0x0303 fun s => s.reqPause i handle ttl)

/-- REQ_RESUME (R210). -/
def execReqResume (i : Issuer) (handle : W32) (s : State) : Host.Outcome State Fault Refusal :=
  .next (s.command i 0x0304 fun s => s.reqResume i handle)

/-- REQ_STATUS (R348). -/
def execReqStatus (i : Issuer) (handle : W32) (s : State) : Host.Outcome State Fault Refusal :=
  .next (s.command i 0x0306 fun s => s.reqStatus i handle)

/-- ADAPTER_INSTALL (R342). -/
def execAdapterInstall (i : Issuer) (id : W16) (fs : List AdapterFactor) (fetch : FetchEnd) (fits : Bool) (s : State) :
    Host.Outcome State Fault Refusal := .next (s.hostCommand i 0x0401 fun s => s.adapterInstall i id fs fetch fits)

/-- ADAPTER_REMOVE (R343). -/
def execAdapterRemove (i : Issuer) (id : W16) (s : State) : Host.Outcome State Fault Refusal :=
  .next (s.command i 0x0402 fun s => s.adapterRemove i id)

/-- DATA_WRITE (R349). -/
def execDataWrite (i : Issuer) (set : Byte) (data : List W64) (fetch : FetchEnd) (fits : Bool) (s : State) :
    Host.Outcome State Fault Refusal := .next (s.hostCommand i 0x0403 fun s => s.dataWrite i set data fetch fits)

/-- TUNE_START (R349). -/
def execTuneStart (i : Issuer) (a : TuneArgs) (s : State) : Host.Outcome State Fault Refusal :=
  .next (s.command i 0x0404 fun s => s.tuneStart i a)

/-- ADAPTER_EXPORT (R417). -/
def execAdapterExport (i : Issuer) (id : W16) (version : W32) (fetch : FetchEnd) (s : State) : Host.Outcome State Fault Refusal :=
  .next (s.hostCommand i 0x0406 fun s => s.adapterExport i id version fetch)

end Sys2Proof.Machine
end

