-- ==== Sys2Proof/Machine/Tide.lean ====
section
/-! DEFINITION. The end of a step, tide, and the cut-off (R337, R340, R341). Times are in microseconds. -/

namespace Sys2Proof.Machine

def State.modTide (s : State) (g : Tide → Tide) : State := { s with serv := { s.serv with tide := g s.serv.tide } }

def State.setPhase (s : State) (p : BPhase) : State := { s with serv := { s.serv with phase := p } }

/-- The counters that a boundary's beginning adds to. -/
inductive Began where
  | aligned | miss | freeRun
  deriving DecidableEq, Repr

def Tide.count (t : Tide) : Began → Tide
  | .aligned => { t with aligned := bump t.aligned }
  | .miss => { t with misses := bump t.misses }
  | .freeRun => { t with freeRuns := bump t.freeRuns }

/-- The commands and offers accepted so far (R337). -/
def State.accepted (s : State) : Nat × Nat := (s.serv.cmds.length, s.serv.offers.length)

/-- R337, R341: the boundary begins, with its cut-off and the free-run flag. A module in state 3 begins none (R451). -/
def State.begin_ (s : State) (b : Began) (cut : Nat × Nat) : State :=
  if s.hm.state = 3 then s
  else
    let s1 := (s.modTide fun t => t.count b).setPhase .begun
    { s1 with serv := { s1.serv with cut := cut.1, cutOffers := cut.2, freeRun := b == .freeRun } }

/-- R340: an accepted pulse arrived from 50 µs before `e` to `e`. -/
def Tide.recent (t : Tide) (e : Nat) : Bool :=
  match t.last with
  | some l => decide (e ≤ l + 50) && decide (l ≤ e)
  | none => false

/-- R340, R496: every core has finished the step's work, and none is halted by debug. -/
def State.workDone (s : State) : Bool := !s.debugHold && s.hm.state == 1 && s.cores.all fun p => !p.2.inTask

/-- STEP_WORK_DONE (R340, R341). Whether a pulse comes within 50 µs shows only then: a boundary that waits keeps what was accepted by
`e`. DEDUCED (log 152). -/
def State.stepWorkDone (s : State) (e : Nat) : State :=
  if s.serv.phase ≠ .step ∨ !s.workDone then s
  else
    let t := s.serv.tide
    if !t.locked then s.begin_ .freeRun s.accepted
    else if t.recent e then s.begin_ .aligned s.accepted
    else s.setPhase (.waiting e s.accepted.1 s.accepted.2)

/-- R341: tide is lost; the event is raised, and a boundary that waits begins as of its `e`, free-running.
DEDUCED (log 152). -/
def State.loseTide (s : State) : State :=
  let s1 := (s.modTide fun t => { t with locked := false, missed := 0, period := 0 }).note 0x0C01 0 0 0 0 0 []
  match s.serv.phase with
  | .waiting _ c o => s1.begin_ .freeRun (c, o)
  | _ => s1

/-- R340, R341: an accepted pulse: its period is measured. DEDUCED (log 152). -/
def State.acceptPulse (s : State) (now : Nat) : State :=
  let t := s.serv.tide
  let s1 := s.modTide fun t => { t with last := some now, missed := 0 }
  match t.last with
  | none => s1
  | some l =>
    if within 100 1000000 (now - l) then s1.modTide fun t => { t with locked := true, period := now - l }
    else if t.locked then s1.loseTide
    else s1

/-- A boundary that waits begins at a pulse within 50 µs (R340). -/
def State.pulseStarts (s : State) (now : Nat) : State :=
  match s.serv.phase with
  | .waiting e _ _ => if now ≤ e + 50 then s.begin_ .aligned s.accepted else s
  | _ => s

/-- TIDE_PULSE (R340): a pulse of less than 32 ns is none; one within 50 µs of the last is a glitch. -/
def State.tidePulse (s : State) (now highNs : Nat) : State :=
  let early := match s.serv.tide.last with
    | some l => decide (now < l + 50)
    | none => false
  if highNs < 32 then s
  else if early then s.modTide fun t => { t with glitches := bump t.glitches }
  else (s.acceptPulse now).pulseStarts now

/-- TIDE_LOST (R341): no pulse within T + 50 µs of the previous one, twice in succession. -/
def State.tideMissing (s : State) (now : Nat) : State :=
  let t := s.serv.tide
  match t.last with
  | none => s
  | some l =>
    if !t.locked ∨ now ≤ l + (t.missed + 1) * t.period + 50 then s
    else if 1 ≤ t.missed then (s.loseTide).modTide fun t => { t with last := none }
    else s.modTide fun t => { t with missed := t.missed + 1 }

/-- TIDE_SHIFT_LIMIT (R340): a boundary is never held more than 50 µs past e; it then begins as of e, with the commands accepted by
then. -/
def State.shiftLimit (s : State) (now : Nat) : State :=
  match s.serv.phase with
  | .waiting e c o => if e + 50 ≤ now then s.begin_ .miss (c, o) else s
  | _ => s

/-- STEP_WORK_DONE (R340). -/
def execStepWorkDone (nowUs : Nat) (s : State) : Host.Outcome State Fault Refusal := .next (s.stepWorkDone nowUs)

/-- TIDE_PULSE (R340). -/
def execTidePulse (nowUs highNs : Nat) (s : State) : Host.Outcome State Fault Refusal :=
  s.live fun s => s.tidePulse nowUs highNs

/-- TIDE_LOST (R341). -/
def execTideLost (nowUs : Nat) (s : State) : Host.Outcome State Fault Refusal := s.live fun s => s.tideMissing nowUs

/-- TIDE_SHIFT_LIMIT (R340). -/
def execTideShiftLimit (nowUs : Nat) (s : State) : Host.Outcome State Fault Refusal := .next (s.shiftLimit nowUs)

end Sys2Proof.Machine
end

