-- ==== Sys2Proof/Machine/Berths.lean ====
section
/-! DEFINITION. Berths, quays and pools in memory, and the berth actions of a boundary (R179 to R186, R196 to R206, R308 to
R310). -/

namespace Sys2Proof.Machine

/-! ## Berth header and berth-table entry (R180, R184) -/

/-- Table "Berth header". -/
structure BHdr where
  handle : Nat
  refs : Nat
  layer : Nat
  pair : Nat
  fmt : Nat
  reach : Nat
  compacted : Bool
  prov : Bool
  fill : Nat
  groups : Nat
  first : Nat
  evict : Nat
  modelTag : Nat
  deriving DecidableEq, Repr

def bhdrOf (n : Nat) : BHdr :=
  { handle := fld n 480 32, refs := fld n 464 16, layer := fld n 448 16, pair := fld n 440 8, fmt := fld n 438 2,
    reach := fld n 435 3, compacted := tb n 434, prov := tb n 433, fill := fld n 424 8, groups := fld n 416 8,
    first := fld n 384 32, evict := fld n 304 80, modelTag := fld n 240 64 }

def BHdr.bits (h : BHdr) : Nat :=
  h.modelTag * 2 ^ 240 + h.evict * 2 ^ 304 + h.first * 2 ^ 384 + h.groups * 2 ^ 416 + h.fill * 2 ^ 424 + bit h.prov * 2 ^ 433
    + bit h.compacted * 2 ^ 434 + h.reach * 2 ^ 435 + h.fmt * 2 ^ 438 + h.pair * 2 ^ 440 + h.layer * 2 ^ 448
    + h.refs * 2 ^ 464 + h.handle * 2 ^ 480

/-- Table "Berth table entry". -/
structure BEntry where
  handle : Nat
  first : Nat
  fill : Nat
  groups : Nat
  reach : Nat
  compacted : Bool
  shared : Bool
  anc : Bool
  evict : Nat
  deriving DecidableEq, Repr

def bentryOf (n : Nat) : BEntry :=
  { handle := fld n 224 32, first := fld n 192 32, fill := fld n 184 8, groups := fld n 176 8, reach := fld n 173 3,
    compacted := tb n 172, shared := tb n 171, anc := tb n 170, evict := fld n 80 80 }

def BEntry.bits (e : BEntry) : Nat :=
  e.evict * 2 ^ 80 + bit e.anc * 2 ^ 170 + bit e.shared * 2 ^ 171 + bit e.compacted * 2 ^ 172 + e.reach * 2 ^ 173
    + e.groups * 2 ^ 176 + e.fill * 2 ^ 184 + e.first * 2 ^ 192 + e.handle * 2 ^ 224

/-! ## The berth page (R180, R182, R183) -/

/-- Sizes of the model's cache format: planes, head dimension. -/
structure KvFmt where
  planes : Nat
  dh : Nat
  deriving DecidableEq, Repr

def State.kvFmt (s : State) : KvFmt :=
  match s.hm.man with
  | some m => ⟨m.planesKT, m.headDim⟩
  | none => ⟨3, 0⟩

def KvFmt.dg (k : KvFmt) : Nat := ceilDiv k.dh 5
def KvFmt.kp (k : KvFmt) : Nat := k.planes * k.dg
def KvFmt.vg (k : KvFmt) : Nat := k.planes * k.dh
def KvFmt.nk (k : KvFmt) : Nat := if k.planes = 3 then 7 else 6
def KvFmt.nv (k : KvFmt) : Nat := if k.planes = 3 then 8 else 7

/-- Offsets of head `e` of the pair. -/
def keysAt (e : Nat) : Nat := 0x400 + 0x1E00 * e
def valuesAt (e : Nat) : Nat := 0x4000 + 0x1E00 * e
def keyRowAt (e : Nat) : Nat := 0x7C00 + 288 * e
def valueRowAt (e : Nat) : Nat := 0x7E40 + 128 * e

def byteAt (p : List Byte) (o : Nat) : Nat := (p.getD o 0).toNat

/-- R51: element `d` of the key vector at place `pl`. -/
def KvFmt.keyVal (k : KvFmt) (p : List Byte) (e pl d : Nat) : Int :=
  ((List.range k.planes).map fun j => 3 ^ j * codeTrit (byteAt p (keysAt e + k.kp * pl + j * k.dg + d / 5)) (d % 5)).sum

/-- R52: element `d` of the value vector at place `pl`. -/
def KvFmt.valVal (k : KvFmt) (p : List Byte) (e pl d : Nat) : Int :=
  ((List.range k.planes).map fun j => 3 ^ j * codeTrit (byteAt p (valuesAt e + k.vg * (pl / 5) + j * k.dh + d)) (pl % 5)).sum

/-- R183: the key check row of a head, over the places of complete groups. -/
def KvFmt.keyRow (k : KvFmt) (p : List Byte) (e groups : Nat) : List Nat :=
  keyCodes k.nk ((List.range k.dh).map fun d => ((List.range (5 * groups)).map fun pl => k.keyVal p e pl d).sum)

/-- R183: the value check row of a head: plane j of group g at 16 j + g. -/
def KvFmt.valueRow (k : KvFmt) (p : List Byte) (e groups : Nat) : List Nat :=
  (List.range (16 * k.nv)).map fun o =>
    let g := o % 16
    let sums := (List.range 5).map fun i =>
      if g < groups then ((List.range k.dh).map fun d => k.valVal p e (5 * g + i) d).sum else 0
    planeCode k.nv (o / 16) sums

/-- R182: a region byte that no code has written. -/
def code0 : Byte := 121

/-- A page with both check rows of both heads written anew for its complete groups. -/
def KvFmt.withRows (k : KvFmt) (p : List Byte) (groups : Nat) : List Byte :=
  let kr := [k.keyRow p 0 groups, k.keyRow p 1 groups]
  let vr := [k.valueRow p 0 groups, k.valueRow p 1 groups]
  p.zipIdx.map fun x =>
    let o := x.2
    if 0x7C00 ≤ o ∧ o < 0x7E40 then BitVec.ofNat 8 ((kr.getD ((o - 0x7C00) / 288) []).getD ((o - 0x7C00) % 288) 121)
    else if 0x7E40 ≤ o ∧ o < 0x7F40 then BitVec.ofNat 8 ((vr.getD ((o - 0x7E40) / 128) []).getD ((o - 0x7E40) % 128) 121)
    else x.1

/-- A page with its header replaced. -/
def withHdr (p : List Byte) (h : BHdr) : List Byte := leBytes 64 h.bits ++ p.drop 64

/-- Where an offset of a page lies: in the entry of a place or of a value group. -/
inductive PageField where
  | position (pl : Nat)
  | keyScale (pl : Nat)
  | valueScale (pl : Nat)
  | key (pl : Nat)
  | value (g : Nat)
  | other
  deriving DecidableEq, Repr

def KvFmt.field (k : KvFmt) (o : Nat) : PageField :=
  if 0x40 ≤ o ∧ o < 0x180 then .position ((o - 0x40) / 4)
  else if 0x180 ≤ o ∧ o < 0x2C0 then
    if o % 2 = 0 then .keyScale ((o - 0x180) / 4) else .valueScale ((o - 0x180) / 4)
  else if 0x400 ≤ o ∧ o < 0x4000 then if k.kp = 0 then .other else .key ((o - 0x400) % 0x1E00 / k.kp)
  else if 0x4000 ≤ o ∧ o < 0x7C00 then if k.vg = 0 then .other else .value ((o - 0x4000) % 0x1E00 / k.vg)
  else .other

/-- R182, R197: every place from `fill` on and every group from `groups` on in its initial state. -/
def KvFmt.cutPage (k : KvFmt) (p : List Byte) (fill groups : Nat) : List Byte :=
  p.zipIdx.map fun x =>
    match k.field x.2 with
    | .position pl => if fill ≤ pl then 0xFF#8 else x.1
    | .keyScale pl => if fill ≤ pl then 0 else x.1
    | .valueScale pl => if 5 * groups ≤ pl then 0 else x.1
    | .key pl => if fill ≤ pl then code0 else x.1
    | .value g => if groups ≤ g then code0 else x.1
    | .other => x.1

/-- The position list's entry of a place. -/
def posAt (p : List Byte) (pl : Nat) : Nat := ofLe ((p.drop (0x40 + 4 * pl)).take 4)

/-! ## Pools (R186, R198) -/

def berthBytes : Nat := 0x8000

/-- R186: the address of a handle of the stacked-memory pool (false) or the anchorage pool (true). -/
def State.berthAddr (s : State) (anc : Bool) (h : Nat) : Nat :=
  (if anc then s.ms.apBase else s.ms.bpBase).toNat + h * berthBytes

def State.berthHdr (s : State) (anc : Bool) (h : Nat) : BHdr := bhdrOf (s.devNum (s.berthAddr anc h) 8)

def State.berthPage (s : State) (anc : Bool) (h : Nat) : List Byte :=
  leBytes berthBytes (s.devNum (s.berthAddr anc h) 4096)

/-- R309: the check entry of a berth after a boundary wrote it: check values of the tiles that changed or were stale. -/
def State.settleTiles (s : State) (addr : Nat) (old new : List Byte) : State :=
  match s.berthEntry addr with
  | none => s
  | some e =>
    let stale := s.devNum (e.1 + 32) 1
    let crcs := (List.range 8).map fun k =>
      let t := (new.drop (4096 * k)).take 4096
      if tb stale k || (old.drop (4096 * k)).take 4096 != t then (tileCrc k t).toNat else (s.berthCrc e.1 k).toNat
    s.devWrite e.1 (cleanWords 5 (leBytes 32 (packFields 32 crcs) ++ leBytes 8 (stale / 256 * 256)))

/-- A boundary action writes a berth's page. -/
def State.putPage (s : State) (anc : Bool) (h : Nat) (p : List Byte) : State :=
  let addr := s.berthAddr anc h
  let old := s.berthPage anc h
  (s.devWrite addr (cleanWords 4096 p)).settleTiles addr old p

def State.modHdr (s : State) (anc : Bool) (h : Nat) (f : BHdr → BHdr) : State :=
  s.putPage anc h (withHdr (s.berthPage anc h) (f (s.berthHdr anc h)))

/-- Free berths of a pool as its register counts them. -/
def State.countFree (s : State) (anc : Bool) (up : Bool) : State :=
  let step := fun (x : W32) => if up then x + 1 else x - 1
  { s with ms := if anc then { s.ms with apFree := step s.ms.apFree } else { s.ms with bpFree := step s.ms.bpFree } }

/-- Berths of a pool. -/
def State.poolSize (s : State) (anc : Bool) : Nat := (if anc then s.ms.apCount else s.ms.bpCount).toNat

/-- R198: a quay drops its reference to a berth, which is freed when the last is gone. -/
def State.dropRef (s : State) (anc : Bool) (h : Nat) : State :=
  if s.poolSize anc ≤ h then s
  else
    let r := (s.berthHdr anc h).refs
    let s1 := s.modHdr anc h fun x => { x with refs := x.refs - 1 }
    if r = 1 then s1.countFree anc true else s1

/-- Handles that are reserved for quays and not yet opened. -/
def State.reserved (s : State) : List Nat := s.serv.reqs.flatMap fun q => q.reserve.flatMap (·.2)

/-- R441: the lowest loaded slot of a tenant. -/
def State.tenantSlot (s : State) (t : TenantId) : Option Nat :=
  (s.sec.slots.find? fun p => p.2.owner == some t && p.2.key.isSome).map (·.1)

/-- R441: whether an address may hold a tenant's data: a region of the tenant's lowest loaded slot, or no region where it has no
slot. -/
def State.tenantPlace (s : State) (t : TenantId) (addr : Nat) : Bool :=
  match s.tenantSlot t, s.regionAt addr with
  | some k, some r => r.2.2.1 == t.val && r.2.2.2 == k
  | none, none => true
  | _, _ => false

/-- Handles of a pool that nothing holds or has reserved. -/
def State.idleHandles (s : State) (anc : Bool) : List Nat :=
  (List.range (s.poolSize anc)).filter fun h => (s.berthHdr anc h).refs == 0 && (anc || !s.reserved.contains h)

/-- Free handles of a pool that a tenant's berths may take. -/
def State.freeHandles (s : State) (anc : Bool) (t : TenantId) : List Nat :=
  (s.idleHandles anc).filter fun h => s.tenantPlace t (s.berthAddr anc h)

/-- R441: a sub-range of a pool, of idle handles in no region, becomes a region of the tenant. DESIGN CHOICE (log 168). -/
def State.protectMore (s : State) (anc : Bool) (t : TenantId) (slot : Nat) : State :=
  let hs := (s.idleHandles anc).filter fun h => (s.regionAt (s.berthAddr anc h)).isNone
  let i := Config.pickHandle s.free hs % max 1 hs.length
  match s.freeRegion, hs[i]? with
  | some r, some h =>
    let n := Config.pickHandle (s.free + 1) hs % runLength h (hs.drop i) + 1
    ({ s with free := s.free + 2 }).makeRegion r (s.berthAddr anc h / 32768) n t slot
  | _, _ => s

/-- R441: regions of a tenant with a loaded slot are made until `n` handles are free for it; `k` regions at most. -/
def protectUpTo (anc : Bool) (t : TenantId) (n : Nat) : Nat → State → State
  | 0, s => s
  | k + 1, s =>
    match s.tenantSlot t with
    | none => s
    | some slot => if n ≤ (s.freeHandles anc t).length then s else protectUpTo anc t n k (s.protectMore anc t slot)

/-- R441: the state in which a tenant's `n` handles are looked for. -/
def State.protect (s : State) (anc : Bool) (t : TenantId) (n : Nat) : State := protectUpTo anc t n n s

/-- The harbourmaster's choice of a free handle. DESIGN CHOICE (log 135). -/
def State.pickHandle (s0 : State) (anc : Bool) (t : TenantId) : Option (Nat × State) :=
  let s := s0.protect anc t 1
  match s.freeHandles anc t with
  | [] => none
  | h :: r => some ((h :: r).getD (Config.pickHandle s.free (h :: r) % (r.length + 1)) h, { s with free := s.free + 1 })

/-- `n` free handles, or none. -/
def State.pickHandles (s0 : State) (anc : Bool) (t : TenantId) (n : Nat) : Option (List Nat × State) :=
  let s := s0.protect anc t n
  let fs := s.freeHandles anc t
  if fs.length < n then none
  else
    let k := Config.pickHandle s.free fs % (fs.length + 1)
    some (((fs.drop k) ++ fs.take k).take n, { s with free := s.free + 1 })

/-- R198: a berth is opened with one reference: its page is written and the pool has one berth fewer. -/
def State.openBerth (s : State) (anc : Bool) (h : Nat) (p : List Byte) : State := (s.putPage anc h p).countFree anc false

/-! ## Quays (R184) -/

/-- Table "Quay record". -/
structure Quay where
  table : Nat
  mass : Nat
  berths : Nat
  opened : Nat
  committed : Nat
  evicted : Nat
  deriving DecidableEq, Repr

def State.digest (s : State) : BitVec 384 :=
  match s.hm.man with
  | some m => m.digest
  | none => 0

def State.eachQuay (s : State) (slot : Nat) (f : State → QuayId → State) : State := (s.quays slot).foldl f s

/-- Bytes of the tables of a request. -/
def State.tableBytes (s : State) (ctx : Nat) : Nat := (s.quays 0).length * quayBytes ctx

/-- Ranges that the tables of admitted requests take. -/
def State.tablesTaken (s : State) : List (Nat × Nat) :=
  (s.serv.reqs.filter fun q => q.phase != .moored).map fun q => (q.tables, s.tableBytes (qMaxContext q.record))

/-- R184, R329: room for the tables of one more request in the tables' area: where the harbourmaster chooses, or else at the first
place that is free. DESIGN CHOICE (log 125). -/
def State.tableRoom (s : State) (ctx : Nat) : Option Nat :=
  match s.hm.man with
  | none => none
  | some m =>
    let area := (s.placement m).tables
    let n := s.tableBytes ctx
    let free := fun (a : Nat) => decide (area.1 ≤ a) && decide (a + n ≤ area.1 + area.2) && s.tablesTaken.all (apart (a, n))
    ((64 * (Config.tableBase s.free / 64)) :: area.1 :: s.tablesTaken.map fun r => r.1 + r.2).find? free

def State.quay (s : State) (q : QuayId) : Quay :=
  let n := s.devNum (s.quayPlace q).1 4
  ⟨fld n 192 64, fld n 128 64, fld n 96 32, fld n 64 32, fld n 32 32, fld n 0 32⟩

def State.putQuay (s : State) (q : QuayId) (x : Quay) : State :=
  s.devWrite (s.quayPlace q).1 (cleanWords 4 (leBytes 32
    (x.evicted + x.committed * 2 ^ 32 + x.opened * 2 ^ 64 + x.berths * 2 ^ 96 + x.mass * 2 ^ 128 + x.table * 2 ^ 192)))

/-- A berth of a quay: its entry and its 80 masses. -/
structure QBerth where
  e : BEntry
  mass : List W32
  deriving DecidableEq, Repr

/-- The quay's berths in order. -/
def State.quayBerths (s : State) (q : QuayId) : List QBerth :=
  let x := s.quay q
  (List.range x.berths).map fun i =>
    let m := s.devNum (x.mass + 320 * i) 40
    ⟨bentryOf (s.devNum (x.table + 32 * i) 4), (List.range 80).map fun p => BitVec.ofNat 32 (fld m (32 * p) 32)⟩

/-- The quay's record, table and masses are written. -/
def State.putBerths (s : State) (q : QuayId) (x : Quay) (bs : List QBerth) : State :=
  let s1 := bs.zipIdx.foldl (fun s b =>
    (s.devWrite (x.table + 32 * b.2) (cleanWords 4 (leBytes 32 b.1.e.bits))).devWrite (x.mass + 320 * b.2)
      (cleanWords 40 (leBytes 320 (packFields 32 (b.1.mass.map (·.toNat)))))) s
  s1.putQuay q { x with berths := bs.length }

/-! ## Tails and landings (R55, R194, R197) -/

/-- R197: the tail of a quay that has committed `to` positions, `from_` before: positions 5 ⌊to / 5⌋ on, from the old tail and
the landing. The landing is cleared. DESIGN CHOICE (log 169). -/
def State.moveTail (s : State) (q : QuayId) (from_ dest : Nat) : State :=
  let p := Config.tailPlace s.digest q.slot q.layer q.pair
  match s.physical p.1 with
  | none => s
  | some c =>
    let core : CoreId := Fin.ofNat 2304 c
    let size := 8 * s.kvFmt.dh
    let at_ := fun (pos : Nat) =>
      if pos < from_ then s.rdBytes (spKey core (p.2.1 + size * (pos - from_ / 5 * 5))) size
      else s.rdBytes (spKey core (p.2.2 + size * (pos - from_))) size
    let base := dest / 5 * 5
    let bytes := (List.range (dest - base)).flatMap fun i => at_ (base + i)
    let s1 := s.wrBytes (spKey core p.2.1) (bytes ++ List.replicate (4 * size - bytes.length) 0)
    s1.wrBytes (spKey core p.2.2) (List.replicate (8 * size) 0)

/-- The words of a quay's tail, to or from a shipment or a fork. -/
def State.tailWords (s : State) (q : QuayId) : List W64 :=
  let p := Config.tailPlace s.digest q.slot q.layer q.pair
  match s.physical p.1 with
  | some c => bytesToWords (4 * s.kvFmt.dh) (s.rdBytes (spKey (Fin.ofNat 2304 c) p.2.1) (32 * s.kvFmt.dh))
  | none => []

def State.putTail (s : State) (q : QuayId) (ws : List W64) : State :=
  let p := Config.tailPlace s.digest q.slot q.layer q.pair
  match s.physical p.1 with
  | some c => s.wrBytes (spKey (Fin.ofNat 2304 c) p.2.1) (leBytes (32 * s.kvFmt.dh) (packFields 64 (ws.map (·.toNat))))
  | none => s

/-! ## Action 3: commit or unwind (R197) -/

/-- A berth of the step at its boundary: places at or beyond `to` are unwound. Answers how many groups were. -/
def State.commitBerth (s : State) (h dest : Nat) : Nat × BHdr × State :=
  let x := s.berthHdr false h
  let fill := min x.fill (dest - x.first)
  let groups := min x.groups (fill / 5)
  let x1 := { x with fill := fill, groups := groups, prov := false }
  let k := s.kvFmt
  let p := k.withRows (k.cutPage (withHdr (s.berthPage false h) x1) fill groups) groups
  (x.groups - groups, x1, s.putPage false h p)

/-- R203: a place that the step wrote has mass +0. -/
def freshMass (h : BHdr) (from_ : Nat) (mass : List W32) : List W32 :=
  mass.zipIdx.map fun m => if from_ ≤ h.first + m.2 then 0 else m.1

/-- R197: one berth of a quay, with what is left of it. -/
def commitOne (from_ dest : Nat) (q : State × List QBerth × Nat) (b : QBerth) : State × List QBerth × Nat :=
  let s := q.1
  let x := s.berthHdr false b.e.handle
  if b.e.anc || !x.prov then (s, q.2.1 ++ [b], q.2.2)
  else
    let c := s.commitBerth b.e.handle dest
    let s1 := { c.2.2 with ms := { c.2.2.ms with bunwind := bumpBy c.1 c.2.2.ms.bunwind } }
    if c.2.1.fill = 0 then ((s1.modHdr false b.e.handle fun h => { h with refs := 0 }).countFree false true, q.2.1, q.2.2 + 1)
    else
      let e := { b.e with fill := c.2.1.fill, groups := c.2.1.groups, first := c.2.1.first, evict := c.2.1.evict }
      (s1, q.2.1 ++ [⟨e, freshMass c.2.1 from_ b.mass⟩], q.2.2)

/-- The berths that appends opened since the last boundary: the pool has fewer free. DEDUCED (log 137). -/
def State.countOpened (s : State) (q : Request) (k : QuayId) : State :=
  ((assoc? k.num q.reserve).getD []).foldl (fun s h => if (s.berthHdr false h).refs = 0 then s else s.countFree false false) s

/-- R196: the old berth of a copy that the step made loses one reference. -/
def State.settleCopy (s : State) (q : Request) (k : QuayId) (bs : List QBerth) : State :=
  match q.cow.find? fun c => c.1 == k.num with
  | none => s
  | some c =>
    if (bs[c.2.1]?).any fun b => b.e.handle != c.2.2 then
      let s1 := s.dropRef false c.2.2
      { s1 with ms := { s1.ms with bcow := bump s1.ms.bcow } }
    else s

/-- Action 3 for one quay. DEDUCED (log 137). -/
def State.commitQuay (s : State) (q : Request) (dest : Nat) (k : QuayId) : State :=
  let bs := s.quayBerths k
  let s1 := (s.countOpened q k).settleCopy q k bs
  let r := bs.foldl (commitOne q.committed dest) (s1, [], 0)
  let x := r.1.quay k
  (r.1.putBerths k { x with committed := dest, opened := x.opened - r.2.2 } r.2.1).moveTail k q.committed dest

/-! ## Action 4: mass (R203) -/

/-- One increment of a quay's mass table. -/
def State.addMass (s : State) (k : QuayId) (i : Nat) (inc : W32) : State :=
  let x := s.quay k
  if 80 * x.berths ≤ i then s
  else
    let a := x.mass + i / 2 * 8
    let w := s.devNum a 1
    let lo := BitVec.ofNat 32 (fld w 0 32)
    let hi := BitVec.ofNat 32 (fld w 32 32)
    let w1 := if i % 2 = 0 then (fadd lo inc).toNat + hi.toNat * 2 ^ 32 else lo.toNat + (fadd hi inc).toNat * 2 ^ 32
    s.devWrite a [⟨BitVec.ofNat 64 w1, false⟩]

/-! ## Action 7: eviction (R204, R205) -/

/-- A candidate for eviction: berth index, place, position, mass. -/
structure Victim where
  b : Nat
  pl : Nat
  pos : Nat
  mass : W32
  deriving DecidableEq, Repr

/-- R204: ascending mass, then ascending position; NaN last. -/
def candBefore (x y : Victim) : Bool :=
  if fisNan x.mass then fisNan y.mass && decide (x.pos < y.pos)
  else fisNan y.mass || flt x.mass y.mass || (!flt y.mass x.mass && decide (x.pos < y.pos))

def insertCand (c : Victim) : List Victim → List Victim
  | [] => [c]
  | d :: r => if candBefore c d then c :: d :: r else d :: insertCand c r

/-- R204: the places of a quay that may be evicted. -/
def State.candidates (s : State) (p : EvictPolicy) (dest : Nat) (bs : List QBerth) : List Victim :=
  bs.zipIdx.flatMap fun b =>
    let h := s.berthHdr false b.1.e.handle
    let page := s.berthPage false b.1.e.handle
    if b.1.e.anc || !(h.compacted || b.1.e.fill == 80) || !(p.shared || h.refs == 1) then []
    else
      (List.range 80).filterMap fun pl =>
        let pos := posAt page pl
        if tb b.1.e.evict pl || decide (pos < p.sinks) || decide (dest ≤ pos + p.window) || pos == 0xFFFFFFFF then none
        else some ⟨b.2, pl, pos, b.1.mass.getD pl 0⟩

/-- R196, R205: a quay gets its own copy of a berth: what the quay sees of it, and rewritten check rows. -/
def State.copyBerth (s : State) (e : BEntry) (h : Nat) : State :=
  let x := s.berthHdr false e.handle
  let k := s.kvFmt
  let x1 := { x with handle := h, refs := 1, fill := e.fill, groups := e.groups, evict := e.evict }
  let p := k.withRows (k.cutPage (withHdr (s.berthPage false e.handle) x1) e.fill e.groups) e.groups
  let s1 := (s.openBerth false h p).dropRef false e.handle
  { s1 with ms := { s1.ms with bcow := bump s1.ms.bcow } }

/-- The evict bits of a berth with some places' set. -/
def evictBits (old : Nat) (pls : List Nat) : Nat := pls.foldl (fun e p => if tb e p then e else e + 2 ^ p) old

/-- Evicts places of one berth of a quay; none if a copy finds no handle. -/
def State.evictIn (s : State) (t : TenantId) (b : QBerth) (pls : List Nat) : Option (QBerth × State) :=
  if pls = [] then some (b, s)
  else
    let e := evictBits b.e.evict pls
    if (s.berthHdr false b.e.handle).refs ≤ 1 then
      some (⟨{ b.e with evict := e }, b.mass⟩, s.modHdr false b.e.handle fun h => { h with evict := e })
    else
      match s.pickHandle false t with
      | none => none
      | some (h, s1) =>
        let s2 := s1.copyBerth b.e h
        some (⟨{ b.e with handle := h, shared := false, evict := e }, b.mass⟩, s2.modHdr false h fun x => { x with evict := e })

/-- The berths of a quay, each evicted in turn. -/
def evictAll (t : TenantId) (chosen : List Victim) : List (QBerth × Nat) → State → Option (List QBerth × State)
  | [], s => some ([], s)
  | b :: r, s =>
    match s.evictIn t b.1 ((chosen.filter fun c => c.b == b.2).map (·.pl)) with
    | none => none
    | some (b1, s1) => (evictAll t chosen r s1).map fun q => (b1 :: q.1, q.2)

/-- Action 7 for one quay: none when a copy finds no handle. -/
def State.evictQuay (s : State) (t : TenantId) (p : EvictPolicy) (k : QuayId) : Option State :=
  let x := s.quay k
  let bs := s.quayBerths k
  let n := x.committed - x.evicted - p.budget
  if n = 0 then some s
  else
    let chosen := ((s.candidates p x.committed bs).foldr insertCand []).take n
    (evictAll t chosen bs.zipIdx s).map fun q =>
      let s1 := q.2.putBerths k { x with evicted := x.evicted + chosen.length } q.1
      { s1 with ms := { s1.ms with bevict := bumpBy chosen.length s1.ms.bevict } }

/-! ## Action 8: compaction (R206) -/

/-- A place that survives compaction: its berth's page and mass list, its place, its position. -/
structure Survivor where
  page : List Byte
  pl : Nat
  pos : Nat
  mass : W32
  deriving DecidableEq, Repr

/-- R206: full or compacted, one reference, in stacked memory, and no position in the recent window. -/
def State.eligible (s : State) (p : EvictPolicy) (dest : Nat) (b : QBerth) : Bool :=
  let h := s.berthHdr false b.e.handle
  let page := s.berthPage false b.e.handle
  !b.e.anc && (h.compacted || b.e.fill == 80) && h.refs == 1
    && (List.range 80).all fun pl => posAt page pl == 0xFFFFFFFF || decide (posAt page pl + p.window < dest)

def bitsSet (n : Nat) : Nat := ((List.range 80).filter fun p => tb n p).length

def State.survivors (s : State) (b : QBerth) : List Survivor :=
  let page := s.berthPage false b.e.handle
  (List.range 80).filterMap fun pl =>
    if tb b.e.evict pl || posAt page pl == 0xFFFFFFFF then none else some ⟨page, pl, posAt page pl, b.mass.getD pl 0⟩

def insertSurvivor (c : Survivor) : List Survivor → List Survivor
  | [] => [c]
  | d :: r => if c.pos ≤ d.pos then c :: d :: r else d :: insertSurvivor c r

/-- R206: the page of a new berth with up to 80 survivors; unused places hold zero vectors, evicted. -/
def KvFmt.compactPage (k : KvFmt) (h : BHdr) (xs : List Survivor) : List Byte :=
  let v := xs.toArray
  let src := fun (pl : Nat) => v[pl]?
  let byte := fun (o : Nat) =>
    match k.field o with
    | .position pl =>
      (match src pl with
       | some x => BitVec.ofNat 8 (x.pos / 256 ^ (o % 4))
       | none => 0xFF#8)
    | .keyScale pl | .valueScale pl =>
      (match src pl with
       | some x => x.page.getD (o - 4 * pl + 4 * x.pl) 0
       | none => 0)
    | .key pl =>
      (match src pl with
       | some x => x.page.getD (o - k.kp * pl + k.kp * x.pl) 0
       | none => code0)
    | .value g =>
      BitVec.ofNat 8 (codeOf ((List.range 5).map fun i =>
        match src (5 * g + i) with
        | some x => codeTrit (byteAt x.page (o - k.vg * g + k.vg * (x.pl / 5))) (x.pl % 5)
        | none => 0))
    | .other => if 0x7C00 ≤ o ∧ o < 0x7F40 then code0 else 0
  k.withRows (withHdr ((List.range berthBytes).map byte) h) 16

/-- The berths that take the survivors of a run, with their entries and masses. -/
def State.compactRun (s : State) (t : TenantId) (layer pair reach : Nat) (run : List QBerth) : Option (List QBerth × State) :=
  let xs := (run.flatMap s.survivors).foldr insertSurvivor []
  let n := ceilDiv xs.length 80
  match s.pickHandles false t n with
  | none => none
  | some (hs, s1) =>
    let made := hs.zipIdx.map fun h =>
      let part := (xs.drop (80 * h.2)).take 80
      let evict := evictBits 0 ((List.range 80).drop part.length)
      let first := (part.head?.map (·.pos)).getD 0xFFFFFFFF
      let hdr : BHdr :=
        { handle := h.1, refs := 1, layer := layer, pair := pair, fmt := if s.kvFmt.planes = 3 then 0 else 1, reach := reach,
          compacted := true, prov := false, fill := 80, groups := 16, first := first, evict := evict,
          modelTag := s.digest64.toNat }
      let e : BEntry :=
        { handle := h.1, first := first, fill := 80, groups := 16, reach := reach, compacted := true, shared := false,
          anc := false, evict := evict }
      (h.1, s.kvFmt.compactPage hdr part, (⟨e, (part.map (·.mass)) ++ List.replicate (80 - part.length) 0⟩ : QBerth))
    let s2 := made.foldl (fun s m => s.openBerth false m.1 m.2.1) s1
    let s3 := run.foldl (fun s b => s.dropRef false b.e.handle) s2
    some (made.map (·.2.2), { s3 with ms := { s3.ms with bcompact := bumpBy run.length s3.ms.bcompact } })

/-- Maximal runs of consecutive eligible berths of one reach; a berth that is not eligible stands alone. -/
def runsOf (ok : QBerth → Bool) : List QBerth → List (Bool × List QBerth)
  | [] => []
  | b :: r =>
    match runsOf ok r with
    | (true, c :: cs) :: rest =>
      if ok b && b.e.reach == c.e.reach then (true, b :: c :: cs) :: rest else (ok b, [b]) :: (true, c :: cs) :: rest
    | rest => (ok b, [b]) :: rest

/-- The runs of a quay, each compacted if it holds at least 80 evicted places. -/
def compactAll (t : TenantId) (k : QuayId) : List (Bool × List QBerth) → State → Option (List QBerth × State)
  | [], s => some ([], s)
  | x :: r, s =>
    let small := !x.1 || decide ((x.2.map fun b => bitsSet b.e.evict).sum < 80)
    let here := if small then some (x.2, s)
      else s.compactRun t k.layer k.pair ((x.2.head?.map (·.e.reach)).getD 0) x.2
    match here with
    | none => none
    | some (bs, s1) => (compactAll t k r s1).map fun q => (bs ++ q.1, q.2)

/-- Action 8 for one quay: none when no handle is free. DEDUCED (log 138). -/
def State.compactQuay (s : State) (t : TenantId) (p : EvictPolicy) (k : QuayId) : Option State :=
  let x := s.quay k
  (compactAll t k (runsOf (s.eligible p x.committed) (s.quayBerths k)) s).map fun q => q.2.putBerths k x q.1

/-! ## Forks (R199, R200) -/

/-- The berths of a fork: those of the source that hold a place below `f`; the entry of one that holds `f` or more as well is limited
to what lies below. -/
def State.forkBerths (s : State) (src : QuayId) (f : Nat) : List QBerth :=
  (s.quayBerths src).filterMap fun b =>
    let ps := (List.range b.e.fill).map (posAt (s.berthPage false b.e.handle))
    let below := (ps.filter fun p => decide (p < f)).length
    if below = 0 then none
    else if ps.all fun p => decide (p < f) || p == 0xFFFFFFFF then some b
    else some ⟨{ b.e with fill := below, groups := min b.e.groups (below / 5) }, b.mass⟩

/-- Places of a fork's berths that are not evicted. -/
def State.livePlaces (s : State) (f : Nat) (bs : List QBerth) : Nat :=
  (bs.map fun b =>
    let page := s.berthPage false b.e.handle
    ((List.range b.e.fill).filter fun pl => decide (posAt page pl < f) && !tb b.e.evict pl).length).sum

/-- R200: one berth gains a reference, or the fork gets its own copy; none when no handle is free. -/
def State.shareBerth (s : State) (t : TenantId) (b : QBerth) : Option (QBerth × State) :=
  let x := s.berthHdr false b.e.handle
  if x.refs < 65535 then
    some (⟨{ b.e with shared := true }, b.mass⟩, s.modHdr false b.e.handle fun h => { h with refs := h.refs + 1 })
  else
    match s.pickHandle false t with
    | none => none
    | some (h, s1) =>
      let k := s1.kvFmt
      let x1 := { x with handle := h, refs := 1, fill := b.e.fill, groups := b.e.groups }
      let p := k.withRows (k.cutPage (withHdr (s1.berthPage false b.e.handle) x1) b.e.fill b.e.groups) b.e.groups
      some (⟨{ b.e with handle := h, shared := false }, b.mass⟩, s1.openBerth false h p)

def shareAll (t : TenantId) : List QBerth → State → Option (List QBerth × State)
  | [], s => some ([], s)
  | b :: r, s =>
    match s.shareBerth t b with
    | none => none
    | some (b1, s1) => (shareAll t r s1).map fun q => (b1 :: q.1, q.2)

/-- R184: an empty quay at admission. -/
def State.openQuay (s : State) (k : QuayId) : State :=
  let p := s.quayPlace k
  s.putQuay k ⟨p.2.1, p.2.2, 0, 0, 0, 0⟩

/-- R199: one quay of a fork. It counts the positions below `f` that its source had evicted as evicted: a fork inherits them (R368).
DEDUCED (log 167). -/
def State.forkQuay (s : State) (t : TenantId) (src k : QuayId) (f committed : Nat) : Option State :=
  let bs := s.forkBerths src f
  (shareAll t bs s).map fun q =>
    let p := s.quayPlace k
    let s1 := q.2.putBerths k ⟨p.2.1, p.2.2, 0, 0, f, f - s.livePlaces f bs⟩ q.1
    if f = committed then s1.putTail k (s.tailWords src) else s1

def forkAll (t : TenantId) (from_ slot f committed : Nat) : List QuayId → State → Option State
  | [], s => some s
  | k :: r, s =>
    match s.forkQuay t { k with slot := from_ } { k with slot := slot } f committed with
    | none => none
    | some s1 => forkAll t from_ slot f committed r s1

/-! ## Leaving, pausing, resuming (R198, R208 to R210) -/

/-- The mooring record of a request. -/
def State.mooringOf (s : State) (h : W32) : Option Mooring := s.serv.moorings.find? fun m => m.handle == h

/-- The berth-table entries of a request: of its quays, or of its mooring record. -/
def State.entriesOf (s : State) (q : Request) : List BEntry :=
  match s.mooringOf q.handle with
  | some m => m.quays.flatMap fun k => k.berths.map fun b => bentryOf b.1.toNat
  | none => (s.quays q.slot).flatMap fun k => (s.quayBerths k).map (·.e)

/-- Every reference of a request is dropped, and its mooring record freed. -/
def State.dropBerths (s : State) (q : Request) : State :=
  let s1 := (s.entriesOf q).foldl (fun s e => s.dropRef e.anc e.handle) s
  { s1 with serv := { s1.serv with moorings := s1.serv.moorings.filter fun m => m.handle != q.handle } }

/-- R208: how many berths a request alone references. -/
def State.aloneBerths (s : State) (q : Request) : Nat :=
  ((s.entriesOf q).filter fun e => (s.berthHdr e.anc e.handle).refs == 1).length

/-- Berths of a request that lie in the anchorage. -/
def State.anchored (s : State) (q : Request) : Nat := ((s.entriesOf q).filter (·.anc)).length

/-- The berth check entry of a berth at an address. -/
def State.checkAt (s : State) (page : Nat) : Nat := ((s.berthEntry page).map (·.1)).getD 0

/-- R310: a berth's page and check entry are copied to another handle. A berth that comes back to stacked memory names its new handle;
a first tile that did not pass keeps its check value. DEDUCED (log 139). -/
def State.copyPage (s : State) (toAnc : Bool) (old : Nat) (h : Nat) (bad : List Nat) : State :=
  let src := s.berthAddr (!toAnc) old
  let dest := s.berthAddr toAnc h
  let entry := s.devRead (s.checkAt src) 8
  let s1 := (s.devWrite dest (s.devRead src 4096)).devWrite (s.checkAt dest) entry
  if toAnc then s1
  else
    let s2 := s1.modHdr false h fun x => { x with handle := h }
    if bad.contains 0 then s2.devWrite (s.checkAt dest) entry else s2

/-- R208, R310: a berth that the request alone references moves between the tiers: every tile is verified, one that does not pass is
reported; its old handle is freed. -/
def State.moveBerth (s : State) (t : TenantId) (toAnc : Bool) (b : QBerth) : QBerth × State :=
  if b.e.anc = toAnc ∨ s.poolSize b.e.anc ≤ b.e.handle ∨ (s.berthHdr b.e.anc b.e.handle).refs ≠ 1 then (b, s)
  else
    match s.pickHandle toAnc t with
    | none => (b, s)
    | some (h, s1) =>
      let src := s1.berthAddr b.e.anc b.e.handle
      let bad := (List.range 8).filter fun k => !s1.berthTileOk (src + 4096 * k)
      let s2 := (s1.copyPage toAnc b.e.handle h bad).countFree toAnc false
      let s3 := (s2.modHdr b.e.anc b.e.handle fun x => { x with refs := 0 }).countFree b.e.anc true
      (⟨{ b.e with handle := h, anc := toAnc }, b.mass⟩,
       bad.foldl (fun s k => s.report 0 (s.berthAddr toAnc h + 4096 * k) true) s3)

def State.moveBerths (s : State) (t : TenantId) (toAnc : Bool) (bs : List QBerth) : List QBerth × State :=
  bs.foldl (fun (q : List QBerth × State) b =>
    let m := q.2.moveBerth t toAnc b
    (q.1 ++ [m.1], m.2)) ([], s)

/-- R208: a quay moves out: what the mooring record holds of it. -/
def State.moorQuay (s : State) (t : TenantId) (k : QuayId) : MoorQuay × State :=
  let x := s.quay k
  let r := s.moveBerths t true (s.quayBerths k)
  (⟨k.layer, k.pair, x.opened, x.committed, x.evicted, r.1.map fun b => (BitVec.ofNat 256 b.e.bits, b.mass), s.tailWords k⟩, r.2)

/-- R208: a request's mooring record is made. DESIGN CHOICE (log 165). -/
def State.moor (s : State) (q : Request) : State :=
  let r := (s.quays q.slot).foldl (fun (p : List MoorQuay × State) k =>
    let m := p.2.moorQuay q.tenant k
    (p.1 ++ [m.1], m.2)) ([], s)
  let m : Mooring := ⟨q.handle, r.1, samplingRecord q.record, q.a8⟩
  { r.2 with serv := { r.2.serv with moorings := r.2.serv.moorings ++ [m] } }

/-- R210: a quay moves back in, to the request's new tables. -/
def State.unmoorQuay (t : TenantId) (slot : Nat) (s : State) (m : MoorQuay) : State :=
  let k : QuayId := ⟨slot, m.layer, m.pair⟩
  let p := s.quayPlace k
  let r := s.moveBerths t false (m.berths.map fun b => ⟨bentryOf b.1.toNat, b.2⟩)
  (r.2.putBerths k ⟨p.2.1, p.2.2, 0, m.opened, m.committed, m.evicted⟩ r.1).putTail k m.tail

/-- R210: a request's mooring record is read back and freed. -/
def State.unmoor (s : State) (q : Request) : State :=
  match s.mooringOf q.handle with
  | none => s
  | some m =>
    let s1 := m.quays.foldl (State.unmoorQuay q.tenant q.slot) s
    { s1 with serv := { s1.serv with moorings := s1.serv.moorings.filter fun x => x.handle != q.handle } }

end Sys2Proof.Machine
end

