-- ==== Sys2Proof/Machine/Place.lean ====
section
/-! DEFINITION. The placer at a step boundary, and its copies (R234 to R237, R363 to R367). -/

namespace Sys2Proof.Machine

/-! ## Counts and heats (R234, R364) -/

/-- R234: an expert's per-step count over its copies. -/
def State.stepCount (s : State) (layer : Nat) (e : MoeSpec) (x : Nat) : Nat :=
  ((s.copiesOf layer e x).map fun c => Sparse.get 0 s.plc.counts (layer * 1024 + c.1 * 16 + c.2)).sum

def State.heat (s : State) (layer x : Nat) : W32 := Sparse.get 0 s.plc.heats (layer * 256 + x)

/-- R364: h ← h + (n − h) / 8. -/
def nextHeat (h : W32) (n : Nat) : W32 := fadd h (fdiv (fsub (fpOfInt (Int.ofNat n) 0) h) 0x41000000)

/-- R234, R364: an expert's counts are folded. -/
def State.foldExpert (s : State) (layer : Nat) (e : MoeSpec) (x : Nat) : State :=
  let n := s.stepCount layer e x
  let key := layer * 256 + x
  { s with plc := { s.plc with
    cum := Sparse.put 0 s.plc.cum key (bumpBy n (Sparse.get 0 s.plc.cum key)),
    heats := if x < e.routed then Sparse.put 0 s.plc.heats key (nextHeat (s.heat layer x) n) else s.plc.heats } }

/-- The layers of the model that have experts. -/
def State.moeLayers (s : State) : List (Nat × MoeSpec) :=
  match s.hm.man with
  | some m => m.layers.zipIdx.filterMap fun x => x.1.moe.map fun e => (x.2, e)
  | none => []

def State.foldCounts (s : State) : State :=
  let s1 := s.moeLayers.foldl (fun s l => (List.range l.2.home.length).foldl (fun s x => s.foldExpert l.1 l.2 x) s) s
  { s1 with plc := { s1.plc with counts := [] } }

/-! ## Reserve space (R355, R365) -/

/-- The gang and slot that a copy goes to. -/
def copyPlace (e : MoeSpec) (c : Copy) : Nat × Nat :=
  match c.slot with
  | some i => e.replicaSlots.getD i (0, 0)
  | none => e.home.getD c.expert (0, 0)

/-- Bytes that one slice in a gang of a layer takes on a logical core. -/
def State.sliceOn (s : State) (l layer gang : Nat) : Nat :=
  match s.moe layer with
  | some e => if (gangCoresOf e gang).contains l then gangShare e gang else 0
  | none => 0

/-- Bytes of a logical core's reserve banks that copies in progress take, and slices that are given up and not yet free. -/
def State.copyBytes (s : State) (l : Nat) : Nat :=
  (s.plc.copies.map fun c =>
    match s.moe c.layer with
    | some e => s.sliceOn l c.layer (copyPlace e c).1
    | none => 0).sum + (s.plc.going.map fun g => s.sliceOn l g.1 g.2).sum

/-- Whether the reserve banks of a gang's cores hold one more slice. -/
def State.gangRoom (s : State) (e : MoeSpec) (gang : Nat) : Bool :=
  match s.hm.man with
  | none => false
  | some m => (gangCoresOf e gang).all fun l =>
      decide (s.pinnedBytes l + s.copyBytes l + gangShare e gang ≤ ((m.cores[l]?.map (·.reserveBanks)).getD 0) * 0x10000)

/-- R364: pinned bytes of a reticle field (R14): those of every logical core bound in it. -/
def State.fieldBytes (s : State) (f : Nat × Nat) : Nat :=
  (s.hm.binding.map fun b => if fieldOf b.2 = f then s.pinnedBytes b.1 else 0).sum

/-- The reticle field of a gang: that of its first core. DEDUCED (log 147). -/
def State.gangField (s : State) (e : MoeSpec) (gang : Nat) : Nat × Nat :=
  fieldOf (((gangCoresOf e gang).head?.bind s.physical).getD 0)

/-! ## The policy (table "Placer policy") -/

def State.pinned (s : State) (layer x : Nat) : Bool := s.plc.pins.contains (layer * 256 + x)

def State.copying (s : State) (layer x : Nat) : Bool := s.plc.copies.any fun c => c.layer == layer && c.expert == x

/-- Descending heat, lower index first on ties. DEDUCED (log 147). -/
def insertHot (heat : Nat → W32) (x : Nat) : List Nat → List Nat
  | [] => [x]
  | y :: r => if flt (heat y) (heat x) || (!flt (heat x) (heat y) && decide (x < y)) then x :: y :: r else y :: insertHot heat x r

def State.byHeat (s : State) (layer : Nat) (xs : List Nat) : List Nat := xs.foldr (insertHot (s.heat layer)) []

/-- Streamed routed experts of a layer that are not being copied, in descending heat. -/
def State.streamed (s : State) (layer : Nat) (e : MoeSpec) : List Nat :=
  s.byHeat layer ((List.range e.routed).filter fun x => !s.pinned layer x && !s.copying layer x)

def homeGang (e : MoeSpec) (x : Nat) : Nat := (e.home.getD x (0, 0)).1

/-- R366: an expert that is not retried until its tile is restored. DEDUCED (log 130). -/
def State.barred (s : State) (layer x : Nat) : Bool := s.plc.barred.contains (layer * 256 + x)

/-- R364: a new copy of a slice starts if a step's copy budget holds it beside what is still to be copied; a slice above the budget
starts when nothing else is. DEDUCED (log 147). -/
def State.budgetLeft (s : State) (e : MoeSpec) : Bool :=
  match s.hm.man with
  | some m => decide ((s.plc.copies.map (·.left)).sum + min e.sliceBytes (budgetOf m) ≤ budgetOf m)
  | none => false

/-- Heat of a gang per core: each copy in it has its expert's heat divided by the expert's copies. -/
def State.gangHeat (s : State) (layer : Nat) (e : MoeSpec) (gang : Nat) : W32 :=
  let total := (List.range e.routed).foldl (fun t x =>
    let cs := s.copiesOf layer e x
    let here := (cs.filter fun c => c.1 == gang).length
    if here = 0 then t
    else fadd t (fdiv (fmul (s.heat layer x) (fpOfInt (Int.ofNat here) 0)) (fpOfInt (Int.ofNat cs.length) 0))) 0
  fdiv total (fpOfInt (Int.ofNat (max 1 (gangCoresOf e gang).length)) 0)

/-- The layer's mean of it. -/
def State.meanHeat (s : State) (layer : Nat) (e : MoeSpec) : W32 :=
  fdiv ((List.range e.gangs).foldl (fun t g => fadd t (s.gangHeat layer e g)) 0) (fpOfInt (Int.ofNat e.gangs) 0)

/-- A decision of the placer. -/
inductive Change where
  | pin (x : Nat)
  | unpin (x : Nat)
  | replicate (x slot : Nat)
  | free (x slot : Nat)
  deriving DecidableEq, Repr

def State.pinChange (s : State) (layer : Nat) (e : MoeSpec) : Option Change :=
  if !s.budgetLeft e then none
  else ((s.streamed layer e).find? fun x => !s.barred layer x && s.gangRoom e (homeGang e x)).map .pin

/-- Whether a pinned expert has cooled below half the hottest streamed one of its gang that has no space. -/
def State.cooled (s : State) (layer : Nat) (e : MoeSpec) (x : Nat) : Bool :=
  match (s.streamed layer e).find? fun y => homeGang e y == homeGang e x && !s.gangRoom e (homeGang e y) with
  | some y => flt (s.heat layer x) (fdiv (s.heat layer y) 0x40000000)
  | none => false

/-- Pinned routed experts in descending heat. -/
def State.pinnedHot (s : State) (layer : Nat) (e : MoeSpec) : List Nat :=
  s.byHeat layer ((List.range e.routed).filter fun x => s.pinned layer x)

/-- Of the experts that have cooled, the coldest. -/
def State.unpinChange (s : State) (layer : Nat) (e : MoeSpec) : Option Change :=
  (((s.pinnedHot layer e).filter (s.cooled layer e)).getLast?).map .unpin

/-- The free replica slot of a layer that the policy takes: in the gang with the lowest heat per core, then in the reticle field with
the fewest pinned bytes. DEDUCED (log 147). -/
def State.replicaSlot (s : State) (layer : Nat) (e : MoeSpec) (x : Nat) : Option Nat :=
  let taken := fun (i : Nat) => s.plc.reps.any (fun r => r.1 == layer && r.2.1 == i) || s.plc.copies.any fun c => c.layer == layer && c.slot == some i
  let have_ := (s.copiesOf layer e x).map (·.1)
  let free := e.replicaSlots.zipIdx.filter fun p => !taken p.2 && !have_.contains p.1.1 && s.gangRoom e p.1.1
  let field := fun (g : Nat) => s.fieldBytes (s.gangField e g)
  let before := fun (a b : (Nat × Nat) × Nat) =>
    let ha := s.gangHeat layer e a.1.1
    let hb := s.gangHeat layer e b.1.1
    flt ha hb || (!flt hb ha && decide (field a.1.1 < field b.1.1))
  (free.foldl (fun (best : Option ((Nat × Nat) × Nat)) p =>
    match best with
    | some b => if before p b then some p else some b
    | none => some p) none).map (·.2)

def State.replicateChange (s : State) (layer : Nat) (e : MoeSpec) : Option Change :=
  if !s.budgetLeft e then none
  else
    let limit := fmul 0x40000000 (s.meanHeat layer e)
    (s.pinnedHot layer e).findSome? fun x =>
      if flt limit (s.gangHeat layer e (homeGang e x)) && !s.barred layer x && !s.copying layer x
          && decide ((s.copiesOf layer e x).length ≤ 8) then
        (s.replicaSlot layer e x).map (.replicate x)
      else none

/-- Heat per core of an expert's gang if the expert had one copy fewer. -/
def State.heatWithout (s : State) (layer : Nat) (e : MoeSpec) (x : Nat) : W32 :=
  let n := (s.copiesOf layer e x).length
  let cores := fpOfInt (Int.ofNat (max 1 (gangCoresOf e (homeGang e x)).length)) 0
  let share := fun (k : Nat) => fdiv (fdiv (s.heat layer x) (fpOfInt (Int.ofNat (max 1 k)) 0)) cores
  fadd (fsub (s.gangHeat layer e (homeGang e x)) (share n)) (share (n - 1))

def State.freeChange (s : State) (layer : Nat) (e : MoeSpec) : Option Change :=
  let limit := fmul 0x3FC00000 (s.meanHeat layer e)
  (List.range e.routed).findSome? fun x =>
    match (s.plc.reps.filter fun r => r.1 == layer && r.2.2 == x).getLast? with
    | some r => if flt limit (s.heatWithout layer e x) then none else some (.free x r.2.1)
    | none => none

/-- R364: the one change of a layer at a boundary: the first that applies, in the table's order. DEDUCED (log 147). -/
def State.decide_ (s : State) (layer : Nat) (e : MoeSpec) : Option Change :=
  (s.pinChange layer e).or ((s.unpinChange layer e).or ((s.replicateChange layer e).or (s.freeChange layer e)))

/-- A change is made: a copy starts, or a table loses an entry, whose scratchpad is free after the step that used it (R365). A
replica in the making of an expert that is unpinned stops (R366). -/
def State.applyChange (s : State) (layer : Nat) (e : MoeSpec) : Change → State
  | .pin x => { s with plc := { s.plc with copies := s.plc.copies ++ [⟨layer, x, none, e.sliceBytes⟩] } }
  | .unpin x => { s with plc := { s.plc with
      pins := s.plc.pins.filter (· != layer * 256 + x)
      copies := s.plc.copies.filter fun c => !(c.layer == layer && c.expert == x)
      going := s.plc.going ++ [(layer, homeGang e x)] } }
  | .replicate x i => { s with plc := { s.plc with copies := s.plc.copies ++ [⟨layer, x, some i, e.sliceBytes⟩] } }
  | .free _ i => { s with plc := { s.plc with
      reps := s.plc.reps.filter fun r => !(r.1 == layer && r.2.1 == i)
      going := s.plc.going ++ [(layer, (e.replicaSlots.getD i (0, 0)).1)] } }

/-- R365: a copy whose last tile has passed is entered. -/
def State.enterCopy (s : State) (c : Copy) : State :=
  match c.slot with
  | none => { s with plc := { s.plc with pins := s.plc.pins ++ [c.layer * 256 + c.expert] } }
  | some i => { s with plc := { s.plc with reps := s.plc.reps ++ [(c.layer, i, c.expert)] } }

def State.enterCopies (s : State) : State :=
  let done := s.plc.copies.filter fun c => c.left == 0
  done.foldl State.enterCopy { s with plc := { s.plc with copies := s.plc.copies.filter fun c => c.left != 0 } }

/-- Action 6 (R234, R235, R364): counts are folded, then the placer acts; action 14 writes its tables. DEDUCED (log 147). -/
def State.place6 (s : State) : State :=
  let s0 := s.foldCounts
  let s1 := { s0 with plc := { s0.plc with going := [] } }
  let adaptive := match s.hm.man with
    | some m => m.adaptiveMode
    | none => false
  if !adaptive then s1
  else
    let s2 := s1.enterCopies
    s2.moeLayers.foldl (fun s l =>
      match s.decide_ l.1 l.2 with
      | some c => s.applyChange l.1 l.2 c
      | none => s) s2

/-! ## PLACER_COPY (R365, R366) -/

/-- A copy of an expert in progress. -/
def isCopy (layer expert : Nat) (c : Copy) : Bool := c.layer == layer && c.expert == expert && c.left != 0

/-- A copy is given up; its expert is barred until its tile is restored (R366). -/
def State.dropCopy (s : State) (layer expert : Nat) : State :=
  { s with plc := { s.plc with
    copies := s.plc.copies.filter fun c => !isCopy layer expert c
    barred := s.plc.barred ++ [layer * 256 + expert] } }

/-- R366: the tile of a copy failed its retry: it counts at the core that it was for, and is reported (R304). -/
def State.sliceFailed (s : State) (m : Manifest) (e : MoeSpec) (c : Copy) (i : Nat) : State :=
  let p := (slicePieces e (copyPlace e c).1 (copyPlace e c).2 i).head?
  match p.bind fun p => s.physical p.1 with
  | some k => (s.dropCopy c.layer c.expert).failed (Fin.ofNat 2304 k) (s.sliceHeader m e c.expert i) false false
  | none => s.dropCopy c.layer c.expert

/-- Tiles of a copy land in its slot, while each passes with chk set. -/
def State.landCopy (s : State) (m : Manifest) (e : MoeSpec) (c : Copy) : List Nat → State
  | [] => s
  | i :: r =>
    if s.slicePasses m e c.expert i then
      (s.landSlice m e (copyPlace e c).1 (copyPlace e c).2 c.expert i none).landCopy m e c r
    else s.sliceFailed m e c i

/-- PLACER_COPY: bytes of a copy in progress, no more than the copy budget of the step leaves; the tiles that they complete land.
`tileFailed`: the next tile's fetch failed twice. -/
def State.placerCopy (s : State) (layer expert bytes : Nat) (tileFailed : Bool) : State :=
  match s.hm.man, s.moe layer, s.plc.copies.find? (isCopy layer expert) with
  | some m, some e, some c =>
    let had := e.sliceBytes - c.left
    if tileFailed then s.sliceFailed m e c (had / 4096)
    else
      let n := min bytes (min c.left (budgetOf m - s.plc.spent))
      let whole := fun (b : Nat) => if b = e.sliceBytes then sliceTileCount e else b / 4096
      let s1 := { s with plc := { s.plc with
        copies := updFirst (isCopy layer expert) (fun c => { c with left := c.left - n }) s.plc.copies
        spent := s.plc.spent + n } }
      s1.landCopy m e c ((List.range (whole (had + n))).drop (whole had))
  | _, _, _ => s

/-- PLACER_COPY (R365). -/
def execPlacerCopy (layer expert bytes : Nat) (tileFailed : Bool) (s : State) : Host.Outcome State Fault Refusal :=
  .next (s.placerCopy layer expert bytes tileFailed)

end Sys2Proof.Machine
end

