-- ==== Sys2Proof/Machine/Commit.lean ====
section
/-! DEFINITION. What a step leaves to its boundary: commit and speculation, mass, tallies and format switches, the health
monitor, eviction and compaction (actions 3 to 5, 7 and 8 of R338). -/

namespace Sys2Proof.Machine

/-! ## What a step commits (R333, R336, R141, R202) -/

/-- A token that a step keeps (R334). -/
structure Kept where
  position : Nat
  token : W32
  logit : W32
  draft : Bool
  deriving DecidableEq, Repr

/-- The end of a step for one request; `kept` in position order. -/
structure Advance where
  committed : Nat
  produced : Nat
  drafted : Nat
  accepted : Nat
  input : W32
  stop : Option (W16 × Byte)
  kept : List Kept
  deriving DecidableEq, Repr

/-- R333: the request stops at a sampled token. -/
def stopAt (r : BitVec 1024) (tok : W32) (produced committed : Nat) : Option (W16 × Byte) :=
  if (List.range (qNstop r)).any fun i => qStop r i == tok then some (stDone, 0)
  else if qMaxNew r ≤ produced then some (stDone, 1)
  else if qMaxContext r ≤ committed then some (stContextFull, 0)
  else none

/-- R336: the drawn tokens in position order against the drafts' tokens; `left` is how many positions may still commit. Poisoned
logits end the request whatever else holds (R146). DEDUCED (log 142). -/
def walk (r : BitVec 1024) : Nat → List (Option Sys2Proof.Cand) → List (Option Sys2Proof.Cand) → Advance → Advance
  | 0, _, _, a => a
  | _, [], _, a => a
  | _ + 1, none :: _, _, a => { a with committed := a.committed + 1, stop := some (stPoisoned, 0) }
  | left + 1, some t :: ts, ds, a =>
    let c := a.committed + 1
    let stop := stopAt r t.2 (a.produced + 1) c
    let go := stop.isNone && (ds.head?.join).map (·.2) == some t.2 && left != 0 && ts != []
    let a1 : Advance :=
      { a with committed := c, produced := a.produced + 1, input := t.2, stop := stop, kept := a.kept ++ [⟨c, t.2, t.1, go⟩] }
    if go then walk r left ts ds.tail { a1 with accepted := a1.accepted + 1 } else a1

/-- R140, R141: positions up to the end of the window, while an adaptive site of the request is in A4X. -/
def State.windowLeft (s : State) (q : Request) : Option Nat :=
  match s.hm.man with
  | none => none
  | some m =>
    if m.sites.zipIdx.any fun x => x.1.policy == .adaptive && !q.a8.contains x.2 then
      some (m.window - q.committed % max 1 m.window) else none

/-- R202: positions up to the next eviction point of a layer that evicts. -/
def State.evictLeft (s : State) (q : Request) : List Nat :=
  match s.hm.man with
  | none => []
  | some m => ((layersOf m).filter fun l => l.evict.on).map fun l => l.evict.period - q.committed % max 1 l.evict.period

/-- R141, R202: at most `n` positions. -/
def State.cutChunk (s : State) (q : Request) (n : Nat) : Nat :=
  let n1 := match s.windowLeft q with
    | some w => min n w
    | none => n
  (s.evictLeft q).foldl min n1

/-- R175, R336: the tokens drawn at consecutive positions. -/
def drawAll (r : BitVec 1024) (first : Nat) (purpose : W32) (xs : List (List Sys2Proof.Cand)) : List (Option Sys2Proof.Cand) :=
  xs.zipIdx.map fun x => draw r (first + x.2) purpose x.1

def noAdvance (q : Request) : Advance := ⟨q.committed, q.produced, q.drafted, q.accepted, q.input, none, []⟩

/-- The end of a prompt chunk that reaches `dest`: its last row samples (R333). -/
def advancePrompt (q : Request) (dest : Nat) (r : RowResult) : Advance :=
  let last := drawAll q.record dest 0 (r.samples.drop (r.samples.length - 1))
  if dest = q.committed then noAdvance q
  else if dest < qPlen q.record then
    { noAdvance q with committed := dest, stop := if last = [none] then some (stPoisoned, 0) else none }
  else walk q.record 1 last [] { noAdvance q with committed := dest - 1 }

/-- The result of a step for a request that took part in it. DEDUCED (log 142). -/
def State.advance (s : State) (q : Request) (r : RowResult) : Advance :=
  if q.committed < qPlen q.record then advancePrompt q (min (q.committed + q.rows) (qPlen q.record)) r
  else
    let first := q.committed + 1
    let a := walk q.record (s.cutChunk q q.rows) (drawAll q.record first 0 (r.samples.take q.rows))
      (drawAll q.record first 1 (r.drafts.take (q.rows - 1))) (noAdvance q)
    { a with drafted := a.drafted + (q.rows - 1) }

/-- R387, R450: whether the step was aborted here or elsewhere in the slice. -/
def State.stepLost (s : State) (b : BoundaryIn) : Bool := s.serv.aborting || s.fab.aborted || b.peers.any (·.aborted)

/-- What a running request commits, by what the step left. -/
def State.advanceOf (s : State) (lost : Bool) (q : Request) : Advance :=
  if lost || q.rows == 0 then noAdvance q
  else
    match s.serv.ended.results.find? fun r => r.handle == q.handle with
    | some r => s.advance q r
    | none => noAdvance q

/-! ## COMPLETION_RECORD_WRITE (R334) -/

/-- R334: whether a kept token has no record yet. -/
def Request.fresh (q : Request) (k : Kept) : Bool := q.top.all fun p => decide (p < k.position)

/-- R334: the home writes the record of a kept token, unless it has written one for the position. -/
def State.tokenRecord (s : State) (h : W32) (k : Kept) : State :=
  match s.req h with
  | none => s
  | some q =>
    if !s.homeOf q || !q.fresh k then s
    else
      let r := CompRec.bits ⟨qTag q.record, h, k.position, k.token, k.logit, s.hm.step, stDone, 0, if k.draft then 2 else 0, q.seq⟩
      (s.modReq h fun q => { q with seq := q.seq + 1, top := some k.position }).complete q.f (cringOf q.record) r

/-- COMPLETION_RECORD_WRITE: in the step that samples them, the first token that a request's rows keep and that has no record, if it
stands at the position named. DEDUCED (log 142). -/
def State.completionRecord (s : State) (h position : W32) (r : RowResult) (step : W32) : State :=
  match s.req h with
  | none => s
  | some q =>
    if q.phase ≠ .running ∨ q.rows = 0 ∨ s.serv.aborting ∨ s.fab.aborted ∨ step ≠ s.hm.step.extractLsb' 0 32 then s
    else
      match (s.advance q r).kept.find? q.fresh with
      | some k => if k.position = position.toNat then s.tokenRecord h k else s
      | none => s

/-- COMPLETION_RECORD_WRITE (R334). -/
def execCompletionRecordWrite (handle position : W32) (samples drafts : List (List Sys2Proof.Cand)) (step : W32) (s : State) :
    Host.Outcome State Fault Refusal :=
  .next (s.completionRecord handle position ⟨handle, samples, drafts⟩ step)

/-! ## Action 3 (R197, R334) -/

/-- Action 3 for one request: its berths, then its counts; records of tokens that it keeps and that were not yet written. -/
def State.commitReq (s : State) (b : BoundaryIn) (q : Request) : State :=
  if q.phase ≠ .running then s
  else
    let a := s.advanceOf (s.stepLost b) q
    let s1 := s.eachQuay q.slot fun s k => s.commitQuay q a.committed k
    let s2 := s1.modReq q.handle fun q =>
      { q with committed := a.committed, produced := a.produced, drafted := a.drafted, accepted := a.accepted,
               input := a.input, stop := a.stop.or q.stop, steps := q.steps + bit (q.rows != 0), rows := 0, reserve := [], cow := [] }
    a.kept.foldl (fun s k => s.tokenRecord q.handle k) s2

/-- Action 3. -/
def State.action3 (s : State) (b : BoundaryIn) : State := s.serv.reqs.foldl (fun s q => s.commitReq b q) s

/-! ## Action 4 (R203) -/

def insertQuery (m : MassIn) : List MassIn → List MassIn
  | [] => [m]
  | n :: r => if m.query ≤ n.query then m :: n :: r else n :: insertQuery m r

def State.evictOn (s : State) (layer : Nat) : Option EvictPolicy :=
  match s.hm.man.bind fun m => (layersOf m)[layer]? with
  | some l => if l.evict.on then some l.evict else none
  | none => none

/-- Increments of one committed query position; those of positions not committed are discarded. -/
def State.addMasses (s : State) (m : MassIn) : State :=
  match s.req m.handle with
  | none => s
  | some q =>
    if (s.evictOn m.layer).isNone ∨ m.query < q.base ∨ q.committed ≤ m.query then s
    else m.incs.foldl (fun s i => s.addMass ⟨q.slot, m.layer, m.pair⟩ i.1 i.2) s

/-- Action 4: queries in ascending position. -/
def State.action4 (s : State) : State := (s.serv.ended.masses.foldr insertQuery []).foldl State.addMasses s

/-! ## Tally records (R137) -/

/-- The tally records of a site as numbers, in the order of the manifest's list, with the request slot and row that each is for. -/
def State.tallies (s : State) (m : Manifest) (site : Nat) : List (Nat × Nat × Nat) :=
  (m.tallies.filter fun t => t.site == site).filterMap fun t =>
    (s.physical t.core).map fun c => (t.slot, t.row, s.spRd (Fin.ofNat 2304 c) t.off 32)

/-- R137: every tally record is zeroed. -/
def State.zeroTallies (s : State) : State :=
  match s.hm.man with
  | none => s
  | some m => m.tallies.foldl (fun s t =>
      match s.physical t.core with
      | some c => s.spLand (Fin.ofNat 2304 c) t.off (List.replicate 4 ⟨0, false⟩)
      | none => s) s

/-! ## Action 5: format switches (R142) -/

def isAdaptive (m : Manifest) (site : Nat) : Bool := ((m.sites[site]?).map (·.policy)) == some .adaptive

/-- C and N of a site over a request's tally records of the positions below `upTo`. -/
def State.tallySums (s : State) (m : Manifest) (q : Request) (site upTo : Nat) : Nat × Nat :=
  let ts := (s.tallies m site).filter fun t => t.1 == q.slot && decide (q.base + t.2.1 < upTo)
  ((ts.map fun t => fld t.2.2 192 32).sum, (ts.map fun t => fld t.2.2 224 32).sum)

/-- C and N of a site in the window so far, once the step's positions below `upTo` are committed. -/
def State.windowSums (s : State) (m : Manifest) (q : Request) (site upTo : Nat) : Nat × Nat :=
  let was := ((q.sums.find? fun x => x.1 == site).map (·.2)).getD (0, 0)
  let t := s.tallySums m q site upTo
  (was.1 + t.1, was.2 + t.2)

/-- The sums of the other modules for a site (R142). -/
def peerSums (b : BoundaryIn) (h : W32) (site : Nat) : Nat × Nat :=
  let get := fun (l : List (W32 × Nat × Nat)) => ((l.filter fun x => x.1 == h && x.2.1 == site).map (·.2.2)).sum
  ((b.peers.map fun p => get p.capped).sum, (b.peers.map fun p => get p.blocks).sum)

/-- One adaptive site of a request: its sums, and the switch after the last position of a window. -/
def State.foldSite (s : State) (b : BoundaryIn) (m : Manifest) (h : W32) (crossed : Bool) (site : Nat) : State :=
  match s.req h with
  | none => s
  | some q =>
    if q.a8.contains site then s
    else
      let own := s.windowSums m q site q.committed
      let rest := q.sums.filter fun x => x.1 != site
      if !crossed then s.modReq h fun q => { q with sums := rest ++ [(site, own.1, own.2)] }
      else
        let p := peerSums b h site
        let rho := ((m.sites[site]?).map (·.rho.toNat)).getD 0
        let s1 := s.modReq h fun q => { q with sums := rest }
        if rho * (own.2 + p.2) < (own.1 + p.1) * 65536 then
          (s1.modReq h fun q => { q with a8 := NSet.add site q.a8 }).health site 0x0517 (s1.siteBaseline site) cNan
        else s1

/-- The sites of a request that took part in the step. -/
def State.foldTallies (s : State) (b : BoundaryIn) (q : Request) : State :=
  match s.hm.man with
  | none => s
  | some m =>
    let crossed := q.committed / max 1 m.window != q.base / max 1 m.window
    ((List.range m.sites.length).filter (isAdaptive m)).foldl (fun s x => s.foldSite b m q.handle crossed x) s

/-! ## Action 5: the health monitor (R148 to R150) -/

def negInf : W32 := 0xFF800000

/-- R148: the square root of a positive FP32 number, rounded. -/
def sqrtFp32 (x : W32) : W32 :=
  let d := fp32.dy x.toNat
  let odd := d.e % 2 = 1
  let n := (if odd then 2 * d.m.natAbs else d.m.natAbs) * 2 ^ 64
  let e := (if odd then d.e - 1 else d.e) / 2 - 32
  let r := isqrt n
  BitVec.ofNat 32 (fp32.roundNat false r e (decide (r * r ≠ n)))

/-- R148: log2 of a positive FP32 number, rounded. DEDUCED (log 148). -/
def log2Fp32 (x : W32) : W32 :=
  let l := fxLog (fp32.dy x.toNat) * fxOne / (fxLn2 : Int)
  if l = 0 then 0 else BitVec.ofNat 32 (roundFx (decide (l < 0)) ⟨l, -(fxP : Int)⟩)

/-- R148: λ of a site over its tally records of the step, and whether its sum is a number; none when it has no elements.
DEDUCED (log 148). -/
def State.lambdaOf (s : State) (m : Manifest) (site : Nat) : Option (Bool × W32) :=
  let ts := (s.tallies m site).map (·.2.2)
  let n := (ts.map fun t => fld t 96 32).sum
  if n = 0 then none
  else
    let total := ts.foldl (fun a t => fadd a (fadd (BitVec.ofNat 32 (fld t 32 32)) (BitVec.ofNat 32 (fld t 64 32)))) 0
    let x := fdiv total (fpOfInt (Int.ofNat n) 0)
    some (fisFin total && !flt total 0, if x.toNat % 2 ^ 31 = 0 then negInf else log2Fp32 (sqrtFp32 x))

def Monitor.start (x : SiteSpec) : Monitor := ⟨x.calibration, [], 0⟩

def State.monitor (s : State) (site : Nat) (x : SiteSpec) : Monitor :=
  ((s.serv.mons.find? fun m => m.1 == site).map (·.2)).getD (Monitor.start x)

def State.setMonitor (s : State) (site : Nat) (m : Monitor) : State :=
  { s with serv := { s.serv with mons := Sparse.insert site m s.serv.mons } }

/-- R150: the mean of the learning values. DEDUCED (log 148). -/
def meanOf (xs : List W32) : W32 := fdiv (xs.foldl fadd 0) (fpOfInt (Int.ofNat xs.length) 0)

/-- R150: a step in learning. -/
def Monitor.learn (m : Monitor) (l : W32) : Monitor :=
  if !fisFin l then m
  else
    let xs := m.learned ++ [l]
    if xs.length < 64 then { m with learned := xs } else ⟨some (meanOf xs), [], 0⟩

/-- R149: a step with a baseline. -/
def State.judge (s : State) (site : Nat) (x : SiteSpec) (m : Monitor) (b l : W32) : State :=
  let up := flt x.jump (fsub l b)
  let down := flt x.jump (fsub b l)
  if !up && !down then s.setMonitor site ⟨some (fadd b (fdiv (fsub l b) 0x41800000)), [], 0⟩
  else
    let s1 := s.health site (if up then 0x0510 else 0x0511) b l
    if m.streak + 1 < 16 then s1.setMonitor site { m with streak := m.streak + 1 }
    else (s1.health site 0x0513 b l).setMonitor site ⟨none, [], 0⟩

/-- R148: one monitored site at a boundary. -/
def State.watchSite (s : State) (m : Manifest) (site : Nat) (x : SiteSpec) : State :=
  match s.lambdaOf m site with
  | none => s
  | some (fin, l) =>
    if !fin then s.health site 0x0512 (s.siteBaseline site) cNan
    else
      let mon := s.monitor site x
      match mon.baseline with
      | none => s.setMonitor site (mon.learn l)
      | some base => s.judge site x mon base l

def State.watch (s : State) : State :=
  match s.hm.man with
  | none => s
  | some m => m.sites.zipIdx.foldl (fun s x => if x.1.monitored then s.watchSite m x.2 x.1 else s) s

/-- Action 5: format switches, the health monitor; the tallies are zeroed. -/
def State.action5 (s : State) (b : BoundaryIn) : State :=
  let s1 := if s.stepLost b then s else s.serv.reqs.foldl (fun s q => if q.phase = .running then s.foldTallies b q else s) s
  s1.watch.zeroTallies

/-! ## Actions 7 and 8 (R204 to R207) -/

/-- R207: a request is held: it takes no part in the next step; the event is raised once per holding. DEDUCED (log 136). -/
def State.holdReq (s : State) (h : W32) (pool : Bool) : State :=
  match s.req h with
  | none => s
  | some q =>
    let s1 := s.modReq h fun q => { q with phase := .held, held := q.held + 1, told := q.told || pool, short := false, reserve := [], cow := [], rows := 0 }
    if !pool then s1
    else
      let s2 := { s1 with ms := { s1.ms with bhold := bump s1.ms.bhold } }
      if q.told then s2 else s2.note 0x0710 0 0 0 h q.tenant.val []

/-- A shortage in an action marks the request; action 13 holds it. DEDUCED (log 136). -/
def State.shortOf (s : State) (q : Request) : State := s.modReq q.handle fun q => { q with short := true }

/-- Quays of the layers that evict, one after another, until a handle lacks. -/
def eachEvicting (f : State → EvictPolicy → QuayId → Option State) : List QuayId → State → Option State
  | [], s => some s
  | k :: r, s =>
    match s.evictOn k.layer with
    | none => eachEvicting f r s
    | some p =>
      match f s p k with
      | some s1 => eachEvicting f r s1
      | none => none

/-- R204: the boundary commits an eviction point of a policy for a request, or a holding put that off. -/
def evictsNow (p : EvictPolicy) (q : Request) : Bool :=
  q.committed != 0 && q.committed % max 1 p.period == 0 && (q.base != q.committed || q.phase == .held)

/-- Action 7 for one request. -/
def State.evictReq (s : State) (q : Request) : State :=
  if q.phase ≠ .running ∧ q.phase ≠ .held then s
  else
    match eachEvicting (fun s p k => if evictsNow p q then s.evictQuay q.tenant p k else some s)
        (s.quays q.slot) s with
    | none => s.shortOf q
    | some s1 =>
      let most := ((s1.quays q.slot).map fun k => (s1.quay k).evicted).foldl max 0
      s1.modReq q.handle fun q => { q with evicted := most }

/-- Action 8 for one request. -/
def State.compactReq (s : State) (q : Request) : State :=
  if q.phase ≠ .running ∧ q.phase ≠ .held then s
  else
    match eachEvicting (fun s p k => s.compactQuay q.tenant p k) (s.quays q.slot) s with
    | none => s.shortOf q
    | some s1 => s1

def State.action7 (s : State) : State := s.serv.reqs.foldl State.evictReq s

/-- DEDUCED (log 138). -/
def State.action8 (s : State) : State := s.serv.reqs.foldl State.compactReq s

end Sys2Proof.Machine
end

