-- ==== Sys2Proof/Machine/Ship.lean ====
section
/-! DEFINITION. Shipments: what the sender forms and sends, and what the destination checks (R212 to R214, R310, R346, R392, R442). -/

namespace Sys2Proof.Machine

/-! ## The sender (R212, R346, R392) -/

/-- A part of a shipment: its bytes, and the key of the region that it lies in (R442). -/
abbrev ShipPart := Option (BitVec 512) × List Byte

/-- R139, R212: a quay's bytes of the format table: those of its layer's adaptive sites. DESIGN CHOICE (log 141). -/
def State.quayFormats (s : State) (q : Request) (layer : Nat) : List Byte :=
  match s.hm.man with
  | none => []
  | some m => (m.sites.zipIdx.filter fun x => x.1.policy == .adaptive && x.1.layer == layer).map fun x =>
      if q.a8.contains x.2 then 1 else 0

/-- R212: a quay: its record, its berth images in quay order, its mass table, its tail, its format bytes. -/
def State.quayParts (s : State) (q : Request) (k : QuayId) : List ShipPart :=
  let bs := s.quayBerths k
  [(none, leBytes 32 (s.devNum (s.quayPlace k).1 4))]
    ++ bs.map (fun b => (s.keyAt (s.berthAddr b.e.anc b.e.handle), s.berthPage b.e.anc b.e.handle))
    ++ [(none, bs.flatMap fun b => b.mass.flatMap fun m => leBytes 4 m.toNat), (none, wordsToBytes (s.tailWords k)),
        (none, s.quayFormats q k.layer)]

/-- R208, R345: the numbers of a request that travel with it, among them every berth-table entry. -/
def State.shipNumbers (s : State) (q : Request) : List Nat :=
  [q.handle.toNat, q.committed, q.produced, q.drafted, q.accepted, q.steps, q.held, q.evicted, q.aver.toNat, q.admitted.toNat,
   q.seq.toNat, q.input.toNat] ++ (q.top.map fun p => p + 1).toList ++ q.sums.flatMap (fun x => [x.1, x.2.1, x.2.2])
    ++ (s.entriesOf q).map BEntry.bits

/-- R212: the parts of a request's shipment, quay by quay, and the remaining fields once at the end. -/
def State.shipParts (s : State) (q : Request) : List ShipPart :=
  (s.quays q.slot).flatMap (s.quayParts q)
    ++ [(none, Config.shipFields q.record (samplingRecord q.record) (s.shipNumbers q))]

/-- A part cut into tiles, the last filled with zeros. DESIGN CHOICE (log 141). -/
def partTiles (p : ShipPart) : List ShipPart :=
  (List.range (ceilDiv p.2.length 4096)).map fun i =>
    let t := (p.2.drop (4096 * i)).take 4096
    (p.1, t ++ List.replicate (4096 - t.length) 0)

/-- R392: a tile unit: its tag, then its stored bytes: sealed (R442), coded, or as they are (R313). -/
def tileUnit (flow : W32) (off : Nat) (p : ShipPart) : List Byte :=
  match p.1 with
  | some key => leBytes 8 (0x1000 * 2 ^ 48 + off) ++ (Config.sealTile key flow off p.2 ++ List.replicate 4112 0).take 4112
  | none =>
    match coded? (bytesToWords 512 p.2) with
    | some ws => leBytes 8 (2 ^ 63 + 8 * ws.length * 2 ^ 48 + off) ++ wordsToBytes ws
    | none => leBytes 8 (0x1000 * 2 ^ 48 + off) ++ p.2

/-- R392: shipment data. -/
def shipBytes (flow : W32) (ps : List ShipPart) : List Byte :=
  (ps.flatMap partTiles).zipIdx.flatMap fun p => tileUnit flow (4096 * p.2) p.1

/-- R346, R392: this module's part of a request's shipment goes out on a new flow of the shipment class. -/
def State.sendShipment (s : State) (q : Request) (flow : W32) (order : ShipOrder) : State :=
  let g : UFlow := { UFlow.fresh flow 0 0 with peer := order.peer, nextSeq := 1, toSend := shipBytes flow (s.shipParts q) }
  let s1 := s.dropFlow flow
  let s2 := { s1 with fab := { s1.fab with flows := s1.fab.flows ++ [g] } }
  (s2.sendDatagram 3 (g.datagram 0 false [])).runFlow flow

/-- REQ_SHIP (R346, R417): of a prefilled request. The shipment goes out at once; the request ends at the boundary after the
destination's answer. A flow without progress ends the ticket with TIMEOUT. DESIGN CHOICE (log 141). -/
def State.reqShip (s : State) (i : Issuer) (h : W32) (order : ShipOrder) : State :=
  match s.visible i h with
  | none => s.reply i stNotFound []
  | some q =>
    if q.phase ≠ .prefilled then s.reply i stBusy []
    else
      s.issue i 0x0305 2 0 0 fun t s =>
        let flow := Config.shipFlow t
        let s1 := (s.modTicket t fun x => { x with object := flow.toNat }).sendShipment q flow order
        if order.answer.isSome then s1.addCmd (.ship h (some t) order) else s1

/-! ## The destination (R213, R214, R310, R442) -/

/-- The words of a received page as bytes. -/
def imageBytes (x : ShipImage) : List Byte := leBytes berthBytes (packFields 64 ((x.page.take 4096).map (·.toNat)))

/-- R310: the position list of a received page against its fill and groups; a compacted berth's positions rise from its first, and its
unused places are evicted (R206). DEDUCED (log 139). -/
def listOk (h : BHdr) (p : List Byte) : Bool :=
  let held := (List.range 80).filter fun pl => posAt p pl != 0xFFFFFFFF
  let pos := held.map (posAt p)
  if h.compacted then
    held == List.range held.length && pos.head? == some h.first && (pos.zip pos.tail).all (fun x => decide (x.1 < x.2))
      && ((List.range 80).drop held.length).all (tb h.evict) && h.fill == 80 && h.groups == 16
  else
    held.all (fun pl => posAt p pl == h.first + pl) && h.fill == held.length && h.groups == held.length / 5

/-- R310: the position list and the check rows of a received page. DEDUCED (log 139). -/
def pageOk (k : KvFmt) (p : List Byte) : Bool :=
  let h := bhdrOf (ofLe (p.take 64))
  listOk h p && k.withRows p h.groups == p

/-- R185, R213: the reach of an image, by what its quay has opened. DEDUCED (log 139). -/
def State.reachOk (s : State) (st : ShipState) (h : BHdr) : Bool :=
  match s.hm.man, st.quays.find? fun y => y.layer == h.layer && y.pair == h.pair with
  | some m, some y => decide (h.reach ≤ y.opened / max 1 m.reachLength)
  | _, _ => false

/-- R442: a sealed image opens under a key of the tenant, and its tags verify. -/
def State.sealOk (s : State) (t : TenantId) (x : ShipImage) : Bool :=
  match x.sealed with
  | some ok => ok && (s.tenantSlot t).isSome
  | none => true

/-- R213: how a berth image fares. DEDUCED (log 139). -/
def State.imageVerdict (s : State) (t : TenantId) (st : ShipState) (x : ShipImage) : W16 :=
  let h := bhdrOf (ofLe ((imageBytes x).take 64))
  let k := s.kvFmt
  if h.modelTag ≠ s.digest64.toNat then stDigest
  else if h.layer == x.layer && h.pair == x.pair && h.fmt == (if k.planes = 3 then 0 else 1) && s.reachOk st h && !h.prov
      && s.sealOk t x && pageOk k (imageBytes x) then stDone
  else stBadArg

def State.shipVerdict (s : State) (t : TenantId) (st : ShipState) (xs : List ShipImage) : W16 :=
  let vs := xs.map (s.imageVerdict t st)
  if vs.contains stDigest || s.hm.man.isNone then stDigest else if vs.contains stBadArg then stBadArg else stDone

/-- A received berth: one reference, its own handle, its check entry from the content (R310). DEDUCED (log 140). -/
def State.landImage (s : State) (h : Nat) (x : ShipImage) : State :=
  s.openBerth false h (withHdr (imageBytes x) { bhdrOf (ofLe ((imageBytes x).take 64)) with handle := h, refs := 1, prov := false })

/-- The shipment's berths are freed. -/
def State.freeShip (s : State) (x : Ship) : State :=
  let s1 := x.handles.foldl (fun s h => s.dropRef false h) s
  { s1 with serv := { s1.serv with ships := s1.serv.ships.filter fun y => y.num != x.num } }

/-- R346: the destination answers on the flow that brought the shipment. -/
def State.answerShip (s : State) (flow : W32) (status : W16) (h : W32) : State :=
  match s.flow flow with
  | some g => (s.setFlow { g with toSend := g.toSend ++ Config.shipAnswer status h }).runFlow flow
  | none => s

/-- R213: a refused shipment: what it had is freed, and the sender is told. -/
def State.refuseShip (s : State) (old : Option Ship) (flow : W32) (status : W16) : State :=
  let s1 := match old with
    | some y => s.freeShip y
    | none => s
  s1.answerShip flow status 0

/-- The tenant of a function. -/
def State.tenantOfFn (s : State) (f : FnId) : TenantId := (s.fn f).tenant

/-- SHIPMENT_RECEIVE (R213): further images of a shipment that is not complete join it; a refusal frees what it had. Images
wait while the pool has no handles for them. DESIGN CHOICE (log 141). -/
def State.shipmentReceive (s : State) (r : BitVec 1024) (f : FnId) (committed : W32) (st : ShipState) (xs : List ShipImage)
    (complete : Bool) : State :=
  let old := s.serv.ships.find? fun y => y.record == r && y.f == f && !y.complete
  let t := s.tenantOfFn f
  let verdict := s.shipVerdict t st xs
  if verdict ≠ stDone then s.refuseShip old st.flow verdict
  else
    match s.pickHandles false t xs.length with
    | none => s
    | some (hs, s1) =>
      let s2 := (hs.zip xs).foldl (fun s p => s.landImage p.1 p.2) s1
      match old with
      | some y =>
        { s2 with serv := { s2.serv with ships := s2.serv.ships.map fun z =>
          if z.num = y.num then { z with images := z.images ++ xs, handles := z.handles ++ hs, complete := complete, st := st } else z } }
      | none =>
        let y : Ship := ⟨s2.serv.nextShip, f, r, committed.toNat, st, xs, hs, complete, s.hm.timeNs⟩
        { s2 with serv := { s2.serv with ships := s2.serv.ships ++ [y], nextShip := s2.serv.nextShip + 1 } }

/-- R214: the shipment timeout in nanoseconds, 1 s where the manifest names none. -/
def State.shipTimeoutNs (s : State) : Nat :=
  1000000 * match s.hm.man with
    | some m => m.shipTimeoutMs.getD 1000
    | none => 1000

/-- SHIPMENT_TIMEOUT (R214): of a shipment that is not complete and whose time is over by the module time: it is refused with TIMEOUT. -/
def State.shipmentTimeout (s : State) (n : Nat) : State :=
  match s.serv.ships.find? fun y => y.num == n && !y.complete with
  | some y => if s.shipTimeoutNs ≤ (s.hm.timeNs - y.since).toNat then s.refuseShip (some y) y.st.flow stTimeout else s
  | none => s

/-! ## Rows -/

/-- REQ_SHIP (R346). -/
def execReqShip (i : Issuer) (handle : W32) (order : ShipOrder) (s : State) : Host.Outcome State Fault Refusal :=
  .next (s.command i 0x0305 fun s => s.reqShip i handle order)

/-- SHIPMENT_RECEIVE (R213). -/
def execShipmentReceive (r : BitVec 1024) (f : FnId) (committed : W32) (st : ShipState) (images : List ShipImage)
    (complete : Bool) (s : State) : Host.Outcome State Fault Refusal :=
  .next (s.shipmentReceive r f committed st images complete)

/-- SHIPMENT_TIMEOUT (R214). -/
def execShipmentTimeout (ship : Nat) (s : State) : Host.Outcome State Fault Refusal := .next (s.shipmentTimeout ship)

end Sys2Proof.Machine
end

