-- ==== Sys2Proof/Machine/Leave.lean ====
section
/-! DEFINITION. How requests end, are paused, moored, resumed and leave by shipment (R197, R207 to R211, R345 to R347, R421, R443). -/

namespace Sys2Proof.Machine

/-! ## Ends (R334, R347) -/

/-- A request ends: its references are dropped, the home writes its end record, and its slot is free. -/
def State.endReq (s : State) (q : Request) (status : W16) (reason : Byte) (quiet : Bool) : State :=
  let s1 := (s.dropBerths q).dropReq q.handle
  if s.homeOf q && !quiet then s1.complete q.f (cringOf q.record) (s.endRecord q status reason false) else s1

/-- A pending request is cancelled; its entry leaves its ring. -/
def State.endOffer (s : State) (o : Offer) (quiet : Bool) : State :=
  let s1 := { s with serv := { s.serv with offers := s.serv.offers.filter (· != o) } }
  let s2 := if quiet then s1 else s1.complete o.f (cringOf o.record) (s.refusalRecord o.record stCancelled)
  s2.leave o.f o.ring o.ix

/-- R209: the mooring expires. -/
def State.expire (s : State) (q : Request) : State :=
  let s1 := (s.dropBerths q).dropReq q.handle
  ({ s1 with ms := { s1.ms with bexpire := bump s1.ms.bexpire } }).note 0x0711 0 0 0 q.handle q.tenant.val []

/-- Requests end that meet a condition. -/
def State.endWhere (s : State) (p : Request → Bool) (status : W16) (quiet : Bool) : State :=
  (s.serv.reqs.filter p).foldl (fun s q => s.endReq q status 0 quiet) s

def State.endOffers (s : State) (p : Offer → Bool) (quiet : Bool) : State :=
  (s.serv.offers.filter p).foldl (fun s o => s.endOffer o quiet) s

def State.cancelJobs (s : State) (p : Job → Bool) : State :=
  { s with serv := { s.serv with jobs := s.serv.jobs.map fun j => if p j then { j with cancelled := true } else j } }

/-- R443: the shipments to a tenant that hold images sealed under its key are refused. -/
def State.refuseSealed (s : State) (t : TenantId) : State :=
  (s.serv.ships.filter fun y => s.tenantOfFn y.f == t && y.images.any fun x => x.sealed.isSome).foldl
    (fun s y => s.refuseShip (some y) y.st.flow stBadArg) s

/-- R443: a tenant's requests and jobs are cancelled and its sealed shipments refused; a mooring ends as an expiry. -/
def State.cancelTenant (s0 : State) (t : TenantId) : State :=
  let s := s0.refuseSealed t
  let s1 := (s.serv.reqs.filter fun q => q.tenant == t && q.phase == .moored).foldl State.expire s
  let s2 := s1.endWhere (fun q => q.tenant == t) stCancelled false
  (s2.endOffers (fun o => o.tenant == t) false).cancelJobs fun j => j.tenant == t

/-- R443: the tenant's slots are zeroed and freed. -/
def State.zeroTenant (s : State) (t : TenantId) : State :=
  (s.sec.slots.filter fun p => p.2.owner == some t).foldl (fun s p => s.zeroSlot p.1) s

/-! ## Commands at action 11 (R337, R339, R211) -/

/-- R347, R339: a cancel; `ended` are the requests that ended for their own reason at this boundary. -/
def State.cancelCmd (s : State) (ended : List W32) (h : W32) (t : Option W32) : State :=
  match s.req h with
  | some q => (s.endReq q stCancelled 0 false).finish? t stDone 0
  | none => s.finish? t (if ended.contains h then stDone else stNotFound) 0

/-- Anchorage berths that requests moving out still need. -/
def State.leavingBerths (s : State) : Nat := ((s.serv.reqs.filter fun q => q.phase == .movingOut).map s.aloneBerths).sum

/-- R208: a pause: moving out begins, if the anchorage pool holds the berths that the request alone references. -/
def State.pauseCmd (s0 : State) (h : W32) (ttl : Nat) (t : Option W32) : State :=
  match s0.req h with
  | none => s0.finish? t stNotFound 0
  | some q =>
    if q.phase ≠ .running ∧ q.phase ≠ .held ∧ q.phase ≠ .prefilled then s0.finish? t stNotFound 0
    else
      let n := s0.aloneBerths q
      let s := s0.protect true q.tenant (n + s0.leavingBerths)
      if (s.freeHandles true q.tenant).length < n + s.leavingBerths then s.finish? t stNoSpace 0
      else
        let s1 := s.modReq h fun q => { q with phase := .movingOut, ttl := ttl, ticket := t, rows := 0, reserve := [], cow := [], told := false }
        match t with
        | some k => s1.modTicket k fun x => { x with total := n }
        | none => s1

/-- R210: what a moored request needs in stacked memory: handles for its anchorage berths, and tables. -/
def State.roomBack (s : State) (q : Request) : Option (List Nat × Nat × State) :=
  if q.phase = .movingOut then some ([], q.tables, s)
  else
    match s.pickHandles false q.tenant (s.anchored q), s.tableRoom (qMaxContext q.record) with
    | some (hs, s1), some a => some (hs, a, s1)
    | _, _ => none

/-- R210, R211: a resume: of a request that is moving out, or of a moored one if stacked memory supplies the handles.
DEDUCED (log 153). -/
def State.resumeCmd (s : State) (h : W32) (t : Option W32) : State :=
  match s.req h with
  | none => s.finish? t stNotFound 0
  | some q =>
    if !q.paused then s.finish? t stNotFound 0
    else if qModel q.record ≠ s.digest64 then s.finish? t stDigest 0
    else
      match s.roomBack q with
      | none => s.finish? t stNoSpace 0
      | some (hs, a, s1) =>
        let s2 := if q.phase = .movingOut then s1.finish? q.ticket stCancelled 0 else s1
        s2.modReq h fun q =>
          { q with phase := .movingIn, ttl := s.ttlLeft q, ticket := t, tables := a, reserve := [(0, hs)], back := false }

/-- R346: the destination's answer to a shipment; a module that did not take the command sends its part first. -/
def State.shipCmd (s : State) (h : W32) (t : Option W32) (order : ShipOrder) : State :=
  match s.req h, order.answer with
  | some q, some (status, handle) =>
    if q.phase ≠ .prefilled then s.finish? t stBusy 0
    else
      let s1 := if t.isNone then s.sendShipment q (Config.shipFlow h) order else s
      if status = stDone then (s1.endReq q stDone 0 true).finish? t stDone (handle.setWidth 64)
      else s1.finish? t status 0
  | _, _ => s.finish? t stNotFound 0

/-- One command at action 11. -/
def State.leaveCmd (ended : List W32) (s : State) : BCmd → State
  | .cancel h t => s.cancelCmd ended h t
  | .cancelOffer f r ix t =>
    (match s.serv.offers.find? fun o => o.home == s.rank && o.f == f && o.ring == r && o.ix == ix with
     | some o => (s.endOffer o false).finish? t stDone 0
     | none =>
       match s.serv.reqs.find? fun q => q.home == s.rank && q.f == f && q.ring == r && q.ix == ix && q.admitted == s.hm.step with
       | some q => (s.endReq q stCancelled 0 false).finish? t stDone 0
       | none => s.finish? t stNotFound 0)
  | .dropOffer _ o =>
    (match s.serv.reqs.find? fun q => q.home == o.home && q.f == o.f && q.record == o.record && q.admitted == s.hm.step with
     | some q => s.endReq q stCancelled 0 true
     | none => s)
  | .pause h ttl t => s.pauseCmd h ttl t
  | .resume h t => s.resumeCmd h t
  | .ship h t o => s.shipCmd h t o
  | .endQuiet h =>
    (match s.req h with
     | some q => s.endReq q stCancelled 0 true
     | none => s)
  | .expire h =>
    (match s.req h with
     | some q => if q.phase = .moored then s.expire q else s
     | none => s)
  | .endFn f => (s.endWhere (fun q => s.homeOf q && q.f == f) stCancelled true).endOffers (fun o => o.f == f) true
  | .endRing f r => s.endOffers (fun o => o.f == f && o.ring == r) true
  | .endCring f r => s.endWhere (fun q => s.homeOf q && q.f == f && cringOf q.record == r) stCancelled true
  | .clearSlot k t => (if s.tenantSlot t = some k.val then s.cancelTenant t else s).zeroSlot k.val
  | .dropTenant t => (s.cancelTenant t).zeroTenant t
  | .cancelJob _ | .install _ _ _ _ | .remove _ _ | .tune _ _ _ _ | .unload _ => s

/-! ## MOORING_COMPLETE, MOORING_EXPIRY, RESUME_MOVED -/

/-- MOORING_COMPLETE (R208, R209): every berth that the request alone references lies in the anchorage; while the anchorage lacks
handles, it does not. -/
def State.mooringComplete (s0 : State) (h : W32) : State :=
  match s0.req h with
  | none => s0
  | some q =>
    if q.phase ≠ .movingOut then s0
    else
      let n := s0.aloneBerths q
      let s := s0.protect true q.tenant n
      if (s.freeHandles true q.tenant).length < n then s
      else
        let s1 := (s.moor q).modReq h fun q => { q with phase := .moored, since := s.hm.timeNs, ticket := none }
        match q.ticket with
        | some t => (s1.progressTo t n).finish t stDone 0
        | none => s1

/-- R211: a resume of the request has been accepted. -/
def State.resuming (s : State) (h : W32) : Bool :=
  s.serv.cmds.any fun c =>
    match c with
    | .resume g _ => g == h
    | _ => false

/-- MOORING_EXPIRY (R209, R211): the time to live has run out. The other modules hear of it at the next boundary. -/
def State.mooringExpiry (s : State) (h : W32) : State :=
  match s.req h with
  | none => s
  | some q => if q.phase = .moored ∧ s.ttlLeft q = 0 ∧ !s.resuming h then (s.expire q).addCmd (.expire h) else s

/-- RESUME_MOVED (R210): the last berth is back; the request joins at the next boundary. DEDUCED (log 153). -/
def State.resumeMoved (s : State) (h : W32) : State :=
  match s.req h with
  | none => s
  | some q =>
    if q.phase ≠ .movingIn ∨ q.back then s
    else
      let n := s.anchored q
      let s1 := (s.modReq h fun q => { q with reserve := [], back := true, ticket := none }).unmoor q
      match q.ticket with
      | some t => (s1.progressTo t n).finish t stDone 0
      | none => s1

/-! ## Rows -/

/-- MOORING_COMPLETE (R208). -/
def execMooringComplete (handle : W32) (s : State) : Host.Outcome State Fault Refusal := .next (s.mooringComplete handle)

/-- MOORING_EXPIRY (R209). -/
def execMooringExpiry (handle : W32) (s : State) : Host.Outcome State Fault Refusal := .next (s.mooringExpiry handle)

/-- RESUME_MOVED (R210). -/
def execResumeMoved (handle : W32) (s : State) : Host.Outcome State Fault Refusal := .next (s.resumeMoved handle)

end Sys2Proof.Machine
end

