-- ==== Sys2Proof/Machine/Boundary.lean ====
section
/-! DEFINITION. The step boundary: its exchange, adapters and jobs, forks, ends, admissions, reservations, the start of a step (actions
1, 2 and 9 to 14 of R338), and the exchange as a whole (R337, R387 to R389, R478). -/

namespace Sys2Proof.Machine

/-! ## Actions 1 and 2: the boundary record (R337, R388) -/

/-- R337: a command of this module as the other modules read it. -/
def State.toPeer (s : State) (c : BCmd) : List PeerCmd :=
  let offers := s.serv.offers.take s.serv.cutOffers
  let drop := fun (p : Offer → Bool) => (offers.zipIdx.filter fun o => p o.1).map fun o => PeerCmd.dropOffer o.2
  let reqs := fun (p : Request → Bool) (g : W32 → PeerCmd) => (s.serv.reqs.filter p).map fun q => g q.handle
  let tenant := fun (t : TenantId) => reqs (fun q => q.tenant == t) .cancel ++ drop (fun o => o.tenant == t)
    ++ (s.serv.jobs.filter fun j => j.tenant == t).map fun j => PeerCmd.cancelJob j.num
  match c with
  | .cancel h _ => [.cancel h]
  | .cancelOffer f r ix _ => drop fun o => o.f == f && o.ring == r && o.ix == ix
  | .pause h ttl _ => [.pause h ttl]
  | .resume h _ => [.resume h]
  | .ship h _ o => [.ship h o]
  | .endQuiet h => [.endQuiet h]
  | .expire h => [.expire h]
  | .dropOffer _ _ => []
  | .remove id _ => [.remove id]
  | .install id t fs _ => [.install id t fs]
  | .tune _ t a _ => [.tune t a]
  | .cancelJob n => [.cancelJob n]
  | .unload _ => []
  | .endFn f => reqs (fun q => s.homeOf q && q.f == f) .endQuiet ++ drop (fun o => o.f == f)
  | .endRing f r => drop fun o => o.f == f && o.ring == r
  | .endCring f r => reqs (fun q => s.homeOf q && q.f == f && cringOf q.record == r) .endQuiet
  | .clearSlot k t => if s.tenantSlot t = some k.val then tenant t else []
  | .dropTenant t => tenant t

/-- R142, R337: the C and N sums of this module's requests, once the step's positions are committed: handle, site, C, N. -/
def State.ownSums (s : State) : List (W32 × Nat × Nat × Nat) :=
  match s.hm.man with
  | none => []
  | some m => (s.serv.reqs.filter fun q => q.phase == .running).flatMap fun q =>
      ((List.range m.sites.length).filter fun x => isAdaptive m x && !q.a8.contains x).map fun x =>
        let w := s.windowSums m q x (s.advanceOf (s.serv.aborting || s.fab.aborted) q).committed
        (q.handle, x, w.1, w.2)

/-- R478: the thermal-hold flag of this module or of another. -/
def State.holdSet (s : State) (peers : Bool) : Bool := s.pwr.hold || peers

/-- R388: this module's boundary record. -/
def State.ownRecord (s : State) : PeerRecord :=
  let offers := s.serv.offers.take s.serv.cutOffers
  { rank := s.rank
    commands := (s.serv.cmds.take s.serv.cut).flatMap s.toPeer
    offers := offers.map fun o => (o.record, o.tenant, o.f)
    noRoom := (offers.zipIdx.filter fun o => (s.tableRoom (qMaxContext o.1.record)).isNone).map fun o => (s.rank, o.2)
    capped := s.ownSums.map fun x => (x.1, x.2.1, x.2.2.1)
    blocks := s.ownSums.map fun x => (x.1, x.2.1, x.2.2.2)
    timeNs := s.hm.timeNs.toNat
    synced := s.hm.synced
    halt := s.fab.halting
    hold := s.holdSet false
    aborted := s.serv.aborting || s.fab.aborted }

/-- STEP_BOUNDARY (R337, R338 action 1): what the step left is taken, and the boundary record goes to the slice. A halted slice takes
none, none begins during debug hold, none in state 3 (R451), and none before
the records of contained faults have committed (R460). -/
def State.stepBoundary (s : State) (e : StepEnd) : State :=
  if s.serv.phase ≠ .begun ∨ s.fab.halted ∨ s.debugHold ∨ s.hm.state = 3 ∨ s.faultUnwritten then s
  else
    let s1 := { s with serv := { s.serv with phase := .exchange, ended := e } }
    s1.tellSlice (.boundary s1.ownRecord)

/-! ## Action 9: adapters (R342, R343) -/

/-- R342: the next version number of an id. -/
def State.nextVersion (s : State) (id : W16) : Nat := Sparse.get 0 s.serv.versions id.toNat + 1

/-- R441: the bytes of a tenant with a loaded slot that lie at an address become part of a region of it, unless the range meets a
region, or no region register is free. DESIGN CHOICE (log 168). -/
def State.protectRange (s : State) (t : TenantId) (addr len : Nat) : State :=
  let base := addr / 32768
  let size := ceilDiv (addr % 32768 + len) 32768
  match s.tenantSlot t, s.freeRegion with
  | some slot, some r => if s.regions.all fun x => apart (x.1, x.2.1) (base, size) then s.makeRegion r base size t slot else s
  | _, _ => s

/-- R342, R441: a factor pair is written into stacked memory: tiles, header table, scales. -/
def State.storeFactor (s0 : State) (t : TenantId) (id : W16) (v : Nat) (x : AdapterFactor) : State :=
  let p := Config.adapterPlace s0.digest id.toNat v x.site
  let ts := (factorTiles x).zipIdx.map fun t => (⟨4096 * t.2, false, tileCrc t.2 t.1, bytesToWords 512 t.1⟩ : TileSpec)
  let s := ((s0.protectRange t p.1 (4096 * ts.length)).protectRange t p.2.1 (16 * ts.length)).protectRange t p.2.2 (4 * x.cols.length)
  (s.putTiles p.1 p.2.1 ts).devWrite p.2.2
    (cleanWords (ceilDiv x.cols.length 2) (x.cols.flatMap fun c => leBytes 4 c.1.toNat))

/-- R342: a version becomes resident, and current unless `current` is false. DEDUCED (log 145). -/
def State.installVersion (s : State) (id : W16) (t : TenantId) (fs : List AdapterFactor) (current : Bool) : State :=
  let v := s.nextVersion id
  let s1 := fs.foldl (fun s x => s.storeFactor t id v x) s
  let others := s1.serv.adapters.map fun (a : AdapterVer) => if current && a.id == id then { a with current := false } else a
  { s1 with serv := { s1.serv with
    adapters := others ++ [⟨id, BitVec.ofNat 32 v, t, fs, current, !current⟩], versions := Sparse.put 0 s1.serv.versions id.toNat v } }

/-! ## Action 9: tuning jobs (R349 to R352) -/

/-- Columns with the number of the first element of each. -/
def colBases : Nat → List FactorCol → List (Nat × FactorCol)
  | _, [] => []
  | n, c :: r => (n, c) :: colBases (n + c.codes.length) r

/-- R351: the master values w and m of an element of a job. -/
def State.master (s : State) (job i : Nat) : W32 × W32 :=
  let w := s.devNum (Config.masterPlace s.digest job + 8 * i) 1
  (BitVec.ofNat 32 (fld w 0 32), BitVec.ofNat 32 (fld w 32 32))

/-- The master values of consecutive elements are written. -/
def State.putMasters (s : State) (job i : Nat) (xs : List (W32 × W32)) : State :=
  s.devWrite (Config.masterPlace s.digest job + 8 * i) (xs.map fun x => ⟨BitVec.ofNat 64 (x.1.toNat + x.2.toNat * 2 ^ 32), false⟩)

/-- An empty gradient sum for each element of a column. -/
def freshSums (codes : List Int) : List RedCtx := codes.map fun _ => RedCtx.begin .sum 0 0

/-- R349: a job starts with the factors that its command named; w is the factors' value, m is zero. -/
def State.startJob (s : State) (i : Issuer) (t : TenantId) (a : TuneArgs) (k : Option W32) : State :=
  if k.any fun n => s.host.tickets.any fun x => x.num == n && x.st == .cancelling then s.finish? k stCancelled 0
  else if 8 ≤ s.serv.jobs.length then s.finish? k stBadArg 0
  else
    match s.startFactors t a with
    | none => s.finish? k stNotFound 0
    | some fs =>
      let n := freeJob s.serv.jobs
      let cols := (fs.flatMap (·.cols)).map fun c => (⟨c.1, c.2, freshSums c.2⟩ : FactorCol)
      let j : Job := { num := n, ticket := k, issuer := i, tenant := t, args := a, cols := cols, shape := fs, done := 0, pos := 0,
                       micro := 0, count := 0, now := 0, cancelled := false, faulted := false }
      let s1 := { s with serv := { s.serv with jobs := s.serv.jobs ++ [j] } }
      let len := 8 * (cols.map fun c => c.codes.length).sum
      (colBases 0 cols).foldl (fun s c =>
        s.putMasters n c.1 (c.2.codes.map fun x => (fmul c.2.scale (fpOfInt x 0), 0#32)))
        (s1.protectRange t (Config.masterPlace s.digest n) len)

/-- Installs, removals, starts and cancels of jobs, in arrival order. -/
def State.adapterCmd (s : State) : BCmd → State
  | .install id t fs k =>
    let v := BitVec.ofNat 64 (s.nextVersion id)
    if s.jobNames id then s.finish? k stBusy 0
    else if 4096 ≤ s.serv.adapters.length then s.finish? k stNoSpace 0
    else (s.installVersion id t fs true).finish? k stDone v
  | .remove id k =>
    if s.jobNames id then s.finish? k stBusy 0
    else
      ({ s with serv := { s.serv with
        adapters := s.serv.adapters.map fun (a : AdapterVer) =>
          if a.id = id then { a with current := false, exportOnly := false } else a } }).finish? k stDone 0
  | .tune i t a k => s.startJob i t a k
  | .cancelJob n => s.cancelJobs fun j => j.num == n
  | _ => s

def fma32 (a b c : W32) : W32 := BitVec.ofNat 32 (fp32.fma a.toNat b.toNat c.toNat)

/-- R351: the largest magnitude of a column; a NaN ranks first, as R168 orders. -/
def maxAbs (ws : List W32) : W32 :=
  ws.foldl (fun a w => if fisNan a then a else if fisNan w then w else if flt a (fabs w) then fabs w else a) 0

/-- R351: rne to an integer, clamped to T5; what does not compare is clamped as VCVTFI clamps it. -/
def codeT5 (q : W32) : Int :=
  if fisNan q then 0
  else if fisFin q then max (-121) (min 121 (fp32.dy q.toNat).rne)
  else if tb q.toNat 31 then -121 else 121

/-- R350: the gradient that a context has summed: one rounding of its compensated pair. -/
def RedCtx.gradient (c : RedCtx) : W32 := c.sum.readOut 0x3F800000#32

/-- R351: one element at the end of an optimiser step: its new w and m. -/
def newMaster (a : TuneArgs) (invN : W32) (old : W32 × W32) (gsum : W32) : W32 × W32 :=
  let m := fma32 a.beta old.2 (fmul gsum invN)
  (fsub old.1 (fmul a.lr (fma32 a.wd old.1 m)), m)

/-- R351: a column is requantised from its master values. -/
def requantise (ws : List W32) : FactorCol :=
  let top := maxAbs ws
  let scale := if top.toNat % 2 ^ 31 = 0 then 0x3F800000#32 else fdiv top 0x42F20000
  let codes := ws.map fun w => codeT5 (fdiv w scale)
  ⟨scale, codes, freshSums codes⟩

/-- R351: one column of a job at the end of an optimiser step, from the element number `base` on. -/
def State.stepColumn (s : State) (j : Job) (invN : W32) (base : Nat) (c : FactorCol) : FactorCol × State :=
  let xs := c.sums.zipIdx.map fun g => newMaster j.args invN (s.master j.num (base + g.2)) g.1.gradient
  (requantise (xs.map (·.1)), s.putMasters j.num base xs)

/-- R351: the boundary that ends an optimiser step of a job. -/
def State.stepJob (s : State) (j : Job) : State :=
  let invN := fdiv 0x3F800000 (fpOfInt (Int.ofNat j.count) 0)
  let r := (colBases 0 j.cols).foldl (fun (p : List FactorCol × State) c =>
    let q := p.2.stepColumn j invN c.1 c.2
    (p.1 ++ [q.1], q.2)) ([], s)
  let next := fun (x : Job) => { x with cols := r.1, done := x.done + 1, micro := 0, count := 0 }
  { r.2 with serv := { r.2.serv with jobs := updFirst (fun x => x.num == j.num) next r.2.serv.jobs } }

/-- R350: a step's gradients, in data order, join the sums of a job's columns. -/
def FactorCol.feed (c : FactorCol) (rows : Nat) (leaves : List (List W32)) : FactorCol :=
  { c with sums := c.sums.zipIdx.map fun x => x.1.feed ((leaves.getD x.2 []).take rows) none }

/-- R350: how many positions a job's data set has. -/
def State.dataLength (s : State) (j : Job) : Nat :=
  match s.serv.sets.find? fun d => d.tenant == j.tenant && d.id == j.args.dataSet with
  | some d => Config.dataPositions d.words
  | none => 0

/-- R350: a job after a step in which it had rows: its gradients, its data position, its micro-steps.
DESIGN CHOICE (log 143). -/
def Job.took (j : Job) (len : Nat) (g : Option GradIn) : Job :=
  let leaves := (g.map (·.leaves)).getD []
  { j with cols := j.cols.zipIdx.map fun c => c.1.feed j.now (leaves.getD c.2 [])
           pos := (j.pos + j.now) % max 1 len, micro := j.micro + 1, count := j.count + j.now, now := 0 }

/-- R350, R351: one job at the boundary: nothing in a step that was lost. -/
def State.advanceJob (s : State) (j : Job) : State :=
  if j.faulted ∨ j.cancelled ∨ j.now = 0 then s
  else
    let k := j.took (s.dataLength j) (s.serv.ended.grads.find? fun g => g.job == j.num)
    let s1 := { s with serv := { s.serv with jobs := updFirst (fun x => x.num == j.num) (fun _ => k) s.serv.jobs } }
    if j.args.microSteps ≤ k.micro then s1.stepJob k else s1

/-- The columns of each factor in turn. -/
def splitCols : List AdapterFactor → List FactorCol → List AdapterFactor
  | [], _ => []
  | x :: r, cs =>
    let y := { x with cols := (cs.take x.cols.length).map fun (c : FactorCol) => (c.scale, c.codes) }
    { y with crcs := factorCrcs y } :: splitCols r (cs.drop x.cols.length)

/-- R352, R342: a job that has ended: faulted, cancelled, or after its last optimiser step. -/
def State.settleJob (s : State) (j : Job) : State :=
  let gone := { s with serv := { s.serv with jobs := s.serv.jobs.filter fun x => x.num != j.num } }
  if j.faulted then gone.finish? j.ticket stFaulted 0
  else if j.cancelled then gone.finish? j.ticket stCancelled 0
  else if j.args.optSteps ≤ j.done then
    if 4096 ≤ gone.serv.adapters.length then gone.finish? j.ticket stNoSpace 0
    else
      let v := BitVec.ofNat 64 (gone.nextVersion j.args.adapter)
      (gone.installVersion j.args.adapter j.tenant (splitCols j.shape j.cols) (!j.args.noInstall)).finish? j.ticket stDone v
  else
    match j.ticket with
    | some t => s.progressTo t (10000 * j.done / j.args.optSteps)
    | none => s

/-- Action 9. DEDUCED (log 146). -/
def State.action9 (s : State) (b : BoundaryIn) (cmds : List BCmd) : State :=
  let s1 := if s.stepLost b then s else s.serv.jobs.foldl State.advanceJob s
  let s2 := s1.serv.jobs.foldl State.settleJob s1
  cmds.foldl State.adapterCmd s2

/-! ## Offers (R329, R337) -/

/-- Rows of a decoding request. -/
def decodeRows (r : BitVec 1024) : Nat := 1 + qDrafts r

/-- R329: the requests whose decode rows count. -/
def Request.active (q : Request) : Bool := q.phase == .running || q.phase == .held

def State.decodeLoad (s : State) : Nat := ((s.serv.reqs.filter Request.active).map fun q => decodeRows q.record).sum

/-- The offers in a boundary record, numbered. -/
def peerOffers (p : PeerRecord) : List (Nat × Offer) := p.offers.zipIdx.map fun o => (o.2, ⟨p.rank, o.1.2.2, o.1.2.1, 0, 0, o.1.1⟩)

/-- Offers of every module, in ascending home and then offer order, numbered within their home. -/
def State.orderedOffers (s : State) (b : BoundaryIn) : List (Nat × Offer) :=
  (List.range 16).flatMap fun r =>
    if r = s.rank then (s.serv.offers.take s.serv.cutOffers).zipIdx.map fun o => (o.2, o.1)
    else (b.peers.filter fun p => p.rank == r).flatMap peerOffers

/-- R330: the lowest free slot. DEDUCED (log 134). -/
def State.freeSlot (s : State) : Option Nat :=
  (List.range 4096).find? fun n => !(s.serv.reqs.any fun q => q.slot == n)

/-- R329: whether an offer can be admitted now, and where: its slot and its tables. -/
def State.admissible (s : State) (b : BoundaryIn) (o : Nat × Offer) : Option (Nat × Nat) :=
  if s.bMax < s.decodeLoad + decodeRows o.2.record ∨ b.peers.any fun p => p.noRoom.contains (o.2.home, o.1) then none
  else
    match s.freeSlot, s.tableRoom (qMaxContext o.2.record) with
    | some n, some a => some (n, a)
    | _, _ => none

/-- R330: the handle of a slot; the slot's generation rises. DEDUCED (log 134). -/
def State.nameSlot (s : State) (n : Nat) : W32 × State :=
  let g := Sparse.get 0 s.serv.gens n
  (BitVec.ofNat 32 (g * 4096 + n), { s with serv := { s.serv with gens := Sparse.put 0 s.serv.gens n ((g + 1) % 2 ^ 20) } })

/-- A request as it is admitted. -/
def newRequest (h : W32) (o : Offer) (aver : W32) (admitted : W64) (tables : Nat) : Request :=
  { handle := h, home := o.home, f := o.f, tenant := o.tenant, ring := o.ring, ix := o.ix, record := o.record,
    phase := .running, committed := 0, produced := 0, drafted := 0, accepted := 0, steps := 0, held := 0, evicted := 0,
    aver := aver, a8 := [], sums := [], admitted := admitted, ttl := 0, since := 0, seq := 0, top := none, input := 0,
    base := 0, rows := 0, stop := none, tables := tables, quiet := false, told := false, ticket := none, reserve := [], cow := [],
    short := false, back := false }

/-- The offer is one no longer; its entry leaves its ring. -/
def State.takeOffer (s : State) (o : Offer) : State :=
  let s1 := { s with serv := { s.serv with
    offers := s.serv.offers.filter (· != o), forkHeld := s.serv.forkHeld.filter (· != (o.home, o.record)) } }
  if o.home = s.rank then s1.leave o.f o.ring o.ix else s1

/-- R328: an offer is refused at its admission (R339). -/
def State.refuseOffer (s : State) (o : Offer) (status : W16) : State :=
  if o.home = s.rank then (s.takeOffer o).complete o.f (cringOf o.record) (s.refusalRecord o.record status) else s.takeOffer o

/-- R343: the version that a request binds. -/
def State.bindVersion (s : State) (t : TenantId) (id : W16) : Option W32 :=
  if id = 0xFFFF then some 0 else (s.currentAdapter t id).map (·.version)

/-- R329: a request is admitted into a slot, with its tables. -/
def State.admitIn (s : State) (n a : Nat) (o : Offer) (aver : W32) (q0 : Request → Request) : State :=
  let g := s.nameSlot n
  let q := q0 (newRequest g.1 o aver s.hm.step a)
  ({ g.2 with free := g.2.free + 1, serv := { g.2.serv with reqs := g.2.serv.reqs ++ [q] } }).takeOffer o

/-- What became of an offer. -/
inductive Admitted where
  | done (s : State)
  | held
  | waits

/-- R329, R339: an offer that is no fork. -/
def State.admitPlain (s : State) (b : BoundaryIn) (o : Nat × Offer) : Admitted :=
  if qModel o.2.record ≠ s.digest64 ∨ s.hm.man.isNone then .waits
  else
    match s.bindVersion o.2.tenant (qAdapter o.2.record) with
    | none => .done (s.refuseOffer o.2 stNotFound)
    | some v =>
      match s.admissible b o with
      | some (n, a) => .done ((s.admitIn n a o.2 v id).eachQuay n fun s k => s.openQuay k)
      | none => .waits

/-- R199, R200: a fork; one that needs a handle that is not free is held. -/
def State.admitFork (s : State) (b : BoundaryIn) (o : Nat × Offer) : Admitted :=
  if qModel o.2.record ≠ s.digest64 ∨ s.hm.man.isNone then .waits
  else
    match s.bindVersion o.2.tenant (qAdapter o.2.record), s.req (qSource o.2.record) with
    | none, _ => .done (s.refuseOffer o.2 stNotFound)
    | _, none => .done (s.refuseOffer o.2 stBadArg)
    | some v, some src =>
      let f := qPoint o.2.record
      if src.phase = .movingOut ∨ src.phase = .moored ∨ src.phase = .movingIn then .done (s.refuseOffer o.2 stBusy)
      else if src.committed < f ∨ (f % 5 ≠ 0 ∧ f ≠ src.committed) then .done (s.refuseOffer o.2 stBadArg)
      else
        match s.admissible b o with
        | some (n, a) =>
          let s1 := s.admitIn n a o.2 v fun q => { q with committed := f, base := f, a8 := src.a8, evicted := src.evicted,
                                                          input := if f = src.committed then src.input else 0 }
          (match forkAll o.2.tenant src.slot n f src.committed (s1.quays n) s1 with
           | some s2 => .done s2
           | none => .held)
        | none => .waits

/-- R200, R207: a fork is held for want of a handle; the event is raised once. DEDUCED (log 133). -/
def State.holdFork (s : State) (o : Offer) : State :=
  let s1 := { s with ms := { s.ms with bhold := bump s.ms.bhold } }
  if s.serv.forkHeld.contains (o.home, o.record) then s1
  else ({ s1 with serv := { s1.serv with forkHeld := s1.serv.forkHeld ++ [(o.home, o.record)] } }).note 0x0710 0 0 0 0 o.tenant.val []

/-- Action 10: the forks in order; the first that waits holds back every offer after it. DEDUCED (log 133). -/
def admitForks (b : BoundaryIn) : List (Nat × Offer) → State → State × Option (Nat × Offer)
  | [], s => (s, none)
  | o :: r, s =>
    if !qFork o.2.record then admitForks b r s
    else
      match s.admitFork b o with
      | .done s1 => admitForks b r s1
      | .held => admitForks b r (s.holdFork o.2)
      | .waits => (s, some o)

/-- An offer that a command of this boundary has cancelled (R347). -/
def State.offerGone (s : State) (cmds : List BCmd) (o : Nat × Offer) : Bool :=
  if o.2.home = s.rank then !s.serv.offers.contains o.2 else cmds.contains (.dropOffer o.1 o.2)

/-- Action 12: the other offers in order, up to one that waits. -/
def admitRest (b : BoundaryIn) (cmds : List BCmd) (stop : Option (Nat × Offer)) : List (Nat × Offer) → State → State
  | [], s => s
  | o :: r, s =>
    if some o = stop then s
    else if qFork o.2.record || s.offerGone cmds o then admitRest b cmds stop r s
    else
      match s.admitPlain b o with
      | .done s1 => admitRest b cmds stop r s1
      | .held | .waits => s

/-! ## Action 11 -/

/-- R337: a command of another module's record. -/
def peerCommand (p : PeerRecord) : PeerCmd → Option BCmd
  | .cancel h => some (.cancel h none)
  | .pause h ttl => some (.pause h ttl none)
  | .resume h => some (.resume h none)
  | .ship h o => some (.ship h none o)
  | .endQuiet h => some (.endQuiet h)
  | .expire h => some (.expire h)
  | .dropOffer i => ((peerOffers p)[i]?).map fun o => .dropOffer o.1 o.2
  | .install id t fs => some (.install id t fs none)
  | .remove id => some (.remove id none)
  | .tune t a => some (.tune .rack t a none)
  | .cancelJob n => some (.cancelJob n)

/-- The commands of the boundary, in ascending module slot and then arrival order (R337). -/
def State.boundaryCmds (s : State) (b : BoundaryIn) : List BCmd :=
  (List.range 16).flatMap fun r =>
    if r = s.rank then s.serv.cmds.take s.serv.cut
    else (b.peers.filter fun p => p.rank == r).flatMap fun p => p.commands.filterMap (peerCommand p)

/-- R450: a request that a fault of the step is attributed to. -/
def State.faultedReq (s : State) (q : Request) : Bool := s.serv.attributed.contains q.handle

/-- R333, R334: a request's end is put off: its prompt alone was asked for, and its logits were not poisoned.
DEDUCED (log 140). -/
def Request.keeps (q : Request) : Bool := qPonly q.record && q.stop.all fun e => e.1 != stPoisoned

/-- R333, R450: a request's own end, if it has one. -/
def State.ownEnd (s : State) (q : Request) : Option (W16 × Byte) :=
  if !q.active then none else if s.faultedReq q then some (stFaulted, 0) else if q.keeps then none else q.stop

/-- R334: a request whose prompt alone was asked for is complete: it stays, prefilled. -/
def State.prefill (s : State) (q : Request) : State :=
  if q.phase = .running ∧ q.keeps ∧ qPlen q.record ≤ q.committed then
    let s1 := s.modReq q.handle fun q => { q with phase := .prefilled, seq := q.seq + 1, rows := 0 }
    if s.homeOf q then s1.complete q.f (cringOf q.record) (s.endRecord q stDone 0 true) else s1
  else s

/-- R343, R352: a version that nothing binds and that is not kept for export. -/
def State.unbound (s : State) (a : AdapterVer) : Bool :=
  !a.current && !a.exportOnly && !(s.serv.reqs.any fun q => q.aver == a.version && qAdapter q.record == a.id)
    && !(s.serv.jobs.any fun j => j.args.adapter == a.id && j.args.startVersion == a.version)
    && !(s.serv.ships.any fun y => y.st.aver == a.version && qAdapter y.record == a.id)

/-- R343: versions that nothing binds are freed. -/
def State.freeVersions (s : State) : State :=
  { s with serv := { s.serv with adapters := s.serv.adapters.filter fun a => !s.unbound a } }

/-- Action 11. -/
def State.action11 (s : State) (cmds : List BCmd) : State :=
  let own := s.serv.reqs.filterMap fun q => (s.ownEnd q).map fun e => (q, e)
  let s1 := own.foldl (fun s x => s.endReq x.1 x.2.1 x.2.2 x.1.quiet) s
  let s2 := s1.serv.reqs.foldl State.prefill s1
  (cmds.foldl (State.leaveCmd (own.map fun x => x.1.handle)) s2).freeVersions

/-- R361: an unload that was accepted takes effect once no request but a moored one and no job is left; until then it waits.
DEDUCED (log 146). -/
def State.unloadDue (s : State) (cmds : List BCmd) : State :=
  cmds.foldl (fun s c =>
    match c with
    | .unload t =>
      if s.serv.jobs == [] && s.serv.reqs.all fun q => q.phase == .moored then s.unbind.finish? t stDone 0
      else { s with serv := { s.serv with cmds := c :: s.serv.cmds } }
    | _ => s) s

/-! ## Action 12 -/

/-- R210: resumed requests join. -/
def State.joinBack (s : State) : State :=
  { s with serv := { s.serv with reqs := s.serv.reqs.map fun q =>
    if q.phase = .movingIn ∧ q.back then
      { q with back := false, phase := if qPonly q.record && decide (qPlen q.record ≤ q.committed) then .prefilled else .running }
    else q } }

/-- R184: the berths of a shipped quay, from its images. -/
def shipBerths (x : Ship) (k : QuayId) (mass : List W32) : List QBerth :=
  let mine := (x.handles.zip x.images).filter fun p => p.2.layer == k.layer && p.2.pair == k.pair
  mine.zipIdx.map fun p =>
    let h := bhdrOf (packFields 64 ((p.1.2.page.take 8).map (·.toNat)))
    ⟨{ handle := p.1.1, first := h.first, fill := h.fill, groups := h.groups, reach := h.reach, compacted := h.compacted,
       shared := false, anc := false, evict := h.evict }, (mass.drop (80 * p.2)).take 80⟩

/-- R214, R345: a complete shipment joins under a new handle, if a slot and tables are free, and the sender is told.
DEDUCED (log 140). -/
def State.joinShip (s : State) (x : Ship) : State :=
  match x.complete, s.freeSlot, s.tableRoom (qMaxContext x.record) with
  | true, some n, some a =>
    let o : Offer := ⟨s.rank, x.f, s.tenantOfFn x.f, 0, 0, x.record⟩
    let h := (s.nameSlot n).1
    let s1 := s.admitIn n a o x.st.aver fun q =>
      { q with committed := x.committed, base := x.committed, produced := x.st.produced, drafted := x.st.drafted,
               accepted := x.st.accepted, steps := x.st.steps, held := x.st.held, evicted := x.st.evicted, a8 := x.st.a8,
               sums := x.st.sums, admitted := x.st.admitted, seq := x.st.seq, top := x.st.top, input := x.st.input,
               stop := x.st.stop, record := q.record &&& ~~~(BitVec.ofNat 1024 (2 ^ 433)) }
    let s2 := s1.eachQuay n fun s k =>
      let info := x.st.quays.find? fun y => y.layer == k.layer && y.pair == k.pair
      let p := s.quayPlace k
      let quay : Quay := ⟨p.2.1, p.2.2, 0, (info.map (·.opened)).getD 0, x.committed, (info.map (·.evicted)).getD 0⟩
      (s.putBerths k quay (shipBerths x k ((info.map (·.mass)).getD []))).putTail k ((info.map (·.tail)).getD [])
    ({ s2 with serv := { s2.serv with ships := s2.serv.ships.filter fun y => y.num != x.num } }).answerShip x.st.flow stDone h
  | _, _, _ => s

/-- Action 12. -/
def State.action12 (s : State) (b : BoundaryIn) (cmds : List BCmd) (offers : List (Nat × Offer)) (stop : Option (Nat × Offer)) :
    State :=
  let s1 := s.joinBack
  let s2 := s1.serv.ships.foldl State.joinShip s1
  admitRest b cmds stop offers s2

/-! ## Action 13: reservations and holds (R196, R207, R406 to R408) -/

/-- R332, R141, R202: positions that a request may append in the next step. -/
def State.plannedRows (s : State) (q : Request) : Nat :=
  if q.committed < qPlen q.record then
    let limit := match s.hm.man with
      | some m => m.chunkLimit
      | none => 0
    s.cutChunk q (min limit (qPlen q.record - q.committed))
  else s.cutChunk q (decodeRows q.record)

/-- R406 to R408: whether the completion ring holds the request's reservation beside those already granted. -/
def State.ringRoom (s : State) (q : Request) (used : Nat) : Bool :=
  let g := s.ring q.f (cringOf q.record)
  s.mastering q.f && g.serves 2 && decide (g.kept.length + used + ringNeed q.record ≤ g.room)

/-- R196: the quay's last berth, if appends may go on in it. -/
def State.openBerthOf (s : State) (k : QuayId) : Option (Nat × QBerth) :=
  let bs := s.quayBerths k
  match bs.getLast? with
  | some b => if b.e.fill < 80 ∧ !b.e.compacted ∧ !b.e.anc then some (bs.length - 1, b) else none
  | none => none

/-- R196: one quay's reservation: its handles, and the shared open berth that may be copied. -/
def State.reserveQuay (s : State) (q : Request) (n : Nat) (k : QuayId) : Option State :=
  let shared := (s.openBerthOf k).filter fun b => decide (1 < (s.berthHdr false b.2.e.handle).refs)
  match s.pickHandles false q.tenant (ceilDiv n 80 + 1 + bit shared.isSome) with
  | none => none
  | some (hs, s1) =>
    some (s1.modReq q.handle fun q =>
      { q with reserve := q.reserve ++ [(k.num, hs)],
               cow := match shared with
                 | some b => q.cow ++ [(k.num, b.1, b.2.e.handle)]
                 | none => q.cow })

def reserveAll (q : Request) (n : Nat) : List QuayId → State → Option State
  | [], s => some s
  | k :: r, s =>
    match s.reserveQuay q n k with
    | some s1 => reserveAll q n r s1
    | none => none

/-- R406: a request held for its completion ring. DEDUCED (log 90). -/
def State.holdForRing (s : State) (q : Request) : State :=
  (s.holdReq q.handle false).modFn q.f fun x => { x.flag errHold with holds := bump x.holds }

/-- One request: its reservations, or it is held. `used` is what requests of lower slot take of each ring. -/
def State.grant (q : Request) (x : State × List ((FnId × RingId) × Nat)) : State × List ((FnId × RingId) × Nat) :=
  let s := x.1
  let key := (q.f, cringOf q.record)
  let used := ((x.2.filter fun u => u.1 == key).map (·.2)).sum
  if !q.active then x
  else if q.short then (s.holdReq q.handle true, x.2)
  else if s.homeOf q && !s.ringRoom q used then (s.holdForRing q, x.2)
  else
    let took := if s.homeOf q then x.2 ++ [(key, ringNeed q.record)] else x.2
    match reserveAll q (s.plannedRows q) (s.quays q.slot) s with
    | none => (s.holdReq q.handle true, took)
    | some s1 => (s1.modReq q.handle fun q => { q with phase := .running, told := false }, took)

def insertSlot (q : Request) : List Request → List Request
  | [] => [q]
  | p :: r => if q.slot ≤ p.slot then q :: p :: r else p :: insertSlot q r

/-- Requests in ascending slot. -/
def State.inSlotOrder (s : State) : List Request := s.serv.reqs.foldr insertSlot []

/-- R184: the shared bit of every entry, as the references stand. -/
def State.markShared (s : State) : State :=
  s.serv.reqs.foldl (fun s q => s.eachQuay q.slot fun s k =>
    s.putBerths k (s.quay k) ((s.quayBerths k).map fun b =>
      ⟨{ b.e with shared := decide (1 < (s.berthHdr b.e.anc b.e.handle).refs) }, b.mass⟩)) s

/-- Action 13. -/
def State.action13 (s : State) : State := (s.inSlotOrder.foldl (fun x q => State.grant q x) (s, [])).1.markShared

/-! ## Action 14: the next step (R331, R332, R338) -/

/-- R139: the format bytes of a request. -/
def State.writeFormats (s : State) (q : Request) : State :=
  match s.hm.man with
  | none => s
  | some m => ((List.range m.sites.length).filter (isAdaptive m)).foldl (fun s x =>
      s.putTable (Config.formatPlaces m.digest q.slot x) [if q.a8.contains x then 1 else 0]) s

/-- R172, R338: the sampling record of a request. -/
def State.writeSampling (s : State) (q : Request) : State :=
  s.putTable (Config.samplingPlaces s.digest q.slot) (samplingRecord q.record)

/-- R44: the key of G8 rounding on a core that the manifest assigns to a tuning job: the job's seed. DEDUCED (log 150). -/
def State.g8SeedOf (s : State) (l : Nat) : Option W64 :=
  match (s.hm.man.bind fun m => m.cores[l]?).bind (·.owner) with
  | some (true, n) => (s.serv.jobs.find? fun j => j.num == n).map (·.args.seed)
  | _ => none

/-- OST_STEP of a bound core, and its G8 key; poison_seen begins anew. DEDUCED (log 150). -/
def State.writeStep (s : State) (l : Nat) (c : CoreId) : State :=
  s.modCore c fun k =>
    { k with ost := { k.ost with step := s.hm.step, poisonSeen := false, g8Seed := (s.g8SeedOf l).getD k.ost.g8Seed } }

/-- R244, R262: before a start, the harbourmaster writes again what a scrub may have zeroed: the program, pinned tensors and resident
experts, the banks, the seeds, the step counter and the registers that the program uses. -/
def State.prepare (s : State) (m : Manifest) (l : Nat) (x : LogicalCore) (c : CoreId) : State :=
  ((s.bindCore m x c).landResidents m (some l)).modCore c fun k =>
    { k with ost := { k.ost with step := s.hm.step, g8Seed := (s.g8SeedOf l).getD k.ost.g8Seed } }

/-- SEQ_CTRL_START (R27, R244): the harbourmaster starts the task of a bound core that is idle; a core that no program is bound to is not
started, nor any core in state 3 (R451). DESIGN CHOICE (log 26). -/
def State.startBound (s : State) (c : CoreId) : State :=
  let k := s.core c
  match s.hm.man, s.hm.binding.find? fun b => b.2 == c.val with
  | some m, some b =>
    (match m.cores[b.1]? with
     | some x => if !s.usable c || k.seq.state != .idle || k.seq.filling || s.hm.state == 3 then s
                 else (s.prepare m b.1 x c).startTask c
     | none => s)
  | _, _ => s

/-- R331, R350: rows of a job in a step with `left` rows: its share, as far as its data go. -/
def State.jobRows (s : State) (j : Job) (left : Nat) : Nat :=
  if j.faulted ∨ j.cancelled then 0 else min (min j.args.rowShare left) (s.dataLength j - j.pos)

/-- Rows are given out in order, up to those left. -/
def giveRows {α : Type} (kind : Nat) (num : α → Nat) (want : α → Nat → Nat) : List α → Nat → List (Nat × Nat × Nat)
  | [], _ => []
  | x :: r, left =>
    let n := min left (want x left)
    (kind, num x, n) :: giveRows kind num want r (left - n)

/-- Rows that a layout uses. -/
def rowsUsed (l : List (Nat × Nat × Nat)) : Nat := (l.map (·.2.2)).sum

/-- R331: (kind, number, rows) of the decode rows, then the jobs' rows, then prefill, within B_max. -/
def State.layout (s : State) : List (Nat × Nat × Nat) :=
  let rs := s.inSlotOrder.filter fun q => q.phase == .running && q.stop.isNone
  let handle := fun (q : Request) => q.handle.toNat
  let decode := giveRows 0 handle (fun q _ => s.plannedRows q) (rs.filter fun q => decide (qPlen q.record ≤ q.committed)) s.bMax
  let jobs := (List.range 8).filterMap fun n => s.serv.jobs.find? fun j => j.num == n
  let l1 := decode ++ giveRows 1 (·.num) s.jobRows jobs (s.bMax - rowsUsed decode)
  let prefill := giveRows 0 handle (fun q _ => s.plannedRows q) (rs.filter fun q => decide (q.committed < qPlen q.record)) (s.bMax - rowsUsed l1)
  (l1 ++ prefill).filter fun r => r.2.2 != 0

/-- The first row of each entry of a layout. -/
def rowStarts : Nat → List (Nat × Nat × Nat) → List (Nat × Nat × Nat × Nat)
  | _, [] => []
  | n, x :: r => (x.1, x.2.1, n, x.2.2) :: rowStarts (n + x.2.2) r

/-- R344: a row joins its version's group; groups run in ascending id and version. -/
def insertGroup (id v : Nat) (rows : List Nat) : List (Nat × Nat × List Nat) → List (Nat × Nat × List Nat)
  | [] => [(id, v, rows)]
  | g :: r =>
    if g.1 = id ∧ g.2.1 = v then (id, v, g.2.2 ++ rows) :: r
    else if id < g.1 ∨ (id = g.1 ∧ v < g.2.1) then (id, v, rows) :: g :: r
    else g :: insertGroup id v rows r

/-- R344: the rows of a step that are bound to an adapter version, gathered by version. -/
def State.adapterGroups (s : State) (layout : List (Nat × Nat × Nat)) : List (Nat × Nat × List Nat) :=
  (rowStarts 0 layout).foldl (fun gs x =>
    match (if x.1 = 0 then s.serv.reqs.find? fun q => q.handle.toNat == x.2.1 else none) with
    | some q =>
      if q.aver = 0 then gs
      else insertGroup (qAdapter q.record).toNat q.aver.toNat ((List.range x.2.2.2).map (x.2.2.1 + ·)) gs
    | none => gs) []

/-- Action 14: the step counter rises, the tables are written, the rows are laid out, the step starts. A module in state 3 starts
none (R451). DEDUCED (log 150). -/
def State.startStep (s : State) : State :=
  if s.hm.state = 3 then s
  else
    let s1 := { s with
      hm := { s.hm with step := s.hm.step + 1, once := [] },
      fab := { s.fab with step := (s.hm.step + 1).extractLsb' 0 32, aborted := false },
      plc := { s.plc with spent := 0 } }
    let s2 := s1.hm.binding.foldl (fun s p => s.writeStep p.1 (Fin.ofNat 2304 p.2)) s1
    let s3 := (s2.serv.reqs.foldl (fun s q => (s.writeFormats q).writeSampling q) s2).writePlacement
    let rows := s3.layout
    let rowsOf := fun (kind n : Nat) => ((rows.find? fun r => r.1 == kind && r.2.1 == n).map (·.2.2)).getD 0
    { s3 with serv := { s3.serv with
      phase := .step, aborting := false, attributed := [], rowsOf := rows, groups := s3.adapterGroups rows
      reqs := s3.serv.reqs.map fun q => { q with rows := rowsOf 0 q.handle.toNat, base := q.committed }
      jobs := s3.serv.jobs.map fun j => { j with now := rowsOf 1 j.num } } }

/-! ## The exchange (R337, R387 to R389, R478) -/

/-- R389: boundary-record times more than 50 µs apart, or a module that is not synchronised. DEDUCED (log 151). -/
def State.timeApart (s : State) (b : BoundaryIn) : Bool :=
  let times := s.hm.timeNs.toNat :: b.peers.map (·.timeNs)
  b.peers != [] && (decide (times.foldl min s.hm.timeNs.toNat + 50000 < times.foldl max 0) || !s.hm.synced || b.peers.any fun p => !p.synced)

/-- R387: the slice halts after action 4: it is formed no longer, and the event is raised. DEDUCED (log 149). -/
def State.haltSlice (s : State) : State :=
  let s1 := { s with fab := { s.fab with halted := true, slice := s.fab.slice &&& ~~~(0x10000#64) },
                     serv := { s.serv with phase := .begun, ended := ⟨[], [], []⟩ } }
  s1.note 0x0E15 0 0 0 0 0 []

/-- BOUNDARY_EXCHANGE (R337, R338): actions 3 to 14. DESIGN CHOICE (log 156). -/
def State.exchange (s : State) (b : BoundaryIn) : State :=
  if s.serv.phase ≠ .exchange ∨ s.hm.state = 3 then s
  else
    let apart := s.formed && s.timeApart b
    let s1 := { s with hm := { s.hm with apart := apart } }
    let s0 := if apart then s1.note 0x0E17 0 0 0 0 0 [] else s1
    let cmds := s0.boundaryCmds b
    let offers := s0.orderedOffers b
    let s4 := (s0.action3 b).action4
    if s4.fab.halting || b.peers.any (·.halt) then s4.haltSlice
    else
      let s8 := ((s4.action5 b).place6.action7).action8
      let s9 := ({ s8 with serv := { s8.serv with cmds := s8.serv.cmds.drop s8.serv.cut, cut := 0 } }).action9 b cmds
      let f := admitForks b offers s9
      let s11 := (f.1.action11 cmds).unloadDue cmds
      let s12 := s11.action12 b cmds offers f.2
      let s13 := ({ s12 with serv := { s12.serv with cutOffers := 0, ended := ⟨[], [], []⟩ } }).action13
      if s13.holdSet (b.peers.any (·.hold)) then s13.setPhase .holding else s13.startStep

/-- THERMAL_HOLD_EXCHANGE (R478): a repeated exchange; the step starts once no module sets the flag. -/
def State.holdExchange (s : State) (peerHold : Bool) : State :=
  if s.serv.phase ≠ .holding ∨ s.hm.state = 3 then s
  else
    let s1 := s.modPwr fun p => { p with holds := bump p.holds }
    if s1.holdSet peerHold then s1 else s1.startStep

/-! ## Rows -/

/-- SEQ_CTRL_START (R244). -/
def execSeqCtrlStart (c : CoreId) (s : State) : Host.Outcome State Fault Refusal := .next (s.startBound c)

/-- STEP_BOUNDARY (R338). -/
def execStepBoundary (ended : StepEnd) (s : State) : Host.Outcome State Fault Refusal := .next (s.stepBoundary ended)

/-- BOUNDARY_EXCHANGE (R337). -/
def execBoundaryExchange (b : BoundaryIn) (s : State) : Host.Outcome State Fault Refusal := .next (s.exchange b)

/-- THERMAL_HOLD_EXCHANGE (R478). -/
def execThermalHoldExchange (peerHold : Bool) (s : State) : Host.Outcome State Fault Refusal := .next (s.holdExchange peerHold)

end Sys2Proof.Machine
end

