-- ==== Sys2Proof/Machine/ControlRows.lean ====
section
/-! DEFINITION. The control slot's rows (R252 to R254). Each row is the issue, by the sequencer of core `c`, of its next bundle with that
instruction in its slot and no-ops in the other three (R247, R248). -/

namespace Sys2Proof.Machine

open Decode

/-- NOP (R252). -/
def execNop (c : CoreId) (s : State) : Host.Outcome State Fault Refusal :=
  .next (issueBundle c Slots.nops s)

/-- ADD (R252). -/
def execAdd (c : CoreId) (rd : RegIx) (ra : RegIx) (rb : RegIx) (s : State) : Host.Outcome State Fault Refusal :=
  .next (issueBundle c { Slots.nops with ctl := .alu .add rd ra rb } s)

/-- SUB (R252). -/
def execSub (c : CoreId) (rd : RegIx) (ra : RegIx) (rb : RegIx) (s : State) : Host.Outcome State Fault Refusal :=
  .next (issueBundle c { Slots.nops with ctl := .alu .sub rd ra rb } s)

/-- AND (R252). -/
def execAnd (c : CoreId) (rd : RegIx) (ra : RegIx) (rb : RegIx) (s : State) : Host.Outcome State Fault Refusal :=
  .next (issueBundle c { Slots.nops with ctl := .alu .and rd ra rb } s)

/-- OR (R252). -/
def execOr (c : CoreId) (rd : RegIx) (ra : RegIx) (rb : RegIx) (s : State) : Host.Outcome State Fault Refusal :=
  .next (issueBundle c { Slots.nops with ctl := .alu .or rd ra rb } s)

/-- XOR (R252). -/
def execXor (c : CoreId) (rd : RegIx) (ra : RegIx) (rb : RegIx) (s : State) : Host.Outcome State Fault Refusal :=
  .next (issueBundle c { Slots.nops with ctl := .alu .xor rd ra rb } s)

/-- SHL (R252). -/
def execShl (c : CoreId) (rd : RegIx) (ra : RegIx) (rb : RegIx) (s : State) : Host.Outcome State Fault Refusal :=
  .next (issueBundle c { Slots.nops with ctl := .alu .shl rd ra rb } s)

/-- SHR (R252). -/
def execShr (c : CoreId) (rd : RegIx) (ra : RegIx) (rb : RegIx) (s : State) : Host.Outcome State Fault Refusal :=
  .next (issueBundle c { Slots.nops with ctl := .alu .shr rd ra rb } s)

/-- SRA (R252). -/
def execSra (c : CoreId) (rd : RegIx) (ra : RegIx) (rb : RegIx) (s : State) : Host.Outcome State Fault Refusal :=
  .next (issueBundle c { Slots.nops with ctl := .alu .sra rd ra rb } s)

/-- SLT (R252). -/
def execSlt (c : CoreId) (rd : RegIx) (ra : RegIx) (rb : RegIx) (s : State) : Host.Outcome State Fault Refusal :=
  .next (issueBundle c { Slots.nops with ctl := .alu .slt rd ra rb } s)

/-- SLTU (R252). -/
def execSltu (c : CoreId) (rd : RegIx) (ra : RegIx) (rb : RegIx) (s : State) : Host.Outcome State Fault Refusal :=
  .next (issueBundle c { Slots.nops with ctl := .alu .sltu rd ra rb } s)

/-- SEQ (R252). -/
def execSeq (c : CoreId) (rd : RegIx) (ra : RegIx) (rb : RegIx) (s : State) : Host.Outcome State Fault Refusal :=
  .next (issueBundle c { Slots.nops with ctl := .alu .seq rd ra rb } s)

/-- MIN (R252). -/
def execMin (c : CoreId) (rd : RegIx) (ra : RegIx) (rb : RegIx) (s : State) : Host.Outcome State Fault Refusal :=
  .next (issueBundle c { Slots.nops with ctl := .alu .min rd ra rb } s)

/-- MAX (R252). -/
def execMax (c : CoreId) (rd : RegIx) (ra : RegIx) (rb : RegIx) (s : State) : Host.Outcome State Fault Refusal :=
  .next (issueBundle c { Slots.nops with ctl := .alu .max rd ra rb } s)

/-- ADDI (R252). -/
def execAddi (c : CoreId) (rd : RegIx) (ra : RegIx) (imm : W32) (s : State) : Host.Outcome State Fault Refusal :=
  .next (issueBundle c { Slots.nops with ctl := .aluImm .addi rd ra imm } s)

/-- ANDI (R252). -/
def execAndi (c : CoreId) (rd : RegIx) (ra : RegIx) (imm : W32) (s : State) : Host.Outcome State Fault Refusal :=
  .next (issueBundle c { Slots.nops with ctl := .aluImm .andi rd ra imm } s)

/-- ORI (R252). -/
def execOri (c : CoreId) (rd : RegIx) (ra : RegIx) (imm : W32) (s : State) : Host.Outcome State Fault Refusal :=
  .next (issueBundle c { Slots.nops with ctl := .aluImm .ori rd ra imm } s)

/-- SHLI (R252). -/
def execShli (c : CoreId) (rd : RegIx) (ra : RegIx) (imm : BitVec 6) (s : State) : Host.Outcome State Fault Refusal :=
  .next (issueBundle c { Slots.nops with ctl := .aluImm .shli rd ra (imm.setWidth 32) } s)

/-- SHRI (R252). -/
def execShri (c : CoreId) (rd : RegIx) (ra : RegIx) (imm : BitVec 6) (s : State) : Host.Outcome State Fault Refusal :=
  .next (issueBundle c { Slots.nops with ctl := .aluImm .shri rd ra (imm.setWidth 32) } s)

/-- SRAI (R252). -/
def execSrai (c : CoreId) (rd : RegIx) (ra : RegIx) (imm : BitVec 6) (s : State) : Host.Outcome State Fault Refusal :=
  .next (issueBundle c { Slots.nops with ctl := .aluImm .srai rd ra (imm.setWidth 32) } s)

/-- LIH (R252). -/
def execLih (c : CoreId) (rd : RegIx) (imm : W32) (s : State) : Host.Outcome State Fault Refusal :=
  .next (issueBundle c { Slots.nops with ctl := .lih rd imm } s)

/-- SLD (R252). -/
def execSld (c : CoreId) (rd : RegIx) (ra : RegIx) (imm : BitVec 20) (s : State) : Host.Outcome State Fault Refusal :=
  .next (issueBundle c { Slots.nops with ctl := .sld rd ra imm } s)

/-- SST (R252). -/
def execSst (c : CoreId) (ra : RegIx) (rb : RegIx) (imm : BitVec 20) (s : State) : Host.Outcome State Fault Refusal :=
  .next (issueBundle c { Slots.nops with ctl := .sst ra rb imm } s)

/-- RDCR (R243). -/
def execRdcr (c : CoreId) (rd : RegIx) (imm : BitVec 16) (s : State) : Host.Outcome State Fault Refusal :=
  .next (issueBundle c { Slots.nops with ctl := .rdcr rd imm } s)

/-- SBDRAIN (R248). -/
def execSbdrain (c : CoreId) (s : State) : Host.Outcome State Fault Refusal :=
  .next (issueBundle c { Slots.nops with ctl := .sbdrain } s)

/-- JMP (R253). -/
def execJmp (c : CoreId) (imm : BitVec 24) (s : State) : Host.Outcome State Fault Refusal :=
  .next (issueBundle c { Slots.nops with ctl := .jmp imm } s)

/-- BZ (R253). -/
def execBz (c : CoreId) (ra : RegIx) (imm : BitVec 24) (s : State) : Host.Outcome State Fault Refusal :=
  .next (issueBundle c { Slots.nops with ctl := .bz ra imm } s)

/-- BNZ (R253). -/
def execBnz (c : CoreId) (ra : RegIx) (imm : BitVec 24) (s : State) : Host.Outcome State Fault Refusal :=
  .next (issueBundle c { Slots.nops with ctl := .bnz ra imm } s)

/-- JAL (R253). -/
def execJal (c : CoreId) (rd : RegIx) (imm : BitVec 24) (s : State) : Host.Outcome State Fault Refusal :=
  .next (issueBundle c { Slots.nops with ctl := .jal rd imm } s)

/-- JR (R253). -/
def execJr (c : CoreId) (ra : RegIx) (s : State) : Host.Outcome State Fault Refusal :=
  .next (issueBundle c { Slots.nops with ctl := .jr ra } s)

/-- LOOP (R254). -/
def execLoop (c : CoreId) (ra : RegIx) (body : BitVec 12) (s : State) : Host.Outcome State Fault Refusal :=
  .next (issueBundle c { Slots.nops with ctl := .loop ra body } s)

/-- LOOPI (R254). -/
def execLoopi (c : CoreId) (count : BitVec 20) (body : BitVec 12) (s : State) : Host.Outcome State Fault Refusal :=
  .next (issueBundle c { Slots.nops with ctl := .loopi count body } s)

/-- END (R246). -/
def execEndTask (c : CoreId) (s : State) : Host.Outcome State Fault Refusal :=
  .next (issueBundle c { Slots.nops with ctl := .endTask } s)

end Sys2Proof.Machine
end

