-- ==== Sys2Proof/Machine/CoreRows.lean ====
section
/-! DEFINITION. What happens in a core beside the issue of one slot's instruction: whole bundles, the engines, tasks, scrub,
bank power (R62 to R120, R244 to R264). -/

namespace Sys2Proof.Machine

/-- BUNDLE_ISSUE (R248). -/
def execBundleIssue (c : CoreId) (s : State) : Host.Outcome State Fault Refusal := .next (issueNext c s)

/-- BUILD_PUNNET (R63). -/
def execBuildPunnet (c : CoreId) (s : State) : Host.Outcome State Fault Refusal := .next (buildStep c s)

/-- FETCH_LINE (R72). -/
def execFetchLine (c : CoreId) (e : EngineId) (s : State) : Host.Outcome State Fault Refusal := .next (fetchStep c e s)

/-- LANE_LOOKUP (R75). -/
def execLaneLookup (c : CoreId) (e : EngineId) (lane : LaneId) (ecc : Ecc) (s : State) :
    Host.Outcome State Fault Refusal := .next (lookupStep c e lane.val ecc s)

/-- BLOCK_INTEGER_HAND_OFF (R70). -/
def execBlockIntegerHandOff (c : CoreId) (e : EngineId) (s : State) : Host.Outcome State Fault Refusal :=
  .next (handOffStep c e s)

/-- DELIVERY (R107). -/
def execDelivery (c : CoreId) (e : EngineId) (ecc : Ecc) (s : State) : Host.Outcome State Fault Refusal :=
  .next (deliveryStep c e ecc s)

/-- SLOT_VERDICT (R117). -/
def execSlotVerdict (c : CoreId) (e : EngineId) (s : State) : Host.Outcome State Fault Refusal :=
  .next (verdictStep c e s)

/-- TASK_END (R246). -/
def execTaskEnd (c : CoreId) (s : State) : Host.Outcome State Fault Refusal := .next (s.taskEnd c)

/-- SCOREBOARD_RANGE_FREE (R255). -/
def execScoreboardRangeFree (c : CoreId) (n : BitVec 5) (s : State) : Host.Outcome State Fault Refusal :=
  .next (s.freeRange c n.toNat)

/-- WATCHDOG (R259). -/
def execWatchdog (c : CoreId) (s : State) : Host.Outcome State Fault Refusal := .next (s.watchdogFire c)

/-- END_OF_TASK_SCRUB (R262). -/
def execEndOfTaskScrub (c : CoreId) (s : State) : Host.Outcome State Fault Refusal := .next (s.scrub c)

/-- END_OF_TASK_SCRUB_DONE (R262). -/
def execEndOfTaskScrubDone (c : CoreId) (s : State) : Host.Outcome State Fault Refusal := .next (s.scrubDone c)

/-- SPD_BANKPWR_WRITE (R261). -/
def execSpdBankpwrWrite (c : CoreId) (on : W16) (s : State) : Host.Outcome State Fault Refusal :=
  .next (s.bankpwrWrite c on)

/-- BANK_FILL_DONE (R261). -/
def execBankFillDone (c : CoreId) (s : State) : Host.Outcome State Fault Refusal := .next (s.fillDone c)

/-- SEQ_WDOG_WRITE (R259). -/
def execSeqWdogWrite (c : CoreId) (v : W64) (s : State) : Host.Outcome State Fault Refusal := .next (s.wdogWrite c v)

/-- SCRUB_ACCESS (R264). -/
def execScrubAccess (c : CoreId) (struck : List ScrubFind) (s : State) : Host.Outcome State Fault Refusal :=
  .next (s.scrubAccess c struck)

end Sys2Proof.Machine
end

