-- ==== Sys2Proof/Machine/Spdm.lean ====
section
/-! DEFINITION. SPDM over the DOE mailbox of a function (R433, R434, R439), and the rack management port (R445, R446). -/

namespace Sys2Proof.Machine

/-! ## SPDM answers. The codes are those of the SPDM specification that R433 names. -/

/-- An answer on a function's DOE mailbox. -/
def State.doe (s : State) (f : FnId) (code : Nat) (data : List Byte) : State := s.send (.doe f (BitVec.ofNat 8 code) data)

/-- Error codes of SPDM. PRESUMED (log 97). -/
inductive SpdmError where
  | invalidRequest | invalidSession | unexpectedRequest | decryptError | sessionLimitExceeded
  deriving DecidableEq, Repr

def SpdmError.code : SpdmError → Byte
  | .invalidRequest => 0x01
  | .invalidSession => 0x02
  | .unexpectedRequest => 0x04
  | .decryptError => 0x06
  | .sessionLimitExceeded => 0x0A

/-- PRESUMED (log 97). -/
def State.doeError (s : State) (f : FnId) (e : SpdmError) : State := s.doe f 0x7F [e.code]

/-- A request that the connection's phase admits; one that comes too early is unexpected. -/
def State.inPhase (s : State) (f : FnId) (phase : Nat) (go : State → State) : State :=
  if phase ≤ (s.fn f).phase then go s else s.doeError f .unexpectedRequest

/-- GET_VERSION (R433): version 1.3 only; the connection begins again. PRESUMED (log 97). -/
def State.getVersion (s : State) (f : FnId) : State :=
  (s.modFn f fun x => { x with phase := 1, sessions := [] }).doe f 0x04 [0, 1, 0x00, 0x13]

/-- GET_CAPABILITIES (R433). -/
def State.getCapabilities (s : State) (f : FnId) : State :=
  s.inPhase f 1 fun s => (s.modFn f fun x => { x with phase := max 2 x.phase }).doe f 0x61 Config.spdmCapabilities

/-- NEGOTIATE_ALGORITHMS (R433): `ok` says that the requester offers the module's algorithms. -/
def State.negotiate (s : State) (f : FnId) (ok : Bool) : State :=
  s.inPhase f 2 fun s =>
    if ok then (s.modFn f fun x => { x with phase := 3 }).doe f 0x63 Config.spdmAlgorithms
    else s.doeError f .invalidRequest

/-- R433: slot 0 holds the RSA chain, slot 1 the SLH-DSA chain. -/
def State.chain (s : State) (slot : Nat) : Option (List Byte) :=
  match slot with
  | 0 => some s.ident.rsaChain
  | 1 => some s.ident.slhChain
  | _ => none

def digestBytes (bs : List Byte) : List Byte := leBytes 48 (Config.sha384 bs).toNat

/-- GET_DIGESTS (R433). -/
def State.getDigests (s : State) (f : FnId) : State :=
  s.inPhase f 3 fun s => s.doe f 0x01 (digestBytes s.ident.rsaChain ++ digestBytes s.ident.slhChain)

/-- GET_CERTIFICATE (R433): a portion, with its length and what remains. -/
def State.getCertificate (s : State) (f : FnId) (slot : Byte) (off len : Nat) : State :=
  s.inPhase f 3 fun s =>
    match s.chain slot.toNat with
    | none => s.doeError f .invalidRequest
    | some c =>
      let part := (c.drop off).take len
      if off < c.length then
        s.doe f 0x02 (leBytes 2 part.length ++ leBytes 2 (c.length - off - part.length) ++ part)
      else s.doeError f .invalidRequest

/-- CHALLENGE (R433): slot 1 does not sign. -/
def State.challenge (s : State) (f : FnId) (slot : Byte) (nonce : BitVec 256) : State :=
  s.inPhase f 3 fun s =>
    if slot = 0 then
      let d := digestBytes s.ident.rsaChain
      s.doe f 0x03 (d ++ Config.spdmSign (leBytes 32 nonce.toNat ++ d))
    else s.doeError f .invalidRequest

/-- R434: a measurement block: its index and size, then its value. -/
def State.block (s : State) (f : FnId) (nonce : BitVec 256) (i : Nat) : List Byte :=
  let t := (s.fn f).tenant
  let v := if i = 0xF0 then s.attestReport t nonce else s.measurement t i
  [BitVec.ofNat 8 i, 1] ++ leBytes 2 v.length ++ v

/-- GET_MEASUREMENTS (R434): index 0 asks for the number of blocks, 0xFF for all of them. -/
def State.getMeasurements (s : State) (f : FnId) (index : Byte) (nonce : BitVec 256) : State :=
  s.inPhase f 3 fun s =>
    let i := index.toNat
    if i = 0 then s.doe f 0x60 [8]
    else if i ≤ 7 ∨ i = 0xF0 then s.doe f 0x60 (s.block f nonce i)
    else if i = 0xFF then s.doe f 0x60 ([1, 2, 3, 4, 5, 6, 7, 0xF0].flatMap fun j => s.block f nonce j)
    else s.doeError f .invalidRequest

/-! ## Secure sessions (R433): number 0 and 1 -/

/-- KEY_EXCHANGE (R433): at most two sessions for a function. -/
def State.keyExchange (s : State) (f : FnId) : State :=
  s.inPhase f 3 fun s =>
    let used := (s.fn f).sessions
    match [0, 1].find? fun n => !(used.any fun p => p.1 == n) with
    | some n =>
      (s.modFn f fun x => { x with sessions := x.sessions ++ [(n, false)] }).doe f 0x64 (BitVec.ofNat 8 n :: Config.spdmExchange n)
    | none => s.doeError f .sessionLimitExceeded

def Func.hasSession (x : Func) (n : Nat) (finished : Bool) : Bool := x.sessions.contains (n, finished)

def Func.endSession (x : Func) (n : Nat) : Func := { x with sessions := x.sessions.filter fun p => p.1 != n }

/-- FINISH (R433): a session whose keys do not verify ends. -/
def State.finishSession (s : State) (f : FnId) (n : Nat) (verified : Bool) : State :=
  if (s.fn f).hasSession n false then
    if verified then
      (s.modFn f fun x => { x with sessions := x.sessions.map fun p => if p.1 = n then (n, true) else p }).doe f 0x65
        (Config.spdmExchange n)
    else (s.modFn f fun x => x.endSession n).doeError f .decryptError
  else s.doeError f .invalidSession

/-- A request inside a secure session. -/
def State.inSession (s : State) (f : FnId) (n : Nat) (go : State → State) : State :=
  if (s.fn f).hasSession n true then go s else s.doeError f .invalidSession

/-- R439, R443: whether a clear of a slot has been accepted and is still to come. DEDUCED (log 100). -/
def State.clearDue (s : State) (k : Nat) : Bool :=
  s.serv.cmds.any fun c =>
    match c with
    | .clearSlot j _ => j.val == k
    | .dropTenant t => (s.keySlot k).owner == some t
    | _ => false

/-- VENDOR_DEFINED_REQUEST (R439): a key goes only into a slot of the function's tenant. DEDUCED (log 100). -/
def State.loadKey (s : State) (f : FnId) (n : Nat) (vendorOk : Bool) (slot : Byte) (key : BitVec 512) : State :=
  s.inSession f n fun s =>
    let k := slot.toNat
    if vendorOk ∧ k < 64 ∧ (s.keySlot k).owner = some (s.fn f).tenant ∧ s.clearDue k = false then
      (s.setKeySlot k { s.keySlot k with key := some key }).doe f 0x7E []
    else s.doeError f .invalidRequest

/-! ## Rack management port (R445, R446) -/

def State.rackViol (s : State) : State := { s with sec := { s.sec with rackviol := bump s.sec.rackviol } }

/-- R446: a frame that is refused. -/
def State.rackRefuse (s : State) (seq : W16) (st : W16) : State := s.rackViol.send (.rack 0xFF seq (leBytes 2 st.toNat))

/-- R445, R509: a frame to the module's address; a module whose straps gave 0 has none and only counts. -/
def State.onRack (s : State) (f : State → State) : State := if s.sec.rackaddr = 0 then s.rackViol else f s

/-- Argument bytes as the words of a request window. -/
def argWords : Nat → List Byte → List (Nat × W64) → List (Nat × W64)
  | 0, _, w => w
  | n + 1, bs, w => Sparse.put 0 (argWords n bs w) (0x80 + 8 * n) (BitVec.ofNat 64 (ofLe ((bs.drop (8 * n)).take 8)))

/-- RACK_MAILBOX_REQUEST (R445, R414). -/
def State.rackRequest (s : State) (seq op : W16) (args : List Byte) : State :=
  if s.host.rack.st = 1 then s.rackRefuse seq stBusy
  else
    let header : W64 := BitVec.ofNat 64 (op.toNat + args.length % 2 ^ 16 * 2 ^ 32)
    let win := argWords (min 240 (ceilDiv args.length 8)) args (Sparse.put 0 [] 0x40 header)
    let s1 := (s.modMbx .rack fun m => { m with win := win }).take .rack (seq.setWidth 32) false op args.length
    s1.send (.rack 0x81 seq [s1.host.rack.st.setWidth 8])

/-- Table "Response header". -/
def Resp.header (r : Resp) : Nat :=
  r.status.toNat + r.opcode.toNat * 2 ^ 16 + r.seq.toNat * 2 ^ 32 + r.ticket.toNat * 2 ^ 64 + r.result.length % 2 ^ 16 * 2 ^ 96

/-- RACK_POLL (R445): the response when the command is done. -/
def State.rackPoll (s : State) (seq : W16) : State :=
  let m := s.host.rack
  s.send (.rack 0x82 seq (if m.st = 2 then leBytes 16 m.resp.header ++ m.resp.result else []))

/-- RACK_SET_COORD (R445). -/
def State.rackCoord (s : State) (seq : W16) (v : W64) : State :=
  if s.formed then s.rackRefuse seq stRefused
  else ({ s with fab := { s.fab with coord := v &&& 0xFFFF00000001FFFF } }).send (.rack 0x83 seq [])

/-- RACK_STATUS (R445). DESIGN CHOICE (log 102). -/
def State.rackStat (s : State) (seq : W16) : State :=
  let temps := (s.ms.temps.toList.map fun t => (t.extractLsb' 0 8 : Byte)) ++ s.pwr.junc.toList ++ [s.pwr.inlet]
  s.send (.rack 0x84 seq (Config.rackStatus (s.pciState 0) temps s.pwr.power))

/-- RACK_FRAME_UNDEFINED (R446, R509): a frame that is ignored, or whose type is undefined. A frame to 0xFF has no reply, and
no rule for a module without an address. -/
def State.rackUndefined (s : State) (dest : Byte) (crcOk : Bool) (len : Nat) (seq : W16) : State :=
  if dest = 0xFF ∧ s.sec.rackaddr = 0 then s
  else if !crcOk || decide (2048 < len) || dest == 0xFF || dest != s.sec.rackaddr.setWidth 8 || s.sec.rackaddr == 0 then s.rackViol
  else s.rackRefuse seq stUnknownOp

/-! ## Rows -/

/-- RACK_MAILBOX_REQUEST (R445). -/
def execRackMailboxRequest (seq opcode : W16) (args : List Byte) (s : State) : Host.Outcome State Fault Refusal :=
  s.live fun s => s.onRack fun s => s.rackRequest seq opcode args

/-- RACK_POLL (R445). -/
def execRackPoll (seq : W16) (s : State) : Host.Outcome State Fault Refusal :=
  s.live fun s => s.onRack fun s => s.rackPoll seq

/-- RACK_SET_COORD (R445). -/
def execRackSetCoord (seq : W16) (v : W64) (s : State) : Host.Outcome State Fault Refusal :=
  s.live fun s => s.onRack fun s => s.rackCoord seq v

/-- RACK_STATUS (R445). -/
def execRackStatus (seq : W16) (s : State) : Host.Outcome State Fault Refusal :=
  s.live fun s => s.onRack fun s => s.rackStat seq

/-- RACK_FRAME_UNDEFINED (R446). -/
def execRackFrameUndefined (dest : Byte) (crcOk : Bool) (len : Nat) (seq : W16) (s : State) :
    Host.Outcome State Fault Refusal := s.live fun s => s.rackUndefined dest crcOk len seq

/-- GET_VERSION (R433). -/
def execGetVersion (f : FnId) (s : State) : Host.Outcome State Fault Refusal := s.live fun s => s.getVersion f

/-- GET_CAPABILITIES (R433). -/
def execGetCapabilities (f : FnId) (s : State) : Host.Outcome State Fault Refusal := s.live fun s => s.getCapabilities f

/-- NEGOTIATE_ALGORITHMS (R433). -/
def execNegotiateAlgorithms (f : FnId) (ok : Bool) (s : State) : Host.Outcome State Fault Refusal :=
  s.live fun s => s.negotiate f ok

/-- GET_DIGESTS (R433). -/
def execGetDigests (f : FnId) (s : State) : Host.Outcome State Fault Refusal := s.live fun s => s.getDigests f

/-- GET_CERTIFICATE (R433). -/
def execGetCertificate (f : FnId) (slot : Byte) (off len : Nat) (s : State) : Host.Outcome State Fault Refusal :=
  s.live fun s => s.getCertificate f slot off len

/-- CHALLENGE (R433). -/
def execChallenge (f : FnId) (slot : Byte) (nonce : BitVec 256) (s : State) : Host.Outcome State Fault Refusal :=
  s.live fun s => s.challenge f slot nonce

/-- GET_MEASUREMENTS (R434). -/
def execGetMeasurements (f : FnId) (index : Byte) (nonce : BitVec 256) (s : State) : Host.Outcome State Fault Refusal :=
  s.live fun s => s.getMeasurements f index nonce

/-- KEY_EXCHANGE (R433). -/
def execKeyExchange (f : FnId) (s : State) : Host.Outcome State Fault Refusal := s.live fun s => s.keyExchange f

/-- FINISH (R433). -/
def execFinish (f : FnId) (sess : Nat) (verified : Bool) (s : State) : Host.Outcome State Fault Refusal :=
  s.live fun s => s.finishSession f sess verified

/-- HEARTBEAT (R433). -/
def execHeartbeat (f : FnId) (sess : Nat) (s : State) : Host.Outcome State Fault Refusal :=
  s.live fun s => s.inSession f sess fun s => s.doe f 0x68 []

/-- KEY_UPDATE (R433): the session's keys are outside the model. -/
def execKeyUpdate (f : FnId) (sess : Nat) (s : State) : Host.Outcome State Fault Refusal :=
  s.live fun s => s.inSession f sess fun s => s.doe f 0x69 []

/-- END_SESSION (R433). -/
def execEndSession (f : FnId) (sess : Nat) (s : State) : Host.Outcome State Fault Refusal :=
  s.live fun s => s.inSession f sess fun s => (s.modFn f fun x => x.endSession sess).doe f 0x6C []

/-- VENDOR_DEFINED_REQUEST (R439). -/
def execVendorDefinedRequest (f : FnId) (sess : Nat) (vendorOk : Bool) (slot : Byte) (key : BitVec 512) (s : State) :
    Host.Outcome State Fault Refusal := s.live fun s => s.loadKey f sess vendorOk slot key

end Sys2Proof.Machine
end

