-- ==== Sys2Proof/Machine/Debug.lean ====
section
/-! DEFINITION. The debug port (R488 to R500): scans, requests and responses, unlocking, halting and stepping, registers and
memory, built-in test. -/

namespace Sys2Proof.Machine

/-! ## Statuses (table "Debug statuses") -/

def dbgOk : Nat := 0
def dbgPending : Nat := 1
def dbgLocked : Nat := 2
def dbgBadArg : Nat := 3
def dbgUnmapped : Nat := 4
def dbgPoisoned : Nat := 5
def dbgNotHalted : Nat := 6
def dbgBusy : Nat := 7
def dbgRefused : Nat := 8
def dbgSigFail : Nat := 9

/-! ## Requests and responses (R489 to R491) -/

/-- What an operation gives: the state, the status and the data. -/
structure DbgEnd where
  st : State
  code : Nat
  data : W64

/-- The bits [63:16] that an operation's arguments use, or none for an undefined operation (table "Debug operations"). -/
def dbgArgs (op : Nat) : Option Nat :=
  match op with
  | 0x00 | 0x01 | 0x04 | 0x07 | 0x08 | 0x09 | 0x38 => some 0
  | 0x02 => some 0x3F0000
  | 0x03 => some 0x3FFFFFF0000
  | 0x05 => some 0x70000
  | 0x06 => some 0xFFF0000
  | 0x10 | 0x11 | 0x12 => some 0x30000
  | 0x13 => some 0x1F0000
  | 0x14 | 0x15 => some 0x3F30000
  | 0x20 | 0x21 | 0x22 => some 0x1FFF0000
  | 0x23 => some 0x700000FFF0000
  | 0x24 | 0x25 => some 0xFFFC0FFF0000
  | 0x30 | 0x31 => some 0xFFFFFFFFFFFF0000
  | 0x32 => some 0x3FFFFFFF0000
  | 0x39 => some 0xFFF0000
  | _ => none

/-- R490: an undefined operation, or a reserved bit of the argument. -/
def dbgUndefined (v : BitVec 128) : Bool :=
  let n := v.toNat
  match dbgArgs (n % 256) with
  | none => true
  | some m => (n % 2 ^ 64 / 65536 * 65536) &&& m != n % 2 ^ 64 / 65536 * 65536

/-- Table "Debug response". -/
def dbgResponse (op : Nat) (tag : Byte) (code : Nat) (data : W64) : BitVec 128 :=
  BitVec.ofNat 128 (data.toNat * 2 ^ 64 + code * 2 ^ 16 + tag.toNat * 2 ^ 8 + op)

/-- R491: a final response. -/
def State.dbgAnswer (s : State) (op : Nat) (tag : Byte) (code : Nat) (data : W64) : State :=
  { s with dbg := { s.dbg with
      req := none, held := false, resp := dbgResponse op tag code data, cmds := bump s.dbg.cmds,
      denied := bumpBy (bit (code == dbgLocked)) s.dbg.denied } }

/-- Whether the port holds this request: its low word, and the bits of its data that the operation uses. DEDUCED (log 120). -/
def Dbg.asks (d : Dbg) (op : Nat) (tag : Byte) (arg : Nat) (data : W64) (used : Nat) : Bool :=
  match d.req with
  | none => false
  | some v =>
    v.toNat % 2 ^ 64 == op + tag.toNat * 2 ^ 8 + arg && v.toNat / 2 ^ 64 % 2 ^ used == data.toNat % 2 ^ used

/-- R490: an operation that the port holds is served if the unlocked scope has its bit; `served` is none while it has not
finished. DEDUCED (log 112, 117). -/
def State.dbgServe (s : State) (op : Nat) (scope : Option Nat) (tag : Byte) (arg : Nat) (data : W64) (used : Nat)
    (served : State → Option DbgEnd) : State :=
  if !s.dbg.asks op tag arg data used then s
  else if (scope.map fun b => s.sec.scope.getLsbD b) = some false then s.dbgAnswer op tag dbgLocked 0
  else
    match served s with
    | some e => e.st.dbgAnswer op tag e.code e.data
    | none => s

/-- An operation without data that finishes. -/
def State.dbgOp (s : State) (op : Nat) (scope : Option Nat) (tag : Byte) (arg : Nat) (go : State → DbgEnd) : State :=
  s.dbgServe op scope tag arg 0 0 fun s => some (go s)

/-- DEBUG_UPDATE_DR (R489): a request is discarded after a capture of PENDING, and while another has not finished.
DEDUCED (log 111, 120). -/
def State.updateDr (s : State) (v : BitVec 128) : State :=
  let s1 := { s with dbg := { s.dbg with ir := 8, dr := v, pended := false } }
  if s.dbg.pended || s.dbg.req.isSome then s1
  else if dbgUndefined v then s1.dbgAnswer (v.toNat % 256) (v.extractLsb' 8 8) dbgBadArg 0
  else { s1 with dbg := { s1.dbg with req := some v } }

/-- DEBUG_CAPTURE_DR (R489). DEDUCED (log 111). -/
def State.captureDr (s : State) : State :=
  match s.dbg.req with
  | some v =>
    { s with dbg := { s.dbg with
        ir := 8, pended := true, dr := dbgResponse (v.toNat % 256) (v.extractLsb' 8 8) dbgPending 0 } }
  | none => { s with dbg := { s.dbg with ir := 8, pended := false, dr := s.dbg.resp } }

/-- Table "Debug instructions" (R488): the length of the data register that the instruction selects, and its content; every code
not listed selects BYPASS. -/
def Dbg.selected (d : Dbg) : Nat × Nat :=
  match d.ir.toNat with
  | 0x01 => (32, 0xA2304001)
  | 0x08 => (128, d.dr.toNat)
  | _ => (1, 0)

/-- DBG_TRST (R488). DEDUCED (log 111). -/
def State.dbgTrst (s : State) : State := { s with dbg := { s.dbg with ir := 1, dr := 0, pended := false } }

/-! ## Challenges and unlock (R447, R492, R493) -/

/-- R447: a challenge: the nonce, the serial, the running version, and the scope with what follows. DESIGN CHOICE (log 119). -/
def State.challengeOf (s : State) (scope : BitVec 3) : BitVec 512 :=
  let w := s.sec.run
  Config.challengeTail scope ++ w.patch ++ w.minor ++ w.major ++ s.ident.serial ++ Config.challengeNonce s.dbg.issued

def Dbg.exhausted (d : Dbg) : Bool := decide (8 ≤ d.fails)

/-- CHAL (R492). DEDUCED (log 112). -/
def State.chal (s : State) (scope : BitVec 3) : DbgEnd :=
  if s.dbg.exhausted then ⟨s, dbgRefused, 0⟩
  else if scope = 0 then ⟨s, dbgBadArg, 0⟩
  else ⟨{ s with dbg := { s.dbg with chal := some (s.challengeOf scope, scope), issued := s.dbg.issued + 1 } }, dbgOk, 0⟩

/-- The token's content is the challenge. -/
def Dbg.tokenIs (d : Dbg) (c : BitVec 512) : Bool :=
  (List.range 8).all fun i => Sparse.get 0 d.token i == c.extractLsb' (64 * i) 64

/-- R447: every key slot is zeroed, the tenants' requests and jobs with them at the next boundary, and the flag set. -/
def State.debugged (s : State) : State :=
  let owned := s.sec.slots.filterMap fun p => p.2.owner.map fun t => (p.1, t)
  let s1 := owned.foldl (fun s p => (s.addCmd (.clearSlot (Fin.ofNat 64 p.1) p.2)).zeroSlot p.1) s
  { s1 with sec := { s1.sec with debugged := true } }

/-- UNLOCK (R492): the challenge is consumed. -/
def State.unlock (s : State) (sig : SigBlock) : DbgEnd :=
  match s.dbg.chal with
  | none => ⟨s, dbgRefused, 0⟩
  | some (c, scope) =>
    if s.dbg.exhausted then ⟨s, dbgRefused, 0⟩
    else
      let s1 := { s with dbg := { s.dbg with chal := none } }
      let signed := sigFormed sig 4 && sigVerifies sig
      if signed && s.dbg.tokenIs c then
        let s2 := if scope.getLsbD 1 || scope.getLsbD 2 then s1.debugged else s1
        ⟨({ s2 with sec := { s2.sec with scope := scope } }).note 0x1302 0 0 0 0 0 [scope.setWidth 64], dbgOk, scope.setWidth 64⟩
      else
        let s2 := if sigVerifies sig then s1 else s1.sigFailed
        ⟨{ s2 with sec := { s2.sec with unlockfail := bump s2.sec.unlockfail }, dbg := { s2.dbg with fails := s2.dbg.fails + 1 } },
          dbgSigFail, 0⟩

/-- R494: breakpoints are cleared when the port locks. -/
def State.clearBreaks (s : State) : State :=
  let none4 := Vector.replicate 4 none
  (s.cores.foldl (fun s p => s.modSeq (Fin.ofNat 2304 p.1) fun q => { q with breaks := none4 }) s : State) |> fun s =>
    { s with dbg := { s.dbg with hms := s.dbg.hms.map fun h => { h with breaks := Vector.replicate 4 none } } }

/-- LOCK (R493). -/
def State.lockPort (s : State) : DbgEnd :=
  if s.debugHold then ⟨s, dbgBusy, 0⟩
  else
    let s1 := s.clearBreaks
    ⟨{ s1 with sec := { s1.sec with scope := 0 } }, dbgOk, 0⟩

/-! ## Harbourmaster cores (R495) -/

def State.hmAt (s : State) (h : BitVec 2) : HmCore := s.dbg.hms[h.toFin]

def State.setHm (s : State) (h : BitVec 2) (x : HmCore) : State := { s with dbg := { s.dbg with hms := s.dbg.hms.set h.toNat x h.isLt } }

/-- HMSTEP (R495): one instruction, after which the registers hold what the model does not know. -/
def State.hmStep (s : State) (h : BitVec 2) : DbgEnd :=
  if (s.hmAt h).halted then ⟨s.setHm h { s.hmAt h with regs := [] }, dbgOk, 0⟩ else ⟨s, dbgBusy, 0⟩

/-- HMREGR: a register whose content is not known is a free value from then on. DESIGN CHOICE (log 115). -/
def State.hmReg (s : State) (h : BitVec 2) (r : BitVec 6) : DbgEnd :=
  let x := s.hmAt h
  if !x.halted then ⟨s, dbgNotHalted, 0⟩
  else
    match assoc? r.toNat x.regs with
    | some v => ⟨s, dbgOk, v⟩
    | none =>
      let v := Config.freeWord s.free
      ⟨({ s with free := s.free + 1 }).setHm h { x with regs := Sparse.insert r.toNat v x.regs }, dbgOk, v⟩

/-- DESIGN CHOICE (log 115). -/
def State.hmRegSet (s : State) (h : BitVec 2) (r : BitVec 6) (v : W64) : DbgEnd :=
  let x := s.hmAt h
  if x.halted then ⟨s.setHm h { x with regs := Sparse.insert r.toNat v x.regs }, dbgOk, v⟩ else ⟨s, dbgNotHalted, 0⟩

/-! ## Compute cores (R494, R497) -/

/-- A core that a request names: BAD_ARG beyond the last, UNMAPPED for a fused-off one. -/
def State.onCore (s : State) (c : BitVec 12) (go : CoreId → DbgEnd) : DbgEnd :=
  if h : c.toNat < 2304 then
    if s.ident.fused.contains c.toNat then ⟨s, dbgUnmapped, 0⟩ else go ⟨c.toNat, h⟩
  else ⟨s, dbgBadArg, 0⟩

/-- R494: halts a running core; one that is idle, or about to be, halts at its next start; a fault stands.
DEDUCED (log 113). -/
def Core.debugHalt (k : Core) : Core :=
  match k.seq.state with
  | .running | .stalled | .ending => k.halt
  | .idle | .scrubbing => { k with seq := { k.seq with haltAtStart := true } }
  | .faulted | .halted => k

/-- R494: resumes; a core that has no bundle left goes on to its end. DEDUCED (log 113). -/
def Core.debugRun (k : Core) : Core :=
  match k.seq.state with
  | .halted => { k with seq := { k.seq with state := if k.seq.ended then .ending else .running, passBreak := true } }
  | .idle | .scrubbing => { k with seq := { k.seq with haltAtStart := false } }
  | _ => k

/-- R494: exactly the next bundle. DEDUCED (log 113). -/
def Core.debugStep (k : Core) : Core :=
  if k.seq.state = .halted ∧ k.seq.ended = false then { k with seq := { k.seq with state := .running, stepOnce := true } } else k

def State.halted (s : State) (c : CoreId) : Bool := (s.core c).seq.state == .halted

/-- Every usable core. -/
def State.usableCores (s : State) : List CoreId := (List.finRange 2304).filter fun c => s.usable c

/-- CCHALT (R494). -/
def State.ccHalt (s : State) (c : BitVec 12) (all : Bool) : DbgEnd :=
  if all then ⟨s.usableCores.foldl (fun s c => s.modCore c Core.debugHalt) s, dbgOk, 0⟩
  else s.onCore c fun c => ⟨s.modCore c Core.debugHalt, dbgOk, 0⟩

/-- Every core that debug has halted. -/
def State.haltedCores (s : State) : List CoreId := (s.cores.map fun p => (Fin.ofNat 2304 p.1 : CoreId)).filter s.halted

/-- CCRUN (R494). -/
def State.ccRun (s : State) (c : BitVec 12) (all : Bool) : DbgEnd :=
  if all then ⟨s.haltedCores.foldl (fun s c => s.modCore c Core.debugRun) s, dbgOk, 0⟩
  else s.onCore c fun c => ⟨s.modCore c Core.debugRun, dbgOk, 0⟩

/-- CCSTEP (R494). -/
def State.ccStep (s : State) (c : BitVec 12) (all : Bool) : DbgEnd :=
  if all then ⟨s.haltedCores.foldl (fun s c => s.modCore c Core.debugStep) s, dbgOk, 0⟩
  else s.onCore c fun c => if s.halted c then ⟨s.modCore c Core.debugStep, dbgOk, 0⟩ else ⟨s, dbgBusy, 0⟩

/-- CCBRK (R494). -/
def State.ccBrk (s : State) (c : BitVec 12) (slot : BitVec 2) (en : Bool) (d : W64) : DbgEnd :=
  s.onCore c fun c =>
    let off : BitVec 20 := d.extractLsb' 0 20
    if off.toNat % 32 ≠ 0 then ⟨s, dbgBadArg, 0⟩
    else
      ⟨s.modSeq c fun q => { q with breaks := q.breaks.set slot.toNat (if en then some off else none) slot.isLt }, dbgOk, 0⟩

/-- R490: class, register and word in range. -/
def regOk (cls : BitVec 2) (r : BitVec 5) (w : BitVec 7) : Bool :=
  match cls.toNat with
  | 0 => w == 0
  | 1 => decide (w.toNat < 16)
  | 2 => decide (r.toNat < 4)
  | _ => false

/-- R497: the core once every result of the instructions issued has reached its register. -/
def Core.allLanded (k : Core) : Core := landAll (k.pend.foldl (fun t p => max t p.time) 0) k.pend k

/-- R490: word `w` of a register. -/
def Core.regWord (k : Core) (cls : BitVec 2) (r : BitVec 5) (w : BitVec 7) : W64 :=
  match cls.toNat with
  | 0 => k.sreg r
  | 1 => (k.vreg r).extractLsb' (64 * w.toNat) 64
  | _ => (k.mreg (r.extractLsb' 0 2)).extractLsb' (64 * w.toNat) 64

/-- A bit string with its word `w` replaced. -/
def setWord {n : Nat} (x : BitVec n) (w : Nat) (d : W64) : BitVec n :=
  BitVec.ofNat n (x.toNat - (x.extractLsb' (64 * w) 64).toNat * 2 ^ (64 * w) + d.toNat * 2 ^ (64 * w))

def Core.setRegWord (k : Core) (cls : BitVec 2) (r : BitVec 5) (w : BitVec 7) (d : W64) : Core :=
  match cls.toNat with
  | 0 => k.setS r d
  | 1 => k.setV r (setWord (k.vreg r) w.toNat d)
  | _ => k.setM (r.extractLsb' 0 2) (BitVec.allOnes 256) (setWord (k.mreg (r.extractLsb' 0 2)) w.toNat d)

/-- CCREGR (R497). -/
def State.ccRegR (s : State) (c : BitVec 12) (cls : BitVec 2) (r : BitVec 5) (w : BitVec 7) : DbgEnd :=
  s.onCore c fun c =>
    if !regOk cls r w then ⟨s, dbgBadArg, 0⟩
    else if !s.halted c then ⟨s, dbgNotHalted, 0⟩
    else
      let k := (s.core c).allLanded
      ⟨s.setCore c k, dbgOk, k.regWord cls r w⟩

/-- CCREGW (R497). -/
def State.ccRegW (s : State) (c : BitVec 12) (cls : BitVec 2) (r : BitVec 5) (w : BitVec 7) (d : W64) : DbgEnd :=
  s.onCore c fun c =>
    if !regOk cls r w then ⟨s, dbgBadArg, 0⟩
    else if !s.halted c then ⟨s, dbgNotHalted, 0⟩
    else
      let k := (s.core c).allLanded.setRegWord cls r w d
      ⟨s.setCore c k, dbgOk, k.regWord cls r w⟩

/-! ## Memory (R497) -/

/-- A word that was read. -/
def dbgWord (s : State) (w : MWord) : DbgEnd := if w.poison then ⟨s, dbgPoisoned, 0⟩ else ⟨s, dbgOk, w.data⟩

/-- The first of some words. -/
def firstWord (ws : List MWord) : MWord := ws.headD ⟨0, false⟩

/-- The port's reach of an address below control space (R440). -/
def State.dbgPlace (s : State) (addr : Nat) : Place := s.place (.debug (s.sec.scope.getLsbD 2)) addr

/-- MEMRD (R497): a scratchpad is read as an inbound access (R278). DEDUCED (log 114). -/
def State.memRd (s : State) (addr : Nat) : DbgEnd :=
  if addr % 8 ≠ 0 then ⟨s, dbgBadArg, 0⟩
  else if Config.controlBase ≤ addr then
    match s.ctlRead addr with
    | some w => ⟨s, dbgOk, w⟩
    | none => ⟨s, dbgUnmapped, 0⟩
  else
    match s.dbgPlace addr with
    | .mem k _ => dbgWord (s.modChan k fun c => { c with rd := bumpBy 8 c.rd }) (firstWord (s.devRead addr 1))
    | .scratch c off =>
      match (s.core c).downByte off (off + 7) with
      | some o => ⟨if (s.core c).taskRuns then s.raiseInbound c 0x0907 o else s, dbgUnmapped, 0⟩
      | none => if s.shut c then ⟨s, dbgBusy, 0⟩
        else
          let s1 := s.senseSp c off 8
          dbgWord s1 (firstWord (s1.rdWords (spKey c off) 1))
    | _ => ⟨s, dbgUnmapped, 0⟩

/-- R257: a write that an instruction's range holds waits. DEDUCED (log 114). -/
def State.holdDebug (s : State) (c : CoreId) : State :=
  if s.dbg.held then s
  else
    let s1 := s.modCa c fun a => { a with spdHeld := bump a.spdHeld }
    { s1 with dbg := { s1.dbg with held := true } }

/-- MEMWR to a scratchpad: an inbound write (R257, R514). `v` is the response's data. -/
def State.memWrScratch (s : State) (c : CoreId) (off : Nat) (d v : W64) : Option DbgEnd :=
  match s.inbound c off 8 with
  | .land => some ⟨s.landWords c off [⟨d, false⟩], dbgOk, v⟩
  | .hold => none
  | .refuse => some ⟨s, if ((s.core c).downByte off (off + 7)).isSome then dbgUnmapped else dbgBusy, 0⟩
  | .refuseFault cause o => some ⟨s.raiseInbound c cause o, if cause = 0x0907 then dbgUnmapped else dbgBusy, 0⟩

/-- R497, R261, R289: a write of a register that is written only while its core is idle. -/
def State.dbgRegBusy (s : State) (addr : Nat) : Bool :=
  match ctlBlock addr with
  | some (.core c, o) => idleOnly o && (s.core c).seq.state != .idle
  | _ => false

/-- MEMWR (R497). None while a scratchpad write is held. DEDUCED (log 114, 121). DESIGN CHOICE (log 116). -/
def State.memWr (s : State) (addr : Nat) (d : W64) : Option DbgEnd :=
  if addr % 8 ≠ 0 then some ⟨s, dbgBadArg, 0⟩
  else if Config.controlBase ≤ addr then
    if (s.ctlRead addr).isNone then some ⟨s, dbgUnmapped, 0⟩
    else if s.dbgRegBusy addr then some ⟨s, dbgBusy, 0⟩
    else some ⟨s.ctlWrite true addr d, dbgOk, Config.memWrResult addr d⟩
  else
    match s.dbgPlace addr with
    | .mem k _ =>
      let s1 := s.modChan k fun c => { c with wr := bumpBy 8 c.wr }
      some ⟨(s1.devWrite addr [⟨d, false⟩]).markStale addr, dbgOk, Config.memWrResult addr d⟩
    | .scratch c off => s.memWrScratch c off d (Config.memWrResult addr d)
    | _ => some ⟨s, dbgUnmapped, 0⟩

/-- A request that a hold keeps waiting leaves the hold behind. -/
def State.memWrHeld (s : State) (addr : Nat) : State :=
  match s.dbgPlace addr with
  | .scratch c _ => s.holdDebug c
  | _ => s

/-- Table "Punnet slot" (R59 to R61): the 2,048 bits of a slot. -/
def PunSlot.image (p : PunSlot) : Nat :=
  packFields 16 ((List.range 122).map fun j => pat 16 (codeSum (j + 121) p.vals))
    + p.block.toNat * 2 ^ 1952 + bit p.valid * 2 ^ 1987 + bit p.zero * 2 ^ 1988 + bit p.poison * 2 ^ 1989
    + p.fmt.toNat * 2 ^ 1990 + p.exp.toNat * 2 ^ 1992

/-- PNMRD (R61): slot s at bytes 256 s of its bank; a poisoned word is reported as one. DESIGN CHOICE (log 118). -/
def State.pnmRd (s : State) (c : BitVec 12) (off : BitVec 18) : DbgEnd :=
  s.onCore c fun c =>
    if off.toNat % 8 ≠ 0 then ⟨s, dbgBadArg, 0⟩
    else
      let bank := (Config.punnetBank (off.toNat / 2048)).val
      let e : EngineId := Fin.ofNat 4 (bank / 32)
      let slot := off.toNat % 2048 / 256
      let word := off.toNat % 256 / 8
      let s1 := s.sensePun c (punKey e (bank % 32) slot) word
      let p := (s1.core c).pun e (bank % 32) slot
      dbgWord s1 ⟨BitVec.ofNat 64 (fld p.image (64 * word) 64), p.bad.contains word⟩

/-! ## Built-in test (R499, R500) -/

/-- CCBIST (R500): the test, then the end-of-task scrub. -/
def State.ccBist (s : State) (c : BitVec 12) (fail : Option Byte) : DbgEnd :=
  if h : c.toNat < 2304 then
    let core : CoreId := ⟨c.toNat, h⟩
    if s.ident.fused.contains c.toNat then ⟨s, dbgBadArg, 0⟩
    else if (s.core core).seq.state ≠ .idle ∨ (s.core core).seq.filling = true then ⟨s, dbgBusy, 0⟩
    else
      let s1 := ((s.modSeq core fun q => { q with state := .scrubbing, zeroing := false }).scrub core).scrubDone core
      match fail with
      | none => ⟨s1, dbgOk, 1⟩
      | some u => ⟨s1.note 0x1301 0 1 c.toNat 0 0 [u.setWidth 64], dbgOk, BitVec.ofNat 64 (u.toNat * 2 ^ 8)⟩
  else ⟨s, dbgBadArg, 0⟩

/-! ## Rows -/

/-- DBG_TRST (R488). -/
def execDbgTrst (s : State) : Host.Outcome State Fault Refusal := s.live State.dbgTrst

/-- DEBUG_UPDATE_DR (R489). -/
def execDebugUpdateDr (v : BitVec 128) (s : State) : Host.Outcome State Fault Refusal := s.live fun s => s.updateDr v

/-- DEBUG_CAPTURE_DR (R489). -/
def execDebugCaptureDr (s : State) : Host.Outcome State Fault Refusal := s.live State.captureDr

/-- DBG_NOP (R490). -/
def execDbgNop (tag : Byte) (s : State) : Host.Outcome State Fault Refusal :=
  s.live fun s => s.dbgOp 0x00 none tag 0 fun s => ⟨s, dbgOk, 0⟩

/-- STATUS (R490). -/
def execStatus (tag : Byte) (s : State) : Host.Outcome State Fault Refusal :=
  s.live fun s => s.dbgOp 0x01 none tag 0 fun s => ⟨s, dbgOk, s.dbgStatus⟩

/-- IDENT (R490, R432). -/
def execIdent (tag : Byte) (i : BitVec 6) (s : State) : Host.Outcome State Fault Refusal :=
  s.live fun s => s.dbgOp 0x02 none tag (i.toNat * 2 ^ 16) fun s =>
    if 45 < i.toNat then ⟨s, dbgBadArg, 0⟩ else ⟨s, dbgOk, BitVec.ofNat 64 (ofLe ((s.summary.drop (8 * i.toNat)).take 8))⟩

/-- BBX (R465). -/
def execBbx (tag : Byte) (off : BitVec 26) (s : State) : Host.Outcome State Fault Refusal :=
  s.live fun s => s.dbgOp 0x03 none tag (off.toNat * 2 ^ 16) fun s =>
    if off.toNat % 8 ≠ 0 then ⟨s, dbgBadArg, 0⟩ else ⟨s, dbgOk, BitVec.ofNat 64 (ofLe (s.mramBytes off.toNat 8))⟩

/-- CHAL (R492). -/
def execChal (tag : Byte) (scope : BitVec 3) (s : State) : Host.Outcome State Fault Refusal :=
  s.live fun s => s.dbgServe 0x04 none tag 0 (scope.setWidth 64) 3 fun s => some (s.chal scope)

/-- CHALLENGE_EXPIRY (R447): 60 s after the challenge was issued. -/
def execChallengeExpiry (s : State) : Host.Outcome State Fault Refusal :=
  .next { s with dbg := { s.dbg with chal := none } }

/-- CHALRD (R490). -/
def execChalrd (tag : Byte) (i : BitVec 3) (s : State) : Host.Outcome State Fault Refusal :=
  s.live fun s => s.dbgOp 0x05 none tag (i.toNat * 2 ^ 16) fun s =>
    match s.dbg.chal with
    | some c => ⟨s, dbgOk, c.1.extractLsb' (64 * i.toNat) 64⟩
    | none => ⟨s, dbgRefused, 0⟩

/-- TOKWR (R492). -/
def execTokwr (tag : Byte) (i : BitVec 12) (d : W64) (s : State) : Host.Outcome State Fault Refusal :=
  s.live fun s => s.dbgServe 0x06 none tag (i.toNat * 2 ^ 16) d 64 fun s =>
    if 2155 < i.toNat then some ⟨s, dbgBadArg, 0⟩
    else some ⟨{ s with dbg := { s.dbg with token := Sparse.put 0 s.dbg.token i.toNat d } }, dbgOk, 0⟩

/-- UNLOCK (R492). -/
def execUnlock (tag : Byte) (sig : SigBlock) (s : State) : Host.Outcome State Fault Refusal :=
  s.live fun s => s.dbgOp 0x07 none tag 0 fun s => s.unlock sig

/-- LOCK (R493). -/
def execLock (tag : Byte) (s : State) : Host.Outcome State Fault Refusal :=
  s.live fun s => s.dbgOp 0x08 none tag 0 State.lockPort

/-- WARM (R484): the response, then the start. -/
def execWarm (tag : Byte) (s : State) : Host.Outcome State Fault Refusal :=
  s.live fun s => if s.dbg.asks 0x09 tag 0 0 0 then (s.dbgAnswer 0x09 tag dbgOk 0).warmStart else s

/-- HMHALT (R495). -/
def execHmhalt (tag : Byte) (h : BitVec 2) (s : State) : Host.Outcome State Fault Refusal :=
  s.live fun s => s.dbgOp 0x10 (some 0) tag (h.toNat * 2 ^ 16) fun s => ⟨s.setHm h { s.hmAt h with halted := true }, dbgOk, 0⟩

/-- HMRUN (R495): what its registers hold from then on is not known. -/
def execHmrun (tag : Byte) (h : BitVec 2) (s : State) : Host.Outcome State Fault Refusal :=
  s.live fun s => s.dbgOp 0x11 (some 0) tag (h.toNat * 2 ^ 16) fun s =>
    ⟨s.setHm h { s.hmAt h with halted := false, regs := [] }, dbgOk, 0⟩

/-- HMSTEP (R495). -/
def execHmstep (tag : Byte) (h : BitVec 2) (s : State) : Host.Outcome State Fault Refusal :=
  s.live fun s => s.dbgOp 0x12 (some 0) tag (h.toNat * 2 ^ 16) fun s => s.hmStep h

/-- HMBRK (R495). -/
def execHmbrk (tag : Byte) (h slot : BitVec 2) (en : Bool) (d : W64) (s : State) : Host.Outcome State Fault Refusal :=
  s.live fun s => s.dbgServe 0x13 (some 0) tag (h.toNat * 2 ^ 16 + slot.toNat * 2 ^ 18 + bit en * 2 ^ 20) d 64 fun s =>
    let x := s.hmAt h
    some ⟨s.setHm h { x with breaks := x.breaks.set slot.toNat (if en then some d else none) slot.isLt }, dbgOk, 0⟩

/-- HMREGR (R490). -/
def execHmregr (tag : Byte) (h : BitVec 2) (r : BitVec 6) (s : State) : Host.Outcome State Fault Refusal :=
  s.live fun s => s.dbgOp 0x14 (some 2) tag (h.toNat * 2 ^ 16 + r.toNat * 2 ^ 20) fun s => s.hmReg h r

/-- HMREGW (R490). -/
def execHmregw (tag : Byte) (h : BitVec 2) (r : BitVec 6) (d : W64) (s : State) : Host.Outcome State Fault Refusal :=
  s.live fun s => s.dbgServe 0x15 (some 2) tag (h.toNat * 2 ^ 16 + r.toNat * 2 ^ 20) d 64 fun s => some (s.hmRegSet h r d)

/-- The argument of CCHALT, CCRUN and CCSTEP. -/
def ccArg (c : BitVec 12) (all : Bool) : Nat := c.toNat * 2 ^ 16 + bit all * 2 ^ 28

/-- CCHALT (R494). -/
def execCchalt (tag : Byte) (c : BitVec 12) (all : Bool) (s : State) : Host.Outcome State Fault Refusal :=
  s.live fun s => s.dbgOp 0x20 (some 1) tag (ccArg c all) fun s => s.ccHalt c all

/-- CCRUN (R494). -/
def execCcrun (tag : Byte) (c : BitVec 12) (all : Bool) (s : State) : Host.Outcome State Fault Refusal :=
  s.live fun s => s.dbgOp 0x21 (some 1) tag (ccArg c all) fun s => s.ccRun c all

/-- CCSTEP (R494). -/
def execCcstep (tag : Byte) (c : BitVec 12) (all : Bool) (s : State) : Host.Outcome State Fault Refusal :=
  s.live fun s => s.dbgOp 0x22 (some 1) tag (ccArg c all) fun s => s.ccStep c all

/-- CCBRK (R494). -/
def execCcbrk (tag : Byte) (c : BitVec 12) (slot : BitVec 2) (en : Bool) (d : W64) (s : State) :
    Host.Outcome State Fault Refusal :=
  s.live fun s => s.dbgServe 0x23 (some 1) tag (c.toNat * 2 ^ 16 + slot.toNat * 2 ^ 48 + bit en * 2 ^ 50) d 20 fun s =>
    some (s.ccBrk c slot en d)

/-- The argument of CCREGR and CCREGW. -/
def regArg (c : BitVec 12) (cls : BitVec 2) (r : BitVec 5) (w : BitVec 7) : Nat :=
  c.toNat * 2 ^ 16 + w.toNat * 2 ^ 34 + r.toNat * 2 ^ 41 + cls.toNat * 2 ^ 46

/-- CCREGR (R497). -/
def execCcregr (tag : Byte) (c : BitVec 12) (cls : BitVec 2) (r : BitVec 5) (w : BitVec 7) (s : State) :
    Host.Outcome State Fault Refusal :=
  s.live fun s => s.dbgOp 0x24 (some 2) tag (regArg c cls r w) fun s => s.ccRegR c cls r w

/-- CCREGW (R497). -/
def execCcregw (tag : Byte) (c : BitVec 12) (cls : BitVec 2) (r : BitVec 5) (w : BitVec 7) (d : W64) (s : State) :
    Host.Outcome State Fault Refusal :=
  s.live fun s => s.dbgServe 0x25 (some 2) tag (regArg c cls r w) d 64 fun s => some (s.ccRegW c cls r w d)

/-- MEMRD (R497). -/
def execMemrd (tag : Byte) (addr : BitVec 48) (s : State) : Host.Outcome State Fault Refusal :=
  s.live fun s => s.dbgOp 0x30 (some 2) tag (addr.toNat * 2 ^ 16) fun s => s.memRd addr.toNat

/-- MEMWR (R497). -/
def execMemwr (tag : Byte) (addr : BitVec 48) (d : W64) (s : State) : Host.Outcome State Fault Refusal :=
  s.live fun s =>
    let s1 := s.dbgServe 0x31 (some 2) tag (addr.toNat * 2 ^ 16) d 64 fun s => s.memWr addr.toNat d
    if s1.dbg.asks 0x31 tag (addr.toNat * 2 ^ 16) d 64 then s1.memWrHeld addr.toNat else s1

/-- PNMRD (R61). -/
def execPnmrd (tag : Byte) (c : BitVec 12) (off : BitVec 18) (s : State) : Host.Outcome State Fault Refusal :=
  s.live fun s => s.dbgOp 0x32 (some 2) tag (c.toNat * 2 ^ 16 + off.toNat * 2 ^ 28) fun s => s.pnmRd c off

/-- STFLAG (R499). -/
def execStflag (tag : Byte) (d : W64) (s : State) : Host.Outcome State Fault Refusal :=
  s.live fun s => s.dbgServe 0x38 (some 2) tag 0 d 1 fun s =>
    some ⟨{ s with flash := { s.flash with selfTest := tb d.toNat 0 } }, dbgOk, 0⟩

/-- CCBIST (R500). -/
def execCcbist (tag : Byte) (c : BitVec 12) (fail : Option Byte) (s : State) : Host.Outcome State Fault Refusal :=
  s.live fun s => s.dbgOp 0x39 (some 1) tag (c.toNat * 2 ^ 16) fun s => s.ccBist c fail

end Sys2Proof.Machine
end

