-- ==== Sys2Proof/Machine/MeshRows.lean ====
section
/-! DEFINITION. What arrives over the mesh: inbound accesses, acknowledgements, packets, queue resets, routing, channel
accesses, tile verdicts (R225 to R233, R257, R258, R272 to R283, R297 to R309). -/

namespace Sys2Proof.Machine

/-- INBOUND_WRITE (R257). -/
def execInboundWrite (c : CoreId) (src : Node) (s : State) : Host.Outcome State Fault Refusal :=
  .next (s.inboundWrite c src)

/-- HELD_INBOUND_WRITE_LAND (R257). -/
def execHeldInboundWriteLand (c : CoreId) (src : Node) (s : State) : Host.Outcome State Fault Refusal :=
  .next (s.heldLand c src)

/-- INBOUND_READ (R278). -/
def execInboundRead (c : CoreId) (src : Node) (s : State) : Host.Outcome State Fault Refusal :=
  .next (s.inboundRead c src)

/-- MESH_LINK_WORD (R272). -/
def execMeshLinkWord (at_ : CoreId) (load : LinkLoad) (word : Nat) (ecc : Ecc) (s : State) : Host.Outcome State Fault Refusal :=
  .next (s.linkWord at_ load word ecc)

/-- DMA_COMPLETE (R276). -/
def execDmaComplete (c : CoreId) (id : Nat) (s : State) : Host.Outcome State Fault Refusal := .next (s.dmaComplete c id)

/-- PACKET_ARRIVE (R279). -/
def execPacketArrive (c : CoreId) (src : Node) (s : State) : Host.Outcome State Fault Refusal :=
  .next (s.packetArrive c src)

/-- PACKET_COMMIT (R279). -/
def execPacketCommit (c : CoreId) (q : QueueId) (s : State) : Host.Outcome State Fault Refusal := .next (s.commit c q.val)

/-- QUEUE_POINTER_MISMATCH (R283). -/
def execQueuePointerMismatch (c : CoreId) (q : QueueId) (s : State) : Host.Outcome State Fault Refusal :=
  .next (s.ptrMismatch c q.val)

/-- HQ_QSTAT_RST (R282). -/
def execHqQstatRst (c : CoreId) (q : QueueId) (s : State) : Host.Outcome State Fault Refusal :=
  .next (s.resetQueue c q.val)

/-- ROUTE_PACKET (R225). -/
def execRoutePacket (c : CoreId) (src : Node) (s : State) : Host.Outcome State Fault Refusal :=
  .next (s.routePacket c src)

/-- CONTRIBUTION_RECORD (R231). -/
def execContributionRecord (c : CoreId) (src : Node) (layer : Option W16) (s : State) :
    Host.Outcome State Fault Refusal := .next (s.contributionRecord c src layer)

/-- DIGEST_PACKET (R233). -/
def execDigestPacket (c : CoreId) (src : Node) (layer : W16) (s : State) : Host.Outcome State Fault Refusal :=
  .next (s.digestPacket c src layer)

/-- CHANNEL_READ (R300). -/
def execChannelRead (k : Ctrl) (src : Node) (sevs : List (Nat × Severity)) (s : State) : Host.Outcome State Fault Refusal :=
  .next (s.channelRead k src sevs)

/-- CHANNEL_WRITE (R297). -/
def execChannelWrite (k : Ctrl) (src : Node) (s : State) : Host.Outcome State Fault Refusal :=
  .next (s.channelWrite k src)

/-- TILE_VERDICT (R303). -/
def execTileVerdict (c : CoreId) (id : Nat) (tries : TileTries) (s : State) : Host.Outcome State Fault Refusal :=
  .next (s.tileVerdict c id tries)

/-- BERTH_TILE_CHECK (R309). -/
def execBerthTileCheck (c : CoreId) (id : Nat) (tries : TileTries) (s : State) : Host.Outcome State Fault Refusal :=
  .next (s.berthTileCheck c id tries)

/-- TILE_REVERIFY (R305). -/
def execTileReverify (header : Nat) (s : State) : Host.Outcome State Fault Refusal := .next (s.tileReverify header)

end Sys2Proof.Machine
end

