-- ==== Sys2Proof/Machine/MoveRows.lean ====
section
/-! DEFINITION. The move slot's rows (R129, R227, R258, R275, R281, R284). Each row is the issue, by the sequencer of core `c`, of its next bundle with that
instruction in its slot and no-ops in the other three (R247, R248). -/

namespace Sys2Proof.Machine

open Decode

/-- OQNT (R127). -/
def execOqnt (c : CoreId) (a : OqntArgs) (s : State) : Host.Outcome State Fault Refusal :=
  .next (issueBundle c { Slots.nops with mov := .oqnt a } s)

/-- MNOP (R247). -/
def execMnop (c : CoreId) (s : State) : Host.Outcome State Fault Refusal :=
  .next (issueBundle c Slots.nops s)

/-- AWAIT (R258). -/
def execAwait (c : CoreId) (sAddr : RegIx) (sLen : RegIx) (sCnt : RegIx) (s : State) : Host.Outcome State Fault Refusal :=
  .next (issueBundle c { Slots.nops with mov := .await sAddr sLen sCnt } s)

/-- DSTART (R275). -/
def execDstart (c : CoreId) (sDesc : RegIx) (s : State) : Host.Outcome State Fault Refusal :=
  .next (issueBundle c { Slots.nops with mov := .dstart sDesc } s)

/-- QPUT (R284). -/
def execQput (c : CoreId) (sDst : RegIx) (sFirst : RegIx) (nm1 : BitVec 2) (s : State) : Host.Outcome State Fault Refusal :=
  .next (issueBundle c { Slots.nops with mov := .qput sDst sFirst nm1 } s)

/-- QRD (R281). -/
def execQrd (c : CoreId) (rd : RegIx) (q : BitVec 7) (s : State) : Host.Outcome State Fault Refusal :=
  .next (issueBundle c { Slots.nops with mov := .qrd rd q } s)

/-- QMV (R284). -/
def execQmv (c : CoreId) (q : BitVec 7) (sAddr : RegIx) (nm1 : BitVec 9) (s : State) : Host.Outcome State Fault Refusal :=
  .next (issueBundle c { Slots.nops with mov := .qmv q sAddr nm1 } s)

/-- QCNT (R280). -/
def execQcnt (c : CoreId) (rd : RegIx) (q : BitVec 7) (s : State) : Host.Outcome State Fault Refusal :=
  .next (issueBundle c { Slots.nops with mov := .qcnt rd q } s)

/-- QRST (R282). -/
def execQrst (c : CoreId) (q : BitVec 7) (s : State) : Host.Outcome State Fault Refusal :=
  .next (issueBundle c { Slots.nops with mov := .qrst q } s)

/-- DFENCE (R284). -/
def execDfence (c : CoreId) (s : State) : Host.Outcome State Fault Refusal :=
  .next (issueBundle c { Slots.nops with mov := .dfence } s)

/-- RTAKE (R227). -/
def execRtake (c : CoreId) (sb : RegIx) (nsm1 : BitVec 4) (bank : Bool) (s : State) : Host.Outcome State Fault Refusal :=
  .next (issueBundle c { Slots.nops with mov := .rtake sb nsm1 bank } s)

end Sys2Proof.Machine
end

