-- ==== Sys2Proof/Machine/PunnetRows.lean ====
section
/-! DEFINITION. The punnet slot's rows (R62, R88, R89). Each row is the issue, by the sequencer of core `c`, of its next bundle with that
instruction in its slot and no-ops in the other three (R247, R248). -/

namespace Sys2Proof.Machine

open Decode

/-- PNOP (R87). -/
def execPnop (c : CoreId) (s : State) : Host.Outcome State Fault Refusal :=
  .next (issueBundle c Slots.nops s)

/-- PBLD (R62). -/
def execPbld (c : CoreId) (a : PbldArgs) (s : State) : Host.Outcome State Fault Refusal :=
  .next (issueBundle c { Slots.nops with pun := .pbld a } s)

/-- PLOOK (R88). -/
def execPlook (c : CoreId) (a : PlookArgs) (s : State) : Host.Outcome State Fault Refusal :=
  .next (issueBundle c { Slots.nops with pun := .plook a } s)

/-- PFENCE (R89). -/
def execPfence (c : CoreId) (emask : BitVec 4) (bld : Bool) (s : State) : Host.Outcome State Fault Refusal :=
  .next (issueBundle c { Slots.nops with pun := .pfence emask bld } s)

/-- PINV (R89). -/
def execPinv (c : CoreId) (emask : BitVec 4) (s : State) : Host.Outcome State Fault Refusal :=
  .next (issueBundle c { Slots.nops with pun := .pinv emask } s)

end Sys2Proof.Machine
end

