-- ==== Sys2Proof/Machine/VectorRows.lean ====
section
/-! DEFINITION. The vector slot's rows: vector and accumulator instructions (R121, R160 to R171). Each row is the issue, by the sequencer of core `c`, of its next bundle with that
instruction in its slot and no-ops in the other three (R247, R248). -/

namespace Sys2Proof.Machine

open Decode

/-- ACFG (R121). -/
def execAcfg (c : CoreId) (tile : BitVec 6) (sCd : RegIx) (en : Bool) (s : State) : Host.Outcome State Fault Refusal :=
  .next (issueBundle c { Slots.nops with vec := .acfg tile sCd en } s)

/-- ACLR (R101). -/
def execAclr (c : CoreId) (tile : BitVec 6) (entry : BitVec 8) (nm1 : BitVec 8) (s : State) : Host.Outcome State Fault Refusal :=
  .next (issueBundle c { Slots.nops with vec := .aclr tile entry nm1 } s)

/-- AMRG (R122). -/
def execAmrg (c : CoreId) (ta : BitVec 6) (tb : BitVec 6) (entry : BitVec 8) (nm1 : BitVec 8) (s : State) : Host.Outcome State Fault Refusal :=
  .next (issueBundle c { Slots.nops with vec := .amrg ta tb entry nm1 } s)

/-- ALDP (R121). -/
def execAldp (c : CoreId) (tile : BitVec 6) (entry : BitVec 8) (nm1 : BitVec 8) (sAddr : RegIx) (s : State) : Host.Outcome State Fault Refusal :=
  .next (issueBundle c { Slots.nops with vec := .aldp tile entry nm1 sAddr } s)

/-- ASTP (R121). -/
def execAstp (c : CoreId) (tile : BitVec 6) (entry : BitVec 8) (nm1 : BitVec 8) (sAddr : RegIx) (s : State) : Host.Outcome State Fault Refusal :=
  .next (issueBundle c { Slots.nops with vec := .astp tile entry nm1 sAddr } s)

/-- VNOP (R160). -/
def execVnop (c : CoreId) (s : State) : Host.Outcome State Fault Refusal :=
  .next (issueBundle c Slots.nops s)

/-- VADD (R161). -/
def execVadd (c : CoreId) (r : VRegs) (s : State) : Host.Outcome State Fault Refusal :=
  .next (issueBundle c { Slots.nops with vec := .fp .add false r } s)

/-- VSUB (R161). -/
def execVsub (c : CoreId) (r : VRegs) (s : State) : Host.Outcome State Fault Refusal :=
  .next (issueBundle c { Slots.nops with vec := .fp .sub false r } s)

/-- VMUL (R161). -/
def execVmul (c : CoreId) (r : VRegs) (s : State) : Host.Outcome State Fault Refusal :=
  .next (issueBundle c { Slots.nops with vec := .fp .mul false r } s)

/-- VFMA (R161). -/
def execVfma (c : CoreId) (r : VRegs) (s : State) : Host.Outcome State Fault Refusal :=
  .next (issueBundle c { Slots.nops with vec := .fp .fma false r } s)

/-- VMIN (R161). -/
def execVmin (c : CoreId) (r : VRegs) (s : State) : Host.Outcome State Fault Refusal :=
  .next (issueBundle c { Slots.nops with vec := .fp .min false r } s)

/-- VMAX (R161). -/
def execVmax (c : CoreId) (r : VRegs) (s : State) : Host.Outcome State Fault Refusal :=
  .next (issueBundle c { Slots.nops with vec := .fp .max false r } s)

/-- VABS (R161). -/
def execVabs (c : CoreId) (vd : RegIx) (va : RegIx) (s : State) : Host.Outcome State Fault Refusal :=
  .next (issueBundle c { Slots.nops with vec := .fp .abs false ⟨vd, va, 0, 0, false⟩ } s)

/-- VNEG (R161). -/
def execVneg (c : CoreId) (vd : RegIx) (va : RegIx) (s : State) : Host.Outcome State Fault Refusal :=
  .next (issueBundle c { Slots.nops with vec := .fp .neg false ⟨vd, va, 0, 0, false⟩ } s)

/-- VCEQ (R160). -/
def execVceq (c : CoreId) (r : VRegs) (s : State) : Host.Outcome State Fault Refusal :=
  .next (issueBundle c { Slots.nops with vec := .fp .ceq false r } s)

/-- VCLT (R160). -/
def execVclt (c : CoreId) (r : VRegs) (s : State) : Host.Outcome State Fault Refusal :=
  .next (issueBundle c { Slots.nops with vec := .fp .clt false r } s)

/-- VCLE (R160). -/
def execVcle (c : CoreId) (r : VRegs) (s : State) : Host.Outcome State Fault Refusal :=
  .next (issueBundle c { Slots.nops with vec := .fp .cle false r } s)

/-- VSEL (R160). -/
def execVsel (c : CoreId) (r : VRegs) (s : State) : Host.Outcome State Fault Refusal :=
  .next (issueBundle c { Slots.nops with vec := .fp .sel false r } s)

/-- BF16_FORMS (R161). -/
def execBf16Forms (c : CoreId) (op : FpOp) (r : VRegs) (s : State) : Host.Outcome State Fault Refusal :=
  .next (issueBundle c { Slots.nops with vec := .fp op true r } s)

/-- VIADD (R160). -/
def execViadd (c : CoreId) (r : VRegs) (s : State) : Host.Outcome State Fault Refusal :=
  .next (issueBundle c { Slots.nops with vec := .int .add r } s)

/-- VISUB (R160). -/
def execVisub (c : CoreId) (r : VRegs) (s : State) : Host.Outcome State Fault Refusal :=
  .next (issueBundle c { Slots.nops with vec := .int .sub r } s)

/-- VAND (R160). -/
def execVand (c : CoreId) (r : VRegs) (s : State) : Host.Outcome State Fault Refusal :=
  .next (issueBundle c { Slots.nops with vec := .int .and r } s)

/-- VOR (R160). -/
def execVor (c : CoreId) (r : VRegs) (s : State) : Host.Outcome State Fault Refusal :=
  .next (issueBundle c { Slots.nops with vec := .int .or r } s)

/-- VXOR (R160). -/
def execVxor (c : CoreId) (r : VRegs) (s : State) : Host.Outcome State Fault Refusal :=
  .next (issueBundle c { Slots.nops with vec := .int .xor r } s)

/-- VSHL (R160). -/
def execVshl (c : CoreId) (r : VRegs) (s : State) : Host.Outcome State Fault Refusal :=
  .next (issueBundle c { Slots.nops with vec := .int .shl r } s)

/-- VSHR (R160). -/
def execVshr (c : CoreId) (r : VRegs) (s : State) : Host.Outcome State Fault Refusal :=
  .next (issueBundle c { Slots.nops with vec := .int .shr r } s)

/-- VSRA (R160). -/
def execVsra (c : CoreId) (r : VRegs) (s : State) : Host.Outcome State Fault Refusal :=
  .next (issueBundle c { Slots.nops with vec := .int .sra r } s)

/-- VICEQ (R160). -/
def execViceq (c : CoreId) (r : VRegs) (s : State) : Host.Outcome State Fault Refusal :=
  .next (issueBundle c { Slots.nops with vec := .int .ceq r } s)

/-- VICLT (R160). -/
def execViclt (c : CoreId) (r : VRegs) (s : State) : Host.Outcome State Fault Refusal :=
  .next (issueBundle c { Slots.nops with vec := .int .clt r } s)

/-- VEXP (R164). -/
def execVexp (c : CoreId) (half : Bool) (vd : RegIx) (va : RegIx) (s : State) : Host.Outcome State Fault Refusal :=
  .next (issueBundle c { Slots.nops with vec := .special .exp half vd va } s)

/-- VLOG (R164). -/
def execVlog (c : CoreId) (half : Bool) (vd : RegIx) (va : RegIx) (s : State) : Host.Outcome State Fault Refusal :=
  .next (issueBundle c { Slots.nops with vec := .special .log half vd va } s)

/-- VRSQRT (R164). -/
def execVrsqrt (c : CoreId) (half : Bool) (vd : RegIx) (va : RegIx) (s : State) : Host.Outcome State Fault Refusal :=
  .next (issueBundle c { Slots.nops with vec := .special .rsqrt half vd va } s)

/-- VRCP (R164). -/
def execVrcp (c : CoreId) (half : Bool) (vd : RegIx) (va : RegIx) (s : State) : Host.Outcome State Fault Refusal :=
  .next (issueBundle c { Slots.nops with vec := .special .rcp half vd va } s)

/-- VSIG (R164). -/
def execVsig (c : CoreId) (half : Bool) (vd : RegIx) (va : RegIx) (s : State) : Host.Outcome State Fault Refusal :=
  .next (issueBundle c { Slots.nops with vec := .special .sig half vd va } s)

/-- VSILU (R164). -/
def execVsilu (c : CoreId) (half : Bool) (vd : RegIx) (va : RegIx) (s : State) : Host.Outcome State Fault Refusal :=
  .next (issueBundle c { Slots.nops with vec := .special .silu half vd va } s)

/-- VTANH (R164). -/
def execVtanh (c : CoreId) (half : Bool) (vd : RegIx) (va : RegIx) (s : State) : Host.Outcome State Fault Refusal :=
  .next (issueBundle c { Slots.nops with vec := .special .tanh half vd va } s)

/-- VCVTIF (R160). -/
def execVcvtif (c : CoreId) (vd : RegIx) (va : RegIx) (s : State) : Host.Outcome State Fault Refusal :=
  .next (issueBundle c { Slots.nops with vec := .vcvtif vd va } s)

/-- VCVTFI (R162). -/
def execVcvtfi (c : CoreId) (vd : RegIx) (va : RegIx) (s : State) : Host.Outcome State Fault Refusal :=
  .next (issueBundle c { Slots.nops with vec := .vcvtfi vd va } s)

/-- VPACKH (R160). -/
def execVpackh (c : CoreId) (vd : RegIx) (va : RegIx) (vb : RegIx) (s : State) : Host.Outcome State Fault Refusal :=
  .next (issueBundle c { Slots.nops with vec := .vpackh vd va vb } s)

/-- VUNPKL (R160). -/
def execVunpkl (c : CoreId) (vd : RegIx) (va : RegIx) (s : State) : Host.Outcome State Fault Refusal :=
  .next (issueBundle c { Slots.nops with vec := .vunpk false vd va } s)

/-- VUNPKH (R160). -/
def execVunpkh (c : CoreId) (vd : RegIx) (va : RegIx) (s : State) : Host.Outcome State Fault Refusal :=
  .next (issueBundle c { Slots.nops with vec := .vunpk true vd va } s)

/-- VBCST (R160). -/
def execVbcst (c : CoreId) (vd : RegIx) (va : RegIx) (s : State) : Host.Outcome State Fault Refusal :=
  .next (issueBundle c { Slots.nops with vec := .vbcst vd va } s)

/-- VEXT (R160). -/
def execVext (c : CoreId) (vd : RegIx) (va : RegIx) (lane : BitVec 5) (s : State) : Host.Outcome State Fault Refusal :=
  .next (issueBundle c { Slots.nops with vec := .vext vd va lane } s)

/-- VINS (R160). -/
def execVins (c : CoreId) (vd : RegIx) (va : RegIx) (lane : BitVec 5) (s : State) : Host.Outcome State Fault Refusal :=
  .next (issueBundle c { Slots.nops with vec := .vins vd va lane } s)

/-- VMOV (R160). -/
def execVmov (c : CoreId) (vd : RegIx) (va : RegIx) (s : State) : Host.Outcome State Fault Refusal :=
  .next (issueBundle c { Slots.nops with vec := .vmov vd va } s)

/-- VLD (R163). -/
def execVld (c : CoreId) (vd : RegIx) (va : RegIx) (off : BitVec 20) (s : State) : Host.Outcome State Fault Refusal :=
  .next (issueBundle c { Slots.nops with vec := .vld false vd va off } s)

/-- VST (R163). -/
def execVst (c : CoreId) (va : RegIx) (vb : RegIx) (off : BitVec 20) (s : State) : Host.Outcome State Fault Refusal :=
  .next (issueBundle c { Slots.nops with vec := .vst false va vb off } s)

/-- VLDH (R163). -/
def execVldh (c : CoreId) (vd : RegIx) (va : RegIx) (off : BitVec 20) (s : State) : Host.Outcome State Fault Refusal :=
  .next (issueBundle c { Slots.nops with vec := .vld true vd va off } s)

/-- VSTH (R163). -/
def execVsth (c : CoreId) (va : RegIx) (vb : RegIx) (off : BitVec 20) (s : State) : Host.Outcome State Fault Refusal :=
  .next (issueBundle c { Slots.nops with vec := .vst true va vb off } s)

/-- MLD (R163). -/
def execMld (c : CoreId) (tm : BitVec 2) (va : RegIx) (off : BitVec 20) (s : State) : Host.Outcome State Fault Refusal :=
  .next (issueBundle c { Slots.nops with vec := .mld tm va off } s)

/-- MST (R163). -/
def execMst (c : CoreId) (tm : BitVec 2) (va : RegIx) (off : BitVec 20) (s : State) : Host.Outcome State Fault Refusal :=
  .next (issueBundle c { Slots.nops with vec := .mst tm va off } s)

/-- MTR (R165). -/
def execMtr (c : CoreId) (tm : BitVec 2) (s : State) : Host.Outcome State Fault Refusal :=
  .next (issueBundle c { Slots.nops with vec := .mtr tm } s)

/-- MGETR (R165). -/
def execMgetr (c : CoreId) (vd : RegIx) (tm : BitVec 2) (ix : BitVec 4) (s : State) : Host.Outcome State Fault Refusal :=
  .next (issueBundle c { Slots.nops with vec := .mget false vd tm ix } s)

/-- MPUTR (R165). -/
def execMputr (c : CoreId) (va : RegIx) (tm : BitVec 2) (ix : BitVec 4) (s : State) : Host.Outcome State Fault Refusal :=
  .next (issueBundle c { Slots.nops with vec := .mput false va tm ix } s)

/-- MGETC (R165). -/
def execMgetc (c : CoreId) (vd : RegIx) (tm : BitVec 2) (ix : BitVec 4) (s : State) : Host.Outcome State Fault Refusal :=
  .next (issueBundle c { Slots.nops with vec := .mget true vd tm ix } s)

/-- MPUTC (R165). -/
def execMputc (c : CoreId) (va : RegIx) (tm : BitVec 2) (ix : BitVec 4) (s : State) : Host.Outcome State Fault Refusal :=
  .next (issueBundle c { Slots.nops with vec := .mput true va tm ix } s)

/-- RBEG (R166). -/
def execRbeg (c : CoreId) (va : RegIx) (cx : BitVec 2) (mode : BitVec 2) (km1 : BitVec 6) (s : State) : Host.Outcome State Fault Refusal :=
  .next (issueBundle c { Slots.nops with vec := .rbeg va cx mode km1 } s)

/-- RFEED (R166). -/
def execRfeed (c : CoreId) (va : RegIx) (cx : BitVec 2) (nm1 : BitVec 5) (s : State) : Host.Outcome State Fault Refusal :=
  .next (issueBundle c { Slots.nops with vec := .rfeed va cx nm1 } s)

/-- RFEEDX (R166). -/
def execRfeedx (c : CoreId) (va : RegIx) (vb : RegIx) (cx : BitVec 2) (nm1 : BitVec 5) (s : State) : Host.Outcome State Fault Refusal :=
  .next (issueBundle c { Slots.nops with vec := .rfeedx va vb cx nm1 } s)

/-- RGET (R169). -/
def execRget (c : CoreId) (vd : RegIx) (cx : BitVec 2) (part : BitVec 3) (s : State) : Host.Outcome State Fault Refusal :=
  .next (issueBundle c { Slots.nops with vec := .rget vd cx part } s)

/-- VRND (R171). -/
def execVrnd (c : CoreId) (vd : RegIx) (va : RegIx) (vb : RegIx) (vc : RegIx) (s : State) : Host.Outcome State Fault Refusal :=
  .next (issueBundle c { Slots.nops with vec := .vrnd vd va vb vc } s)

end Sys2Proof.Machine
end

