-- ==== Sys2Proof/Machine/Dispatch.lean ====
section
/-! DEFINITION. The meaning of every command: one arm per constructor, each a direct call of its meaning. -/

namespace Sys2Proof.Machine

def exec (i : Instr) (s : State) : Host.Outcome State Fault Refusal :=
  match i with
  | .bundleIssue c => Sys2Proof.Machine.execBundleIssue c s
  | .pnop c => Sys2Proof.Machine.execPnop c s
  | .pbld c a => Sys2Proof.Machine.execPbld c a s
  | .buildPunnet c => Sys2Proof.Machine.execBuildPunnet c s
  | .plook c a => Sys2Proof.Machine.execPlook c a s
  | .fetchLine c e => Sys2Proof.Machine.execFetchLine c e s
  | .laneLookup c e lane ecc => Sys2Proof.Machine.execLaneLookup c e lane ecc s
  | .blockIntegerHandOff c e => Sys2Proof.Machine.execBlockIntegerHandOff c e s
  | .delivery c e ecc => Sys2Proof.Machine.execDelivery c e ecc s
  | .slotVerdict c e => Sys2Proof.Machine.execSlotVerdict c e s
  | .pfence c emask bld => Sys2Proof.Machine.execPfence c emask bld s
  | .pinv c emask => Sys2Proof.Machine.execPinv c emask s
  | .acfg c tile sCd en => Sys2Proof.Machine.execAcfg c tile sCd en s
  | .aclr c tile entry nm1 => Sys2Proof.Machine.execAclr c tile entry nm1 s
  | .amrg c ta tb entry nm1 => Sys2Proof.Machine.execAmrg c ta tb entry nm1 s
  | .aldp c tile entry nm1 sAddr => Sys2Proof.Machine.execAldp c tile entry nm1 sAddr s
  | .astp c tile entry nm1 sAddr => Sys2Proof.Machine.execAstp c tile entry nm1 sAddr s
  | .oqnt c a => Sys2Proof.Machine.execOqnt c a s
  | .vnop c => Sys2Proof.Machine.execVnop c s
  | .vadd c r => Sys2Proof.Machine.execVadd c r s
  | .vsub c r => Sys2Proof.Machine.execVsub c r s
  | .vmul c r => Sys2Proof.Machine.execVmul c r s
  | .vfma c r => Sys2Proof.Machine.execVfma c r s
  | .vmin c r => Sys2Proof.Machine.execVmin c r s
  | .vmax c r => Sys2Proof.Machine.execVmax c r s
  | .vabs c vd va => Sys2Proof.Machine.execVabs c vd va s
  | .vneg c vd va => Sys2Proof.Machine.execVneg c vd va s
  | .vceq c r => Sys2Proof.Machine.execVceq c r s
  | .vclt c r => Sys2Proof.Machine.execVclt c r s
  | .vcle c r => Sys2Proof.Machine.execVcle c r s
  | .vsel c r => Sys2Proof.Machine.execVsel c r s
  | .bf16Forms c op r => Sys2Proof.Machine.execBf16Forms c op r s
  | .viadd c r => Sys2Proof.Machine.execViadd c r s
  | .visub c r => Sys2Proof.Machine.execVisub c r s
  | .vand c r => Sys2Proof.Machine.execVand c r s
  | .vor c r => Sys2Proof.Machine.execVor c r s
  | .vxor c r => Sys2Proof.Machine.execVxor c r s
  | .vshl c r => Sys2Proof.Machine.execVshl c r s
  | .vshr c r => Sys2Proof.Machine.execVshr c r s
  | .vsra c r => Sys2Proof.Machine.execVsra c r s
  | .viceq c r => Sys2Proof.Machine.execViceq c r s
  | .viclt c r => Sys2Proof.Machine.execViclt c r s
  | .vexp c half vd va => Sys2Proof.Machine.execVexp c half vd va s
  | .vlog c half vd va => Sys2Proof.Machine.execVlog c half vd va s
  | .vrsqrt c half vd va => Sys2Proof.Machine.execVrsqrt c half vd va s
  | .vrcp c half vd va => Sys2Proof.Machine.execVrcp c half vd va s
  | .vsig c half vd va => Sys2Proof.Machine.execVsig c half vd va s
  | .vsilu c half vd va => Sys2Proof.Machine.execVsilu c half vd va s
  | .vtanh c half vd va => Sys2Proof.Machine.execVtanh c half vd va s
  | .vcvtif c vd va => Sys2Proof.Machine.execVcvtif c vd va s
  | .vcvtfi c vd va => Sys2Proof.Machine.execVcvtfi c vd va s
  | .vpackh c vd va vb => Sys2Proof.Machine.execVpackh c vd va vb s
  | .vunpkl c vd va => Sys2Proof.Machine.execVunpkl c vd va s
  | .vunpkh c vd va => Sys2Proof.Machine.execVunpkh c vd va s
  | .vbcst c vd va => Sys2Proof.Machine.execVbcst c vd va s
  | .vext c vd va lane => Sys2Proof.Machine.execVext c vd va lane s
  | .vins c vd va lane => Sys2Proof.Machine.execVins c vd va lane s
  | .vmov c vd va => Sys2Proof.Machine.execVmov c vd va s
  | .vld c vd va off => Sys2Proof.Machine.execVld c vd va off s
  | .vst c va vb off => Sys2Proof.Machine.execVst c va vb off s
  | .vldh c vd va off => Sys2Proof.Machine.execVldh c vd va off s
  | .vsth c va vb off => Sys2Proof.Machine.execVsth c va vb off s
  | .mld c tm va off => Sys2Proof.Machine.execMld c tm va off s
  | .mst c tm va off => Sys2Proof.Machine.execMst c tm va off s
  | .mtr c tm => Sys2Proof.Machine.execMtr c tm s
  | .mgetr c vd tm ix => Sys2Proof.Machine.execMgetr c vd tm ix s
  | .mputr c va tm ix => Sys2Proof.Machine.execMputr c va tm ix s
  | .mgetc c vd tm ix => Sys2Proof.Machine.execMgetc c vd tm ix s
  | .mputc c va tm ix => Sys2Proof.Machine.execMputc c va tm ix s
  | .rbeg c va cx mode km1 => Sys2Proof.Machine.execRbeg c va cx mode km1 s
  | .rfeed c va cx nm1 => Sys2Proof.Machine.execRfeed c va cx nm1 s
  | .rfeedx c va vb cx nm1 => Sys2Proof.Machine.execRfeedx c va vb cx nm1 s
  | .rget c vd cx part => Sys2Proof.Machine.execRget c vd cx part s
  | .vrnd c vd va vb vc => Sys2Proof.Machine.execVrnd c vd va vb vc s
  | .nop c => Sys2Proof.Machine.execNop c s
  | .add c rd ra rb => Sys2Proof.Machine.execAdd c rd ra rb s
  | .sub c rd ra rb => Sys2Proof.Machine.execSub c rd ra rb s
  | .and c rd ra rb => Sys2Proof.Machine.execAnd c rd ra rb s
  | .or c rd ra rb => Sys2Proof.Machine.execOr c rd ra rb s
  | .xor c rd ra rb => Sys2Proof.Machine.execXor c rd ra rb s
  | .shl c rd ra rb => Sys2Proof.Machine.execShl c rd ra rb s
  | .shr c rd ra rb => Sys2Proof.Machine.execShr c rd ra rb s
  | .sra c rd ra rb => Sys2Proof.Machine.execSra c rd ra rb s
  | .slt c rd ra rb => Sys2Proof.Machine.execSlt c rd ra rb s
  | .sltu c rd ra rb => Sys2Proof.Machine.execSltu c rd ra rb s
  | .seq c rd ra rb => Sys2Proof.Machine.execSeq c rd ra rb s
  | .min c rd ra rb => Sys2Proof.Machine.execMin c rd ra rb s
  | .max c rd ra rb => Sys2Proof.Machine.execMax c rd ra rb s
  | .addi c rd ra imm => Sys2Proof.Machine.execAddi c rd ra imm s
  | .andi c rd ra imm => Sys2Proof.Machine.execAndi c rd ra imm s
  | .ori c rd ra imm => Sys2Proof.Machine.execOri c rd ra imm s
  | .shli c rd ra imm => Sys2Proof.Machine.execShli c rd ra imm s
  | .shri c rd ra imm => Sys2Proof.Machine.execShri c rd ra imm s
  | .srai c rd ra imm => Sys2Proof.Machine.execSrai c rd ra imm s
  | .lih c rd imm => Sys2Proof.Machine.execLih c rd imm s
  | .sld c rd ra imm => Sys2Proof.Machine.execSld c rd ra imm s
  | .sst c ra rb imm => Sys2Proof.Machine.execSst c ra rb imm s
  | .rdcr c rd imm => Sys2Proof.Machine.execRdcr c rd imm s
  | .sbdrain c => Sys2Proof.Machine.execSbdrain c s
  | .jmp c imm => Sys2Proof.Machine.execJmp c imm s
  | .bz c ra imm => Sys2Proof.Machine.execBz c ra imm s
  | .bnz c ra imm => Sys2Proof.Machine.execBnz c ra imm s
  | .jal c rd imm => Sys2Proof.Machine.execJal c rd imm s
  | .jr c ra => Sys2Proof.Machine.execJr c ra s
  | .loop c ra body => Sys2Proof.Machine.execLoop c ra body s
  | .loopi c count body => Sys2Proof.Machine.execLoopi c count body s
  | .endTask c => Sys2Proof.Machine.execEndTask c s
  | .taskEnd c => Sys2Proof.Machine.execTaskEnd c s
  | .mnop c => Sys2Proof.Machine.execMnop c s
  | .await c sAddr sLen sCnt => Sys2Proof.Machine.execAwait c sAddr sLen sCnt s
  | .dstart c sDesc => Sys2Proof.Machine.execDstart c sDesc s
  | .qput c sDst sFirst nm1 => Sys2Proof.Machine.execQput c sDst sFirst nm1 s
  | .qrd c rd q => Sys2Proof.Machine.execQrd c rd q s
  | .qmv c q sAddr nm1 => Sys2Proof.Machine.execQmv c q sAddr nm1 s
  | .qcnt c rd q => Sys2Proof.Machine.execQcnt c rd q s
  | .qrst c q => Sys2Proof.Machine.execQrst c q s
  | .dfence c => Sys2Proof.Machine.execDfence c s
  | .rtake c sb nsm1 bank => Sys2Proof.Machine.execRtake c sb nsm1 bank s
  | .scoreboardRangeFree c n => Sys2Proof.Machine.execScoreboardRangeFree c n s
  | .watchdog c => Sys2Proof.Machine.execWatchdog c s
  | .seqCtrlStart c => Sys2Proof.Machine.execSeqCtrlStart c s
  | .endOfTaskScrub c => Sys2Proof.Machine.execEndOfTaskScrub c s
  | .endOfTaskScrubDone c => Sys2Proof.Machine.execEndOfTaskScrubDone c s
  | .spdBankpwrWrite c on => Sys2Proof.Machine.execSpdBankpwrWrite c on s
  | .bankFillDone c => Sys2Proof.Machine.execBankFillDone c s
  | .seqWdogWrite c v => Sys2Proof.Machine.execSeqWdogWrite c v s
  | .scrubAccess c struck => Sys2Proof.Machine.execScrubAccess c struck s
  | .inboundWrite c src => Sys2Proof.Machine.execInboundWrite c src s
  | .heldInboundWriteLand c src => Sys2Proof.Machine.execHeldInboundWriteLand c src s
  | .inboundRead c src => Sys2Proof.Machine.execInboundRead c src s
  | .meshLinkWord at_ load word ecc => Sys2Proof.Machine.execMeshLinkWord at_ load word ecc s
  | .dmaComplete c id => Sys2Proof.Machine.execDmaComplete c id s
  | .acknowledgement at_ src => Sys2Proof.Machine.execAcknowledgement at_ src s
  | .packetArrive c src => Sys2Proof.Machine.execPacketArrive c src s
  | .packetCommit c q => Sys2Proof.Machine.execPacketCommit c q s
  | .queuePointerMismatch c q => Sys2Proof.Machine.execQueuePointerMismatch c q s
  | .hqQstatRst c q => Sys2Proof.Machine.execHqQstatRst c q s
  | .routePacket c src => Sys2Proof.Machine.execRoutePacket c src s
  | .contributionRecord c src layer => Sys2Proof.Machine.execContributionRecord c src layer s
  | .digestPacket c src layer => Sys2Proof.Machine.execDigestPacket c src layer s
  | .channelRead k src sevs => Sys2Proof.Machine.execChannelRead k src sevs s
  | .channelWrite k src => Sys2Proof.Machine.execChannelWrite k src s
  | .tileVerdict c id tries => Sys2Proof.Machine.execTileVerdict c id tries s
  | .berthTileCheck c id tries => Sys2Proof.Machine.execBerthTileCheck c id tries s
  | .tileReverify header => Sys2Proof.Machine.execTileReverify header s
  | .tgcGo ch => Sys2Proof.Machine.execTgcGo ch s
  | .tgcStop ch => Sys2Proof.Machine.execTgcStop ch s
  | .tgcRunEnd ch memcc => Sys2Proof.Machine.execTgcRunEnd ch memcc s
  | .memChsvcWrite ix v => Sys2Proof.Machine.execMemChsvcWrite ix v s
  | .bpoolCountWrite anch v => Sys2Proof.Machine.execBpoolCountWrite anch v s
  | .thermalSample r => Sys2Proof.Machine.execThermalSample r s
  | .thermalHoldExchange peerHold => Sys2Proof.Machine.execThermalHoldExchange peerHold s
  | .anchorageTemperature k => Sys2Proof.Machine.execAnchorageTemperature k s
  | .stepWorkDone nowUs => Sys2Proof.Machine.execStepWorkDone nowUs s
  | .stepBoundary ended => Sys2Proof.Machine.execStepBoundary ended s
  | .tidePulse nowUs highNs => Sys2Proof.Machine.execTidePulse nowUs highNs s
  | .tideLost nowUs => Sys2Proof.Machine.execTideLost nowUs s
  | .boundaryExchange b => Sys2Proof.Machine.execBoundaryExchange b s
  | .completionRecordWrite handle position samples drafts step => Sys2Proof.Machine.execCompletionRecordWrite handle position samples drafts step s
  | .mooringComplete handle => Sys2Proof.Machine.execMooringComplete handle s
  | .mooringExpiry handle => Sys2Proof.Machine.execMooringExpiry handle s
  | .resumeMoved handle => Sys2Proof.Machine.execResumeMoved handle s
  | .shipmentReceive rec f committed st images complete => Sys2Proof.Machine.execShipmentReceive rec f committed st images complete s
  | .shipmentTimeout ship => Sys2Proof.Machine.execShipmentTimeout ship s
  | .placerCopy layer expert bytes tileFailed => Sys2Proof.Machine.execPlacerCopy layer expert bytes tileFailed s
  | .containedFaultResponse c => Sys2Proof.Machine.execContainedFaultResponse c s
  | .fatalFault cause snapshot => Sys2Proof.Machine.execFatalFault cause snapshot s
  | .hmWatchdog h => Sys2Proof.Machine.execHmWatchdog h s
  | .hmSramError => Sys2Proof.Machine.execHmSramError s
  | .journalCommit firstOk retryOk => Sys2Proof.Machine.execJournalCommit firstOk retryOk s
  | .mbxDoorbell f v => Sys2Proof.Machine.execMbxDoorbell f v s
  | .mbxNop ix => Sys2Proof.Machine.execMbxNop ix s
  | .identify ix => Sys2Proof.Machine.execIdentify ix s
  | .moduleStatus ix => Sys2Proof.Machine.execModuleStatus ix s
  | .ticketQuery ix t => Sys2Proof.Machine.execTicketQuery ix t s
  | .ticketCancel ix t => Sys2Proof.Machine.execTicketCancel ix t s
  | .ticketExpiry t => Sys2Proof.Machine.execTicketExpiry t s
  | .modelLoad ix src expected stage sig m bad => Sys2Proof.Machine.execModelLoad ix src expected stage sig m bad s
  | .modelUnload ix digest => Sys2Proof.Machine.execModelUnload ix digest s
  | .bindingQuery ix first count => Sys2Proof.Machine.execBindingQuery ix first count s
  | .tileWrite ix header content fetch => Sys2Proof.Machine.execTileWrite ix header content fetch s
  | .expertStats ix layer first count => Sys2Proof.Machine.execExpertStats ix layer first count s
  | .sliceForm ix n d s_ origin => Sys2Proof.Machine.execSliceForm ix n d s_ origin s
  | .portUnfence ix p => Sys2Proof.Machine.execPortUnfence ix p s
  | .portStatus ix => Sys2Proof.Machine.execPortStatus ix s
  | .reqSubmit f r entry rec prompt => Sys2Proof.Machine.execReqSubmit f r entry rec prompt s
  | .reqCancel ix name => Sys2Proof.Machine.execReqCancel ix name s
  | .reqPause ix handle ttl => Sys2Proof.Machine.execReqPause ix handle ttl s
  | .reqResume ix handle => Sys2Proof.Machine.execReqResume ix handle s
  | .reqShip ix handle order => Sys2Proof.Machine.execReqShip ix handle order s
  | .reqStatus ix handle => Sys2Proof.Machine.execReqStatus ix handle s
  | .adapterInstall ix id fs fetch fits => Sys2Proof.Machine.execAdapterInstall ix id fs fetch fits s
  | .adapterRemove ix id => Sys2Proof.Machine.execAdapterRemove ix id s
  | .dataWrite ix set data fetch fits => Sys2Proof.Machine.execDataWrite ix set data fetch fits s
  | .tuneStart ix a => Sys2Proof.Machine.execTuneStart ix a s
  | .adapterExport ix id version fetch => Sys2Proof.Machine.execAdapterExport ix id version fetch s
  | .attest ix nonce fetch => Sys2Proof.Machine.execAttest ix nonce fetch s
  | .fwUpdate ix src sig => Sys2Proof.Machine.execFwUpdate ix src sig s
  | .fwActivate ix slotB => Sys2Proof.Machine.execFwActivate ix slotB s
  | .tenantAssignFunction ix t f => Sys2Proof.Machine.execTenantAssignFunction ix t f s
  | .tenantGiveSlot ix t k => Sys2Proof.Machine.execTenantGiveSlot ix t k s
  | .tenantClearSlot ix k => Sys2Proof.Machine.execTenantClearSlot ix k s
  | .tenantRelease ix t => Sys2Proof.Machine.execTenantRelease ix t s
  | .bbxRead ix first count fetch => Sys2Proof.Machine.execBbxRead ix first count fetch s
  | .tgcRun ix ch ctrl range seed fixed loops => Sys2Proof.Machine.execTgcRun ix ch ctrl range seed fixed loops s
  | .pciRdbDoorbell f r v => Sys2Proof.Machine.execPciRdbDoorbell f r v s
  | .ringEnable f r v => Sys2Proof.Machine.execRingEnable f r v s
  | .ringDisable f r v => Sys2Proof.Machine.execRingDisable f r v s
  | .ringInterruptTimer f r => Sys2Proof.Machine.execRingInterruptTimer f r s
  | .busMasterEnable f on => Sys2Proof.Machine.execBusMasterEnable f on s
  | .functionLevelReset f => Sys2Proof.Machine.execFunctionLevelReset f s
  | .perstAssert => Sys2Proof.Machine.execPerstAssert s
  | .ideIntegrityFail fns => Sys2Proof.Machine.execIdeIntegrityFail fns s
  | .registerWrite addr v src => Sys2Proof.Machine.execRegisterWrite addr v src s
  | .xlkMismatchClear => Sys2Proof.Machine.execXlkMismatchClear s
  | .xlkUnfence p => Sys2Proof.Machine.execXlkUnfence p s
  | .portEnable p => Sys2Proof.Machine.execPortEnable p s
  | .portTrained p low high => Sys2Proof.Machine.execPortTrained p low high s
  | .portRetry p => Sys2Proof.Machine.execPortRetry p s
  | .frameReceive p fr withinCredits => Sys2Proof.Machine.execFrameReceive p fr withinCredits s
  | .idleFrame p fr => Sys2Proof.Machine.execIdleFrame p fr s
  | .writeFrame p fr => Sys2Proof.Machine.execWriteFrame p fr s
  | .readRequest p fr => Sys2Proof.Machine.execReadRequest p fr s
  | .readResponse p fr => Sys2Proof.Machine.execReadResponse p fr s
  | .writeAck p fr => Sys2Proof.Machine.execWriteAck p fr s
  | .refusalFrame p fr => Sys2Proof.Machine.execRefusalFrame p fr s
  | .contributionFrame p fr => Sys2Proof.Machine.execContributionFrame p fr s
  | .contributionRecheck p => Sys2Proof.Machine.execContributionRecheck p s
  | .messageFrame p fr => Sys2Proof.Machine.execMessageFrame p fr s
  | .musterRecord m => Sys2Proof.Machine.execMusterRecord m s
  | .musterTimeout => Sys2Proof.Machine.execMusterTimeout s
  | .haltMessage step => Sys2Proof.Machine.execHaltMessage step s
  | .stepAbortMessage step => Sys2Proof.Machine.execStepAbortMessage step s
  | .linkNak p fr => Sys2Proof.Machine.execLinkNak p fr s
  | .identityFrame p serial port set x y z => Sys2Proof.Machine.execIdentityFrame p serial port set x y z s
  | .uplinkData u d => Sys2Proof.Machine.execUplinkData u d s
  | .uplinkAck u d => Sys2Proof.Machine.execUplinkAck u d s
  | .uplinkOpen u d => Sys2Proof.Machine.execUplinkOpen u d s
  | .uplinkClose u d => Sys2Proof.Machine.execUplinkClose u d s
  | .uplinkReset u d => Sys2Proof.Machine.execUplinkReset u d s
  | .uplinkAckTimer flow => Sys2Proof.Machine.execUplinkAckTimer flow s
  | .uplinkRetransmit flow => Sys2Proof.Machine.execUplinkRetransmit flow s
  | .ptpMessage u masterNs errNs => Sys2Proof.Machine.execPtpMessage u masterNs errNs s
  | .rackMailboxRequest seq opcode args => Sys2Proof.Machine.execRackMailboxRequest seq opcode args s
  | .rackPoll seq => Sys2Proof.Machine.execRackPoll seq s
  | .rackSetCoord seq v => Sys2Proof.Machine.execRackSetCoord seq v s
  | .rackStatus seq => Sys2Proof.Machine.execRackStatus seq s
  | .getVersion f => Sys2Proof.Machine.execGetVersion f s
  | .getCapabilities f => Sys2Proof.Machine.execGetCapabilities f s
  | .negotiateAlgorithms f ok => Sys2Proof.Machine.execNegotiateAlgorithms f ok s
  | .getDigests f => Sys2Proof.Machine.execGetDigests f s
  | .getCertificate f slot off len => Sys2Proof.Machine.execGetCertificate f slot off len s
  | .challenge f slot nonce => Sys2Proof.Machine.execChallenge f slot nonce s
  | .getMeasurements f index nonce => Sys2Proof.Machine.execGetMeasurements f index nonce s
  | .keyExchange f => Sys2Proof.Machine.execKeyExchange f s
  | .finish f sess verified => Sys2Proof.Machine.execFinish f sess verified s
  | .heartbeat f sess => Sys2Proof.Machine.execHeartbeat f sess s
  | .keyUpdate f sess => Sys2Proof.Machine.execKeyUpdate f sess s
  | .endSession f sess => Sys2Proof.Machine.execEndSession f sess s
  | .vendorDefinedRequest f sess vendorOk slot key => Sys2Proof.Machine.execVendorDefinedRequest f sess vendorOk slot key s
  | .inputUndervoltage => Sys2Proof.Machine.execInputUndervoltage s
  | .inputOvervoltage => Sys2Proof.Machine.execInputOvervoltage s
  | .inputLow => Sys2Proof.Machine.execInputLow s
  | .inputHigh => Sys2Proof.Machine.execInputHigh s
  | .railOutOfRegulation rail => Sys2Proof.Machine.execRailOutOfRegulation rail s
  | .pllLossOfLock => Sys2Proof.Machine.execPllLossOfLock s
  | .coldStart => Sys2Proof.Machine.execColdStart s
  | .railSequencing failed => Sys2Proof.Machine.execRailSequencing failed s
  | .pllLock ok pcieUp => Sys2Proof.Machine.execPllLock ok pcieUp s
  | .bootRom sramOk straps => Sys2Proof.Machine.execBootRom sramOk straps s
  | .firmwareVerification a b => Sys2Proof.Machine.execFirmwareVerification a b s
  | .memoryTraining failed => Sys2Proof.Machine.execMemoryTraining failed s
  | .memorySelfTest failed => Sys2Proof.Machine.execMemorySelfTest failed s
  | .portTrainingStage => Sys2Proof.Machine.execPortTrainingStage s
  | .identityCheck crossOk => Sys2Proof.Machine.execIdentityCheck crossOk s
  | .moduleReady ms => Sys2Proof.Machine.execModuleReady ms s
  | .startRetry => Sys2Proof.Machine.execStartRetry s
  | .warmStart => Sys2Proof.Machine.execWarmStart s
  | .dbgTrst => Sys2Proof.Machine.execDbgTrst s
  | .debugUpdateDr v => Sys2Proof.Machine.execDebugUpdateDr v s
  | .debugCaptureDr => Sys2Proof.Machine.execDebugCaptureDr s
  | .dbgNop tag => Sys2Proof.Machine.execDbgNop tag s
  | .status tag => Sys2Proof.Machine.execStatus tag s
  | .ident tag ix => Sys2Proof.Machine.execIdent tag ix s
  | .bbx tag off => Sys2Proof.Machine.execBbx tag off s
  | .chal tag scope => Sys2Proof.Machine.execChal tag scope s
  | .challengeExpiry => Sys2Proof.Machine.execChallengeExpiry s
  | .chalrd tag ix => Sys2Proof.Machine.execChalrd tag ix s
  | .tokwr tag ix d => Sys2Proof.Machine.execTokwr tag ix d s
  | .unlock tag sig => Sys2Proof.Machine.execUnlock tag sig s
  | .lock tag => Sys2Proof.Machine.execLock tag s
  | .warm tag => Sys2Proof.Machine.execWarm tag s
  | .hmhalt tag h => Sys2Proof.Machine.execHmhalt tag h s
  | .hmrun tag h => Sys2Proof.Machine.execHmrun tag h s
  | .hmstep tag h => Sys2Proof.Machine.execHmstep tag h s
  | .hmbrk tag h slot en d => Sys2Proof.Machine.execHmbrk tag h slot en d s
  | .hmregr tag h r => Sys2Proof.Machine.execHmregr tag h r s
  | .hmregw tag h r d => Sys2Proof.Machine.execHmregw tag h r d s
  | .cchalt tag c all => Sys2Proof.Machine.execCchalt tag c all s
  | .ccrun tag c all => Sys2Proof.Machine.execCcrun tag c all s
  | .ccstep tag c all => Sys2Proof.Machine.execCcstep tag c all s
  | .ccbrk tag c slot en d => Sys2Proof.Machine.execCcbrk tag c slot en d s
  | .ccregr tag c cls r w => Sys2Proof.Machine.execCcregr tag c cls r w s
  | .ccregw tag c cls r w d => Sys2Proof.Machine.execCcregw tag c cls r w d s
  | .memrd tag addr => Sys2Proof.Machine.execMemrd tag addr s
  | .memwr tag addr d => Sys2Proof.Machine.execMemwr tag addr d s
  | .pnmrd tag c off => Sys2Proof.Machine.execPnmrd tag c off s
  | .stflag tag d => Sys2Proof.Machine.execStflag tag d s
  | .ccbist tag c fail => Sys2Proof.Machine.execCcbist tag c fail s
  | .bbxReadSerial n => Sys2Proof.Machine.execBbxReadSerial n s
  | .bbxReadStatus n => Sys2Proof.Machine.execBbxReadStatus n s
  | .bbxReadData addr n => Sys2Proof.Machine.execBbxReadData addr n s
  | .perstDeassert => Sys2Proof.Machine.execPerstDeassert s
  | .hostReadCompletion f tag ok poisoned data => Sys2Proof.Machine.execHostReadCompletion f tag ok poisoned data s
  | .hostReadTimeout f tag => Sys2Proof.Machine.execHostReadTimeout f tag s
  | .ideKm stream fns sess => Sys2Proof.Machine.execIdeKm stream fns sess s
  | .timeSourceLost => Sys2Proof.Machine.execTimeSourceLost s
  | .uplinkDown u => Sys2Proof.Machine.execUplinkDown u s
  | .uplinkUp u => Sys2Proof.Machine.execUplinkUp u s
  | .portDown p => Sys2Proof.Machine.execPortDown p s
  | .uplinkFlowTimeout flow => Sys2Proof.Machine.execUplinkFlowTimeout flow s
  | .msixVectorUnmask f v => Sys2Proof.Machine.execMsixVectorUnmask f v s
  | .hostProtocolError f kind => Sys2Proof.Machine.execHostProtocolError f kind s
  | .rackFrameUndefined dest crcOk len seq => Sys2Proof.Machine.execRackFrameUndefined dest crcOk len seq s
  | .uplinkFrameDropped u pause => Sys2Proof.Machine.execUplinkFrameDropped u pause s
  | .inputBandReturn => Sys2Proof.Machine.execInputBandReturn s
  | .tideShiftLimit nowUs => Sys2Proof.Machine.execTideShiftLimit nowUs s
  | .ringPointerMismatch f r => Sys2Proof.Machine.execRingPointerMismatch f r s
  | .mailboxWindowWrite f off v => Sys2Proof.Machine.execMailboxWindowWrite f off v s
  | .bbxUndefinedCommand cmd n => Sys2Proof.Machine.execBbxUndefinedCommand cmd n s

end Sys2Proof.Machine
end

