-- ==== Sys2Proof/Safety.lean ====
section
/-! DEFINITION. What counts as a safe run, and the terms in which the statements speak of a step: canonical forms, a core that
takes its next bundle, what alone changes, vector results. -/

namespace Sys2Proof.Machine

/-! ## Safe runs -/

/-- A command completes in a state: it neither faults nor is refused. -/
def completes (i : Instr) (s : State) : Prop := ∃ t, exec i s = .next t

/-- Memory, poison marks and cores in canonical form. -/
def State.canonical (s : State) : Bool :=
  Memory.wf s.mem && NSet.wf s.poison && Sparse.wf Core.reset s.cores

/-- R382: a slice formation in progress names a size and an origin of the table. -/
def State.formingOk (s : State) : Bool := s.fab.forming.all fun f => isPow f.n && decide (f.origin < 8)

/-! ## What changes -/

/-- Core `c` becomes `k`, and nothing else of the block changes. -/
def State.onlyCore (s t : State) (c : CoreId) (k : Core) : Prop :=
  t = { s with cores := t.cores } ∧ t.core c = k ∧ ∀ d, d ≠ c → t.core d = s.core d

/-- Core `c` becomes `k`, the bytes from `key` on become `bs` and whole words among them lose their poison marks and the bit
errors that no read has found (R263); nothing else of the block changes. -/
def State.coreAndBytes (s t : State) (c : CoreId) (k : Core) (key : Nat) (bs : List Byte) : Prop :=
  t = { s with cores := t.cores, mem := t.mem, poison := t.poison, flips := t.flips } ∧ t.core c = k
    ∧ (∀ d, d ≠ c → t.core d = s.core d)
    ∧ (∀ i, i < bs.length → t.byte (key + i) = bs.getD i 0)
    ∧ (∀ a, a < key ∨ key + bs.length ≤ a → t.byte a = s.byte a)
    ∧ (∀ w, w ∈ t.poison ↔ w ∈ s.poison ∧ ¬(key ≤ 8 * w ∧ 8 * w + 8 ≤ key + bs.length))
    ∧ ∀ f, f ∈ t.flips ↔ f ∈ s.flips ∧ ¬(key ≤ 8 * f.1 ∧ 8 * f.1 + 8 ≤ key + bs.length)

/-! ## A core that takes its next bundle (R245, R248, R451, R494) -/

/-- The core issues in this cc: a task runs, the module is not in state 3, the bundle has been fetched, no breakpoint stands at
its program counter, and the bundle lies in the program region. -/
def canIssue (c : CoreId) (s : State) : Prop :=
  (s.core c).mayIssue = true ∧ s.hm.state ≠ 3 ∧ (s.core c).seq.fetchAt ≤ (s.core c).seq.cc ∧ (s.core c).atBreak = false
    ∧ (s.core c).region.1 ≤ (s.core c).seq.pc.toNat ∧ (s.core c).seq.pc.toNat + 32 ≤ (s.core c).region.2

/-- The core as its next bundle finds it: results that are due have landed, entries that are over are free. -/
def State.front (s : State) (c : CoreId) : Core := (s.core c).present

/-- The point of issue of the next bundle. -/
def State.point (s : State) (c : CoreId) : At := (s.core c).point c

/-- The core after a bundle whose effect on it is `k` has issued, control going on as `f` says (R253, R254). -/
def State.issued (s : State) (c : CoreId) (k : Core) (f : Flow) : Core := k.afterIssue (s.core c).seq.pc.toNat f

/-- R255 to R257, R245, R261, R283: the scoreboard takes the ranges in this cc, and none of them faults. -/
def Core.takes (k : Core) (rs : List SbEntry) : Prop :=
  k.blockMask rs = 0 ∧ rs.length ≤ k.freeEntries ∧ k.freshWait rs = false ∧ (∀ e ∈ rs, k.rangeFault e = none)
    ∧ selfClash rs = false

/-- R263: no bit error that has not been found yet lies in the core's scratchpad, punnet or accumulator memory. -/
def State.calm (s : State) (c : CoreId) : Bool :=
  (s.flips.all fun f => decide (f.1 < spKey c 0 / 8) || decide (spKey c 0 / 8 + 131072 ≤ f.1)) && (s.core c).upsets == []

/-- R155: the vector pipe takes another instruction. -/
def State.pipeFree (s : State) (c : CoreId) (p : Nat) : Prop := ((s.front c).pipe p).next ≤ (s.core c).seq.cc

/-- R155, R158, R178: an instruction on pipe `p` that writes `v` to a vector register, visible `lat` cc later. -/
def Core.vectorResult (k : Core) (x : At) (p interval lat : Nat) (vd : RegIx) (nan : Bool) (v : BitVec 1024) : Core :=
  let k1 := (k.usePipe x p interval lat).putV x lat vd v
  { k1 with cb := if nan then { k1.cb with vecNanout := bump k1.cb.vecNanout } else k1.cb }

/-! ## Functions, mailboxes, tickets (R399, R411, R415) -/

/-- Function `f` becomes `x`, and nothing else of the block changes. -/
def State.onlyFn (s t : State) (f : FnId) (x : Func) : Prop :=
  t = { s with host := { s.host with fns := t.host.fns } } ∧ t.fn f = x ∧ ∀ g, g ≠ f → t.fn g = s.fn g

/-- R407, R414: a command's buffers can be reached: host memory of a function that is a bus master, or the rack's flows. -/
def State.hasBuffers (s : State) : Issuer → Bool
  | .fn f => s.mastering f
  | .rack => true

/-- R415: the ticket that a command gets, and the state in which its issuer has been told. -/
def State.told (s : State) (i : Issuer) (op : W16) (unit : Byte) (total object : Nat) : W32 × State :=
  let n := Sparse.get 0 s.host.serials (issuerNo i)
  let k : W32 := BitVec.ofNat 32 (issuerNo i * 2 ^ 25 + n)
  let x : Ticket := ⟨k, op, .running, unit, 0xFFFF, total, 0, 0, object⟩
  (k, ({ s with host := { s.host with
    tickets := s.host.tickets ++ [x], serials := Sparse.put 0 s.host.serials (issuerNo i) ((n + 1) % 2 ^ 25) } }).answerMbx i
      stTicket k [])

/-- R415: ticket `k` has finished so. -/
def State.ended (t : State) (k : W32) (st : W16) (result : W64) : Prop :=
  ∃ x, t.ticketOf k = some x ∧ x.st = .finished ∧ x.status = st ∧ x.result = result

end Sys2Proof.Machine
end

