-- ==== Sys2Proof/Certificates/Slice0/Obligations.lean ====
section
/-! DEFINITION. The statements for the provers. -/

open Sys2Proof Sys2Proof.Machine

/-! ## The control slot -/

/-- R252, R243: the operations on scalar registers, register and immediate, and LIH: the result is visible one cc later, to s[rd]
alone; RDCR reads the core's own control window, six cc of latency. Nothing else of the block changes but the sequencer's
own registers. Where the manual is silent it rests on choices and readings of the model, notes/assumptions: DEDUCED 4, 5,
19. -/
def Obligations.ScalarResults : Prop :=
  (∀ (c : CoreId) (rd ra rb : RegIx) (s : State), canIssue c s →
    let k := s.front c
    let a := k.sreg ra
    let b := k.sreg rb
    ∀ p ∈ [(Instr.add c rd ra rb, a + b), (.sub c rd ra rb, a - b), (.and c rd ra rb, a &&& b), (.or c rd ra rb, a ||| b),
        (.xor c rd ra rb, a ^^^ b), (.shl c rd ra rb, a <<< (b.toNat % 64)), (.shr c rd ra rb, a >>> (b.toNat % 64)),
        (.sra c rd ra rb, a.sshiftRight (b.toNat % 64)), (.slt c rd ra rb, if a.toInt < b.toInt then 1 else 0),
        (.sltu c rd ra rb, if a.toNat < b.toNat then 1 else 0), (.seq c rd ra rb, if a = b then 1 else 0),
        (.min c rd ra rb, if a.toInt ≤ b.toInt then a else b), (.max c rd ra rb, if a.toInt ≤ b.toInt then b else a)],
      ∃ t, exec p.1 s = .next t ∧ s.onlyCore t c (s.issued c (k.putS (s.point c) 0 1 rd p.2) .seq))
    ∧ (∀ (c : CoreId) (rd ra : RegIx) (imm : W32) (sh : BitVec 6) (s : State), canIssue c s →
    let k := s.front c
    let a := k.sreg ra
    ∀ p ∈ [(Instr.addi c rd ra imm, a + imm.signExtend 64), (.andi c rd ra imm, a &&& imm.setWidth 64),
        (.ori c rd ra imm, a ||| imm.setWidth 64), (.shli c rd ra sh, a <<< sh.toNat), (.shri c rd ra sh, a >>> sh.toNat),
        (.srai c rd ra sh, a.sshiftRight sh.toNat),
        (.lih c rd imm, imm.setWidth 64 <<< 32 ||| (k.sreg rd &&& 0xFFFFFFFF#64))],
      ∃ t, exec p.1 s = .next t ∧ s.onlyCore t c (s.issued c (k.putS (s.point c) 0 1 rd p.2) .seq))
    ∧ (∀ (c : CoreId) (rd : RegIx) (imm : BitVec 16) (s : State), canIssue c s →
    ∃ t, exec (.rdcr c rd imm) s = .next t
      ∧ s.onlyCore t c (s.issued c ((s.front c).putS (s.point c) 0 6 rd ((s.front c).readReg imm.toNat)) .seq))

/-- R247, R248, R246: bundles that only move the sequencer on; SBDRAIN and DFENCE once there is nothing to wait for; END
stops issue. Where the manual is silent it rests on choices and readings of the model, notes/assumptions: DEDUCED 4, 19. -/
def Obligations.BundlesWithoutAResult : Prop :=
  ∀ (c : CoreId) (s : State), canIssue c s →
    let k := s.front c
    (∀ i ∈ [Instr.nop c, .pnop c, .vnop c, .mnop c], ∃ t, exec i s = .next t ∧ s.onlyCore t c (s.issued c k .seq))
      ∧ (k.sb.toList.all (·.isNone) = true →
          ∃ t, exec (.sbdrain c) s = .next t ∧ s.onlyCore t c (s.issued c k .seq))
      ∧ (k.dqu.transfers = [] → k.dqu.puts = [] →
          ∃ t, exec (.dfence c) s = .next t ∧ s.onlyCore t c (s.issued c k .seq))
      ∧ ∃ t, exec (.endTask c) s = .next t ∧ s.onlyCore t c (s.issued c k .stop) ∧ (t.core c).seq.ended = true

/-- R248, R259, R268: a bundle that must wait stalls: nothing of it happens, one cc passes, and SEQ_STALL says why. Where
the manual is silent it rests on choices and readings of the model, notes/assumptions: DEDUCED 4, 19, 20, 28. -/
def Obligations.WaitingBundlesStall : Prop :=
  ∀ (c : CoreId) (s : State), canIssue c s →
    let k := s.front c
    let waits := fun (i : Instr) (bits : Nat) => ∃ t, exec i s = .next t
      ∧ t = { s with cores := t.cores } ∧ (∀ d, d ≠ c → t.core d = s.core d)
      ∧ (t.core c).seq = { k.seq with state := .stalled, stall := BitVec.ofNat 64 bits, cc := k.seq.cc + 1 }
      ∧ (t.core c).ca = { k.ca with seqStallcc := bump k.ca.seqStallcc }
      ∧ (t.core c).s = k.s ∧ (t.core c).v = k.v ∧ (t.core c).m = k.m ∧ (t.core c).sb = k.sb ∧ (t.core c).pend = k.pend
    (k.sb.toList.any (·.isSome) = true → waits (.sbdrain c) (stallDrain + packFields 1 (k.sb.toList.map fun o => bit o.isSome) * 2 ^ 32))
      ∧ (k.dqu.transfers ≠ [] ∨ k.dqu.puts ≠ [] → waits (.dfence c) stallDrain)
      ∧ (∀ m b, (∃ e : EngineId, m.getLsbD e.val = true ∧ k.engines[e].queue ≠ []) ∨ (b = true ∧ k.builds ≠ []) →
          waits (.pfence c m b) stallDrain)

/-- R252 to R254: a taken branch goes to its target, which lies in the innermost open body; BZ and BNZ that are not taken go on; JAL
saves the offset of the next bundle; LOOP and LOOPI open a body of `body + 1` bundles, inside the body that is open and no
deeper than four. Where the manual is silent it rests on choices and readings of the model, notes/assumptions: DEDUCED 4,
19. -/
def Obligations.BranchesAndLoopsIssue : Prop :=
  (∀ (c : CoreId) (rd ra : RegIx) (imm : BitVec 24) (s : State), canIssue c s →
    let k := s.front c
    let x := s.point c
    let t1 : Int := (x.pc.toNat : Int) + 32 * imm.toInt
    let t2 : Nat := (k.sreg ra).toNat % 2 ^ 20
    (k.inBody t1 = true →
        (∃ t, exec (.jmp c imm) s = .next t ∧ s.onlyCore t c (s.issued c k (.jump t1)))
        ∧ (k.sreg ra = 0 → ∃ t, exec (.bz c ra imm) s = .next t ∧ s.onlyCore t c (s.issued c k (.jump t1)))
        ∧ (k.sreg ra ≠ 0 → ∃ t, exec (.bnz c ra imm) s = .next t ∧ s.onlyCore t c (s.issued c k (.jump t1)))
        ∧ ∃ t, exec (.jal c rd imm) s = .next t
            ∧ s.onlyCore t c (s.issued c (k.putS x 0 1 rd (BitVec.ofNat 64 (x.pc.toNat + 32))) (.jump t1)))
      ∧ (k.sreg ra ≠ 0 → ∃ t, exec (.bz c ra imm) s = .next t ∧ s.onlyCore t c (s.issued c k .seq))
      ∧ (k.sreg ra = 0 → ∃ t, exec (.bnz c ra imm) s = .next t ∧ s.onlyCore t c (s.issued c k .seq))
      ∧ (t2 % 32 = 0 → k.inBody t2 = true →
          ∃ t, exec (.jr c ra) s = .next t ∧ s.onlyCore t c (s.issued c k (.jump t2))))
    ∧ (∀ (c : CoreId) (ra : RegIx) (count : BitVec 20) (body : BitVec 12) (s : State), canIssue c s →
    let k := s.front c
    let pc := (s.core c).seq.pc.toNat
    k.seq.loops.length < 4 → (∀ f ∈ k.seq.loops.head?, pc + 32 * (body.toNat + 1) ≤ f.last ∧ f.last ≠ pc) →
      (∃ t, exec (.loopi c count body) s = .next t ∧ s.onlyCore t c (s.issued c k (.loop count.toNat (body.toNat + 1))))
        ∧ ((k.sreg ra).toNat < 2 ^ 32 →
            ∃ t, exec (.loop c ra body) s = .next t
              ∧ s.onlyCore t c (s.issued c k (.loop (k.sreg ra).toNat (body.toNat + 1)))))

/-- R253, R254: where control goes once a bundle at `pc` has issued, the next offset lying in the window: the next bundle, the
target of a branch, fetched in 2 cc or 8, the first bundle of a loop's body, or the bundle behind a body whose count is zero; at a body's
last bundle, back to its first one while passes are left, else behind it. Where the manual is silent it rests on choices and
readings of the model, notes/assumptions: DEDUCED 19; DESIGN CHOICE 25. -/
def Obligations.WhereControlGoes : Prop :=
  (∀ (k : Core) (pc : Nat), k.seq.state ≠ .faulted → k.seq.loops = [] → k.seq.stepOnce = false →
    (pc + 32 < 2 ^ 20 →
        (k.afterIssue pc .seq).seq.pc.toNat = pc + 32 ∧ (k.afterIssue pc .seq).seq.fetchAt = k.seq.cc + 1
          ∧ (k.afterIssue pc .seq).seq.cc = k.seq.cc + 1
          ∧ (k.afterIssue pc .seq).seq.state = .running)
      ∧ (∀ t : Nat, t < 2 ^ 20 →
          (k.afterIssue pc (.jump t)).seq.pc.toNat = t ∧ (k.afterIssue pc (.jump t)).seq.state = .running
            ∧ (k.afterIssue pc (.jump t)).seq.cc = k.seq.cc + 1
            ∧ (k.afterIssue pc (.jump t)).seq.fetchAt
                = k.seq.cc + if t / 128 ∈ fetched k.seq.ibuf pc then 2 else 8)
      ∧ (∀ n body : Nat, 0 < n → pc + 32 < 2 ^ 20 →
          (k.afterIssue pc (.loop n body)).seq.loops = [⟨pc + 32, pc + 32 * body, n - 1⟩]
            ∧ (k.afterIssue pc (.loop n body)).seq.pc.toNat = pc + 32
            ∧ (k.afterIssue pc (.loop n body)).seq.fetchAt = k.seq.cc + 1)
      ∧ (∀ body : Nat, pc + 32 * body + 32 < 2 ^ 20 →
          (k.afterIssue pc (.loop 0 body)).seq.pc.toNat = pc + 32 * body + 32
            ∧ (k.afterIssue pc (.loop 0 body)).seq.fetchAt = k.seq.cc + 2))
    ∧ (∀ (k : Core) (f : LoopFrame) (r : List LoopFrame), k.seq.state ≠ .faulted → k.seq.loops = f :: r → k.seq.stepOnce = false →
    f.first < 2 ^ 20 → f.last + 32 < 2 ^ 20 →
      (0 < f.left → (k.afterIssue f.last .seq).seq.pc.toNat = f.first
          ∧ (k.afterIssue f.last .seq).seq.loops = { f with left := f.left - 1 } :: r)
        ∧ (f.left = 0 → (∀ g ∈ r, g.last ≠ f.last) →
            (k.afterIssue f.last .seq).seq.pc.toNat = f.last + 32 ∧ (k.afterIssue f.last .seq).seq.loops = r)
        ∧ (∀ pc, pc ≠ f.last → pc + 32 < 2 ^ 20 →
            (k.afterIssue pc .seq).seq.pc.toNat = pc + 32 ∧ (k.afterIssue pc .seq).seq.loops = f :: r))

/-- R158, R249: a scalar result is read by an instruction that issues `lat` cc after its own or later, and by none before;
s0 reads as zero. Where the manual is silent it rests on choices and readings of the model, notes/assumptions: DEDUCED 19. -/
def Obligations.ScalarResultsAreVisibleAtTheirLatency : Prop :=
  ∀ (k : Core) (x : At) (slot lat : Nat) (r : RegIx) (v : W64) (now : Nat), k.pend = [] →
    ((k.putS x slot lat r v).settle now).sreg r = (if r = 0 then 0 else if x.now + lat ≤ now then v else k.sreg r)
      ∧ ∀ q, q ≠ r → ((k.putS x slot lat r v).settle now).sreg q = k.sreg q

/-- R252: SLD and SST move 8 aligned bytes of the core's own scratchpad. Where the manual is silent it rests on choices and
readings of the model, notes/assumptions: DEDUCED 4, 19, 23. -/
def Obligations.ScalarLoadsAndStores : Prop :=
  ∀ (c : CoreId) (rd ra rb : RegIx) (imm : BitVec 20) (s : State), canIssue c s →
    let k := s.front c
    let x := s.point c
    let a := (k.sreg ra).toNat + imm.toNat
    a % 8 = 0 → a + 8 ≤ 2 ^ 20 →
      (s.calm c = true → k.takes [spRange .read a 8 (.atCc (x.now + 2))] → s.spPoison? c a 8 = none →
          ∃ t, exec (.sld c rd ra imm) s = .next t
            ∧ s.onlyCore t c (s.issued c
                ((k.place [spRange .read a 8 (.atCc (x.now + 2))]).putS x 0 4 rd (BitVec.ofNat 64 (s.spRd c a 8))) .seq))
        ∧ (k.takes [spRange .write a 8 (.atCc (x.now + 2))] →
            ∃ t, exec (.sst c ra rb imm) s = .next t
              ∧ s.coreAndBytes t c (s.issued c (k.place [spRange .write a 8 (.atCc (x.now + 2))]) .seq) (spKey c a)
                  (leBytes 8 (k.sreg rb).toNat))

/-! ## The vector slot -/

/-- R159 to R161: the FP32 and BF16 lane operations. Every lane is one operation of its own rounding; the result is visible 4 cc
later for sums and products, 2 cc later for the others; a NaN lane counts in VEC_NANOUT. A BF16 form whose unused register fields
are not zero faults at issue ("bad vector instruction") and does nothing. Where the manual is silent it rests on choices and
readings of the model, notes/assumptions: DEDUCED 4, 19, 34. -/
def Obligations.FloatLaneResults : Prop :=
  (∀ (c : CoreId) (r : VRegs) (s : State), canIssue c s → s.pipeFree c pipeArith →
    let k := s.front c
    let a := fun l => (lane (k.vreg r.va) l).toNat
    let b := fun l => if r.bs then ((k.sreg r.vb).extractLsb' 0 32).toNat else (lane (k.vreg r.vb) l).toNat
    let d := fun l => (lane (k.vreg r.vc) l).toNat
    let result := fun (i : Instr) (lat : Nat) (f : Nat → Nat) => ∃ t v, exec i s = .next t
      ∧ (∀ l < 32, lane v l = BitVec.ofNat 32 (f l))
      ∧ s.onlyCore t c (s.issued c (k.vectorResult (s.point c) pipeArith 1 lat r.vd (hasNan false v) v) .seq)
    result (.vfma c r) 4 (fun l => fp32.fma (a l) (b l) (d l))
      ∧ result (.vsel c r) 2 (fun l => if d l ≠ 0 then a l else b l)
      ∧ (r.vc = 0 →
          result (.vadd c r) 4 (fun l => fp32.add (a l) (b l)) ∧ result (.vsub c r) 4 (fun l => fp32.sub (a l) (b l))
            ∧ result (.vmul c r) 4 (fun l => fp32.mul (a l) (b l)) ∧ result (.vmin c r) 2 (fun l => fMin fp32 (a l) (b l))
            ∧ result (.vmax c r) 2 (fun l => fMax fp32 (a l) (b l))
            ∧ result (.vceq c r) 2 (fun l => if fp32.eqv (a l) (b l) then 0xFFFFFFFF else 0)
            ∧ result (.vclt c r) 2 (fun l => if fp32.lt (a l) (b l) then 0xFFFFFFFF else 0)
            ∧ result (.vcle c r) 2 (fun l => if fp32.lt (a l) (b l) ∨ fp32.eqv (a l) (b l) then 0xFFFFFFFF else 0))
      ∧ result (.vabs c r.vd r.va) 2 (fun l => if fp32.isNan (a l) then fp32.nan else a l % 2 ^ 31)
      ∧ result (.vneg c r.vd r.va) 2 (fun l => if fp32.isNan (a l) then fp32.nan else fp32.flip (a l)))
    ∧ (∀ (c : CoreId) (op : FpOp) (r : VRegs) (s : State), canIssue c s → s.pipeFree c pipeArith →
    let k := s.front c
    let a := fun l => (lane16 (k.vreg r.va) l).toNat
    let b := fun l => if r.bs then ((k.sreg r.vb).extractLsb' 0 16).toNat else (lane16 (k.vreg r.vb) l).toNat
    let d := fun l => (lane16 (k.vreg r.vc) l).toNat
    if fpFieldsOk op r then
      ∃ t v, exec (.bf16Forms c op r) s = .next t
        ∧ (∀ l < 64, lane16 v l = BitVec.ofNat 16 (fpLane bf16 op (a l) (b l) (d l)))
        ∧ s.onlyCore t c (s.issued c (k.vectorResult (s.point c) pipeArith 1
            (if op = .add ∨ op = .sub ∨ op = .mul ∨ op = .fma then 4 else 2) r.vd (hasNan true v) v) .seq)
    else
      ∃ t, exec (.bf16Forms c op r) s = .next t
        ∧ s.onlyCore t c (Core.raise { k with seq := { k.seq with stall := 0 } } ⟨0x0601, 2, 0, (s.core c).seq.pc, 0, .vec⟩))

/-- R160, R162, R173: the integer lane operations, visible 2 cc later, and conversions and moves between lanes and registers.
Where the manual is silent it rests on choices and readings of the model, notes/assumptions: DEDUCED 4, 19, 36. -/
def Obligations.IntegerAndMoveResults : Prop :=
  (∀ (c : CoreId) (r : VRegs) (s : State), canIssue c s → s.pipeFree c pipeArith → r.vc = 0 →
    let k := s.front c
    let a := fun l => lane (k.vreg r.va) l
    let b := fun l => if r.bs then (k.sreg r.vb).extractLsb' 0 32 else lane (k.vreg r.vb) l
    ∀ p ∈ [(Instr.viadd c r, fun l => a l + b l), (.visub c r, fun l => a l - b l), (.vand c r, fun l => a l &&& b l),
        (.vor c r, fun l => a l ||| b l), (.vxor c r, fun l => a l ^^^ b l),
        (.vshl c r, fun l => a l <<< ((b l).toNat % 32)), (.vshr c r, fun l => a l >>> ((b l).toNat % 32)),
        (.vsra c r, fun l => (a l).sshiftRight ((b l).toNat % 32)),
        (.viceq c r, fun l => if a l = b l then 0xFFFFFFFF#32 else 0),
        (.viclt c r, fun l => if (a l).toInt < (b l).toInt then 0xFFFFFFFF#32 else 0)],
      ∃ t v, exec p.1 s = .next t ∧ (∀ l < 32, lane v l = p.2 l)
        ∧ s.onlyCore t c (s.issued c (k.vectorResult (s.point c) pipeArith 1 2 r.vd false v) .seq))
    ∧ (∀ (c : CoreId) (vd va vb : RegIx) (ln : BitVec 5) (s : State), canIssue c s → s.pipeFree c pipeArith →
    let k := s.front c
    let a := fun l => lane (k.vreg va) l
    let result := fun (i : Instr) (lat : Nat) (view : Option Bool) (f : Nat → W32) => ∃ t v, exec i s = .next t
      ∧ (∀ l < 32, lane v l = f l)
      ∧ s.onlyCore t c (s.issued c
          (k.vectorResult (s.point c) pipeArith 1 lat vd ((view.map fun h => hasNan h v).getD false) v) .seq)
    result (.vcvtif c vd va) 3 (some false) (fun l => fpOfInt (a l).toInt 0)
      ∧ result (.vcvtfi c vd va) 3 none (fun l => cvtFI (a l))
      ∧ result (.vunpkl c vd va) 3 (some false) (fun l => unbf (lane16 (k.vreg va) l))
      ∧ result (.vunpkh c vd va) 3 (some false) (fun l => unbf (lane16 (k.vreg va) (32 + l)))
      ∧ result (.vbcst c vd va) 2 (some false) (fun _ => (k.sreg va).extractLsb' 0 32)
      ∧ result (.vins c vd va ln) 2 (some false) (fun l => if l = ln.toNat then (k.sreg va).extractLsb' 0 32 else lane (k.vreg vd) l)
      ∧ result (.vmov c vd va) 2 (some false) a
      ∧ (∃ t v, exec (.vpackh c vd va vb) s = .next t
          ∧ (∀ l < 32, lane16 v l = bf (a l) ∧ lane16 v (32 + l) = bf (lane (k.vreg vb) l))
          ∧ s.onlyCore t c (s.issued c (k.vectorResult (s.point c) pipeArith 1 3 vd (hasNan true v) v) .seq))
      ∧ ∃ t, exec (.vext c vd va ln) s = .next t
          ∧ s.onlyCore t c (s.issued c
              ((k.usePipe (s.point c) pipeArith 1 3).putS (s.point c) 2 3 vd ((a ln.toNat).setWidth 64)) .seq))

/-- R164, R155: the special functions, with their latencies, on a pipe that takes one FP32 form in 2 cc and one BF16 form in
4. The functions' values are those of the table of R164 within its bounds, which leave them open (Config). Where the manual
is silent it rests on choices and readings of the model, notes/assumptions: DEDUCED 4, 19; DESIGN CHOICE 35. -/
def Obligations.SpecialFunctionResults : Prop :=
  ∀ (c : CoreId) (half : Bool) (vd va : RegIx) (s : State), canIssue c s → s.pipeFree c pipeSpecial →
    let k := s.front c
    ∀ p ∈ [(Instr.vexp c half vd va, 0, 10), (.vlog c half vd va, 1, 12), (.vrsqrt c half vd va, 2, 8),
        (.vrcp c half vd va, 3, 8), (.vsig c half vd va, 4, 14), (.vsilu c half vd va, 5, 16), (.vtanh c half vd va, 6, 14)],
      ∃ t v, exec p.1 s = .next t
        ∧ (if half then ∀ l < 64, lane16 v l = specialBf16 p.2.1 (lane16 (k.vreg va) l)
           else ∀ l < 32, lane v l = specialFp32 p.2.1 (lane (k.vreg va) l))
        ∧ s.onlyCore t c (s.issued c
            (k.vectorResult (s.point c) pipeSpecial (if half then 4 else 2) p.2.2 vd (hasNan half v) v) .seq)

/-- R163, R165: vector and tile loads and stores, aligned to the element and within the window, where a word that is not aligned to
the access takes a second cc; transposes, and moves of a pair of rows or columns between a tile and a vector register. Where
the manual is silent it rests on choices and readings of the model, notes/assumptions: DEDUCED 4, 19, 23. -/
def Obligations.VectorMemoryAndTiles : Prop :=
  (∀ (c : CoreId) (vd va vb : RegIx) (tm : BitVec 2) (off : BitVec 20) (s : State), canIssue c s → s.pipeFree c pipeMem →
    let k := s.front c
    let x := s.point c
    let a := (k.sreg va).toNat + off.toNat
    let iv := fun n => if a % n = 0 then 1 else 2
    let rd := fun n lat extra => spRange .read a n (.atCc (x.now + lat - 2 + extra))
    let wr := fun n lat extra => spRange .write a n (.atCc (x.now + lat + extra))
    (a % 4 = 0 → a + 128 ≤ 2 ^ 20 →
        (s.calm c = true → k.takes [rd 128 6 (iv 128 - 1)] → s.spPoison? c a 128 = none →
          ∃ t v, exec (.vld c vd va off) s = .next t ∧ v = BitVec.ofNat 1024 (s.spRd c a 128)
            ∧ s.onlyCore t c (s.issued c
              ((k.place [rd 128 6 (iv 128 - 1)]).vectorResult x pipeMem (iv 128) 6 vd (hasNan false v) v) .seq))
        ∧ (k.takes [wr 128 4 (iv 128 - 1)] →
          ∃ t, exec (.vst c va vb off) s = .next t ∧ s.coreAndBytes t c (s.issued c
            ((k.place [wr 128 4 (iv 128 - 1)]).usePipe x pipeMem (iv 128) 4) .seq) (spKey c a) (leBytes 128 (k.vreg vb).toNat)))
      ∧ (a % 2 = 0 → a + 64 ≤ 2 ^ 20 →
        (s.calm c = true → k.takes [rd 64 6 (iv 64 - 1)] → s.spPoison? c a 64 = none →
          ∃ t v, exec (.vldh c vd va off) s = .next t
            ∧ (∀ l < 32, lane v l = unbf (BitVec.ofNat 16 (s.spRd c (a + 2 * l) 2)))
            ∧ s.onlyCore t c (s.issued c
              ((k.place [rd 64 6 (iv 64 - 1)]).vectorResult x pipeMem (iv 64) 6 vd (hasNan false v) v) .seq))
        ∧ (k.takes [wr 64 4 (iv 64 - 1)] →
          ∃ t bs, exec (.vsth c va vb off) s = .next t ∧ bs.length = 64
            ∧ (∀ l < 32, bs.getD (2 * l) 0 = (bf (lane (k.vreg vb) l)).extractLsb' 0 8
                ∧ bs.getD (2 * l + 1) 0 = (bf (lane (k.vreg vb) l)).extractLsb' 8 8)
            ∧ s.coreAndBytes t c (s.issued c ((k.place [wr 64 4 (iv 64 - 1)]).usePipe x pipeMem (iv 64) 4) .seq) (spKey c a) bs))
      ∧ (a % 4 = 0 → a + 1024 ≤ 2 ^ 20 →
        (s.calm c = true → k.takes [rd 1024 12 0] → s.spPoison? c a 1024 = none →
          ∃ t, exec (.mld c tm va off) s = .next t ∧ s.onlyCore t c (s.issued c
            (((k.place [rd 1024 12 0]).usePipe x pipeMem 8 12).putM x 12 tm allElems (BitVec.ofNat 8192 (s.spRd c a 1024))) .seq))
        ∧ (k.takes [wr 1024 8 0] →
          ∃ t, exec (.mst c tm va off) s = .next t ∧ s.coreAndBytes t c (s.issued c
            ((k.place [wr 1024 8 0]).usePipe x pipeMem 8 8) .seq) (spKey c a) (leBytes 1024 (k.mreg tm).toNat))))
    ∧ (∀ (c : CoreId) (vd va : RegIx) (tm : BitVec 2) (ix : BitVec 4) (s : State), canIssue c s → s.pipeFree c pipeTile →
    let k := s.front c
    let x := s.point c
    let get := fun (i : Instr) (f : Nat → W32) => ∃ t v, exec i s = .next t ∧ (∀ l < 32, lane v l = f l)
      ∧ s.onlyCore t c (s.issued c (k.vectorResult x pipeTile 1 3 vd (hasNan false v) v) .seq)
    let put := fun (i : Instr) (iv lat : Nat) (mine : Nat → Nat → Bool) (f : Nat → Nat → W32) => ∃ t mask w, exec i s = .next t
      ∧ (∀ r < 16, ∀ j < 16, mask.getLsbD (16 * r + j) = mine r j ∧ (mine r j = true → tileElem w r j = f r j))
      ∧ s.onlyCore t c (s.issued c ((k.usePipe x pipeTile iv lat).putM x lat tm mask w) .seq)
    put (.mtr c tm) 4 8 (fun _ _ => true) (fun r j => tileElem (k.mreg tm) j r)
      ∧ (ix.toNat % 2 = 0 →
          get (.mgetr c vd tm ix) (fun l => tileElem (k.mreg tm) (ix.toNat + l / 16) (l % 16))
            ∧ get (.mgetc c vd tm ix) (fun l => tileElem (k.mreg tm) (l % 16) (ix.toNat + l / 16))
            ∧ put (.mputr c va tm ix) 1 3 (fun r _ => r == ix.toNat || r == ix.toNat + 1)
                (fun r j => lane (k.vreg va) (16 * (r - ix.toNat) + j))
            ∧ put (.mputc c va tm ix) 1 3 (fun _ j => j == ix.toNat || j == ix.toNat + 1)
                (fun r j => lane (k.vreg va) (16 * (j - ix.toNat) + r))))

/-- R166, R169, R171: reductions and random words. RBEG opens a context; feeds take the first lanes in order; RGET reads a
part of an active context that its mode gives; VRND fills the lanes with Philox words. Where the manual is silent it rests
on choices and readings of the model, notes/assumptions: DEDUCED 4, 19, 32, 33. -/
def Obligations.ReductionAndRandomResults : Prop :=
  ∀ (c : CoreId) (vd va vb vc : RegIx) (cx mode : BitVec 2) (km1 : BitVec 6) (nm1 : BitVec 5) (part : BitVec 3) (s : State),
    canIssue c s → s.pipeFree c pipeRed → s.pipeFree c pipeRand →
    let k := s.front c
    let x := s.point c
    let ctx := k.ctxAt cx
    let fed := fun v => (List.range (nm1.toNat + 1)).map fun l => lane (k.vreg v) l
    let feeds := fun (k1 : Core) (ix : Option (List W32)) =>
      { k1.setCtx cx (ctx.feed (fed va) ix) with cb := { k1.cb with vecFeeds := bumpBy (nm1.toNat + 1) k1.cb.vecFeeds } }
    (mode.toNat = 3 ∨ km1 = 0 →
        ∃ t, exec (.rbeg c va cx mode km1) s = .next t ∧ s.onlyCore t c (s.issued c ((k.usePipe x pipeRed 1 1).setCtx cx
          (RedCtx.begin (redMode mode) (km1.toNat + 1) ((k.sreg va).extractLsb' 0 32))) .seq))
      ∧ (ctx.active = true → ctx.count + nm1.toNat + 1 < 2 ^ 32 →
        (∃ t, exec (.rfeed c va cx nm1) s = .next t
          ∧ s.onlyCore t c (s.issued c (feeds (k.usePipe x pipeRed (if ctx.mode = .topk then 2 else 1) 1) none) .seq))
        ∧ (ctx.mode ≠ .sum → ∃ t, exec (.rfeedx c va vb cx nm1) s = .next t
          ∧ s.onlyCore t c (s.issued c (feeds (k.usePipe x pipeRed 2 1) (some (fed vb))) .seq)))
      ∧ (ctx.active = true → part.toNat ≤ 4 → ctx.partOk part.toNat = true →
        ∃ t v, exec (.rget c vd cx part) s = .next t ∧ (∀ l < 32, lane v l = ctx.partLane part.toNat l)
          ∧ s.onlyCore t c (s.issued c (k.vectorResult x pipeRed 1 (if ctx.mode = .sum ∧ part = 0 then 10 else 6) vd
              (hasNan false v && !(part == 4#3 || (ctx.mode == .topk && decide (2 ≤ part.toNat)))) v) .seq))
      ∧ ∃ t v, exec (.vrnd c vd va vb vc) s = .next t
          ∧ (∀ l < 32, lane v l = (philox (k.sreg va) ⟨(k.sreg vb).extractLsb' 0 32, (k.sreg vb).extractLsb' 32 32,
              (k.sreg vc).extractLsb' 0 32, (k.sreg vc).extractLsb' 32 32 + BitVec.ofNat 32 (l / 4)⟩).word l)
          ∧ s.onlyCore t c (s.issued c (k.vectorResult x pipeRand 2 12 vd false v) .seq)

/-! ## The punnet slot and the accumulator class -/

/-- R62, R78, R88, R89: PBLD and PLOOK join the queue of the builder and of their engine with the operands read at issue, a
PLOOK's mask tiles too; PFENCE issues once what it names is empty; PINV waits for the lookups issued before it. Where the
manual is silent it rests on choices and readings of the model, notes/assumptions: DEDUCED 4, 19, 38. -/
def Obligations.PunnetInstructionsAreQueued : Prop :=
  ∀ (c : CoreId) (b : PbldArgs) (a : PlookArgs) (m : BitVec 4) (bld : Bool) (s : State), canIssue c s →
    let k := s.front c
    let x := s.point c
    let rec_ := (k.sreg b.sRec).toNat
    let n := b.nrec.toNat + 1
    let blk := (k.sreg b.sBlk).toNat % 2 ^ 32
    let recs := [spRange .read rec_ (n * recBytes b.fmt.toNat) (.byUnit (readsDone (x.id + 1)))]
    let p := plookOf k x a []
    let codes := [spRange .read p.base (p.codeAt (p.nRow - 1) (p.nPl - 1) (16 * p.nHalf - 1) + 1 - p.base)
      (.byUnit (readsDone p.id))]
    let entries := [{ accRange .write (p.tile * 256 + p.entry) p.nRow (.byUnit (writesDone p.id)) with
      plook := true, fresh := p.fresh }]
    let desc := (k.sreg a.sMask).toNat
    let md := s.spRd c desc 16
    let nb := fld md 32 32
    let map := fld md 0 20
    let u0 := p.firstRow / 80
    let u1 := (p.firstRow + p.nRow - 1) / 80
    let mapLo := map + u0 * nb / 8
    let mapHi := map + (u1 * nb + nb - 1) / 8
    let tiles := maskTiles (fun i => tb (s.spRd c (map + i / 8) 1) (i % 8)) u0 (u1 + 1 - u0) nb p.blk p.h0 p.nHalf
    let free := SbFree.byUnit (readsDone p.id)
    let used := map + (u1 * nb + p.blk + p.nHalf - 1) / 8
    let masks := [spRange .read desc 16 free, spRange .read mapLo (mapHi + 1 - mapLo) free]
    let queued := fun (rs : List SbEntry) (q : Plook) => ∃ t, exec (.plook c a) s = .next t
      ∧ s.onlyCore t c (s.issued c ((k.place rs).modEng a.eng fun e => { e with queue := e.queue ++ [q] }) .seq)
    (b.emask ≠ 0 → b.fmt ≠ 3#2 → rec_ % 8 = 0 → rec_ + n * recBytes b.fmt.toNat ≤ 2 ^ 20 → blk + n ≤ 2 ^ 32 →
        k.builds.length < 4 → k.takes recs →
        ∃ t, exec (.pbld c b) s = .next t ∧ s.onlyCore t c (s.issued c { k.place recs with
          builds := k.builds ++ [⟨x.id + 1, x.pc, b.emask, rec_, blk, b.fmt, n, 0, ⟨[], 0, false, false, false⟩, false⟩] } .seq))
      ∧ (plookFieldsOk a = true → p.inWindow = true → p.blk + p.nHalf ≤ 2 ^ 32 → (k.engines[a.eng]).queue.length < 4 →
          (a.msk = false → k.takes (codes ++ entries) → queued (codes ++ entries) p)
            ∧ (a.msk = true → s.calm c = true → desc + 16 ≤ 2 ^ 20 → k.descWaits desc 16 = false → s.spPoison? c desc 16 = none →
                u1 < fld md 64 32 → nb ≠ 0 → mapHi < 2 ^ 20 → used < 2 ^ 20 → s.spPoison? c mapLo (mapHi + 1 - mapLo) = none →
                k.takes (codes ++ masks ++ entries) →
                queued (codes ++ masks ++ entries) { p with mask := tiles }))
      ∧ ((∀ e : EngineId, m.getLsbD e.val = true → (k.engines[e]).queue = []) → (bld = true → k.builds = []) →
          ∃ t, exec (.pfence c m bld) s = .next t ∧ s.onlyCore t c (s.issued c k .seq))
      ∧ ∃ t, exec (.pinv c m) s = .next t
          ∧ s.onlyCore t c (s.issued c (Core.settlePinv { k with pinvs := k.pinvs ++ [⟨x.id + 1, m⟩] }) .seq)

/-- R101, R115, R121, R122: ACFG sets or removes a tile's check, ACLR clears entries, AMRG merges them, ALDP and ASTP move
128-bit records; each names at most the entries up to 255 of its tile. Where the manual is silent it rests on choices and
readings of the model, notes/assumptions: DEDUCED 4, 19, 23. -/
def Obligations.AccumulatorInstructions : Prop :=
  ∀ (c : CoreId) (tile tb_ : BitVec 6) (entry nm1 : BitVec 8) (sr : RegIx) (s : State), canIssue c s →
    let k := s.front c
    let x := s.point c
    let n := nm1.toNat + 1
    let i := tile.toNat * 256 + entry.toNat
    let j := tb_.toNat * 256 + entry.toNat
    let a := (k.sreg sr).toNat
    let counted := fun (k : Core) => { k with cb := { k.cb with vecIssued := bump k.cb.vecIssued } }
    let clear := [accRange .write i n (.atCc (x.now + 1 + n))]
    let merge := [accRange .write i n (.atCc (x.now + 6 + n)), accRange .read j n (.atCc (x.now + n))]
    let load := [spRange .read a (16 * n) (.atCc (x.now + n)), accRange .write i n (.atCc (x.now + 4 + n))]
    let store := [accRange .read i n (.atCc (x.now + n)), spRange .write a (16 * n) (.atCc (x.now + 4 + n))]
    (k.verdictsOpen tile.toNat = false →
        (∃ t, exec (.acfg c tile sr false) s = .next t
          ∧ s.onlyCore t c (s.issued c { counted k with checks := Sparse.erase tile.toNat k.checks } .seq))
        ∧ ∀ d, s.calm c = true → chkDescOf (s.spRd c a 16) = some d → a + 16 ≤ 2 ^ 20 → k.descWaits a 16 = false → s.spPoison? c a 16 = none →
            k.takes [spRange .read a 16 (.atCc (x.now + 2))] →
            ∃ t, exec (.acfg c tile sr true) s = .next t ∧ s.onlyCore t c (s.issued c
              { counted (k.place [spRange .read a 16 (.atCc (x.now + 2))]) with
                  checks := Sparse.insert tile.toNat d k.checks } .seq))
      ∧ (entry.toNat + n ≤ 256 →
        (s.calm c = true → k.takes clear → ∃ t q, exec (.aclr c tile entry nm1) s = .next t
          ∧ s.onlyCore t c (s.issued c { counted (k.place clear) with acc := q } .seq)
          ∧ ∀ e, Sparse.get AccEntry.clear q e = if i ≤ e ∧ e < i + n then AccEntry.clear else k.accAt e)
        ∧ (tile ≠ tb_ → s.calm c = true → (∀ e < n, (k.accAt (i + e)).bad = false ∧ (k.accAt (j + e)).bad = false) → k.takes merge →
            ∃ t q, exec (.amrg c tile tb_ entry nm1) s = .next t ∧ t = { s with cores := t.cores }
              ∧ (t.core c).acc = q ∧ (t.core c).pend = k.pend ∧ (t.core c).sb = (k.place merge).sb
              ∧ ∀ e, Sparse.get AccEntry.clear q e
                  = if i ≤ e ∧ e < i + n then (k.accAt e).merge (k.accAt (e - i + j)) else k.accAt e)
        ∧ (a % 16 = 0 → a + 16 * n ≤ 2 ^ 20 →
          (s.calm c = true → k.takes load → s.spPoison? c a (16 * n) = none →
            ∃ t q, exec (.aldp c tile entry nm1 sr) s = .next t
              ∧ s.onlyCore t c (s.issued c { counted (k.place load) with acc := q } .seq)
              ∧ ∀ e, Sparse.get AccEntry.clear q e = if i ≤ e ∧ e < i + n then
                  AccEntry.ofRecord (BitVec.ofNat 128 (s.spRd c (a + 16 * (e - i)) 16)) else k.accAt e)
          ∧ (s.calm c = true → k.takes store → (∀ e < n, (k.accAt (i + e)).bad = false) →
            ∃ t bs, exec (.astp c tile entry nm1 sr) s = .next t ∧ bs.length = 16 * n
              ∧ (∀ e < n, ∀ l < 16, bs.getD (16 * e + l) 0 = (k.accAt (i + e)).toRecord.extractLsb' (8 * l) 8)
              ∧ s.coreAndBytes t c (s.issued c (counted (k.place store)) .seq) (spKey c a) bs)))

/-! ## The output stage and the move slot -/

/-- R127 to R138, R147: an OQNT whose descriptor and sources can be read completes: the records of its elements stand at the
destination, the sums in its tally record, and nothing else of memory changes; the core's counters move, and a health event may
be noted. Where the manual is silent it rests on choices and readings of the model, notes/assumptions: DEDUCED 4, 19, 23,
30, 41. -/
def Obligations.OutputInstruction : Prop :=
  ∀ (c : CoreId) (a : OqntArgs) (s : State), canIssue c s → s.calm c = true →
    let k := s.front c
    let x := s.point c
    let at_ := (k.sreg a.sDesc).toNat
    let d := outDescOf (s.spRd c at_ 32)
    let j := outJob k x a
    let rs := outRanges x a at_ d j
    oqntFieldsOk a = true → at_ % 32 = 0 → at_ + 32 ≤ 2 ^ 20 → k.descWaits at_ 32 = false → s.spPoison? c at_ 32 = none →
      outDescOk a d = true → (k.ost.jobs.filter fun j => decide (x.now ≤ j.done)).length < 4 → k.takes rs →
      (∀ r ∈ outSpots a d, s.spPoison? c r.1 r.2 = none) → (∀ i ∈ outEntries a d, (k.accAt i).bad = false) →
      let front := outFront (s.setCore c k) c a d
      let units := outUnits k a d front
      let out := units.flatMap (·.bytes)
      let inTally := fun (key : Nat) => a.tal = true ∧ spKey c d.tally ≤ key ∧ key < spKey c d.tally + 32
      ∃ t, exec (.oqnt c a) s = .next t
        ∧ t = { s with cores := t.cores, mem := t.mem, poison := t.poison, flips := t.flips, hm := t.hm, bbx := t.bbx }
        ∧ t.hm = { s.hm with once := t.hm.once } ∧ t.bbx = { s.bbx with waiting := t.bbx.waiting }
        ∧ (∀ e, e ≠ c → t.core e = s.core e)
        ∧ (∀ i < out.length, ¬inTally (spKey c d.dst + i) → t.byte (spKey c d.dst + i) = out.getD i 0)
        ∧ (a.tal = true → t.spRd c d.tally 32 = tallyAdd (s.spRd c d.tally 32) units (squares a front units))
        ∧ (∀ key, key < spKey c d.dst ∨ spKey c d.dst + out.length ≤ key → ¬inTally key → t.byte key = s.byte key)
        ∧ (t.core c).sb = (k.place rs).sb ∧ (t.core c).s = k.s ∧ (t.core c).v = k.v ∧ (t.core c).m = k.m
        ∧ (t.core c).acc = k.acc ∧ (t.core c).dqu.queues = k.dqu.queues ∧ (t.core c).pend = k.pend
        ∧ (t.core c).cb.ostRecords = bumpBy units.length k.cb.ostRecords
        ∧ (t.core c).cb.ostPoison = bumpBy (units.filter (·.poisoned)).length k.cb.ostPoison

/-- R227, R258, R277, R279 to R284: QRD reads one word of an enabled queue whose ring is powered, or the last value of an empty one
with its underrun; QCNT reads the counts; QRST empties the queue; QMV moves words one after the other. AWAIT takes a scoreboard
entry for its bytes; QPUT sends one packet of registers and waits for its answer; RTAKE reads the counts of a complete bank and
frees the other. Where the manual is silent it rests on choices and readings of the model, notes/assumptions: DEDUCED 4, 19,
23, 37, 42. -/
def Obligations.MoveSlotInstructions : Prop :=
  (∀ (c : CoreId) (rd sr : RegIx) (q : BitVec 7) (s : State), canIssue c s → s.calm c = true →
    let k := s.front c
    let x := s.point c
    let h := k.queue q.toNat
    k.queueFault q.toNat = none → h.base + 8 * h.depth ≤ 2 ^ 20 →
      (∀ p, h.readable = some p → s.spPoison? c (h.slotAt (p.start + p.read)) 8 = none →
          let w := BitVec.ofNat 64 (s.spRd c (h.slotAt (p.start + p.read)) 8)
          ∃ t, exec (.qrd c rd q) s = .next t
            ∧ s.onlyCore t c (s.issued c ((k.setQueue q.toNat (h.advance w)).putS x 3 3 rd w) .seq))
        ∧ (h.readable = none →
          let k1 := k.setQueue q.toNat { h with underrun := true }
          ∃ t, exec (.qrd c rd q) s = .next t ∧ s.onlyCore t c (s.issued c
            ({ k1 with cb := { k1.cb with hqUnderrun := bump k1.cb.hqUnderrun } }.putS x 3 3 rd h.lastVal) .seq))
        ∧ (∃ t, exec (.qcnt c rd q) s = .next t ∧ s.onlyCore t c (s.issued c (k.putS x 3 2 rd h.cntWord) .seq))
        ∧ (∃ t, exec (.qrst c q) s = .next t ∧ t.mem = s.mem
            ∧ ((t.core c).queue q.toNat).packets = [] ∧ ((t.core c).queue q.toNat).wp = 0
            ∧ ((t.core c).queue q.toNat).seq = 0 ∧ ((t.core c).queue q.toNat).lastVal = 0
            ∧ (((t.core c).queue q.toNat).rewound = true ↔ h.rewound = true ∨ ∃ p ∈ h.packets, p.state = .arriving)
            ∧ ∀ n, n ≠ q.toNat → (t.core c).queue n = k.queue n)
        ∧ (∀ p, h.readable = some p → s.spPoison? c (h.slotAt (p.start + p.read)) 8 = none →
            (k.sreg sr).toNat % 8 = 0 → (k.sreg sr).toNat + 8 ≤ 2 ^ 20 →
            let w := BitVec.ofNat 64 (s.spRd c (h.slotAt (p.start + p.read)) 8)
            let rs := [spRange .write (k.sreg sr).toNat 8 (.atCc (x.now + 3))]
            k.takes rs →
            ∃ t, exec (.qmv c q sr 0) s = .next t ∧ s.coreAndBytes t c
              (s.issued c ((k.place rs).setQueue q.toNat (h.advance w)) .seq) (spKey c (k.sreg sr).toNat) (leBytes 8 w.toNat))
        ∧ ∀ nm1 : BitVec 9, let n := nm1.toNat + 1
            let dest := (k.sreg sr).toNat
            dest % 8 = 0 → dest + 8 * n ≤ 2 ^ 20 → k.takes [spRange .write dest (8 * n) (.atCc (x.now + 3 + nm1.toNat))] →
            ∃ t, exec (.qmv c q sr nm1) s = .next t ∧ (t.core c).s = k.s ∧ (t.core c).v = k.v ∧ (t.core c).acc = k.acc ∧ (∀ e, e ≠ c → t.core e = s.core e)
              ∧ (∀ m, m ≠ q.toNat → (t.core c).queue m = k.queue m)
              ∧ ∀ key, key < spKey c dest ∨ spKey c dest + 8 * n ≤ key → t.byte key = s.byte key)
    ∧ (∀ (c : CoreId) (ra rl rn : RegIx) (nm1 : BitVec 2) (sb : RegIx) (ns : BitVec 4) (bank : Bool) (s : State), canIssue c s →
    s.calm c = true →
    let k := s.front c
    let x := s.point c
    let a := (k.sreg ra).toNat
    let len := (k.sreg rl).toNat
    let n := (k.sreg rn).toNat
    let range := [{ spRange .await a len .byBytes with left := n }]
    let dest := (k.sreg ra).toNat
    (n = 0 → ∃ t, exec (.await c ra rl rn) s = .next t ∧ s.onlyCore t c (s.issued c k .seq))
      ∧ (0 < n → n ≤ len → n < 2 ^ 20 → a + len ≤ 2 ^ 20 → k.takes range →
          ∃ t, exec (.await c ra rl rn) s = .next t ∧ s.onlyCore t c (s.issued c (k.place range) .seq))
      ∧ (rl.toNat + nm1.toNat ≤ 31 → fld dest 0 12 < 2304 → k.dqu.puts.length < 32 →
          ∃ t, exec (.qput c ra rl nm1) s = .next t
            ∧ t = { s with cores := t.cores, mesh := { s.mesh with vc0 := s.mesh.vc0 ++
                [⟨.core c, .core (Fin.ofNat 2304 (fld dest 0 12)), false, .packet (Fin.ofNat 128 (fld dest 16 7)) 0
                  ((List.range (nm1.toNat + 1)).map fun i => ⟨k.sreg (BitVec.ofNat 5 (rl.toNat + i)), false⟩)
                  (.put c k.dqu.nextXfer)⟩] } }
            ∧ t.core c = s.issued c { k with dqu := { k.dqu with
                nextXfer := k.dqu.nextXfer + 1, puts := k.dqu.puts ++ [⟨k.dqu.nextXfer, x.pc⟩] } } .seq
            ∧ ∀ e, e ≠ c → t.core e = s.core e)
      ∧ (ns.toNat ≤ 11 → sb.toNat + ns.toNat ≤ 31 → (k.bank (bit bank)).complete = true →
          s.bankBase c (bit bank) + 48 ≤ 2 ^ 20 → s.spPoison? c (s.bankBase c (bit bank)) (4 * (ns.toNat + 1)) = none →
          ∃ t, exec (.rtake c sb ns bank) s = .next t
            ∧ t = { s with cores := t.cores } ∧ (∀ e, e ≠ c → t.core e = s.core e)
            ∧ (t.core c).bank (1 - bit bank) = RtBank.free ∧ (t.core c).bank (bit bank) = k.bank (bit bank)
            ∧ (∀ j ≤ ns.toNat, .s (x.now + 2) (x.id + 3) (BitVec.ofNat 5 (sb.toNat + j))
                (BitVec.ofNat 64 (s.spRd c (s.bankBase c (bit bank) + 4 * j) 4)) ∈ (t.core c).pend)
            ∧ (t.core c).s = k.s))

/-- R275 to R277, R293, R285: a DSTART whose descriptor obeys its tables starts a transfer: it joins the unit's list under the
next number, with the status of the check against the map, and the messages of a transfer that moves join the mesh, while one that
leaves the module goes to a torus port. A source in the core's own scratchpad is read until the end of its last cc. The write of a
berth table entry that R216 turns into a fault starts none. Where the manual is silent it rests on choices and readings of
the model, notes/assumptions: DEDUCED 4, 19. -/
def Obligations.TransfersStart : Prop :=
  ∀ (c : CoreId) (sr : RegIx) (s : State), canIssue c s → s.calm c = true →
    let k := s.front c
    let x := s.point c
    let off := (k.sreg sr).toNat
    let d0 := dmaDescOf (s.spRd c off 32)
    let d := { d0 with src := s.normAddr d0.src, dst := if d0.kind = 1 then d0.dst else s.normAddr d0.dst }
    let s1 := s.setCore c k
    let end_ := max (x.now + 1) k.dqu.readEnd + ceilDiv d.len 64
    let own := if d.kind = 2 then none else ownOff c d.src
    let status := s1.mapStatus c d
    let kind := s1.xferKind d
    let ms := if status = 0 then s1.xferMsgs c d (.dma c k.dqu.nextXfer) else []
    let rs := spRange .read off 32 (.atCc (x.now + 2)) :: (own.map fun so => spRange .read so d.len (.atCc end_)).toList
    off % 32 = 0 → off + 32 ≤ 2 ^ 20 → k.descWaits off 32 = false → s.spPoison? c off 32 = none → s1.dmaDescOk c d = true →
      (d.cqe = true → k.queueFault d.cq = none) → k.dqu.transfers.length < 16 → k.takes rs →
      (∀ so, own = some so → s.spPoison? c so d.len = none) → s.scatterOf c d = none →
      ∃ t, exec (.dstart c sr) s = .next t
        ∧ t = { s with cores := t.cores, mesh := { s.mesh with vc0 := s.mesh.vc0 ++ ms }, fab := t.fab,
                       ms := if status = 0 then s.ms else { s.ms with unmapped := bump s.ms.unmapped } }
        ∧ (∀ e, e ≠ c → t.core e = s.core e) ∧ (status ≠ 0 ∨ kind ≠ .fabric → t.fab = s.fab)
        ∧ (t.core c).s = k.s ∧ (t.core c).v = k.v ∧ (t.core c).m = k.m ∧ (t.core c).acc = k.acc ∧ (t.core c).pend = k.pend
        ∧ (t.core c).sb = (k.place rs).sb
        ∧ (t.core c).dqu = { k.dqu with
            nextXfer := k.dqu.nextXfer + 1, readEnd := if own.isSome then end_ else k.dqu.readEnd, takeWait := false, fenceWait := false,
            transfers := k.dqu.transfers ++ [
              { id := k.dqu.nextXfer, bundle := x.pc, kind := kind, src := d.src, dst := d.dst, len := d.len, cqe := d.cqe,
                cq := Fin.ofNat 128 d.cq, tag := BitVec.ofNat 32 d.tag, cdc := d.cdc, chk := d.chk,
                left := if status ≠ 0 then 0 else if kind = .fabric then 1 else ms.length,
                tile := if status ≠ 0 then d.len / 4096 else 0, held := false, struck := [], status := status }] }

/-! ## Builder and engines -/

/-- R59, R62 to R64: the builder writes its next group's punnet into every engine of the mask, and into no other slot; at a
record's first group it reads the record. -/
def Obligations.BuilderWritesPunnets : Prop :=
  ∀ (c : CoreId) (b : Build) (r : List Build) (s : State),
    let k := s.core c
    let g := b.next
    let len := recBytes b.fmt.toNat
    let off := b.recAddr + g / 16 * len
    let cur := if g % 16 = 0 then readRec b.fmt.toNat (s.spRd c off len) else b.cur
    let vals := if cur.poison then [0, 0, 0, 0, 0] else (cur.vals.drop (5 * (g % 16))).take 5
    k.builds = b :: r → k.buildWaits b (g / 32) = false → g < 256 →
      (g % 16 = 0 → s.calm c = true ∧ off + len ≤ 2 ^ 20 ∧ s.spPoison? c off len = none) →
      ∃ t, exec (.buildPunnet c) s = .next t ∧ t.mem = s.mem ∧ (∀ d, d ≠ c → t.core d = s.core d)
        ∧ (∀ e : EngineId, b.emask.getLsbD e.val = true → (t.core c).pun e (g % 32) (g / 32)
            = ⟨vals, BitVec.ofNat 8 cur.exp, b.fmt, cur.poison, vals.all (· == 0) && !cur.poison, true,
                BitVec.ofNat 32 (b.blk + g / 16), []⟩)
        ∧ (∀ (e : EngineId) ln slot, ln < 32 → slot < 8 →
            b.emask.getLsbD e.val = false ∨ ln ≠ g % 32 ∨ slot ≠ g / 32 → (t.core c).pun e ln slot = k.pun e ln slot)
        ∧ (t.core c).builds = (if g + 1 = 16 * b.nrec then r else { b with next := g + 1, waitFree := false, cur := cur } :: r)
        ∧ (t.core c).ca.pnbBuilt = bump k.ca.pnbBuilt ∧ (t.core c).acc = k.acc ∧ (t.core c).s = k.s ∧ (t.core c).v = k.v

/-- R69, R71 to R75: the fetch stage takes one line: each lane that the line is for queues its code byte, but not a zero byte, a
masked half's or a zero punnet's; a lane's lookup pops its queue and adds the plane's weight times the looked-up sum to its line, in
the lane's half. Where the manual is silent it rests on choices and readings of the model, notes/assumptions: DEDUCED 5, 38. -/
def Obligations.EngineStages : Prop :=
  (∀ (c : CoreId) (e : EngineId) (p : Plook) (r : List Plook) (s : State),
    let k := s.core c
    let g := k.engines[e]
    let slot := p.fetchSlot
    let zero := fun ln => k.slotReady e p ln slot && (k.pun e ln slot).zero
    let mine := fun ln => 2 * slot + ln / 16 ∈ p.halves slot
    let at_ := fun ln => p.codeAt p.fetchRow p.fetchPlane (16 * (2 * slot + ln / 16 - p.h0) + ln % 16)
    let gets := fun ln => mine ln ∧ s.spRd c (at_ ln) 1 ≠ 121 ∧ p.masked p.fetchRow (2 * slot + ln / 16) = false ∧ zero ln = false
    let skip := (∀ h ∈ p.halves slot, p.masked p.fetchRow h = true) ∨ ∀ ln < 32, mine ln → zero ln = true
    g.queue = p :: r → p.fetchDone = false →
      (skip → ∃ t, exec (.fetchLine c e) s = .next t ∧ t.mem = s.mem ∧ (∀ d, d ≠ c → t.core d = s.core d)
          ∧ (t.core c).engines[e].nextLine = g.nextLine + 1 ∧ (t.core c).engines[e].lanes = g.lanes
          ∧ (t.core c).ca.pneSkips = bumpBy (16 * (p.halves slot).length) k.ca.pneSkips ∧ (t.core c).acc = k.acc)
        ∧ (¬skip → g.inFlight < 16 → s.calm c = true →
            (∀ ln < 32, mine ln → at_ ln < 2 ^ 20 ∧ s.spPoison? c (at_ ln) 1 = none) →
            (∀ ln < 32, gets ln → (g.lanes.toList.getD ln []).length < 8) →
            ∃ t, exec (.fetchLine c e) s = .next t ∧ t.mem = s.mem ∧ (∀ d, d ≠ c → t.core d = s.core d)
              ∧ (t.core c).engines[e].nextLine = g.nextLine + 1 ∧ (t.core c).acc = k.acc
              ∧ ∀ ln < 32, (gets ln → (t.core c).engines[e].lanes.toList.getD ln []
                    = g.lanes.toList.getD ln [] ++ [⟨g.nextLine, BitVec.ofNat 8 (s.spRd c (at_ ln) 1)⟩])
                  ∧ (¬gets ln → (t.core c).engines[e].lanes.toList.getD ln [] = g.lanes.toList.getD ln [])))
    ∧ (∀ (c : CoreId) (e : EngineId) (ln : LaneId) (p : Plook) (r : List Plook) (t0 : LaneEntry) (ts : List LaneEntry)
      (l : Line) (s : State),
    let k := s.core c
    let g := k.engines[e]
    let u := k.pun e ln.val l.slot
    let code := t0.code.toNat
    let x := (if p.pw then (2 : Int) ^ l.plane else 3 ^ l.plane) * codeSum code u.vals
    g.queue = p :: r → g.lanes.toList.getD ln.val [] = t0 :: ts → g.lines.find? (fun l => l.id == t0.line) = some l →
      k.slotCase e p ln.val l.slot = .ready → codeValid code = true → u.bad = [] → s.calm c = true →
      l.waiting.erase ln.val ≠ [] →
      ∃ t l', exec (.laneLookup c e ln .clean) s = .next t ∧ t = { s with cores := t.cores } ∧ (∀ d, d ≠ c → t.core d = s.core d)
        ∧ (t.core c).ca.pneLookups = bump k.ca.pneLookups ∧ (t.core c).acc = k.acc
        ∧ (t.core c).engines[e].lanes.toList.getD ln.val [] = ts
        ∧ (∀ n < 32, n ≠ ln.val → (t.core c).engines[e].lanes.toList.getD n [] = g.lanes.toList.getD n [])
        ∧ (t.core c).engines[e].lines.find? (fun l => l.id == t0.line) = some l'
        ∧ l'.sum0 = l.sum0 + (if ln.val < 16 then x else 0) ∧ l'.sum1 = l.sum1 + (if ln.val < 16 then 0 else x)
        ∧ l'.waiting = l.waiting.erase ln.val)

/-- R70, R98, R107, R117 to R119: while the merge stage does not hold, a block integer is handed on with its slot's exponent and
poison, and the oldest delivery is added to its entry; a verdict that matches passes its slot, one that fails for the first time
restores the entries that the failing slot and later ones changed and has the slot fetched again, and one that fails again is
"check failed". Where the manual is silent it rests on choices and readings of the model, notes/assumptions: DEDUCED 5;
DESIGN CHOICE 6. -/
def Obligations.DeliveriesAndVerdicts : Prop :=
  ∀ (c : CoreId) (e : EngineId) (p : Plook) (r : List Plook) (s : State),
    let k := s.core c
    let g := k.engines[e]
    let only := fun (t : State) => t = { s with cores := t.cores } ∧ ∀ d, d ≠ c → t.core d = s.core d
    g.queue = p :: r →
      (∀ h hs, g.ready = h :: hs → k.mergeHolds g = false →
          (∀ ln ∈ halfLanes h.half, k.slotCase e p ln (h.half / 2) = .ready) → (h.inv = false ∨ p.chk.isSome = true) →
          ∃ t d, exec (.blockIntegerHandOff c e) s = .next t ∧ only t ∧ (t.core c).acc = k.acc
            ∧ (t.core c).engines[e].ready = hs ∧ (t.core c).engines[e].deliv = g.deliv ++ [d]
            ∧ d.slot = h.half / 2 ∧ d.row = h.row ∧ d.value = h.value
            ∧ d.exp = (k.pun e (16 * (h.half % 2)) (h.half / 2)).exp
            ∧ (d.poison = true ↔ ∃ ln ∈ halfLanes h.half, (k.pun e ln (h.half / 2)).poison = true)
            ∧ d.block = BitVec.ofNat 32 (p.blk + h.half - p.h0))
        ∧ (∀ d ds, g.deliv = d :: ds → k.mergeHolds g = false → g.lastHeld p = false → s.calm c = true →
            let i := p.tile * 256 + p.entry + d.row
            let first := p.fresh && !p.cleared.contains d.row
            let old := k.accAt i
            old.bad = false → (first = false → old.live = true → old.last.toNat < d.block.toNat) →
            ∃ t, exec (.delivery c e .clean) s = .next t ∧ only t
              ∧ (t.core c).accAt i = (if first then AccEntry.clear else old).deliver (delivValue d.value d.exp.toNat) d.poison d.block
              ∧ (∀ j, j ≠ i → (t.core c).accAt j = k.accAt j) ∧ (t.core c).engines[e].deliv = ds)
        ∧ (∀ d, p.chk = some d → p.verdictsDone = false → g.slotHanded p p.verdictSlot = true → s.calm c = true →
            let slot := p.verdictSlot
            let cs := checkCodes s c e p d slot
            let ok := (p.halves slot).all (halfMatches k e p slot cs)
            (∀ q ∈ k.checkBytes e p d slot, q.2.2.2 < 2 ^ 20 ∧ s.spPoison? c q.2.2.2 1 = none) →
            (∀ q ∈ cs, codeValid q.code = true → codeWord q.code ∉ (k.pun e q.lane slot).bad) →
            (ok = true → ∃ t, exec (.slotVerdict c e) s = .next t ∧ t = { s with cores := t.cores, bbx := t.bbx }
                ∧ (∀ d, d ≠ c → t.core d = s.core d) ∧ (p.retrying = false → t.bbx = s.bbx) ∧ (t.core c).acc = k.acc
                ∧ (t.core c).ca.accChecks = bump k.ca.accChecks ∧ (t.core c).ca.accChkfail = k.ca.accChkfail
                ∧ (t.core c).ca.accRetryok = if p.retrying then bump k.ca.accRetryok else k.ca.accRetryok)
              ∧ (ok = false → p.retrying = false → ∃ t p', exec (.slotVerdict c e) s = .next t ∧ only t
                ∧ (t.core c).ca.accChecks = bump k.ca.accChecks ∧ (t.core c).ca.accChkfail = bump k.ca.accChkfail
                ∧ (∀ row, (t.core c).accAt (p.tile * 256 + p.entry + row)
                    = match (g.undo.filter fun u => u.row == row).getLast? with
                      | some u => u.before
                      | none => k.accAt (p.tile * 256 + p.entry + row))
                ∧ (t.core c).engines[e].queue = p' :: r ∧ p'.fetchSlot = slot ∧ p'.fetchRow = 0 ∧ p'.fetchPlane = 0
                ∧ p'.retrying = true ∧ (t.core c).engines[e].undo = []
                ∧ (t.core c).engines[e].deliv = g.deliv.filter fun x => decide (x.slot < slot))
              ∧ (ok = false → p.retrying = true → k.seq.fault = none → ∃ t f, exec (.slotVerdict c e) s = .next t ∧ only t
                ∧ (t.core c).seq.state = .faulted ∧ (t.core c).seq.fault = some f ∧ f.cause = 0x0403#16
                ∧ (t.core c).engines[e].queue = r ∧ (t.core c).acc = k.acc))

/-! ## Tasks, banks, scrub -/

/-- R248, R263: BUNDLE_ISSUE issues the bundle that stands at the program counter, control slot first; a poisoned word of it
faults when it would issue. Where the manual is silent it rests on choices and readings of the model, notes/assumptions:
DEDUCED 21; DESIGN CHOICE 25. -/
def Obligations.StoredBundlesIssue : Prop :=
  ∀ (c : CoreId) (s : State), canIssue c s → s.calm c = true → (s.core c).seq.pc.toNat + 32 ≤ 2 ^ 20 →
    let pc := (s.core c).seq.pc
    let k := s.front c
    (s.spPoison? c pc.toNat 32 = none → ∃ t, exec (.bundleIssue c) s = .next t
        ∧ t = issueBundle c (Decode.bundle (s.spRd c pc.toNat 32)) s)
      ∧ ∀ o, s.spPoison? c pc.toNat 32 = some o → ∃ t, exec (.bundleIssue c) s = .next t
          ∧ s.onlyCore t c (Core.raise { k with seq := { k.seq with stall := 0 } } ⟨0x0906, 0, 0, pc, o, .seq⟩)

/-- R27, R244, R245, R451: a start is taken by an idle core that a program is bound to, alone: once the harbourmaster has written
again what the program needs, the start clears the fault record, opens no loop, and runs from the entry offset; a region or an entry
that does not fit faults. Where the manual is silent it rests on choices and readings of the model, notes/assumptions:
DEDUCED 5; DESIGN CHOICE 26. -/
def Obligations.TasksStart : Prop :=
  ∀ (c : CoreId) (s : State),
    (s.hm.man = none ∨ (s.core c).seq.state ≠ .idle ∨ s.usable c = false ∨ s.hm.state = 3 → exec (.seqCtrlStart c) s = .next s)
      ∧ ((∀ b ∈ s.hm.binding, b.2 ≠ c.val) → exec (.seqCtrlStart c) s = .next s)
      ∧ ∀ m b x, s.hm.man = some m → s.hm.binding.find? (fun b => b.2 == c.val) = some b → m.cores[b.1]? = some x →
          s.usable c = true → (s.core c).seq.state = .idle → (s.core c).seq.filling = false → s.hm.state ≠ 3 →
          let p := s.prepare m b.1 x c
          let k := p.core c
          let entry := k.seq.entry.toNat * 32
          p.usable c = true → k.seq.state = .idle → k.seq.filling = false →
          (k.region.2 ≤ 2 ^ 20 → k.downByte k.region.1 (k.region.2 - 1) = none → k.region.1 ≤ entry → entry < k.region.2 →
            ∃ t, exec (.seqCtrlStart c) s = .next t ∧ t = { p with cores := t.cores } ∧ (∀ d, d ≠ c → t.core d = p.core d)
              ∧ (t.core c).seq.state = (if k.seq.haltAtStart then .halted else .running)
              ∧ (t.core c).seq.pc.toNat = entry ∧ (t.core c).seq.fault = none ∧ (t.core c).seq.faultThisTask = false
              ∧ (t.core c).seq.loops = [] ∧ (t.core c).seq.wdogCount = 0 ∧ (t.core c).seq.startCc = k.seq.cc
              ∧ (t.core c).s = k.s ∧ (t.core c).v = k.v ∧ (t.core c).acc = k.acc ∧ (t.core c).dqu = k.dqu)
          ∧ ((2 ^ 20 < k.region.2 ∨ entry < k.region.1 ∨ k.region.2 ≤ entry
                ∨ (k.downByte k.region.1 (k.region.2 - 1)).isSome = true) →
              ∃ t f, exec (.seqCtrlStart c) s = .next t ∧ t = { p with cores := t.cores } ∧ (∀ d, d ≠ c → t.core d = p.core d)
                ∧ (t.core c).seq.state = .faulted ∧ (t.core c).seq.fault = some f ∧ f.cause = 0x0905#16
                ∧ (t.core c).s = k.s ∧ (t.core c).v = k.v ∧ (t.core c).acc = k.acc ∧ (t.core c).dqu = k.dqu)

/-- R246, R262, R84, R101, R157, R251, R282: after END, once all has completed, the task ends; its scrub zeroes the powered banks and
clears registers, accumulators, punnets, scoreboard and queues; 1,024 cc later the core is idle. Where the manual is silent
it rests on choices and readings of the model, notes/assumptions: DEDUCED 5; DESIGN CHOICE 44. -/
def Obligations.TasksEndAndAreScrubbed : Prop :=
  ∀ (c : CoreId) (s : State),
    let k := s.core c
    (k.seq.state = .ending → k.quiet = true → ∃ t, exec (.taskEnd c) s = .next t
        ∧ (let now := max k.seq.cc (k.lastTime + 1)
           let e := (k.settle now).sweep now
           s.onlyCore t c { e with seq := { e.seq with state := .scrubbing, cc := now, stall := 0, wdogCount := 0 } })
        ∧ (t.core c).pend = [] ∧ (∀ n : Fin 32, (t.core c).sb[n] = none))
      ∧ (k.scrubDue = true → ∃ t, exec (.endOfTaskScrub c) s = .next t
        ∧ (∀ o, o < 2 ^ 20 → t.byte (spKey c o) = if k.seq.bankOn.getLsbD (o / 2 ^ 16) then 0 else s.byte (spKey c o))
        ∧ (∀ key, (key < spKey c 0 ∨ spKey c 0 + 2 ^ 20 ≤ key) → t.byte key = s.byte key)
        ∧ (∀ r, (t.core c).sreg r = 0) ∧ (∀ r, (t.core c).vreg r = 0) ∧ (∀ m, (t.core c).mreg m = 0)
        ∧ (t.core c).pend = [] ∧ (t.core c).acc = [] ∧ (t.core c).checks = [] ∧ (t.core c).punnets = []
        ∧ (t.core c).builds = [] ∧ (t.core c).engines = Vector.replicate 4 Engine.idle ∧ (∀ n : Fin 32, (t.core c).sb[n] = none)
        ∧ (∀ q, ((t.core c).queue q).packets = []) ∧ (t.core c).dqu.landing = []
        ∧ (t.core c).seq.state = .scrubbing ∧ (t.core c).seq.zeroing = true
        ∧ ∀ d, d ≠ c → ∃ ts, t.core d = { s.core d with dqu := { (s.core d).dqu with transfers := ts } })
      ∧ (k.scrubDue = false → exec (.endOfTaskScrub c) s = .next s)
      ∧ (k.seq.state = .scrubbing → k.seq.zeroing = true → ∃ t, exec (.endOfTaskScrubDone c) s = .next t
        ∧ s.onlyCore t c { k with seq := { k.seq with state := .idle, zeroing := false, cc := k.seq.cc + 1024 } })

/-- R255, R259, R261, R264, R265: a scoreboard entry that its instruction's last cc frees is gone one cc later; a watchdog that
reaches its limit faults the task, with the limit and the stall in the record; SEQ_WDOG clamps its limit; an idle core's banks
take the power written, a bank that powers up being filled with zeros for 1,024 cc; a scrubber access that finds nothing moves the
pass on, and the last one of a pass counts it. Where the manual is silent it rests on choices and readings of the model,
notes/assumptions: DEDUCED 19, 24, 28; DESIGN CHOICE 44. -/
def Obligations.CoreRegistersAndScoreboard : Prop :=
  (∀ (c : CoreId) (s : State),
    let k := s.core c
    (∀ (n : BitVec 5) e t0, k.sb[n.toNat]! = some e → e.free = .atCc t0 →
        ∃ t, exec (.scoreboardRangeFree c n) s = .next t ∧ t = { s with cores := t.cores }
          ∧ (∀ d, d ≠ c → t.core d = s.core d) ∧ (t.core c).sb[n.toNat]! = none
          ∧ (t.core c).seq.cc = max k.seq.cc (t0 + 1) ∧ (t.core c).sb = (k.sweep (max k.seq.cc (t0 + 1))).sb
          ∧ (t.core c).s = k.s ∧ (t.core c).v = k.v ∧ (t.core c).acc = k.acc ∧ (t.core c).dqu = k.dqu)
      ∧ ((k.seq.state = .stalled ∧ k.seq.fetchAt ≤ k.seq.cc) ∨ k.seq.state = .ending → k.seq.fault = none →
          ∃ t f, exec (.watchdog c) s = .next t ∧ t = { s with cores := t.cores } ∧ (∀ d, d ≠ c → t.core d = s.core d)
            ∧ (t.core c).seq.state = .faulted ∧ (t.core c).seq.fault = some f ∧ f.cause = 0x0908#16
            ∧ f.bundle = k.seq.pc ∧ f.detail = BitVec.ofNat 64 k.seq.wdogLimit.toNat
            ∧ f.stall = (if k.seq.state = .ending then k.endStall else k.seq.stall)
            ∧ (t.core c).seq.frozen = some (k.sweep k.seq.cc).sb ∧ (t.core c).sb = k.sb
            ∧ (t.core c).s = k.s ∧ (t.core c).v = k.v ∧ (t.core c).acc = k.acc ∧ (t.core c).dqu = k.dqu))
    ∧ (∀ (c : CoreId) (on : W16) (v : W64) (s : State),
    let k := s.core c
    let n := v.toNat % 2 ^ 28
    let limit := if n < 250 then 250#28 else if 250000000 < n then 250000000#28 else BitVec.ofNat 28 n
    (∃ t, exec (.seqWdogWrite c v) s = .next t ∧ s.onlyCore t c { k with seq := { k.seq with wdogLimit := limit } })
      ∧ (s.usable c = true → k.seq.state = .idle → ∃ t, exec (.spdBankpwrWrite c on) s = .next t
        ∧ (t.core c).seq.bankOn = on
        ∧ ((t.core c).seq.filling = true ↔ k.seq.filling = true ∨ ∃ b < 16, on.getLsbD b = true ∧ k.seq.bankOn.getLsbD b = false)
        ∧ (∀ o, o < 2 ^ 20 → t.byte (spKey c o)
            = if on.getLsbD (o / 2 ^ 16) && !k.seq.bankOn.getLsbD (o / 2 ^ 16) then 0 else s.byte (spKey c o))
        ∧ (∀ key, (key < spKey c 0 ∨ spKey c 0 + 2 ^ 20 ≤ key) → t.byte key = s.byte key)
        ∧ ∀ d, d ≠ c → t.core d = s.core d)
      ∧ (k.seq.filling = true → ∃ t, exec (.bankFillDone c) s = .next t
        ∧ s.onlyCore t c { k with seq := { k.seq with filling := false, cc := k.seq.cc + 1024 } })
      ∧ (s.usable c = true → s.calm c = true →
        (k.seq.scrubPos + 1 < k.passLength → ∃ t, exec (.scrubAccess c []) s = .next t
          ∧ s.onlyCore t c { k with seq := { k.seq with scrubPos := k.seq.scrubPos + 1 } })
        ∧ (k.passLength ≤ k.seq.scrubPos + 1 → ∃ t, exec (.scrubAccess c []) s = .next t
          ∧ s.onlyCore t c { k with
              seq := { k.seq with scrubPos := 0 }
              ca := { k.ca with spdPasses := bump k.ca.spdPasses } })))

/-! ## The mesh -/

/-- R257, R277, R278, R514: an inbound write that no entry blocks lands whole, and its sender is told; one that an entry blocks is
held once and counted; a core that performs no access refuses it (status 0x0001) and nothing lands. A held write lands when nothing
blocks it any more. An inbound read is answered with the words as they stand, poison marks too, or refused. Where the manual
is silent it rests on choices and readings of the model, notes/assumptions: DEDUCED 29; DESIGN CHOICE 27. -/
def Obligations.InboundAccesses : Prop :=
  (∀ (c : CoreId) (src : Node) (m : Msg) (off : Nat) (ws : List MWord) (ref : XferRef) (s : State),
    off % 8 = 0 → (s.core c).dqu.landing.find? (fun m => m.src == src) = none →
    let base := spKey c off
    let lands := fun (t : State) =>
      t = { s with cores := t.cores, mem := t.mem, poison := t.poison, flips := t.flips, mesh := t.mesh }
        ∧ (∀ n (_ : n < ws.length), ∀ j < 8, t.byte (base + 8 * n + j) = (ws[n].data).extractLsb' (8 * j) 8)
        ∧ (∀ key, (key < base ∨ base + 8 * ws.length ≤ key) → t.byte key = s.byte key)
        ∧ (∀ n (_ : n < ws.length), (base / 8 + n ∈ t.poison ↔ ws[n].poison = true))
        ∧ (∀ w, (w < base / 8 ∨ base / 8 + ws.length ≤ w) → (w ∈ t.poison ↔ w ∈ s.poison))
        ∧ (t.core c).sb = ((s.core c).countAwaits off (8 * ws.length)).sb ∧ (t.core c).s = (s.core c).s
        ∧ (t.core c).seq = (s.core c).seq
    let status := if ws.any (·.poison) then 5 else 0
    (s.head0 src (.core c) = some m → m.body = .write off ws ref → ref ≠ .none →
        let i := if m.held then Instr.heldInboundWriteLand c src else .inboundWrite c src
        let vc0 := dropFirst (Msg.between src (.core c)) s.mesh.vc0
        let told := fun (st : Nat) => (⟨vc0, s.mesh.vc1 ++ [⟨.core c, ref.home, false, .ack ref st⟩]⟩ : Mesh)
        (s.inbound c off (8 * ws.length) = .land →
            ∃ t, exec i s = .next t ∧ lands t ∧ t.mesh = told status ∧ ∀ d, d ≠ c → t.core d = s.core d)
          ∧ (s.inbound c off (8 * ws.length) = .hold → m.held = false →
            ∃ t, exec i s = .next t ∧ t.mesh.vc1 = s.mesh.vc1 ∧ t.head0 src (.core c) = some { m with held := true }
              ∧ s.onlyCore { t with mesh := s.mesh } c { s.core c with ca :=
                  { (s.core c).ca with spdHeld := bump (s.core c).ca.spdHeld } })
          ∧ (s.inbound c off (8 * ws.length) = .hold → m.held = true → exec i s = .next s)
          ∧ (s.inbound c off (8 * ws.length) = .refuse → exec i s = .next { s with mesh := told 1 })
          ∧ ∀ cause o, s.inbound c off (8 * ws.length) = .refuseFault cause o → (s.core c).seq.fault = none →
              ∃ t f, exec i s = .next t ∧ t = { s with cores := t.cores, mesh := told 1 } ∧ (∀ d, d ≠ c → t.core d = s.core d)
                ∧ (t.core c).seq.state = .faulted ∧ (t.core c).seq.fault = some f ∧ f.cause = BitVec.ofNat 16 cause
                ∧ f.detail = BitVec.ofNat 64 o ∧ (t.core c).s = (s.core c).s)
      ∧ ((s.head0 src (.core c)).filter (·.body.isWrite) = none → s.head1 src (.core c) = some m →
          ∀ d id, ref = .dma d id → m.body = .data off ws ref →
          let vc1 := dropFirst (Msg.between src (.core c)) s.mesh.vc1
          (s.inbound c off (8 * ws.length) = .land →
            ∃ t, exec (.inboundWrite c src) s = .next t ∧ lands t ∧ t.mesh = ⟨s.mesh.vc0, vc1⟩
              ∧ (t.core d).dqu.transfers = updFirst (fun x => x.id == id) (fun x => x.part status) (s.core d).dqu.transfers)
          ∧ (s.inbound c off (8 * ws.length) = .hold → m.held = false →
            ∃ t, exec (.inboundWrite c src) s = .next t ∧ t.mesh = ⟨s.mesh.vc0, vc1⟩ ∧ t.mem = s.mem
              ∧ (t.core c).dqu.landing = (s.core c).dqu.landing ++ [{ m with held := true }]
              ∧ (t.core c).ca.spdHeld = bump (s.core c).ca.spdHeld ∧ (t.core c).sb = (s.core c).sb)))
    ∧ (∀ (c : CoreId) (src : Node) (m : Msg) (off n dst : Nat) (ref : XferRef) (s : State),
    s.head0 src (.core c) = some m → m.body = .read off n dst ref →
    let vc0 := dropFirst (Msg.between src (.core c)) s.mesh.vc0
    let answer := fun (b : MsgBody) => { s with mesh := ⟨vc0, s.mesh.vc1 ++ [⟨.core c, src, false, b⟩]⟩ }
    (s.shut c = true → exec (.inboundRead c src) s = .next (answer (.ack ref 1)))
      ∧ (s.shut c = false → ∀ o, (s.core c).downByte off (off + 8 * n - 1) = some o → (s.core c).taskRuns = false →
          exec (.inboundRead c src) s = .next (answer (.ack ref 1)))
      ∧ (s.shut c = false → (s.core c).downByte off (off + 8 * n - 1) = none → s.calm c = true → off + 8 * n ≤ 2 ^ 20 →
          exec (.inboundRead c src) s = .next (answer (.data dst (s.rdWords (spKey c off) n) ref))))

/-- R269, R272, R276, R277, R279: a word that crosses a link of its packet's way into a router is poisoned by a double-bit error, in
all copies of a multicast that share the link; a single-bit error is counted there. An answer ends its part of a transfer, or its
put, and an error of a put faults at the sender; a complete transfer leaves its list, with its completion packet, which may have to
wait for room, or with a fault if it failed and asked for none. Where the manual is silent it rests on choices and readings
of the model, notes/assumptions: DEDUCED 5; DESIGN CHOICE 6. -/
def Obligations.AnswersAndCompletions : Prop :=
  ∀ (c : CoreId) (src : Node) (s : State),
    let k := s.core c
    let between := Msg.between src (.core c)
    (∀ load w, exec (.meshLinkWord c load w .clean) s = .next s)
      ∧ (∀ i w m, (s.mesh.vc0 ++ s.mesh.vc1)[i]? = some m →
          (m.crosses c.val = false ∨ m.body.wordCount ≤ w → ∀ e, exec (.meshLinkWord c (.msg i) w e) s = .next s)
          ∧ (m.crosses c.val = true → w < m.body.wordCount →
            (∃ t, exec (.meshLinkWord c (.msg i) w .single) s = .next t
              ∧ s.onlyCore t c { k with cb := { k.cb with mshCorrected := bump k.cb.mshCorrected } })
            ∧ ∃ t, exec (.meshLinkWord c (.msg i) w .double) s = .next t ∧ t = { s with mesh := t.mesh, free := s.free + 1 }
              ∧ t.mesh.vc0.length = s.mesh.vc0.length ∧ t.mesh.vc1.length = s.mesh.vc1.length
              ∧ (∀ off ws ref, m.body = .write off ws ref → (t.mesh.vc0 ++ t.mesh.vc1)[i]?
                  = some { m with body := .write off (ws.modify w fun x => { x with poison := true }) ref })
              ∧ (∀ off ws ref, m.body = .data off ws ref → (t.mesh.vc0 ++ t.mesh.vc1)[i]?
                  = some { m with body := .data off (ws.modify w fun x => { x with poison := true }) ref })
              ∧ ∀ (j : Nat) (q : Msg), (s.mesh.vc0 ++ s.mesh.vc1)[j]? = some q → q.twin m = false ∨ q.crosses c.val = false →
                  (t.mesh.vc0 ++ t.mesh.vc1)[j]? = some q))
      ∧ (∀ m d id st, s.head1 src (.core c) = some m → m.body = .ack (.dma d id) st →
          ∃ t, exec (.acknowledgement (.core c) src) s = .next t
            ∧ t.mesh = ⟨s.mesh.vc0, dropFirst between s.mesh.vc1⟩ ∧ t.mem = s.mem
            ∧ (t.core d).dqu.transfers = updFirst (fun x => x.id == id) (fun x => x.part st) (s.core d).dqu.transfers)
      ∧ (∀ m id st p, s.head1 src (.core c) = some m → m.body = .ack (.put c id) st →
          k.dqu.puts.find? (fun p => p.id == id) = some p →
          ∃ t, exec (.acknowledgement (.core c) src) s = .next t ∧ t.mem = s.mem
            ∧ t.mesh = ⟨s.mesh.vc0, dropFirst between s.mesh.vc1⟩
            ∧ (t.core c).dqu.puts = dropFirst (fun p => p.id == id) k.dqu.puts
            ∧ (st = 0 → (t.core c).seq = k.seq)
            ∧ (st ≠ 0 → k.seq.fault = none → ∃ f, (t.core c).seq.state = .faulted ∧ (t.core c).seq.fault = some f
                ∧ f.cause = 0x0A05#16 ∧ f.bundle = p.bundle))
      ∧ (∀ id x, k.dqu.transfers.find? (fun x => x.id == id) = some x → x.complete = false →
          exec (.dmaComplete c id) s = .next s)
      ∧ ∀ id x, k.dqu.transfers.find? (fun x => x.id == id) = some x → x.complete = true →
          (x.cqe = false →
            ∃ t, exec (.dmaComplete c id) s = .next t ∧ t.mem = s.mem ∧ t.mesh = s.mesh
              ∧ (t.core c).dqu.transfers = dropFirst (fun x => x.id == id) k.dqu.transfers
              ∧ (t.core c).cb.hqDmas = bump k.cb.hqDmas
              ∧ (x.status = 0 → (t.core c).seq = k.seq)
              ∧ (x.status ≠ 0 → k.seq.fault = none → ∃ f, (t.core c).seq.state = .faulted ∧ (t.core c).seq.fault = some f
                  ∧ f.cause = 0x0A05#16 ∧ f.bundle = x.bundle))
          ∧ (x.cqe = true → (k.dqu.posts ≠ [] ∨ s.arrival c x.cq.val 1 = .waits) →
            ∃ t, exec (.dmaComplete c id) s = .next t ∧ t.mem = s.mem ∧ t.mesh = s.mesh ∧ (t.core c).seq = k.seq
              ∧ (t.core c).dqu.transfers = dropFirst (fun x => x.id == id) k.dqu.transfers
              ∧ (t.core c).dqu.posts = k.dqu.posts ++ [(id, x.cq, x.completionWord)])
          ∧ (x.cqe = true → k.dqu.posts = [] → s.arrival c x.cq.val 1 = .reserved →
              (k.queue x.cq.val).packets.any (fun p => p.state == .arriving) = false →
            ∃ t, exec (.dmaComplete c id) s = .next t ∧ t.mesh = s.mesh ∧ (t.core c).seq = k.seq
              ∧ (t.core c).dqu.transfers = dropFirst (fun x => x.id == id) k.dqu.transfers ∧ (t.core c).dqu.posts = []
              ∧ ((t.core c).queue x.cq.val).packets = (k.queue x.cq.val).packets
                  ++ [⟨(k.queue x.cq.val).wp, 1, .committed, 0, .none, BitVec.ofNat 12 c.val, 2⟩]
              ∧ BitVec.ofNat 64 (t.spRd c ((k.queue x.cq.val).slotAt ((k.queue x.cq.val).wp + 1)) 8) = x.completionWord)

/-- R279, R282, R283, R514: a packet reserves its positions behind the packets that hold some, waits for room, is too large, or is
refused; one with a poisoned word is rewound where it stands. Commitment writes its tag word and makes it readable; a reset empties
the queue; a pointer mismatch empties it, sets the sticky bit and faults. Where the manual is silent it rests on choices and
readings of the model, notes/assumptions: DESIGN CHOICE 27. -/
def Obligations.QueuePackets : Prop :=
  ∀ (c : CoreId) (q : QueueId) (s : State),
    let k := s.core c
    let h := k.queue q.val
    (∀ (d : CoreId) m kind ws ref, s.head0 (.core d) (.core c) = some m → m.body = .packet q kind ws ref → ref ≠ .none →
        let i := Instr.packetArrive c (.core d)
        let vc0 := dropFirst (Msg.between (.core d) (.core c)) s.mesh.vc0
        let told := fun (st : Nat) => (⟨vc0, s.mesh.vc1 ++ [⟨.core c, ref.home, false, .ack ref st⟩]⟩ : Mesh)
        (s.arrival c q.val ws.length = .reserved → ws.any (·.poison) = false →
          ∃ t h', exec i s = .next t ∧ h' = (t.core c).queue q.val
            ∧ h'.packets = h.packets ++ [⟨h.wp, ws.length, .arriving, 0, ref, BitVec.ofNat 12 d.val, kind⟩]
            ∧ h'.wp = (h.wp + ws.length + 1) % h.depth ∧ t.mesh = ⟨vc0, s.mesh.vc1⟩
            ∧ ∀ n (_ : n < ws.length), BitVec.ofNat 64 (t.spRd c (h.slotAt (h.wp + 1 + n)) 8) = ws[n].data)
        ∧ (s.arrival c q.val ws.length = .reserved → ws.any (·.poison) = true →
          ∃ t h', exec i s = .next t ∧ h' = (t.core c).queue q.val ∧ t.mem = s.mem ∧ t.mesh = told 2
            ∧ h'.packets = h.packets ++ [⟨h.wp, ws.length, .rewound, 0, ref, BitVec.ofNat 12 d.val, kind⟩]
            ∧ h'.rewound = true ∧ (t.core c).cb.hqRewound = bump k.cb.hqRewound)
        ∧ (s.arrival c q.val ws.length = .tooLarge →
          ∃ t h', exec i s = .next t ∧ h' = (t.core c).queue q.val ∧ t.mem = s.mem ∧ t.mesh = told 2
            ∧ h'.packets = h.packets ∧ h'.rewound = true ∧ (t.core c).cb.hqRewound = bump k.cb.hqRewound)
        ∧ (s.arrival c q.val ws.length = .waits → ∃ t, exec i s = .next t ∧ t = { s with mesh := t.mesh }
            ∧ t.mesh.vc1 = s.mesh.vc1 ∧ t.head0 (.core d) (.core c) = some { m with held := true })
        ∧ (s.arrival c q.val ws.length = .refused → exec i s = .next { s with mesh := told 1 }))
      ∧ (∀ p, h.packets.find? (fun p => p.state == .arriving) = some p → p.xfer ≠ .none →
          ∃ t h', exec (.packetCommit c q) s = .next t ∧ h' = (t.core c).queue q.val
            ∧ h'.packets = updFirst (fun p => p.state == .arriving) (fun p => { p with state := .committed }) h.packets
            ∧ h'.seq = h.seq + 1 ∧ (t.core c).cb.hqPkts = bump k.cb.hqPkts
            ∧ (BitVec.ofNat 64 (t.spRd c (h.slotAt p.start) 8)) = tagWord p.src p.kind h.seq p.n
            ∧ (∀ key, (key < spKey c (h.slotAt p.start) ∨ spKey c (h.slotAt p.start) + 8 ≤ key) → t.byte key = s.byte key)
            ∧ t.mesh = ⟨s.mesh.vc0, s.mesh.vc1 ++ [⟨.core c, p.xfer.home, false, .ack p.xfer 0⟩]⟩)
      ∧ (h.packets.find? (fun p => p.state == .arriving) = none → exec (.packetCommit c q) s = .next s)
      ∧ (∃ t h', exec (.hqQstatRst c q) s = .next t ∧ h' = (t.core c).queue q.val ∧ h'.packets = [] ∧ h'.wp = 0 ∧ h'.seq = 0
          ∧ h'.lastVal = 0 ∧ h'.perr = h.perr ∧ h'.underrun = h.underrun
          ∧ h'.rewound = (h.rewound || h.packets.any (fun p => p.state == .arriving)) ∧ t.mem = s.mem
          ∧ (t.core c).seq = k.seq ∧ ∀ d, d ≠ c → t.core d = s.core d)
      ∧ (k.seq.fault = none → ∃ t h' f, exec (.queuePointerMismatch c q) s = .next t ∧ h' = (t.core c).queue q.val
          ∧ h'.packets = [] ∧ h'.perr = true ∧ (t.core c).cb.hqPtrerr = bump k.cb.hqPtrerr
          ∧ (t.core c).seq.state = .faulted ∧ (t.core c).seq.fault = some f ∧ f.cause = 0x0A01#16
          ∧ f.detail = BitVec.ofNat 64 q.val ∧ t.mem = s.mem ∧ ∀ d, d ≠ c → t.core d = s.core d)

/-- R224 to R226, R231, R233, R257: a route packet for a bank that holds another layer or step, or whose writes an entry blocks, is
held; one that the bank cannot take faults; one that it takes counts, and a row that a slot wants joins the slot's list. A contribution
record lands as any inbound write does, and one that names another layer or step than the combine core's, or that no await takes,
faults. A digest packet's digest is XORed into the layer's. Where the manual is silent it rests on choices and readings of
the model, notes/assumptions: DESIGN CHOICE 27, 45, 46. -/
def Obligations.RouterBlockTraffic : Prop :=
  ∀ (c : CoreId) (src : Node) (m : Msg) (s : State), s.head0 src (.core c) = some m →
    let k := s.core c
    let vc0 := dropFirst (Msg.between src (.core c)) s.mesh.vc0
    (∀ (hdr : BitVec 128) es0 bad ref, m.body = .route hdr es0 bad ref → s.shut c = false → ref ≠ .none →
        let layer := fld hdr.toNat 112 16
        let step := BitVec.ofNat 32 (fld hdr.toNat 64 32)
        let rcore := fld hdr.toNat 96 16
        let gang := fld hdr.toNat 48 16
        let es := es0.take (fld hdr.toNat 32 16)
        let b := k.bank (layer % 2)
        let base := s.bankBase c (layer % 2)
        let due := dueEntries (b.waiting.length + 1) b.next (b.waiting ++ [(rcore, es)])
        let meets := s.inboundAll c (s.routeSpans c base s.bMax b.holds.isNone due)
        let mine := b.holds = none ∨ b.holds = some (BitVec.ofNat 16 layer, step)
        let told := (⟨vc0, s.mesh.vc1 ++ [⟨.core c, ref.home, false, .ack ref (if bad = [] then 0 else 5)⟩]⟩ : Mesh)
        (¬mine → m.held = false →
          ∃ t, exec (.routePacket c src) s = .next t ∧ t.mem = s.mem ∧ t.head0 src (.core c) = some { m with held := true }
            ∧ s.onlyCore { t with mesh := s.mesh } c { k with cb := { k.cb with rtHold := bump k.cb.rtHold } })
        ∧ (mine → s.routeBad c (layer % 2) layer rcore gang es = true → k.seq.fault = none →
          ∃ t f, exec (.routePacket c src) s = .next t ∧ t.mem = s.mem ∧ t.mesh = told ∧ (t.core c).seq.state = .faulted
            ∧ (t.core c).seq.fault = some f ∧ f.cause = 0x0802#16 ∧ (t.core c).dqu.banks = k.dqu.banks)
        ∧ (mine → s.routeBad c (layer % 2) layer rcore gang es = false → meets = .hold → m.held = false →
          ∃ t, exec (.routePacket c src) s = .next t ∧ t.mem = s.mem ∧ t.head0 src (.core c) = some { m with held := true }
            ∧ s.onlyCore { t with mesh := s.mesh } c { k with ca := { k.ca with spdHeld := bump k.ca.spdHeld } })
        ∧ (mine → s.routeBad c (layer % 2) layer rcore gang es = false → meets = .land →
          ∃ t b', exec (.routePacket c src) s = .next t ∧ b' = (t.core c).bank (layer % 2) ∧ t.mesh = told
            ∧ b'.holds = some (BitVec.ofNat 16 layer, step) ∧ b'.got = b.got ++ [rcore]
            ∧ (t.core c).cb.rtPkts = bump k.cb.rtPkts ∧ (t.core c).cb.mshPoisoned = bumpBy bad.length k.cb.mshPoisoned
            ∧ (b'.complete = true ↔ (s.routeShape layer gang).2 ≤ b.got.length + 1)
            ∧ (t.core c).s = k.s ∧ (∀ d, d ≠ c → t.core d = s.core d)
            ∧ (∀ e j, b.holds = none → b.waiting = [] → b.next = rcore → es = [e] → smapSlots e = [j] → s.calm c = true →
                base + 64 ≤ 2 ^ 20 → s.spPoison? c (base + 4 * j) 4 = none →
                t.spRd c (base + 4 * j) 4 = 1 ∧ t.spRd c (base + 64 + 2 * s.bMax * j) 2 = fld e.toNat 48 16)))
      ∧ (∀ off ws ref, m.body = .write off ws ref → m.held = false → k.dqu.landing.find? (fun m => m.src == src) = none →
          s.inbound c off (8 * ws.length) = .land →
          (∀ l, (∀ x, l = some x → k.recordOk x (ws.map (·.data)) = true) → k.awaitTakes off (8 * ws.length) = true →
              exec (.contributionRecord c src l) s = exec (.inboundWrite c src) s)
          ∧ (∀ l, ((∃ x, l = some x ∧ k.recordOk x (ws.map (·.data)) = false) ∨ k.awaitTakes off (8 * ws.length) = false) →
              k.seq.fault = none →
              ∃ t f, exec (.contributionRecord c src l) s = .next t ∧ (t.core c).seq.state = .faulted
                ∧ (t.core c).seq.fault = some f ∧ f.cause = 0x0802#16)
          ∧ (∀ l, ∃ t, exec (.digestPacket c src l) s = .next t
              ∧ (t.core c).dqu.digestOf = some (l, k.ost.step.extractLsb' 0 32)
              ∧ (t.core c).dqu.digest = (if k.dqu.digestOf = some (l, k.ost.step.extractLsb' 0 32) then k.dqu.digest else 0)
                  ^^^ Config.digestField ((ws.map (·.data)).getD 0 0) ((ws.map (·.data)).getD 1 0)))

/-! ## Memory -/

/-- R297 to R300, R316, R325: a channel or controller serves the read that is next from a source with the words as they stand, the words of
an uncorrectable burst poisoned, and counts its bytes; a burst that reports an error counts it, an uncorrectable one with its event.
A write lands its words, and its sender is told: in a region under its key, elsewhere as they are. Where the manual is
silent it rests on choices and readings of the model, notes/assumptions: DEDUCED 50; DESIGN CHOICE 6, 47, 48. -/
def Obligations.ControllersServeAccesses : Prop :=
  ∀ (k : Ctrl) (src : Node) (sevs : List (Nat × Severity)) (m : Msg) (addr : Nat) (s : State),
    s.head0 src (ctrlNode k) = some m →
    let vc0 := dropFirst (Msg.between src (ctrlNode k)) s.mesh.vc0
    let chan := fun (t : State) => Sparse.get ⟨0, 0, 0, 0⟩ t.ms.chans (ctrlIx k)
    (∀ n dst ref, m.body = .read addr n dst ref → ∃ t, exec (.channelRead k src sevs) s = .next t
        ∧ t.mem = s.mem ∧ t.poison = s.poison ∧ t.cores = s.cores
        ∧ t.mesh = ⟨vc0, s.mesh.vc1 ++ [⟨ctrlNode k, src, false, .data dst (markBursts addr sevs (s.devRead addr n)) ref⟩]⟩
        ∧ (chan t).rd = bumpBy (8 * n) (chan s).rd ∧ (chan t).wr = (chan s).wr
        ∧ ((∀ x ∈ sevs, x.2 = .clean) → t.bbx = s.bbx ∧ (chan t).corr = (chan s).corr ∧ (chan t).uncorr = (chan s).uncorr)
        ∧ (∀ key sev, sevs = [(0, sev)] → burstNo addr (n - 1) = 0 →
            s.placeRaw (addr / burstUnit addr * burstUnit addr) = .mem k key →
            (sev = .corrected → (chan t).corr = bump (chan s).corr ∧ (chan t).uncorr = (chan s).uncorr ∧ t.bbx = s.bbx)
            ∧ (sev = .uncorrectable → (chan t).uncorr = bump (chan s).uncorr ∧ (chan t).corr = (chan s).corr
                ∧ ∃ r, t.bbx.waiting = s.bbx.waiting ++ [r] ∧ r.code = 0x0B06#16)))
      ∧ (∀ ws ref a p key, m.body = .write addr ws ref → ref ≠ .none → s.placeRaw addr = .mem a p →
          s.berthEntry addr = none → ws.length = 1 → s.keyOf addr = some key → key % 8 = 0 → addr % 8 = 0 →
          ∃ t, exec (.channelWrite k src) s = .next t ∧ t.cores = s.cores
            ∧ t.mesh = ⟨vc0, s.mesh.vc1 ++ [⟨ctrlNode k, ref.home, false, .ack ref (deliveredStatus ws)⟩]⟩
            ∧ t.plainWord addr key = (ws.getD 0 ⟨0, false⟩).data
            ∧ (key / 8 ∈ t.poison ↔ (ws.getD 0 ⟨0, false⟩).poison = true)
            ∧ (s.cipherAt addr = none → BitVec.ofNat 64 (t.rd key 8) = (ws.getD 0 ⟨0, false⟩).data
                ∧ ∀ b, (b < key ∨ key + 8 ≤ b) → t.byte b = s.byte b)
            ∧ (s.cipherAt addr ≠ none → addr % 64 ≤ key → ∀ b, (b < key - addr % 64 ∨ key - addr % 64 + 64 ≤ b) → t.byte b = s.byte b)
            ∧ (chan t).wr = bumpBy 8 (chan s).wr ∧ (chan t).rd = (chan s).rd)
      ∧ (∀ ws ref, m.body = .write addr ws ref → ref ≠ .none → (∀ a p, s.placeRaw addr ≠ .mem a p) →
          ∃ t, exec (.channelWrite k src) s = .next t ∧ t.mem = s.mem ∧ t.cores = s.cores
            ∧ t.mesh = ⟨vc0, s.mesh.vc1 ++ [⟨ctrlNode k, ref.home, false, .ack ref 3⟩]⟩)

/-- R303 to R306, R309: a tile whose block decodes and whose check agrees, at the first fetch or at the retry, lands where nothing blocks
it; one that fails both lands poisoned, is counted and reported; a header with dmg set lands poisoned at once. A re-verification clears
the report, counts one that passes now, and marks the header of one that fails again. Where the manual is silent it rests on
choices and readings of the model, notes/assumptions: DESIGN CHOICE 6, 131. -/
def Obligations.TileVerdictsLandOrPoison : Prop :=
  ∀ (c : CoreId) (id : Nat) (tries : TileTries) (x : Transfer) (s : State),
    let k := s.core c
    let off := x.tileDst
    let next := fun (t : State) (st : Nat) => (t.core c).dqu.transfers
      = updFirst (fun y => y.id == id)
          (fun y => { y with tile := y.tile + 1, held := false, struck := [], status := mergeStatus y.status st }) k.dqu.transfers
    let lands := fun (ws : List MWord) (t : State) =>
      (∀ n (_ : n < ws.length), ∀ j < 8, t.byte (spKey c off + 8 * n + j) = (ws[n].data).extractLsb' (8 * j) 8)
        ∧ (∀ n (_ : n < ws.length), (spKey c off / 8 + n ∈ t.poison ↔ ws[n].poison = true))
        ∧ (∀ b, (b < spKey c off ∨ spKey c off + 8 * ws.length ≤ b) → t.byte b = s.byte b)
    let poisoned := fun (t : State) => next t 4 ∧ (∀ n < 512, spKey c off / 8 + n ∈ t.poison) ∧ ∀ b, t.byte b = s.byte b
    off % 8 = 0 →
    (s.tileXfer c id .header = some x →
        let addr := x.src + 16 * x.tile
        let h := tileHdrOf (s.devNum addr 2)
        let ok := s.fetchPasses x.chk (s.expectedTile x) h
        (h.dmg = true → s.inbound c off 4096 = .land → ∃ t, exec (.tileVerdict c id tries) s = .next t ∧ poisoned t
          ∧ t.ms.reports = s.ms.reports ∧ (t.core c).cb.cdcCrcfail = k.cb.cdcCrcfail)
        ∧ (h.dmg = false → (∃ b, s.stored h = .content b) →
          (∀ f again, (again = false ∧ f = tries.first ∧ ok f = true) ∨
              (again = true ∧ f = tries.retry ∧ ok tries.first = false ∧ ok f = true) →
            let ws := s.tileWords h f x.struck
            s.inbound c off (8 * ws.length) = .land →
            ∃ t, exec (.tileVerdict c id tries) s = .next t ∧ next t (deliveredStatus ws) ∧ lands ws t
              ∧ (t.core c).cb.cdcBlocks = bumpBy (bit h.coded) k.cb.cdcBlocks
              ∧ (t.core c).cb.cdcRaw = bumpBy (bit (!h.coded && x.chk)) k.cb.cdcRaw
              ∧ (t.core c).cb.cdcRetryok = bumpBy (bit again) k.cb.cdcRetryok
              ∧ (t.core c).cb.cdcCrcfail = k.cb.cdcCrcfail ∧ t.ms.reports = s.ms.reports)
          ∧ (ok tries.first = false → ok tries.retry = false → s.inbound c off 4096 = .land →
            ∃ t, exec (.tileVerdict c id tries) s = .next t ∧ poisoned t ∧ t.ms.reports = s.ms.reports ++ [⟨addr, false, c.val⟩]
              ∧ (if tries.retry.outcome = .badDecode ∧ h.coded = true then
                   (t.core c).cb.cdcCodecfail = bump k.cb.cdcCodecfail ∧ (t.core c).cb.cdcCrcfail = k.cb.cdcCrcfail
                 else (t.core c).cb.cdcCrcfail = bump k.cb.cdcCrcfail ∧ (t.core c).cb.cdcCodecfail = k.cb.cdcCodecfail)))
        ∧ (h.dmg = false → s.stored h = .unmapped → ∃ t, exec (.tileVerdict c id tries) s = .next t ∧ t.mem = s.mem
            ∧ (t.core c).dqu.transfers = updFirst (fun y => y.id == id)
                (fun y => { y with tile := y.len / 4096, status := mergeStatus y.status 3 }) k.dqu.transfers))
      ∧ (s.tileXfer c id .berth = some x →
          let addr := x.src + 4096 * x.tile
          let ok := fun (f : TileFetch) => s.berthStale addr || (s.berthTileOk addr && f.outcome == .asStored)
          (∀ f again, (again = false ∧ f = tries.first ∧ ok f = true) ∨
              (again = true ∧ f = tries.retry ∧ ok tries.first = false ∧ ok f = true) →
            let ws := ((s.devRead addr 512).zip (fetchMarks addr f x.struck (s.devRead addr 512))).map fun p => { p.1 with poison := p.2 }
            s.inbound c off (8 * ws.length) = .land →
            ∃ t, exec (.berthTileCheck c id tries) s = .next t ∧ next t (deliveredStatus ws) ∧ lands ws t
              ∧ (t.core c).cb.cdcStale = bumpBy (bit (s.berthStale addr)) k.cb.cdcStale
              ∧ (t.core c).cb.cdcRetryok = bumpBy (bit again) k.cb.cdcRetryok ∧ t.ms.reports = s.ms.reports)
          ∧ (ok tries.first = false → ok tries.retry = false → s.inbound c off 4096 = .land →
            ∃ t, exec (.berthTileCheck c id tries) s = .next t ∧ poisoned t
              ∧ (t.core c).cb.cdcCrcfail = bump k.cb.cdcCrcfail ∧ t.ms.reports = s.ms.reports ++ [⟨addr, true, c.val⟩]))
      ∧ ∀ r, s.ms.reports.find? (fun y => y.header == r.header) = some r →
          let h := tileHdrOf (s.devNum r.header 2)
          let ok := if r.berth then s.berthTileOk r.header else s.tilePasses true h.tile h
          (ok = true → exec (.tileReverify r.header) s = .next { s with ms := { s.ms with
              transient := s.ms.transient + 1, reports := dropFirst (fun y => y.header == r.header) s.ms.reports } })
            ∧ (ok = false → ∃ t r', exec (.tileReverify r.header) s = .next t
              ∧ t.ms.reports = dropFirst (fun y => y.header == r.header) s.ms.reports ∧ t.cores = s.cores
              ∧ t.bbx.waiting = s.bbx.waiting ++ [r'] ∧ r'.code = 0x0B01#16 ∧ r'.payload = [BitVec.ofNat 64 r.header]
              ∧ (r.berth = true → t.mem = s.mem))

/-- R322 to R324, R217, R218: a traffic generator starts unless its channel is in service or its registers name no run; a stop is
taken at the end of a burst; a run that ends sets its status and leaves its channel; MEM_CHSVC sets the bits of channels
that do not run; a pool's count is written while no model is bound, every berth of it free. Where the manual is silent it
rests on choices and readings of the model, notes/assumptions: DEDUCED 56; DESIGN CHOICE 53, 54. -/
def Obligations.TrafficGeneratorsAndPools : Prop :=
  ∀ (ch : ChannelId) (cc : Nat) (i : BitVec 2) (v : W64) (anch : Bool) (n : W32) (s : State), s.hm.down = false →
    let g := s.tgc ch
    (g.busy = true → exec (.tgcGo ch) s = .next s)
      ∧ (g.busy = false → s.tgcRefused ch g = true → ∃ t, exec (.tgcGo ch) s = .next t
          ∧ t = { s with ms := { s.ms with tgcs := t.ms.tgcs } } ∧ t.tgc ch = { g with refused := true, done := true })
      ∧ (g.busy = false → s.tgcRefused ch g = false → ∃ t, exec (.tgcGo ch) s = .next t
          ∧ t = { s with ms := { s.ms with tgcs := t.ms.tgcs } } ∧ (t.tgc ch).busy = true ∧ (t.tgc ch).done = false
          ∧ (t.tgc ch).err = false ∧ (t.tgc ch).errs = 0 ∧ (t.tgc ch).bytes = 0 ∧ (t.tgc ch).passes = 0
          ∧ (t.tgc ch).ctrl = g.ctrl ∧ (t.tgc ch).range = g.range ∧ ∀ d, d ≠ ch → t.tgc d = s.tgc d)
      ∧ (g.busy = true → ∃ t, exec (.tgcStop ch) s = .next t ∧ t.tgc ch = { g with stopReq := true } ∧ t.mem = s.mem)
      ∧ (g.busy = true → (g.loops ≠ 0 ∨ g.stopReq = true) → ∃ t, exec (.tgcRunEnd ch cc) s = .next t
          ∧ (t.tgc ch).busy = false ∧ (t.tgc ch).done = true ∧ (t.tgc ch).memcc = bumpBy cc 0
          ∧ (t.ms.chsvc.getLsbD ch.val = true ↔ s.ms.chsvc.getLsbD ch.val = true ∨ g.svcReq = true)
          ∧ t.cores = s.cores ∧ ∀ d, d ≠ ch → t.tgc d = s.tgc d)
      ∧ ((∀ d : ChannelId, (s.tgc d).busy = false ∧ (s.tgc d).svcReq = false) → ∃ t, exec (.memChsvcWrite i v) s = .next t
          ∧ t = { s with ms := { s.ms with chsvc := t.ms.chsvc } }
          ∧ ∀ d : ChannelId, t.ms.chsvc.getLsbD d.val
              = if d.val / 64 = i.toNat then v.getLsbD (d.val % 64) else s.ms.chsvc.getLsbD d.val)
      ∧ (∃ t, exec (.bpoolCountWrite anch n) s = .next t
          ∧ t = (if s.hm.man.isSome then s
                 else if anch then { s with ms := { s.ms with apCount := n, apFree := n } }
                 else { s with ms := { s.ms with bpCount := n, bpFree := n } }))

/-! ## Power, heat, clocks -/

/-- R318, R451, R476 to R479: a thermal sample sets the registers and moves the throttle: down one step above a threshold, up one
step when every sensor is at its fall-back value, to 1 as thermal hold begins; hold begins above 105 °C of a stack or 110 °C of a
junction and ends at 102 and 107. The second sample in a row above 112 °C of a stack or 115 °C of a junction is a thermal trip, a
fatal fault. That a sample moves module time on by 256 µs is the model's inference from R477 (notes/assumptions). Where the
manual is silent it rests on choices and readings of the model, notes/assumptions: DEDUCED 78, 108; DESIGN CHOICE 6. -/
def Obligations.ThermalSamples : Prop :=
  (∀ (r : Sensors) (s : State), s.hm.down = false → s.hm.state ≠ 3 →
    let p := s.pwr
    let d := hottest r.dram.toList
    let j := hottest r.junc.toList
    (p.dramHot = false ∨ d ≤ 112) → (p.juncHot = false ∨ j ≤ 115) →
    ∃ t, exec (.thermalSample r) s = .next t
      ∧ t.hm.timeNs = s.hm.timeNs + 256000#64 ∧ t.hm.state = s.hm.state ∧ t.mem = s.mem ∧ t.host = s.host
      ∧ t.pwr.power = BitVec.ofNat 16 r.powerW ∧ t.pwr.current = r.currentTenMa ∧ t.pwr.voltage = r.voltageTenMv
      ∧ (t.pwr.holdDram = true ↔ 105 < d ∨ (p.holdDram = true ∧ 102 < d))
      ∧ (t.pwr.holdJunc = true ↔ 110 < j ∨ (p.holdJunc = true ∧ 107 < j))
      ∧ t.pwr.k = (if (t.pwr.hold && !p.hold) = true then 1
          else if 95 < d ∨ 100 < j ∨ 2000 < r.powerW then max 1 (p.k - 1)
          else if d ≤ 92 ∧ j ≤ 97 ∧ r.powerW ≤ 1900 then min p.kmax (p.k + 1) else p.k)
      ∧ (∀ i : Fin 16, t.ms.temps[i] = tempWord (nextRate (fld s.ms.temps[i].toNat 8 2) r.dram[i]) r.dram[i])
      ∧ t.pwr.dramHot = decide (112 < d) ∧ t.pwr.juncHot = decide (115 < j))
    ∧ (∀ (r : Sensors) (s : State), s.hm.down = false → s.hm.state ≠ 3 →
    ((s.pwr.dramHot = true ∧ 112 < hottest r.dram.toList) ∨ (s.pwr.juncHot = true ∧ 115 < hottest r.junc.toList)) →
    ∃ t rec_, exec (.thermalSample r) s = .next t ∧ t.hm.state = 3 ∧ t.pwr.k = 1
      ∧ rec_ ∈ t.bbx.waiting ∧ rec_.code = 0x1105#16 ∧ rec_.cls = 4#8)

/-- R321, R461, R468, R469, R472, R474, R476, R478, R481: events of the power and thermal logic, and what each changes; the input
outside its range, a rail of the power sequencer, and a start that fails turn the module off. What is off holds nothing but what
flash, fuses, the journal and the sequencer keep; the other rails' faults are fatal. Where the manual is silent it rests on
choices and readings of the model, notes/assumptions: DEDUCED 11, 109; DESIGN CHOICE 6. -/
def Obligations.PowerEvents : Prop :=
  (∀ (k : AnchId) (peer : Bool) (s : State), s.hm.down = false →
    (∃ t e, exec (.anchorageTemperature k) s = .next t ∧ t = { s with bbx := t.bbx } ∧ t.bbx.waiting = s.bbx.waiting ++ [e]
        ∧ e.code = 0x0B05#16 ∧ e.sidx = BitVec.ofNat 16 k.val)
      ∧ (s.pwr.band ≠ 1 → ∃ t e, exec .inputLow s = .next t ∧ t.pwr.band = 1 ∧ t.pwr.kmax = 4 ∧ t.pwr.k = min s.pwr.k 4
          ∧ t.bbx.waiting = s.bbx.waiting ++ [e] ∧ e.code = 0x1201#16 ∧ t.mem = s.mem ∧ t.cores = s.cores)
      ∧ (s.pwr.band ≠ 2 → ∃ t e, exec .inputHigh s = .next t ∧ t.pwr.band = 2 ∧ t.pwr.kmax = 8 ∧ t.pwr.k = s.pwr.k
          ∧ t.bbx.waiting = s.bbx.waiting ++ [e] ∧ e.code = 0x1202#16 ∧ t.mem = s.mem ∧ t.cores = s.cores)
      ∧ exec .inputBandReturn s = .next { s with pwr := { s.pwr with band := 0, kmax := 8 } }
      ∧ (3 ≤ s.pwr.stage → s.hm.state ≠ 3 → ∃ t e, exec .pllLossOfLock s = .next t ∧ t.hm.state = 3 ∧ t.pwr.root = false
          ∧ t.bbx.waiting = s.bbx.waiting ++ [e] ∧ e.code = 0x1103#16 ∧ t.mem = s.mem)
      ∧ (s.serv.phase = .holding → s.hm.state ≠ 3 → ∃ t, exec (.thermalHoldExchange peer) s = .next t ∧ t.pwr.holds = bump s.pwr.holds
          ∧ (s.pwr.holdDram = true ∨ s.pwr.holdJunc = true ∨ peer = true → t = { s with pwr := t.pwr })
          ∧ (s.pwr.holdDram = false → s.pwr.holdJunc = false → peer = false →
              t.serv.phase = .step ∧ t.hm.step = s.hm.step + 1)))
    ∧ (∀ (rail : Fin 11) (s : State), s.hm.down = false →
    let off := fun (t : State) => t.hm.down = true ∧ t.mem = [] ∧ t.cores = [] ∧ t.poison = [] ∧ t.serv = Serving.reset
      ∧ t.sec = Sec.reset ∧ t.ident = s.ident ∧ t.pending = s.pending
    (∃ t, exec .inputUndervoltage s = .next t ∧ off t ∧ t.pwr.off = false ∧ t.pwr.fails = 0 ∧ t.flash = s.flash)
      ∧ (∃ t, exec .inputOvervoltage s = .next t ∧ off t ∧ t.flash = s.flash)
      ∧ (s.pwr.stage = 1 → ∃ t, exec (.railOutOfRegulation rail) s = .next t ∧ off t ∧ t.pwr.fails = s.pwr.fails + 1
          ∧ (t.pwr.off = true ↔ 2 ≤ s.pwr.fails) ∧ t.flash.latch = some (2, 0x1104 + rail.val * 2 ^ 16))
      ∧ (s.pwr.stage ≠ 1 → s.pwr.good.getLsbD rail.val = true → s.hm.state ≠ 3 →
          (rail.val < 2 → ∃ t, exec (.railOutOfRegulation rail) s = .next t ∧ off t
              ∧ t.flash.latch = some (s.pwr.stage, 0x1104 + rail.val * 2 ^ 16))
          ∧ (2 ≤ rail.val → ∃ t e, exec (.railOutOfRegulation rail) s = .next t ∧ t.hm.state = 3
              ∧ t.pwr.good = s.pwr.good &&& ~~~(BitVec.ofNat 11 (2 ^ rail.val)) ∧ t.bbx.waiting = s.bbx.waiting ++ [e]
              ∧ e.code = 0x1104#16 ∧ e.payload = [BitVec.ofNat 64 rail.val] ∧ t.mem = s.mem)))

/-! ## Mailboxes and tickets -/

/-- R411, R412, R415, R417: a doorbell puts a command into state 1, or answers it at once with what turns it away; one that rings
while a command is in progress, like a write of the request window then, collides and counts. An answer fills the response window,
ends in state 2, and interrupts if it was asked to; a TICKET answer puts a running ticket on the issuer's list. A command that no
mailbox holds does nothing. Where the manual is silent it rests on choices and readings of the model, notes/assumptions:
DEDUCED 80, 82; DESIGN CHOICE 81. -/
def Obligations.Mailboxes : Prop :=
  (∀ (f : FnId) (off : BitVec 12) (v : W64) (s : State), s.hm.down = false →
    let x := s.fn f
    let m := x.mbx
    let h := (Sparse.get 0 m.win 0x40).toNat
    let op := BitVec.ofNat 16 h
    let m1 : Mbx := { m with st := 1, seq := v.extractLsb' 0 32, ien := tb v.toNat 32, op := op }
    let window := (0x40 ≤ off.toNat ∧ off.toNat < 0x50) ∨ (0x80 ≤ off.toNat ∧ off.toNat < 0x800)
    let collided := { x with err := x.err ||| 4#6, hosterrs := bump x.hosterrs, mbx := { m with collide := true } }
    (m.st = 1 → ∃ t, exec (.mbxDoorbell f v) s = .next t ∧ s.onlyFn t f collided)
      ∧ (m.st ≠ 1 → s.turnedAway (.fn f) op (fld h 32 16) = none →
          ∃ t, exec (.mbxDoorbell f v) s = .next t ∧ s.onlyFn t f { x with mbx := m1 })
      ∧ (∀ st, m.st ≠ 1 → s.turnedAway (.fn f) op (fld h 32 16) = some st →
          ∃ t, exec (.mbxDoorbell f v) s = .next t ∧ (t.fn f).mbx = { m1 with st := 2, resp := ⟨st, op, m1.seq, 0, []⟩ }
            ∧ t = { s with host := { s.host with fns := t.host.fns, out := t.host.out } })
      ∧ (off.toNat % 8 = 0 → window →
          ∃ t, exec (.mailboxWindowWrite f off v) s = .next t
            ∧ s.onlyFn t f (if m.st = 1 then collided else { x with mbx := { m with win := Sparse.put 0 m.win off.toNat v } }))
      ∧ (∃ t, exec (.mailboxWindowWrite f 8 v) s = .next t
          ∧ s.onlyFn t f { x with mbx := { m with collide := m.collide && !v.getLsbD 2 } })
      ∧ (∃ t, exec (.mailboxWindowWrite f 0 v) s = .next t ∧ exec (.mbxDoorbell f v) s = .next t)
      ∧ (off.toNat % 8 ≠ 0 ∨ (¬window ∧ off ≠ 8 ∧ off ≠ 0) →
          ∃ t, exec (.mailboxWindowWrite f off v) s = .next t ∧ s.onlyFn t f { x with hosterrs := bump x.hosterrs }))
    ∧ (∀ (i : Issuer) (st : W16) (tk : W32) (bs : List Byte) (s : State),
    let m := s.mbx i
    let t := s.answerMbx i st tk bs
    t.mbx i = { m with st := 2, resp := ⟨st, m.op, m.seq, tk, bs⟩ } ∧ (∀ j, j ≠ i → t.mbx j = s.mbx j)
      ∧ t = { s with host := { s.host with fns := t.host.fns, rack := t.host.rack, out := t.host.out } }
      ∧ (∀ f, i = .fn f → t.host.out = s.host.out
            ++ if m.ien && !((s.fn f).vec 0).2.2 && s.mastering f then [.msix f 0] else [])
      ∧ (∀ op unit total object, let q := s.told i op unit total object
          s.ticketOf q.1 = none → q.2.ticketOf q.1 = some ⟨q.1, op, .running, unit, 0xFFFF, total, 0, 0, object⟩
            ∧ (q.2.mbx i).st = 2 ∧ (q.2.mbx i).resp = ⟨stTicket, m.op, m.seq, q.1, []⟩
            ∧ ∀ st r, (q.2.finish q.1 st r).ended q.1 st r)
      ∧ ∀ p ∈ [(Instr.mbxNop i, 0x0001#16), (.identify i, 0x0002), (.moduleStatus i, 0x0003), (.ticketQuery i tk, 0x0004),
          (.ticketCancel i tk, 0x0005), (.portStatus i, 0x0203), (.reqPause i tk tk, 0x0303), (.reqResume i tk, 0x0304),
          (.reqStatus i tk, 0x0306), (.attest i 0 .ok, 0x0501), (.bbxRead i tk 1 .ok, 0x0601)],
          s.taken i p.2 = false → exec p.1 s = .next s)

/-- R360, R394, R415 to R417, R432, R234: the commands that answer at once with what they read, and those that act on tickets
and on a fenced port. Where the manual is silent it rests on choices and readings of the model, notes/assumptions: DESIGN
CHOICE 81, 131. -/
def Obligations.MailboxQueries : Prop :=
  ∀ (i : Issuer) (tk : W32) (p : PortId) (layer first count : Nat) (s : State),
    let done := fun (bs : List Byte) => s.reply i stDone bs
    (∀ q ∈ [(Instr.mbxNop i, 0x0001#16, ([] : List Byte)), (.identify i, 0x0002, s.summary),
        (.moduleStatus i, 0x0003, wordsToBytes (s.statusWords i)), (.portStatus i, 0x0203, wordsToBytes s.portWords)],
        s.taken i q.2.1 = true → exec q.1 s = .next (done q.2.2))
      ∧ s.summary.length = 368 ∧ (s.statusWords i).length = 8 ∧ s.portWords.length = 16
      ∧ (s.taken i 0x0004 = true →
          (∀ x, s.ticketOf tk = some x → ticketIssuer tk = issuerNo i → exec (.ticketQuery i tk) s = .next (done (leBytes 32 x.bits)))
          ∧ (s.ticketOf tk = none ∨ ticketIssuer tk ≠ issuerNo i → exec (.ticketQuery i tk) s = .next (s.reply i stNotFound [])))
      ∧ (s.taken i 0x0005 = true → ∀ x, s.ticketOf tk = some x → ticketIssuer tk = issuerNo i → x.st ≠ .finished →
          (x.op ∉ [0x0101#16, 0x0403, 0x0601, 0x0602, 0x0404] → exec (.ticketCancel i tk) s = .next (s.reply i stRefused []))
          ∧ (x.op ∈ [0x0101#16, 0x0403, 0x0601] → ∃ t, exec (.ticketCancel i tk) s = .next t
              ∧ t.ended tk stCancelled 0 ∧ (t.mbx i).st = 2 ∧ (t.mbx i).resp.status = stDone ∧ t.mem = s.mem))
      ∧ (exec (.ticketExpiry tk) s = .next { s with host := { s.host with
          tickets := s.host.tickets.filter fun x => !(x.num == tk && x.st == .finished) } })
      ∧ (s.taken i 0x0103 = true →
          (s.hm.man = none → exec (.bindingQuery i first count) s = .next (s.reply i stNotFound []))
          ∧ ∀ m, s.hm.man = some m → if 1 ≤ count ∧ count ≤ 120 ∧ first + count ≤ m.cores.length then
              ∃ bs, exec (.bindingQuery i first count) s = .next (done bs) ∧ bs.length = 16 + 16 * count
            else exec (.bindingQuery i first count) s = .next (s.reply i stBadArg []))
      ∧ (s.taken i 0x0105 = true → ∀ e, s.moe layer = some e → 1 ≤ count → count ≤ 240 →
          first + count ≤ e.routed + e.sharedExperts →
          exec (.expertStats i layer first count) s = .next (done ((List.range count).flatMap fun j =>
            leBytes 8 (Sparse.get (0 : W64) s.plc.cum (layer * 256 + first + j)).toNat)))
      ∧ (s.taken i 0x0202 = true →
          ((s.port p).link = .fenced → exec (.portUnfence i p) s = .next ((s.unfence p).reply i stDone []))
          ∧ ((s.port p).link ≠ .fenced → exec (.portUnfence i p) s = .next (s.reply i stRefused [])))

/-! ## Serving commands -/

/-- R356, R361, R305, R342, R343, R349, R417, R419: the commands of models, adapters, data sets and tuning, once their mailbox holds
them and a ticket is free: what they do under their ticket. Where the manual is silent it rests on choices and readings of
the model, notes/assumptions: DEDUCED 91, 122, 127, 128; DESIGN CHOICE 7, 123, 124. -/
def Obligations.ServingCommands : Prop :=
  ∀ (i : Issuer) (src : LoadSource) (expected : BitVec 384) (stage fits : Bool) (bad : List (Nat × Nat)) (sig : SigBlock)
      (m : Manifest) (digest : W64) (header : Nat) (content data : List W64) (fetch : FetchEnd) (id : W16) (fs : List AdapterFactor)
      (version : W32) (set : Byte) (s : State), s.ticketsFull i = false →
    let tenant := s.tenantOf i
    (s.taken i 0x0101 = true → s.hasBuffers i = true → s.hm.man = none → s.loading = false → loadArgBad i src = false →
        let q := s.told i 0x0101 0 0 0
        let st := q.2.loadVerdict src expected sig m
        s.ticketOf q.1 = none →
        let m1 : Manifest := { m with digest := sig.digest }
        let bound := q.2.bindModel m1 sig.signer (if stage then some sig.digest else none)
        (loadFetch src = .underWay → exec (.modelLoad i src expected stage sig m bad) s = .next q.2)
        ∧ (st ≠ stDone → loadFetch src ≠ .underWay → ∃ t, exec (.modelLoad i src expected stage sig m bad) s = .next t ∧ t.ended q.1 st 0
            ∧ t.hm = s.hm ∧ t.mem = s.mem ∧ t.cores = s.cores ∧ t.plc = s.plc)
        ∧ (st = stDone → bound.badTile m1 bad = none → ∃ t, exec (.modelLoad i src expected stage sig m bad) s = .next t
            ∧ t.ended q.1 stDone (sig.digest.extractLsb' 0 64) ∧ t.hm.man = some m1 ∧ t.hm.signer = sig.signer
            ∧ t.hm.binding = bindCores (m.cores.map (·.preferred)) s.goodCores ∧ t.plc = placerAt m1
            ∧ t.mem = bound.mem ∧ t.cores = bound.cores ∧ t.ms = bound.ms)
        ∧ (∀ x, st = stDone → bound.badTile m1 bad = some x → ∃ t, exec (.modelLoad i src expected stage sig m bad) s = .next t
            ∧ t.ended q.1 stBadArg (Config.tileName x.1 x.2) ∧ t.hm.man = none ∧ t.hm.binding = [] ∧ t.plc = Placer.reset))
      ∧ (s.taken i 0x0102 = true →
          let q := s.told i 0x0102 0 0 0
          if s.loading then exec (.modelUnload i digest) s = .next (s.reply i stBusy [])
          else if s.hm.man.isSome ∧ s.digest64 = digest then
            exec (.modelUnload i digest) s = .next { q.2 with serv := { q.2.serv with cmds := q.2.serv.cmds ++ [.unload (some q.1)] } }
          else exec (.modelUnload i digest) s = .next (s.reply i stNotFound []))
      ∧ (s.taken i 0x0104 = true → s.hasBuffers i = true →
          let q := s.told i 0x0104 0 0 0
          (s.headerIx header = none → exec (.tileWrite i header content fetch) s = .next (s.reply i stNotFound []))
          ∧ ((s.headerIx header).isSome = true → s.reverifying header = false → s.ticketOf q.1 = none → fetch = .ok →
              ∃ t r e, exec (.tileWrite i header content fetch) s = .next t ∧ t.ended q.1 stDone r ∧ t.plc.barred = []
                ∧ t.bbx.waiting.getLast? = some e ∧ e.code = 0x0B02#16 ∧ e.payload.head? = some (BitVec.ofNat 64 header)))
      ∧ (s.taken i 0x0401 = true → s.hasBuffers i = true → s.foreignAdapter tenant id = false → s.jobNames id = false →
          let q := s.told i 0x0401 0 0 id.toNat
          let st := q.2.installVerdict fs fetch fits
          exec (.adapterInstall i id fs fetch fits) s = .next (if st = stDone then { q.2 with serv := { q.2.serv with
            cmds := q.2.serv.cmds ++ [.install id tenant fs (some q.1)] } } else (q.2.readTries i fetch).finish q.1 st 0))
      ∧ (s.taken i 0x0402 = true →
          let q := s.told i 0x0402 0 0 id.toNat
          exec (.adapterRemove i id) s = .next (if (s.currentAdapter tenant id).isNone then s.reply i stNotFound []
            else if s.jobNames id then s.reply i stBusy []
            else { q.2 with serv := { q.2.serv with cmds := q.2.serv.cmds ++ [.remove id (some q.1)] } }))
      ∧ (s.taken i 0x0406 = true → s.hasBuffers i = true →
          ∀ a, s.serv.adapters.find? (fun a => a.id == id && a.version == version && a.tenant == tenant) = some a →
            let q := s.told i 0x0406 0 0 id.toNat
            exec (.adapterExport i id version fetch) s = .next (if fetch = .ok then
                (q.2.putBuffer i 0x0406 a.package).finish q.1 stDone (BitVec.ofNat 64 a.package.length)
              else (q.2.readTries i fetch).finish q.1 (fetchStatus fetch) 0))
      ∧ (s.taken i 0x0403 = true → s.hasBuffers i = true → fetch = .ok → fits = true →
          let q := s.told i 0x0403 0 0 set.toNat
          s.ticketOf q.1 = none →
          ∃ t, exec (.dataWrite i set data fetch fits) s = .next t ∧ t.ended q.1 stDone (BitVec.ofNat 64 (8 * data.length))
            ∧ t.serv.sets = (s.serv.sets.filter fun d => !(d.tenant == tenant && d.id == set)) ++ [⟨tenant, set, data⟩])
      ∧ ∀ a f0, s.taken i 0x0404 = true → s.startFactors tenant a = some f0 → s.untransposed f0 = false → a.rowShare ≤ s.bMax →
          s.jobLoad < 8 → (∃ d ∈ s.serv.sets, d.tenant = tenant ∧ d.id = a.dataSet) →
          s.foreignAdapter tenant a.adapter = false →
          let q := s.told i 0x0404 0 0 a.adapter.toNat
          exec (.tuneStart i a) s = .next { q.2 with serv := { q.2.serv with cmds := q.2.serv.cmds ++ [.tune i tenant a (some q.1)] } }

/-- R208 to R210, R328, R345 to R348, R402, R403, R406: the commands that name a request; and a request ring's next entry is taken: a
request that its checks pass becomes an offer; one that they refuse has its end record, and its entry leaves the ring; an entry
whose record names no completion ring leaves too. Where the manual is silent it rests on choices and readings of the model,
notes/assumptions: DEDUCED 88, 89, 91, 133, 134; DESIGN CHOICE 141. -/
def Obligations.RequestCommands : Prop :=
  (∀ (i : Issuer) (f : FnId) (h ttl : W32) (q : Request) (s : State), s.ticketsFull i = false → s.visible i h = some q →
    let add := fun (x : W32 × State) (c : BCmd) => { x.2 with serv := { x.2.serv with cmds := x.2.serv.cmds ++ [c] } }
    (∀ name : W64, i = .fn f → name.getLsbD 63 = false → name.extractLsb' 0 32 = h → s.taken i 0x0302 = true →
        let x := s.told i 0x0302 0 0 h.toNat
        exec (.reqCancel i name) s = .next (add x (.cancel h (some x.1))))
      ∧ (s.taken i 0x0303 = true →
          let x := s.told i 0x0303 1 0 h.toNat
          exec (.reqPause i h ttl) s = .next (if 1 ≤ ttl.toNat ∧ ttl.toNat ≤ 604800
            then add x (.pause h (1000 * ttl.toNat) (some x.1)) else s.reply i stBadArg []))
      ∧ (s.taken i 0x0304 = true →
          let x := s.told i 0x0304 1 0 h.toNat
          exec (.reqResume i h) s = .next (if q.phase ≠ .movingOut ∧ q.phase ≠ .moored then s.reply i stNotFound []
            else if s.hm.man.isNone ∨ qModel q.record ≠ s.digest64 then s.reply i stDigest []
            else add x (.resume h (some x.1))))
      ∧ (s.taken i 0x0305 = true → q.phase ≠ .prefilled → ∀ order, exec (.reqShip i h order) s = .next (s.reply i stBusy []))
      ∧ (s.taken i 0x0305 = true → q.phase = .prefilled → ∀ order : ShipOrder,
          let x := s.told i 0x0305 2 0 0
          let flow := Config.shipFlow x.1
          ∃ t, exec (.reqShip i h order) s = .next t ∧ t.mem = s.mem ∧ t.cores = s.cores
            ∧ t.serv = { s.serv with cmds := s.serv.cmds ++ if order.answer.isSome then [.ship h (some x.1) order] else [] }
            ∧ ∃ g, t.flow flow = some g ∧ g.peer = order.peer ∧ g.dclass = 0)
      ∧ (s.taken i 0x0306 = true → exec (.reqStatus i h) s = .next (s.reply i stDone (s.statRecord q)))
      ∧ (s.statRecord q).length = 64
      ∧ ∀ g, s.visible i g = none → (s.taken i 0x0306 = true → exec (.reqStatus i g) s = .next (s.reply i stNotFound []))
          ∧ (s.taken i 0x0304 = true → exec (.reqResume i g) s = .next (s.reply i stNotFound []))
          ∧ (s.taken i 0x0305 = true → ∀ order, exec (.reqShip i g order) s = .next (s.reply i stNotFound [])))
    ∧ (∀ (f : FnId) (r : RingId) (entry : BitVec 256) (q : BitVec 1024) (prompt : FetchEnd) (s : State),
    let g := s.ring f r
    let e := (assoc? g.next.toNat g.fetched).getD entry
    let st := s.submitVerdict f e q prompt
    let c := s.ring f (cringOf q)
    let turned := { s.serv with turn := f.val * 128 + r.val }
    (s.hm.state ≠ 1 ∨ s.hasEntry f r = false ∨ s.turnOf f r = false → ∀ x, exec (.reqSubmit f r entry x prompt) s = .next s)
      ∧ (s.hm.state = 1 → s.hasEntry f r = true → s.turnOf f r = true →
        (s.cringOk f q = true → st = stDone → ∃ t, exec (.reqSubmit f r entry (some q) prompt) s = .next t
            ∧ t.serv = { turned with offers := s.serv.offers ++ [⟨s.rank, f, (s.fn f).tenant, r, g.next, q⟩] }
            ∧ t.ring f r = { g with next := g.next + 1 } ∧ t.host.out = s.host.out ∧ t.mem = s.mem)
          ∧ (s.cringOk f q = true → st ≠ stDone → s.ringHeld f (cringOf q) < c.room → c.kept = [] →
              ∃ t, exec (.reqSubmit f r entry (some q) prompt) s = .next t ∧ t.serv = turned
                ∧ (t.ring f r).next = g.next + 1 ∧ (t.ring f (cringOf q)).prod = c.prod + 1
                ∧ .write f (c.slotAt c.prod) (leBytes 32 (s.refusalRecord q st).toNat) ∈ t.host.out)
          ∧ (s.cringOk f q = false → ∃ t, exec (.reqSubmit f r entry (some q) prompt) s = .next t ∧ t.serv = turned
              ∧ (t.fn f).err = (s.fn f).err ||| 8#6 ∧ (t.ring f r).next = g.next + 1 ∧ t.host.out = s.host.out)
          ∧ (∃ t, exec (.reqSubmit f r entry none prompt) s = .next t ∧ t.serv = turned ∧ (t.ring f r).next = g.next + 1
              ∧ (t.fn f).err = (s.fn f).err ||| 8#6 ∧ (t.fn f).hosterrs = bumpBy 3 (s.fn f).hosterrs))
      ∧ (st = stBadArg ↔ entryMalformed e = true ∨ s.recordVerdict f q = stBadArg))

/-! ## Steps, moorings, shipments, placement -/

/-- R337, R338, R340, R341, R451, R460, R478: when a boundary begins and with which cut-off, what a pulse and a lost pulse do, and what
every exchange leaves: a slice that halts is formed no longer; else the step counter rises by one and the next step starts, or a
thermal hold begins. Where the manual is silent it rests on choices and readings of the model, notes/assumptions: DEDUCED
136, 149, 150, 152; DESIGN CHOICE 154. -/
def Obligations.StepsBeginAndEnd : Prop :=
  ∀ (now high : Nat) (ended : StepEnd) (b : BoundaryIn) (s : State), s.hm.down = false → s.hm.state ≠ 3 →
    let v := s.serv
    let d := v.tide
    let cut := (v.cmds.length, v.offers.length)
    let began := fun (x : Tide) (cut : Nat × Nat) (free : Bool) => { s with serv := { v with
      phase := .begun, tide := x, cut := cut.1, cutOffers := cut.2, freeRun := free } }
    (if v.phase = .step ∧ s.workDone = true then
        if d.locked = false then exec (.stepWorkDone now) s = .next (began { d with freeRuns := bump d.freeRuns } cut true)
        else if (∃ l, d.last = some l ∧ l ≤ now ∧ now ≤ l + 50) then
          exec (.stepWorkDone now) s = .next (began { d with aligned := bump d.aligned } cut false)
        else exec (.stepWorkDone now) s = .next { s with serv := { v with phase := .waiting now cut.1 cut.2 } }
      else exec (.stepWorkDone now) s = .next s)
      ∧ (high < 32 → exec (.tidePulse now high) s = .next s)
      ∧ (32 ≤ high → ∀ l, d.last = some l → now < l + 50 →
          exec (.tidePulse now high) s = .next { s with serv := { v with tide := { d with glitches := bump d.glitches } } })
      ∧ (32 ≤ high → ∀ l, d.last = some l → l + 100 ≤ now → now ≤ l + 1000000 →
          let heard := { d with last := some now, missed := 0, locked := true, period := now - l }
          (∀ e c o, v.phase = .waiting e c o → now ≤ e + 50 →
              exec (.tidePulse now high) s = .next (began { heard with aligned := bump d.aligned } cut false))
            ∧ ((∀ e c o, v.phase = .waiting e c o → e + 50 < now) →
              exec (.tidePulse now high) s = .next { s with serv := { v with tide := heard } }))
      ∧ (d.locked = true → ∀ l, d.last = some l → l + (d.missed + 1) * d.period + 50 < now →
          (d.missed = 0 → exec (.tideLost now) s = .next { s with serv := { v with tide := { d with missed := 1 } } })
          ∧ (1 ≤ d.missed → ∃ t e, exec (.tideLost now) s = .next t ∧ t.serv.tide.locked = false ∧ t.serv.tide.last = none
              ∧ t.bbx.waiting = s.bbx.waiting ++ [e] ∧ e.code = 0x0C01#16 ∧ t.mem = s.mem ∧ t.cores = s.cores
              ∧ (∀ x c o, v.phase = .waiting x c o → t.serv.phase = .begun ∧ t.serv.freeRun = true ∧ t.serv.cut = c ∧ t.serv.cutOffers = o)))
      ∧ (∀ e c o, v.phase = .waiting e c o → e + 50 ≤ now →
          exec (.tideShiftLimit now) s = .next (began { d with misses := bump d.misses } (c, o) false))
      ∧ (∀ e c o, v.phase = .waiting e c o → now < e + 50 → exec (.tideShiftLimit now) s = .next s)
      ∧ (v.phase = .begun → s.fab.halted = false → s.debugHold = false → s.faultUnwritten = false →
          ∃ t, exec (.stepBoundary ended) s = .next t ∧ t = { s with serv := { v with phase := .exchange, ended := ended }, fab := t.fab }
            ∧ ∃ ms, t.fab = { s.fab with hmOut := s.fab.hmOut ++ ms } ∧ (s.formed = false → ms = []))
      ∧ (v.phase ≠ .begun ∨ s.fab.halted = true ∨ s.debugHold = true ∨ s.faultUnwritten = true →
          exec (.stepBoundary ended) s = .next s)
      ∧ (v.phase ≠ .exchange → exec (.boundaryExchange b) s = .next s)
      ∧ (v.phase = .exchange → (s.fab.halting = true ∨ ∃ p ∈ b.peers, p.halt = true) → ∃ t e, exec (.boundaryExchange b) s = .next t
          ∧ t.fab.halted = true ∧ t.formed = false ∧ t.serv.phase = .begun ∧ t.hm.step = s.hm.step
          ∧ t.bbx.waiting.getLast? = some e ∧ e.code = 0x0E15#16)
      ∧ (v.phase = .exchange → s.fab.halting = false → (∀ p ∈ b.peers, p.halt = false) →
          let hold := s.pwr.hold || b.peers.any (·.hold)
          ∃ t, exec (.boundaryExchange b) s = .next t ∧ t.serv.cut = 0 ∧ t.serv.cutOffers = 0
            ∧ (hold = true → t.serv.phase = .holding ∧ t.hm.step = s.hm.step)
            ∧ (hold = false → t.serv.phase = .step ∧ t.hm.step = s.hm.step + 1 ∧ t.fab.step = (s.hm.step + 1).extractLsb' 0 32
                ∧ t.serv.aborting = false ∧ t.serv.attributed = [] ∧ t.plc.spent = 0 ∧ t.hm.once = []))

/-- R197, R208 to R210, R213, R214, R334, R364 to R366: moves of moored requests, token records, shipments, which land or are
freed, and the placer's copies, which move within their budget or are abandoned. Where the manual is silent it rests on
choices and readings of the model, notes/assumptions: DEDUCED 140, 147; DESIGN CHOICE 135. -/
def Obligations.RequestsAndShipmentsMove : Prop :=
  (∀ (h position step : W32) (samples drafts : List (List Cand)) (q : Request) (s : State), s.req h = some q →
    (q.phase = .movingOut →
        let p := s.protect true q.tenant (s.aloneBerths q)
        s.aloneBerths q ≤ (p.freeHandles true q.tenant).length →
        ∃ t r, exec (.mooringComplete h) s = .next t ∧ t.req h = some r ∧ r.phase = .moored
          ∧ r.since = s.hm.timeNs ∧ r.ticket = none ∧ r.record = q.record ∧ r.ttl = q.ttl
          ∧ (∃ m, t.serv.moorings = s.serv.moorings ++ [m] ∧ m.handle = h)
          ∧ ∀ k x, q.ticket = some k → s.ticketOf k = some x → x.st = .running → t.ended k stDone 0)
      ∧ (q.phase ≠ .movingOut → exec (.mooringComplete h) s = .next s)
      ∧ (q.phase = .moored → s.ttlLeft q = 0 → s.resuming h = false → ∃ t e, exec (.mooringExpiry h) s = .next t
          ∧ t.serv.reqs = dropFirst (fun r => r.handle == h) s.serv.reqs ∧ t.ms.bexpire = bump s.ms.bexpire
          ∧ t.serv.cmds = s.serv.cmds ++ [.expire h]
          ∧ t.bbx.waiting = s.bbx.waiting ++ [e] ∧ e.code = 0x0711#16 ∧ e.handle = h)
      ∧ (q.phase ≠ .moored ∨ s.ttlLeft q ≠ 0 ∨ s.resuming h = true → exec (.mooringExpiry h) s = .next s)
      ∧ (q.phase = .movingIn → q.back = false → ∃ t r, exec (.resumeMoved h) s = .next t ∧ t.req h = some r
          ∧ r.phase = .movingIn ∧ r.back = true ∧ r.reserve = [] ∧ r.ticket = none ∧ r.record = q.record
          ∧ ∀ k x, q.ticket = some k → s.ticketOf k = some x → x.st = .running → t.ended k stDone 0)
      ∧ (q.phase ≠ .movingIn ∨ q.back = true → exec (.resumeMoved h) s = .next s)
      ∧ (let c := s.ring q.f (cringOf q.record)
         let i := Instr.completionRecordWrite h position samples drafts step
         q.phase = .running → q.rows ≠ 0 → s.serv.aborting = false → s.fab.aborted = false → step = s.hm.step.extractLsb' 0 32 →
          ((s.advance q ⟨h, samples, drafts⟩).kept.find? q.fresh = none → exec i s = .next s)
          ∧ ∀ k, (s.advance q ⟨h, samples, drafts⟩).kept.find? q.fresh = some k →
            (k.position ≠ position.toNat ∨ s.homeOf q = false → exec i s = .next s)
            ∧ (k.position = position.toNat → s.homeOf q = true → c.serves 2 = true → s.mastering q.f = true → c.kept = [] → 0 < c.room →
              ∃ t, exec i s = .next t ∧ t.req h = some { q with seq := q.seq + 1, top := some k.position }
                ∧ .write q.f (c.slotAt c.prod) (leBytes 32 (CompRec.bits ⟨qTag q.record, h, k.position, k.token, k.logit, s.hm.step,
                    stDone, 0, if k.draft then 2 else 0, q.seq⟩).toNat) ∈ t.host.out
                ∧ (t.ring q.f (cringOf q.record)).prod = c.prod + 1 ∧ t.mem = s.mem))
      ∧ (q.phase ≠ .running ∨ q.rows = 0 ∨ s.serv.aborting = true ∨ s.fab.aborted = true ∨ step ≠ s.hm.step.extractLsb' 0 32 →
          exec (.completionRecordWrite h position samples drafts step) s = .next s))
    ∧ (∀ (r : BitVec 1024) (f : FnId) (committed : W32) (st : ShipState) (xs : List ShipImage) (complete : Bool) (n layer expert bytes : Nat)
      (s : State),
    let old := s.serv.ships.find? fun y => y.record == r && y.f == f && !y.complete
    let verdict := s.shipVerdict (s.fn f).tenant st xs
    let receive := Instr.shipmentReceive r f committed st xs complete
    (old = none → verdict ≠ stDone → ∃ t, exec receive s = .next t ∧ t.serv = s.serv ∧ t.mem = s.mem ∧ t.cores = s.cores
        ∧ (s.flow st.flow = none → t = s))
      ∧ (∀ y, old = some y → verdict ≠ stDone → ∃ t, exec receive s = .next t
          ∧ t.serv = { s.serv with ships := s.serv.ships.filter fun z => z.num != y.num })
      ∧ (∀ hs s1, old = none → verdict = stDone → s.pickHandles false (s.fn f).tenant xs.length = some (hs, s1) →
          ∃ t, exec receive s = .next t ∧ hs.length = xs.length
            ∧ t.serv = { s.serv with
                ships := s.serv.ships ++ [⟨s.serv.nextShip, f, r, committed.toNat, st, xs, hs, complete, s.hm.timeNs⟩]
                nextShip := s.serv.nextShip + 1 }
            ∧ t.cores = s.cores ∧ t.host = s.host)
      ∧ (verdict = stDone → s.pickHandles false (s.fn f).tenant xs.length = none → exec receive s = .next s)
      ∧ (∀ y, s.serv.ships.find? (fun y => y.num == n && !y.complete) = some y →
          s.shipTimeoutNs ≤ (s.hm.timeNs - y.since).toNat → ∃ t, exec (.shipmentTimeout n) s = .next t
          ∧ t.serv = { s.serv with ships := s.serv.ships.filter fun z => z.num != n } ∧ t.cores = s.cores)
      ∧ (∀ y, s.serv.ships.find? (fun y => y.num == n && !y.complete) = some y →
          (s.hm.timeNs - y.since).toNat < s.shipTimeoutNs → exec (.shipmentTimeout n) s = .next s)
      ∧ (s.serv.ships.find? (fun y => y.num == n && !y.complete) = none → exec (.shipmentTimeout n) s = .next s)
      ∧ (let mine := isCopy layer expert
         (s.plc.copies.find? mine = none → ∀ x, exec (.placerCopy layer expert bytes x) s = .next s)
          ∧ ∀ c m e, s.plc.copies.find? mine = some c → s.hm.man = some m → s.moe layer = some e →
            (∃ t, exec (.placerCopy layer expert bytes true) s = .next t ∧ t.mem = s.mem
              ∧ t.plc = { s.plc with copies := s.plc.copies.filter fun c => !mine c, barred := s.plc.barred ++ [layer * 256 + expert] }
              ∧ t.ms.reports.length ≤ s.ms.reports.length + 1)
            ∧ (let k := min bytes (min c.left (budgetOf m - s.plc.spent))
               let had := e.sliceBytes - c.left
               (∃ t, exec (.placerCopy layer expert bytes false) s = .next t ∧ t.plc.spent = s.plc.spent + k)
               ∧ (had + k ≠ e.sliceBytes → had ≠ e.sliceBytes → (had + k) / 4096 = had / 4096 →
                  exec (.placerCopy layer expert bytes false) s = .next { s with plc := { s.plc with
                    copies := updFirst mine (fun c => { c with left := c.left - k }) s.plc.copies, spent := s.plc.spent + k } }))))

/-! ## Host functions and rings -/

/-- R399 to R409, R286: doorbells, ring registers, interrupts of a ring. -/
def Obligations.HostRings : Prop :=
  ∀ (f : FnId) (r : RingId) (v : W32) (w : W64) (s : State), s.hm.down = false →
    let x := s.fn f
    let g := s.ring f r
    let bell := fun (y : Func) => ∃ t, exec (.pciRdbDoorbell f r v) s = .next t ∧ s.onlyFn t f y
    let refused := { x.setRing r { g with cfg := g.cfg ||| 4#64 } with err := x.err ||| 1#6, ringerrs := bump x.ringerrs }
    let live := s.hm.state ≠ 0 ∧ s.hm.state ≠ 3
    (¬live → bell refused)
      ∧ (live → g.serves 1 = true → (v - g.prod).toNat ≤ g.room → ∃ t, exec (.pciRdbDoorbell f r v) s = .next t
          ∧ t = { s with host := { s.host with fns := t.host.fns, reads := t.host.reads, nextTag := t.host.nextTag } }
          ∧ t.ring f r = { g with prod := v }
          ∧ (s.mastering f = true → s.host.reads.length + (v - g.next).toNat ≤ 768 → ∀ i < (v - g.next).toNat, let ix := g.next + BitVec.ofNat 32 i
              (g.fetched.any fun e => e.1 == ix.toNat) = true ∨ ∃ y ∈ t.host.reads, y.f = f ∧ y.ring = r ∧ y.ix = ix))
      ∧ (live → g.serves 1 = true → g.room < (v - g.prod).toNat → bell refused)
      ∧ (live → g.serves 2 = true ∨ g.serves 3 = true → g.kept = [] →
          bell (if (v - g.cons).toNat ≤ g.used then x.setRing r { g with cons := v } else refused))
      ∧ (live → g.serves 1 = false → g.serves 2 = true ∨ g.serves 3 = true → g.used < (v - g.cons).toNat → bell refused)
      ∧ (live → g.serves 1 = false → g.serves 2 = false → g.serves 3 = false → bell refused)
      ∧ (let cfg := (w &&& 0xFFFFFFFFFFF00001#64) ||| (g.cfg &&& ~~~0xFFFFFFFFFFF00001#64 &&& ~~~(w &&& 6#64))
         w.getLsbD 0 = true → g.en = false → g.kept = [] → (cfg.extractLsb' 25 2 = 2#2 ∨ s.usesCring f r = false) →
          ∃ t, exec (.ringEnable f r w) s = .next t ∧ s.onlyFn t f
            (x.setRing r { g with cfg := cfg, cons := 0, prod := 0, next := 0, left := [], fetched := [], unsig := 0 }))
      ∧ (let cfg := (w &&& 0xFFFFFFFFF8000001#64) ||| (g.cfg &&& ~~~0xFFFFFFFFF8000001#64 &&& ~~~(w &&& 6#64))
         w.getLsbD 0 = false → g.en = true → ∃ t, exec (.ringDisable f r w) s = .next t ∧ t.ring f r = { g with cfg := cfg }
          ∧ t.serv = { s.serv with cmds := s.serv.cmds ++ if g.serves 1 then [.endRing f r] else [] }
          ∧ (∀ q, q ≠ r → t.ring f q = s.ring f q) ∧ t.mem = s.mem ∧ t.host.out = s.host.out)
      ∧ (exec (.ringInterruptTimer f r) s = .next (if g.modUs = 0 ∨ g.unsig = 0 then s
          else (s.modRing f r fun g => { g with unsig := 0 }).interrupt f g.vector))
      ∧ (g.serves 1 = true → ∃ t, exec (.ringPointerMismatch f r) s = .next t
          ∧ t.ring f r = { g with cfg := g.cfg ||| 2#64, cons := 0, prod := 0, next := 0, left := [], fetched := [] }
          ∧ (t.fn f).err = x.err ||| 2#6 ∧ t.serv = { s.serv with cmds := s.serv.cmds ++ [.endRing f r] })
      ∧ (g.serves 1 = false → exec (.ringPointerMismatch f r) s = .next s)

/-- R407, R409, R413, R421, R422, R436, R482: what the host and the link do to functions. Where the manual is silent it
rests on choices and readings of the model, notes/assumptions: DEDUCED 85, 87. -/
def Obligations.HostFunctions : Prop :=
  ∀ (f : FnId) (vec : BitVec 5) (tag : Nat) (data : List W64) (fns : List FnId) (stream sess : Nat) (s : State), s.hm.down = false →
    let x := s.fn f
    (∃ t, exec (.busMasterEnable f false) s = .next t ∧ s.onlyFn t f { x with bme := false })
      ∧ (∃ t, exec (.busMasterEnable f true) s = .next t ∧ (t.fn f).bme = true ∧ t.mem = s.mem ∧ t.serv = s.serv
          ∧ (x.rings = [] → x.pba = 0 → s.onlyFn t f { x with bme := true }))
      ∧ (f ≠ 0 → ∃ t, exec (.functionLevelReset f) s = .next t ∧ t.fn f = Func.reset ∧ (∀ g, g ≠ f → t.fn g = s.fn g)
          ∧ t.host.tickets = s.host.tickets.filter (fun k => ticketIssuer k.num != f.val) ∧ .endFn f ∈ t.serv.cmds
          ∧ (∀ y ∈ t.host.reads, y.f ≠ f) ∧ (∀ j ∈ t.serv.jobs, j.issuer = .fn f → j.cancelled = true)
          ∧ (x.tenant ≠ 0 → (∀ g, g ≠ f → (s.fn g).tenant ≠ x.tenant) → .dropTenant x.tenant ∈ t.serv.cmds) ∧ t.mem = s.mem)
      ∧ (∀ i ∈ [Instr.functionLevelReset 0, .perstAssert], ∃ t, exec i s = .next t ∧ (∀ g, t.fn g = Func.reset)
          ∧ t.host.reads = [] ∧ t.mem = s.mem ∧ t.cores = s.cores ∧ (∀ g, .endFn g ∈ t.serv.cmds)
          ∧ t.pwr = if i = .perstAssert then { s.pwr with perst := true, linkUp := false } else s.pwr)
      ∧ (exec .perstDeassert s = .next { s with pwr := { s.pwr with perst := false, linkUp := s.pwr.linkUp || decide (3 ≤ s.pwr.stage) } })
      ∧ (exec (.ideIntegrityFail fns) s = .next (if (s.sec.ide.any fun i => i.fns == fns && i.secure) then { s with sec := { s.sec with
          idefail := bump s.sec.idefail, ide := s.sec.ide.map fun i => if i.fns = fns then { i with secure := false } else i } } else s))
      ∧ (if (sess, true) ∈ (s.fn 0).sessions ∧ stream ≤ 64 then ∃ t, exec (.ideKm stream fns sess) s = .next t
            ∧ t.sec = { s.sec with ide := (s.sec.ide.filter fun i => i.num != stream) ++ [⟨stream, fns, true⟩] } ∧ t.mem = s.mem
          else exec (.ideKm stream fns sess) s = .next s)
      ∧ (∀ k ∈ [HostViolation.undefinedWrite, .roWrite], ∃ t, exec (.hostProtocolError f k) s = .next t
          ∧ s.onlyFn t f { x with hosterrs := bump x.hosterrs })
      ∧ (∀ k ∈ [HostViolation.badWidth, .poisonedTlp], ∃ t, exec (.hostProtocolError f k) s = .next t
          ∧ t.fn f = { x with hosterrs := bump x.hosterrs, err := x.err ||| 8#6 } ∧ t.host.out = s.host.out ++ [.aer f k]
          ∧ ∀ g, g ≠ f → t.fn g = s.fn g)
      ∧ (exec (.hostProtocolError f .malformed) s
          = .next { s with host := { s.host with out := s.host.out ++ [.aer f .malformed] } })
      ∧ (let e := x.vec vec.toNat
         ∃ t, exec (.msixVectorUnmask f vec) s = .next t ∧ (t.fn f).vec vec.toNat = (e.1, e.2.1, false)
          ∧ (x.pba.getLsbD vec.toNat = false → (t.fn f).pba = x.pba ∧ t.host.out = s.host.out)
          ∧ (x.pba.getLsbD vec.toNat = true → s.mastering f = true →
              (t.fn f).pba.getLsbD vec.toNat = false ∧ t.host.out = s.host.out ++ [.msix f vec.toNat]))
      ∧ ∀ y, s.readOf f tag = some y →
          (∃ t, exec (.hostReadCompletion f tag true false data) s = .next t
            ∧ (tag < s.host.nextTag → ∀ z ∈ t.host.reads, ¬(z.f = f ∧ z.tag = tag))
            ∧ assoc? y.ix.toNat (t.ring f y.ring).fetched = some (BitVec.ofNat 256 (packFields 64 ((data.take 4).map (·.toNat))))
            ∧ t.serv = s.serv ∧ t.mem = s.mem)
          ∧ ∀ i ∈ [Instr.hostReadCompletion f tag false false data, .hostReadCompletion f tag true true data, .hostReadTimeout f tag],
            ∃ t, exec i s = .next t ∧ (t.fn f).hosterrs = bump x.hosterrs ∧ t.serv = s.serv ∧ t.mem = s.mem
              ∧ (y.tries < 3 → s.host.reads.length ≤ 768 → (t.fn f).err = x.err ∧ ⟨f, s.host.nextTag, y.tries + 1, y.ring, y.ix⟩ ∈ t.host.reads)
              ∧ (3 ≤ y.tries → (t.fn f).err = x.err ||| 8#6)

/-- R11, R243, R292, R399, R405, R411, R422: a register write does what the register's own command does; a write that no
register takes is discarded, and one of the host's counts. A read of BAR0 returns the registers' contents, and zero for the doorbells.
Where the manual is silent it rests on choices and readings of the model, notes/assumptions: DEDUCED 79; DESIGN CHOICE 83. -/
def Obligations.RegisterWrites : Prop :=
  ∀ (f : FnId) (r : RingId) (c : CoreId) (p : PortId) (v : W64) (s : State), s.hm.down = false →
    let bar := fun (off : Nat) => BitVec.ofNat 64 (f.val * 0x10000 + off)
    let ctl := fun (off : Nat) => BitVec.ofNat 64 (0x080000000000 + off)
    exec (.registerWrite (bar 0x1000) v .pcie) s = exec (.mbxDoorbell f v) s
      ∧ exec (.registerWrite (bar (0x2000 + 8 * r.val)) v .pcie) s = exec (.pciRdbDoorbell f r (v.extractLsb' 0 32)) s
      ∧ (∃ t, exec (.registerWrite (bar 0x18) v .pcie) s = .next t
          ∧ s.onlyFn t f { s.fn f with err := (s.fn f).err &&& ~~~(v.extractLsb' 0 6) })
      ∧ (∃ t, exec (.registerWrite (bar 0x20) v .pcie) s = .next t ∧ s.onlyFn t f { s.fn f with evring := v.extractLsb' 0 8 })
      ∧ (∃ t, exec (.registerWrite (bar 0x4000) v .pcie) s = .next t
          ∧ s.onlyFn t f { s.fn f with hosterrs := bump (s.fn f).hosterrs })
      ∧ (s.usable c = true →
          exec (.registerWrite (ctl (c.val * 0x10000 + 0x10)) v .harbourmaster) s = exec (.seqWdogWrite c v) s
          ∧ (∃ t, exec (.registerWrite (ctl (c.val * 0x10000 + 0x318)) v .harbourmaster) s = .next t ∧ s.onlyCore t c
              { s.core c with ost := { (s.core c).ost with step := v, poisonSeen := false } })
          ∧ ((s.core c).seq.state ≠ .idle → exec (.registerWrite (ctl (c.val * 0x10000 + 0x540)) v .harbourmaster) s = .next s))
      ∧ (s.hm.man = none → exec (.registerWrite (ctl 0x10000C00) v .harbourmaster) s
          = .next { s with ms := { s.ms with bpBase := v &&& 0xFFFFFFFFFFFF8000#64 } })
      ∧ exec (.registerWrite (ctl 0x14000000) v .harbourmaster) s
          = .next { s with fab := { s.fab with coord := v &&& 0xFFFF00000001FFFF#64 } }
      ∧ (∀ off ∈ [0x14000010, 0x17000008, 0x18000000, 0x19000008, 0x1A000000, 0x1B000000, 0x1C000000],
          exec (.registerWrite (ctl off) v .harbourmaster) s = .next s)
      ∧ exec (.registerWrite (ctl 0x16000010) v .debug) s = .next (if s.sec.scope.getLsbD 2 then
          { s with sec := { s.sec with regValid := s.sec.regValid && !v.getLsbD 8 } } else s)
      ∧ (∀ src ∈ [Node.core c, .port p], exec (.registerWrite (ctl 0x14000000) v src) s = .next s)
      ∧ (let x := s.fn f; let g := s.ring f r
         s.barRead f 0 = s.sec.run.major ++ s.sec.run.minor ++ s.sec.run.patch ++ s.ident.hwrev ++ BitVec.ofNat 8 f.val
          ∧ s.barRead f 8 = s.ident.serial ∧ s.barRead f 0x18 = x.err.setWidth 64 ∧ s.barRead f 0x20 = x.evring.setWidth 64
          ∧ s.barRead f 0x1000 = 0 ∧ s.barRead f (0x2000 + 8 * r.val) = 0
          ∧ s.barRead f 0x1008 = x.mbx.seq ++ BitVec.ofNat 32 (bit x.mbx.collide * 4 + x.mbx.st.toNat)
          ∧ s.barRead f (0x3008 + 32 * r.val) = g.cfg ∧ s.barRead f (0x3010 + 32 * r.val) = g.cons ++ g.prod)

/-! ## The fabric -/

/-- R374, R375, R389, R394, R397: what enabling, training, a retry, the loss of a link, an unfence and an identity frame do to a
torus port or an uplink. An end that trains or is fenced sends its own identity; one that arrives on a port that carries frames is a
violation. Where the manual is silent it rests on choices and readings of the model, notes/assumptions: DEDUCED 69. -/
def Obligations.PortsTrainAndFence : Prop :=
  ∀ (p : PortId) (u : UplinkId) (serial : BitVec 48) (port : BitVec 3) (set : Bool) (x y : BitVec 4) (z : Byte) (s : State),
    s.hm.down = false →
    let g := s.port p
    let n := BitVec.ofNat 3 p.val
    let un := BitVec.ofNat 3 (6 + u.val)
    let one := fun (i : Instr) (q : FPort → Prop) (codes : List W16) => ∃ t, exec i s = .next t ∧ q (t.port p)
      ∧ (∀ r, r ≠ p → t.port r = s.port r) ∧ t = { s with fab := t.fab, bbx := t.bbx }
      ∧ t.bbx.waiting.map (·.code) = s.bbx.waiting.map (·.code) ++ codes
    let sent := some (s.identityFrame p)
    (g.en = false → exec (.portEnable n) s = .next (s.setPort p { g with en := true, link := .training, sent := sent }))
      ∧ (g.en = true → exec (.portEnable n) s = .next s)
      ∧ ((s.up u).link = .disabled → ∃ t, exec (.portEnable un) s = .next t ∧ t.up u = { s.up u with link := .training }
          ∧ t = { s with fab := { s.fab with ups := t.fab.ups } })
      ∧ (g.link = .training →
          one (.portTrained n true true) (fun f => f.link = .wide ∧ f.half = false ∧ f.retrain = false ∧ f.wrap = s.wrapLink p) []
          ∧ one (.portTrained n true false) (fun f => f.link = .narrow ∧ f.half = false) [0x0E11]
          ∧ one (.portTrained n false true) (fun f => f.link = .narrow ∧ f.half = true) [0x0E11]
          ∧ one (.portTrained n false false) (fun f => f.link = .down) (if g.again then [] else [0x0E10]))
      ∧ ((s.up u).link = .training → ∀ low high, ∃ t, exec (.portTrained un low high) s = .next t
          ∧ t.up u = { s.up u with link := if low && high then .wide else .down, retrain := false })
      ∧ (g.en = true → g.link = .down →
          exec (.portRetry n) s = .next (s.setPort p { g with link := .training, again := true, sent := sent }))
      ∧ ((s.up u).link = .down → ∃ t, exec (.portRetry un) s = .next t ∧ t.up u = { s.up u with link := .training })
      ∧ (g.link = .wide ∨ g.link = .narrow → one (.portDown p) (fun f => f = { g with link := .down }) [0x0E10])
      ∧ (g.link ≠ .wide → g.link ≠ .narrow → exec (.portDown p) s = .next s)
      ∧ (g.link = .fenced → exec (.xlkUnfence p) s = .next (s.setPort p { g with
          link := .training, retrain := true, miswired := false, viols := [], trains := [], replays := 0, sent := sent }))
      ∧ (g.link ≠ .fenced → exec (.xlkUnfence p) s = .next s)
      ∧ exec .xlkMismatchClear s = .next { s with fab := { s.fab with mismatch := 0 } }
      ∧ (let c : Coord := ⟨x.toNat, y.toNat, z.toNat⟩
         let bad := port.toNat ≠ (p.val ^^^ 1) ∨ (set = true ∧ s.fab.coord.getLsbD 16 = true ∧ c ≠ s.expectNeigh p)
         (g.link = .training → bad → one (.identityFrame p serial port set x y z)
            (fun f => f.link = .fenced ∧ f.miswired = true) [0x0E13, 0x0E12])
          ∧ (g.link = .training → ¬bad → one (.identityFrame p serial port set x y z)
            (fun f => f = { g with neigh := BitVec.ofNat 64 (serial.toNat * 2 ^ 16 + port.toNat * 2 ^ 12
              + (c.x + c.y * 16 + c.z * 256) % 4096) }) [])
          ∧ (g.link = .wide ∨ g.link = .narrow → ∃ t, exec (.identityFrame p serial port set x y z) s = .next t
            ∧ (t.port p).viol = bump g.viol ∧ (t.port p).neigh = g.neigh ∧ t.mem = s.mem ∧ t.mesh = s.mesh)
          ∧ (g.link ≠ .training → g.link ≠ .wide → g.link ≠ .narrow → exec (.identityFrame p serial port set x y z) s = .next s))

/-- R376, R378, R394: frames on the link: one that fails its CRC or its number is answered with a link NAK and does nothing else;
one that passes moves the number on; each frame type's command is the link's reception of such a frame. Where the manual is
silent it rests on choices and readings of the model, notes/assumptions: DEDUCED 62. -/
def Obligations.FramesOnTheLink : Prop :=
  ∀ (p : PortId) (fr : Frame) (credits : Bool) (s : State),
    let g := s.port p
    let up := g.link = .wide ∨ g.link = .narrow
    let sequenced := fr.ftype ≠ 0 ∧ fr.ftype ≠ 8 ∧ fr.ftype ≠ 9
    (¬up → exec (.frameReceive p fr credits) s = .next s)
      ∧ (up → sequenced → (fr.crcOk = false ∨ fr.lseq ≠ g.rxSeq) → ∃ t n, exec (.frameReceive p fr credits) s = .next t
          ∧ t = { s with fab := { s.fab with ports := t.fab.ports } } ∧ (∀ r, r ≠ p → t.port r = s.port r)
          ∧ (t.port p).rxSeq = g.rxSeq ∧ (t.port p).naks = bump g.naks ∧ (t.port p).sent = some n ∧ n.ftype = 8#8
          ∧ n.addr.extractLsb' 0 16 = g.rxSeq)
      ∧ (up → sequenced → fr.crcOk = true → fr.lseq = g.rxSeq → s.mustNak p fr = false →
          ∃ t, exec (.frameReceive p fr credits) s = .next t ∧ (t.port p).rxSeq = g.rxSeq + 1
            ∧ (t.port p).rxFrames = bump g.rxFrames)
      ∧ (up → fr.ftype = 9 → fr.crcOk = true → ∃ t, exec (.frameReceive p fr credits) s = .next t ∧ (t.port p).viol = bump g.viol
          ∧ (t.port p).rxSeq = g.rxSeq ∧ t.mem = s.mem ∧ t.mesh = s.mesh)
      ∧ (up → fr.ftype = 0 → fr.crcOk = true → fr.lseq = g.rxSeq → ∃ t, exec (.idleFrame p fr) s = .next t
          ∧ (t.port p).rxSeq = g.rxSeq ∧ (t.port p).rxFrames = bump g.rxFrames ∧ t.mem = s.mem ∧ t.mesh = s.mesh ∧ t.cores = s.cores)
      ∧ (up → fr.ftype = 8 → fr.crcOk = true → frameMalformed fr = false →
          let again := (g.trailer fr).from_ (fr.addr.extractLsb' 0 16)
          ∃ t, exec (.linkNak p fr) s = .next t ∧ (t.port p).rxFrames = bump g.rxFrames ∧ t.mem = s.mem ∧ t.mesh = s.mesh
            ∧ (again = [] → (t.port p).replayed = g.replayed)
            ∧ (again ≠ [] → (t.port p).replayed = bumpBy again.length g.replayed
                ∧ (8 ≤ (g.trailer fr).replays + 1 → (t.port p).link = .training ∨ (t.port p).link = .fenced)))
      ∧ ∀ c ∈ [(Instr.idleFrame p fr, 0#8), (.writeFrame p fr, 1), (.readRequest p fr, 2), (.readResponse p fr, 3), (.writeAck p fr, 4),
          (.refusalFrame p fr, 5), (.contributionFrame p fr, 6), (.linkNak p fr, 8)],
          exec c.1 s = if fr.ftype = c.2 then exec (.frameReceive p fr true) s else .next s

/-- R377, R384 to R387: what a frame for this module does once the link has passed it: writes and reads enter the mesh, answers end
this module's transfers, a message joins the harbourmaster's, a contribution lands, waits in VC2, or mismatches. The frames that
wait in VC2 are checked again in their order, and go on as far as their checks allow. Where the manual is silent it rests on
choices and readings of the model, notes/assumptions: DEDUCED 58, 64, 65, 66, 67; DESIGN CHOICE 76. -/
def Obligations.FramesReachTheirModule : Prop :=
  (∀ (p : PortId) (fr : Frame) (s : State),
    let g := s.port p
    let addr := fr.addr.toNat / 8 * 8
    let clean := fr.payload.map fun w => (⟨w, false⟩ : MWord)
    let ref := XferRef.frame p fr.srcX fr.srcY fr.srcZ fr.xfer
    (g.link = .wide ∨ g.link = .narrow) → fr.crcOk = true → fr.lseq = g.rxSeq → frameMalformed fr = false → fr.cdc = false →
      s.exitPort fr = none → s.strayFrame p fr = false →
      (fr.ftype = 1 → s.inXfer fr = none → s.rangeStatus (.frame fr.tenant.val) addr (8 * fr.payload.length) = 0 →
          ∃ t, exec (.writeFrame p fr) s = .next t ∧ t = { s with fab := t.fab, mesh := t.mesh }
            ∧ t.mesh = { s.mesh with vc0 := s.mesh.vc0 ++ s.writeMsgs (.port p) addr clean ref })
        ∧ (fr.ftype = 2 → s.rangeStatus (.frame fr.tenant.val) addr (wordAt fr.payload 0 / 8 * 8) = 0 →
          ∃ t, exec (.readRequest p fr) s = .next t ∧ t = { s with fab := t.fab, mesh := t.mesh }
            ∧ t.mesh = { s.mesh with vc0 := s.mesh.vc0 ++ s.readMsgs (.port p) addr (wordAt fr.payload 0 / 8 * 8) 0 ref })
        ∧ (∀ x c id, fr.ftype = 3 → s.fab.outs.find? (outXferOf fr true) = some x → x.ref = .dma c id → 8 * fr.payload.length ≤ x.left →
          ∃ t ms, exec (.readResponse p fr) s = .next t ∧ t.mesh = { s.mesh with vc1 := s.mesh.vc1 ++ ms } ∧ t.mem = s.mem
            ∧ (∀ m ∈ ms, m.src = .port p ∧ m.dst = .core c) ∧ ms.length = (piecesOf x.next (8 * fr.payload.length)).length
            ∧ (fr.last = true → t.fab.outs = dropFirst (fun y => y.num == x.num) s.fab.outs))
        ∧ (∀ x c id, fr.ftype = 4 → s.fab.outs.find? (outXferOf fr false) = some x → x.ref = .dma c id →
          ∃ t, exec (.writeAck p fr) s = .next t ∧ t.fab.outs = dropFirst (fun y => y.num == x.num) s.fab.outs ∧ t.mem = s.mem
            ∧ (t.core c).dqu.transfers = updFirst (fun y => y.id == id) (fun y => y.part 0) (s.core c).dqu.transfers)
        ∧ (∀ x c id, fr.ftype = 5 → s.fab.outs.find? (fun x => outXferOf fr true x || outXferOf fr false x) = some x → x.ref = .dma c id →
          ∃ t, exec (.refusalFrame p fr) s = .next t ∧ t.fab.outs = dropFirst (fun y => y.num == x.num) s.fab.outs ∧ t.mem = s.mem
            ∧ (t.core c).dqu.transfers = updFirst (fun y => y.id == id) (fun y => y.part (wordAt fr.payload 0 % 2 ^ 16))
                (s.core c).dqu.transfers)
        ∧ (fr.ftype = 7 → s.fab.forming = none → ∃ t, exec (.messageFrame p fr) s = .next t ∧ t.fab.hmIn = s.fab.hmIn ++ [fr]
            ∧ t = { s with fab := t.fab })
        ∧ (fr.ftype = 6 → s.inXfer fr = none → ∀ c send len,
            let words := fun (ws : List W64) => contHdrOf (packFields 64 (ws.map (·.toNat)))
            let h := words ((List.range 4).map fun i => fr.payload.getD i 0)
            let l := words ((s.rdWords (spKey c send) 4).map (·.data))
            let verdict := contVerdict s.fab.cfgdig s.fab.step s.rank fr.cfg fr.step h l
            s.slipTo fr.addr.toNat = some (c, send, len) → g.held = [] →
            (verdict = .held → ∃ t, exec (.contributionFrame p fr) s = .next t ∧ (t.port p).held = [fr]
                ∧ t.fab.heldCtr = bump s.fab.heldCtr ∧ t.mesh = s.mesh ∧ t.mem = s.mem)
            ∧ (verdict = .accepted → (fr.payload.length < 4 ∨ h.bytes + 32 ≠ len) → ∃ t, exec (.contributionFrame p fr) s = .next t
                ∧ (t.port p).held = [] ∧ t.mem = s.mem ∧ t.mesh = s.mesh ∧ t.fab.mismatches = s.fab.mismatches)
            ∧ (verdict = .accepted → 4 ≤ fr.payload.length → h.bytes + 32 = len → ∃ t, exec (.contributionFrame p fr) s = .next t
                ∧ (t.port p).held = [] ∧ t.mem = s.mem
                ∧ t.mesh = { s.mesh with vc0 := s.mesh.vc0 ++ s.writeMsgs (.port p) addr clean ref })
            ∧ (∀ n, verdict = .mismatch n → ∃ t, exec (.contributionFrame p fr) s = .next t ∧ t.fab.mismatches = bump s.fab.mismatches
                ∧ t.fab.aborted = true ∧ t.fab.halting = true ∧ t.mesh = s.mesh ∧ t.mem = s.mem
                ∧ ∃ e ∈ t.bbx.waiting, e.code = 0x0E14#16)))
    ∧ (∀ (p : PortId) (fr : Frame) (rest : List Frame) (s : State),
    let g := s.port p
    (g.held = [] → ∃ t, exec (.contributionRecheck p) s = .next t ∧ (t.port p).held = [] ∧ t.mesh = s.mesh ∧ t.mem = s.mem)
      ∧ (g.held = fr :: rest → s.vc2Frame p fr = none → ∃ t, exec (.contributionRecheck p) s = .next t
          ∧ (t.port p).held = fr :: rest ∧ t.mesh = s.mesh ∧ t.mem = s.mem ∧ t.cores = s.cores)
      ∧ (∀ s1, g.held = [fr] → s.vc2Frame p fr = some s1 → ∃ t, exec (.contributionRecheck p) s = .next t
          ∧ (t.port p).held = [] ∧ t.mesh = s1.mesh ∧ t.mem = s1.mem ∧ t.cores = s1.cores))

/-- R382, R383, R387, R397: a slice forms when every record agrees and its ports carry frames; else its event says so. Where
the manual is silent it rests on choices and readings of the model, notes/assumptions: DEDUCED 71, 72; DESIGN CHOICE 74, 75. -/
def Obligations.SlicesForm : Prop :=
  ∀ (i : Issuer) (n d sq o : Byte) (m : Muster) (s : State),
    let shape := (n = 1 ∨ n = 2 ∨ n = 4 ∨ n = 8) ∧ (d = 1 ∨ d = 2 ∨ d = 4 ∨ d = 8) ∧ (sq = 1 ∨ sq = 2 ∨ sq = 4 ∨ sq = 8)
      ∧ n.toNat = d.toNat * sq.toNat ∧ o.toNat % n.toNat = 0 ∧ o.toNat < 8 ∧ o.toNat ≤ s.slot ∧ s.slot < o.toNat + n.toNat
    (s.taken i 0x0201 = true → ¬shape → exec (.sliceForm i n d sq o) s = .next (s.reply i stBadArg []))
      ∧ (s.taken i 0x0201 = true → shape → s.ticketsFull i = false → s.fab.forming = none →
          let k := (s.told i 0x0201 0 0 0).1
          let f : Forming := ⟨k, n.toNat, d.toNat, sq.toNat, o.toNat, []⟩
          let me := s.myMuster f
          s.ticketOf k = none → ∃ t, exec (.sliceForm i n d sq o) s = .next t ∧ t.mem = s.mem ∧ t.cores = s.cores
            ∧ (s.slot ≠ o.toNat → t.fab = { s.fab with forming := some f, hmOut := s.fab.hmOut ++ [(0, .muster me)] })
            ∧ (s.slot = o.toNat → n ≠ 1 → t.fab = { s.fab with forming := some { f with records := [me] } })
            ∧ (n = 1 → t.formed = true ∧ t.fab.forming = none ∧ t.rank = 0 ∧ t.modules = 1
                ∧ t.fab.cfgdig = me.config.extractLsb' 0 64 ∧ ∃ r, t.ended k stDone r))
      ∧ (∀ f, s.fab.forming = some f →
          let g := { f with records := f.records ++ [m] }
          let es := s.musterEntries g
          (s.slot = f.origin → f.origin ≤ m.slot → m.slot < f.origin + f.n → (∀ r ∈ f.records, r.slot ≠ m.slot) →
            (g.inOrder.length ≠ f.n → exec (.musterRecord m) s = .next { s with fab := { s.fab with forming := some g } })
            ∧ (g.inOrder.length = f.n → ∃ t, exec (.musterRecord m) s = .next t ∧ t.fab.forming = none
                ∧ ((∀ e ∈ es, e.2.1 = 0) → s.formingOk = true → t.formed = true ∧ t.fab.step = s.hm.step.extractLsb' 0 32 ∧ t.hm.step = s.hm.step
                    ∧ t.fab.cfgdig = (s.myMuster f).config.extractLsb' 0 64)
                ∧ ((∃ e ∈ es, e.2.1 ≠ 0) → t.formed = false ∧ ∃ e, t.bbx.waiting = s.bbx.waiting ++ [e] ∧ e.code = 0x0E16#16)))
          ∧ ((s.slot ≠ f.origin ∨ m.slot < f.origin ∨ f.origin + f.n ≤ m.slot ∨ ∃ r ∈ f.records, r.slot = m.slot) →
              exec (.musterRecord m) s = .next s)
          ∧ (s.slot ≠ f.origin → ∃ t e, exec .musterTimeout s = .next t ∧ t.formed = false ∧ t.fab.forming = none
              ∧ t.bbx.waiting = s.bbx.waiting ++ [e] ∧ e.code = 0x0E16#16))
      ∧ (s.fab.forming = none → exec (.musterRecord m) s = .next s ∧ exec .musterTimeout s = .next s)

/-! ## Faults of the module, the journal -/

/-- R387, R450 to R452, R495: a contained fault is recorded and, in a step, ends the step's tasks on every core; a fatal one enters state 3 and
keeps everything else; halt and abort messages of the slice. Where the manual is silent it rests on choices and readings of
the model, notes/assumptions: DEDUCED 31, 92, 96. -/
def Obligations.FaultsAreContainedOrFatal : Prop :=
  ∀ (c : CoreId) (cause : W16) (snapshot : List W64) (h : BitVec 2) (step : W32) (s : State), s.hm.down = false →
    let k := s.core c
    let fatal := fun (i : Instr) (code : W16) => ∃ t e, exec i s = .next t
      ∧ t = { s with hm := { s.hm with state := 3 }, bbx := { s.bbx with waiting := s.bbx.waiting ++ [e] } } ∧ e.code = code ∧ e.cls = 4#8
    let ended := fun (t : State) => ∀ p ∈ t.cores, s.stepCore p.1 = true → p.2.inTask = false
    (∀ f, k.seq.fault = some f → k.seq.state = .faulted → k.seq.faultRead = false →
        ∃ t e, exec (.containedFaultResponse c) s = .next t ∧ e ∈ t.bbx.waiting ∧ e.code = f.cause ∧ e.cls = 3#8 ∧ e.skind = 1#8
          ∧ e.sidx = BitVec.ofNat 16 c.val ∧ t.mem = s.mem ∧ (t.core c).seq.faultRead = true ∧ (t.core c).seq.state = .faulted
          ∧ (f.cause ≠ 0x0E01 → s.stepCore c.val = true → t.serv.aborting = true ∧ ended t)
          ∧ (f.cause = 0x0E01 ∨ s.stepCore c.val = false → t.serv = s.serv))
      ∧ (k.seq.fault = none ∨ k.seq.state ≠ .faulted ∨ k.seq.faultRead = true → exec (.containedFaultResponse c) s = .next s)
      ∧ (s.hm.state ≠ 3 → fatal (.fatalFault cause snapshot) cause ∧ fatal .hmSramError 0x1101
          ∧ ((s.hmAt h).halted = false → fatal (.hmWatchdog h) 0x1102))
      ∧ (s.hm.state = 3 → ∀ i ∈ [Instr.fatalFault cause snapshot, .hmSramError, .hmWatchdog h], exec i s = .next s)
      ∧ ((s.hmAt h).halted = true → exec (.hmWatchdog h) s = .next s)
      ∧ (if s.formed = true ∧ step = s.fab.step then ∃ t, exec (.stepAbortMessage step) s = .next t ∧ t.serv.aborting = true
            ∧ ended t ∧ t.mem = s.mem ∧ t.fab = s.fab
          else exec (.stepAbortMessage step) s = .next s)
      ∧ (s.formed = true → ∃ t, exec (.haltMessage step) s = .next t ∧ t.fab.halting = true ∧ t.mem = s.mem
          ∧ (step = s.fab.step → t.fab.aborted = true))
      ∧ (s.formed = false → exec (.haltMessage step) s = .next s)

/-- R457 to R467: a record commits into the next slot, its number and its CRC with it; a slot that fails twice is marked bad, and
a second bad slot breaks the journal. A fatal fault's record tells the slice to halt (R451). BBX_READ gives an issuer what it may see, and the pins the MRAM's bytes. -/
def Obligations.RecordsCommitAndAreRead : Prop :=
  ∀ (r : JRec) (rest : List JRec) (i : Issuer) (first : W32) (count n : Nat) (addr : W32) (cmd : Byte) (s : State),
    let b := s.bbx
    let seq := b.newest + 1
    let at_ := fun (t : State) (q : W32) => Sparse.get 0 t.bbx.slots (q.toNat % 262144)
    let kept := fun (t : State) => t = { s with bbx := t.bbx, host := t.host, fab := { s.fab with hmOut := t.fab.hmOut } }
      ∧ (r.cls ≠ 4 → t.fab = s.fab)
      ∧ (r.cls = 4 → r.more = false → s.formed = true → ∀ k < s.modules, k ≠ s.rank → (k, .halt s.fab.step) ∈ t.fab.hmOut)
    (b.waiting = [] → ∀ x y, exec (.journalCommit x y) s = .next s)
      ∧ (b.waiting = r :: rest → b.broken = true → ∀ x y, ∃ t, exec (.journalCommit x y) s = .next t ∧ kept t
          ∧ t.bbx = { b with waiting := rest, lost := bump b.lost })
      ∧ (b.waiting = r :: rest → b.broken = false →
          (∀ y, ∃ t, exec (.journalCommit true y) s = .next t ∧ kept t ∧ at_ t seq = s.recordBits seq r ∧ t.bbx.newest = seq
            ∧ t.bbx.commits = bump b.commits ∧ t.bbx.waiting = r.rest ++ rest ∧ t.bbx.broken = false
            ∧ ∀ q : W32, q.toNat % 262144 ≠ seq.toNat % 262144 → at_ t q = at_ s q)
          ∧ (∃ t, exec (.journalCommit false true) s = .next t ∧ kept t ∧ at_ t (seq + 1) = s.recordBits (seq + 1) r
            ∧ at_ t seq = Config.badSlot seq.toNat ∧ t.bbx.newest = seq + 1 ∧ t.bbx.commits = bump b.commits)
          ∧ (∃ t, exec (.journalCommit false false) s = .next t ∧ kept t ∧ t.bbx.broken = true ∧ t.bbx.lost = bump b.lost
            ∧ t.bbx.newest = b.newest ∧ t.bbx.commits = b.commits ∧ t.bbx.waiting = rest
            ∧ ∃ s1 ev, t = State.postEvent s1 0 ev ∧ ev.extractLsb' 80 16 = 0x1111#16))
      ∧ (s.taken i 0x0601 = true → s.hasBuffers i = true → s.ticketsFull i = false → b.none = false →
          (first - b.oldest).toNat ≤ (b.newest - b.oldest).toNat →
          let k := (s.told i 0x0601 3 count 0).1
          s.ticketOf k = none →
          ∃ t, exec (.bbxRead i first count .ok) s = .next t ∧ t.ended k stDone (BitVec.ofNat 64
            (s.recordsFrom i first (min count ((b.newest - first).toNat + 1))).length) ∧ t.bbx = b ∧ t.mem = s.mem)
      ∧ exec (.bbxReadSerial n) s = .next { s with bbx := { b with
          miso := some ((leBytes 8 s.ident.serial.toNat ++ List.replicate n 0).take n) } }
      ∧ exec (.bbxReadStatus n) s = .next { s with bbx := { b with
          miso := some (List.replicate n (if b.waiting ≠ [] ∧ b.broken = false then 1#8 else 0)) } }
      ∧ exec (.bbxReadData addr n) s = .next { s with bbx := { b with miso := some (s.mramBytes addr.toNat n) } }
      ∧ exec (.bbxUndefinedCommand cmd n) s
          = .next (if cmd ∈ [0x9F#8, 0x05, 0x13] then s else { s with bbx := { b with miso := none } })

/-! ## Uplinks and time -/

/-- R391 to R394: datagrams of a flow, its timers, an uplink that goes down or comes up, frames that are dropped, and module
time. Where the manual is silent it rests on choices and readings of the model, notes/assumptions: DEDUCED 77, 78. -/
def Obligations.UplinksCarryFlows : Prop :=
  ∀ (u : UplinkId) (d : Datagram) (id err : W32) (ns : W64) (g : UFlow) (s : State),
    let x := s.up u
    let up := x.link = .wide ∨ x.link = .narrow
    let bad := d.reservedZero = false ∨ d.crcOk = false ∨ 8192 < d.data.length ∨ 3 < d.dclass.toNat
    let arrives := [Instr.uplinkData u d, .uplinkAck u d, .uplinkOpen u d, .uplinkClose u d, .uplinkReset u d]
    let onlyUp := fun (t : State) (y : UPort) => t = { s with fab := { s.fab with ups := t.fab.ups } } ∧ t.up u = y
      ∧ ∀ v, v ≠ u → t.up v = s.up v
    let rx := bumpBy (32 + d.data.length) x.rx
    (¬up → ∀ i ∈ arrives, exec i s = .next s)
      ∧ (up → bad → ∀ i ∈ arrives, ∃ t, exec i s = .next t ∧ onlyUp t { x with rx := rx, viol := bump x.viol })
      ∧ (up → ¬bad → s.flow d.flow = none → ∀ i ∈ arrives, i ≠ .uplinkOpen u d →
          ∃ t, exec i s = .next t ∧ onlyUp t { x with rx := rx, viol := bump x.viol })
      ∧ (up → ¬bad → ∃ t, exec (.uplinkOpen u d) s = .next t ∧ t.host = s.host
          ∧ t.fab.flows = (s.fab.flows.filter fun f => f.id != d.flow) ++ [UFlow.fresh d.flow d.dclass (d.seq + 1)])
      ∧ (up → ¬bad → s.flow d.flow = some g →
          (d.seq = g.expect → ∃ t f, exec (.uplinkData u d) s = .next t ∧ t.flow d.flow = some f ∧ f.expect = g.expect + 1
            ∧ f.got = g.got ++ d.data ∧ t.mem = s.mem
            ∧ (16 ≤ g.sinceAck + 1 → f.sinceAck = 0) ∧ (g.sinceAck + 1 < 16 → f.sinceAck = g.sinceAck + 1))
          ∧ (d.seq ≠ g.expect → (d.seq - g.expect).toNat < 1024 → ∃ t, exec (.uplinkData u d) s = .next t
            ∧ onlyUp t { x with rx := rx })
          ∧ (1024 ≤ (d.seq - g.expect).toNat → ∃ t, exec (.uplinkData u d) s = .next t
            ∧ onlyUp t { x with rx := rx, viol := bump x.viol })
          ∧ ((∀ y ∈ s.fab.flows, samePeer g y = true → ∀ z ∈ s.flow y.id, z.toSend = []) → ∃ t f, exec (.uplinkAck u d) s = .next t ∧ t.flow d.flow = some f ∧ t.host = s.host
            ∧ f = g.acked d.ack d.ce (d.window.toNat * 1024)
            ∧ (d.ce = true → f.window = g.window / 2))
          ∧ (∃ t, exec (.uplinkClose u d) s = .next t ∧ t.flow d.flow = none ∧ t.mem = s.mem)
          ∧ (∃ t, exec (.uplinkReset u d) s = .next t ∧ t.flow d.flow = some (UFlow.fresh g.id g.dclass (d.seq + 1)) ∧ t.host = s.host))
      ∧ (s.flow id = some g →
          (g.sinceAck = 0 → exec (.uplinkAckTimer id) s = .next s)
          ∧ (g.sinceAck ≠ 0 → ∃ t, exec (.uplinkAckTimer id) s = .next t ∧ t.flow id = some { g with sinceAck := 0, ce := false }
            ∧ ∀ w, s.flowUplink id = some w →
              t.host.out = s.host.out ++ [.datagram w 2 (g.datagram g.nextSeq g.ce [])])
          ∧ (∀ w, s.flowUplink id = some w → (∀ e ∈ g.unacked, e.flow = id) → ∃ t, exec (.uplinkRetransmit id) s = .next t
            ∧ (t.up w).retx = bumpBy g.unacked.length (s.up w).retx
            ∧ t.host.out = s.host.out ++ g.unacked.map (fun e => .datagram w 1 e))
          ∧ (∃ t, exec (.uplinkFlowTimeout id) s = .next t ∧ t.flow id = none
            ∧ t.fab = { s.fab with flows := s.fab.flows.filter fun f => f.id != id } ∧ t.host.out = s.host.out))
      ∧ (up → ∃ t e, exec (.uplinkDown u) s = .next t ∧ t.up u = { x with link := .down } ∧ t.bbx.waiting = s.bbx.waiting ++ [e]
          ∧ e.code = 0x0E19#16)
      ∧ (x.link = .down → ∃ t, exec (.uplinkUp u) s = .next t ∧ onlyUp t { x with link := .wide })
      ∧ (up → (∃ t, exec (.uplinkFrameDropped u true) s = .next t ∧ onlyUp t { x with pause := bump x.pause })
          ∧ (∃ t, exec (.uplinkFrameDropped u false) s = .next t ∧ onlyUp t { x with drops := bump x.drops })
          ∧ ∃ t, exec (.ptpMessage u ns err) s = .next t ∧ t.hm = { s.hm with timeNs := ns, synced := true }
            ∧ t.up u = { x with ptp := true, ptpErr := err, ptpState := 1 } ∧ t.mem = s.mem)
      ∧ (s.hm.synced = true → ∃ t e, exec .timeSourceLost s = .next t ∧ t.hm = { s.hm with synced := false }
          ∧ t.bbx.waiting = s.bbx.waiting ++ [e] ∧ e.code = 0x0E18#16 ∧ ((s.up u).ptpState = 1 → (t.up u).ptpState = 2))
      ∧ (s.hm.synced = false → exec .timeSourceLost s = .next s)

/-! ## Identity, firmware, tenants, sessions, the rack -/

/-- R417, R428, R435, R437 to R443, R464: firmware slots, attestation, tenants and their key slots, and the channel tests of the
mailbox. Where the manual is silent it rests on choices and readings of the model, notes/assumptions: DEDUCED 100, 101, 103;
DESIGN CHOICE 8. -/
def Obligations.FirmwareAndTenants : Prop :=
  ∀ (i : Issuer) (fetch : FetchEnd) (sig : SigBlock) (slotB : Bool) (t0 : TenantId) (f : FnId) (ks : KeySlot) (nonce : BitVec 256)
      (ch : ChannelId) (ctrl range seed fixed loops : W64) (s : State),
    let slot := fun (t : State) (b : Bool) => if b then t.flash.slotB else t.flash.slotA
    let good := fetch = .ok ∧ sig.magicOk = true ∧ sig.reservedZero = true ∧ sig.kind = 1 ∧ sig.digestOk = true ∧ sig.rsaOk = true
      ∧ sig.slhOk = true ∧ s.flash.fuses ≤ sig.svn.toNat
    let inactive := !s.flash.activeB
    (s.taken i 0x0502 = true → s.hasBuffers i = true → i ≠ .rack → s.ticketsFull i = false → s.sec.recovery = false →
        let k := (s.told i 0x0502 0 0 0).1
        s.ticketOf k = none → ∃ t, exec (.fwUpdate i (.scatter fetch) sig) s = .next t ∧ slot t s.flash.activeB = slot s s.flash.activeB
          ∧ t.flash.activeB = s.flash.activeB ∧ t.flash.fuses = s.flash.fuses ∧ t.sec.run = s.sec.run ∧ t.mem = s.mem
          ∧ (good → slot t inactive = some ⟨sig.svn, sig.major, sig.minor, sig.patch, sig.digest⟩
              ∧ t.ended k stDone (if inactive then 1 else 0))
          ∧ (¬good → slot t inactive = none ∧ ∃ st, st ≠ stDone ∧ t.ended k st 0
              ∧ (fetch = .ok ∧ sig.magicOk = true ∧ sig.reservedZero = true ∧ sig.kind = 1 ∧ sig.digestOk = true ∧ sig.rsaOk = true
                  ∧ sig.slhOk = true → st = stRollback)))
      ∧ (s.taken i 0x0503 = true → exec (.fwActivate i slotB) s = .next (if (slot s slotB).isSome then
          ({ s with flash := { s.flash with activeB := slotB } }).reply i stDone [] else s.reply i stNotFound []))
      ∧ (s.taken i 0x0501 = true → s.hasBuffers i = true → s.ticketsFull i = false →
          let k := (s.told i 0x0501 0 0 0).1
          s.ticketOf k = none → ∃ t, exec (.attest i nonce .ok) s = .next t ∧ t.ended k stDone 17248 ∧ t.mem = s.mem)
      ∧ (s.reportBody t0 nonce).length = 640 ∧ (s.attestReport t0 nonce).length = 17248
      ∧ (s.taken i 0x0504 = true →
          exec (.tenantAssignFunction i t0 f) s = .next (if f = 0 then s.reply i stBadArg []
              else if s.fnBusy f then s.reply i stRefused []
              else (s.modFn f fun x => { x with tenant := t0 }).reply i stDone [])
          ∧ exec (.tenantGiveSlot i t0 ks) s = .next (if (s.keySlot ks.val).owner.isSome then s.reply i stRefused []
              else (s.setKeySlot ks.val ⟨some t0, none⟩).reply i stDone [])
          ∧ (∀ o, (s.keySlot ks.val).owner = some o → exec (.tenantClearSlot i ks) s
              = .next (({ s with serv := { s.serv with cmds := s.serv.cmds ++ [BCmd.clearSlot ks o] } }).reply i stDone []))
          ∧ ((s.keySlot ks.val).owner = none → exec (.tenantClearSlot i ks) s = .next (s.reply i stDone []))
          ∧ exec (.tenantRelease i t0) s = .next (if ∀ g, (s.fn g).tenant ≠ t0 then
              ({ s with serv := { s.serv with cmds := s.serv.cmds ++ [BCmd.dropTenant t0] } }).reply i stDone []
              else s.reply i stRefused []))
      ∧ (s.taken i 0x0602 = true →
          let g := s.tgc ch
          (g.busy = true ∨ s.ms.chsvc.getLsbD ch.val = true → exec (.tgcRun i ch ctrl range seed fixed loops) s = .next (s.reply i stRefused []))
          ∧ (g.busy = false → s.ms.chsvc.getLsbD ch.val = false → s.ticketsFull i = false →
              (s.tgcRefused ch { g with ctrl := ctrl &&& 0xFFC0, range := range &&& 0x000FFFFF000FFFFF } = false) →
              ∃ t, exec (.tgcRun i ch ctrl range seed fixed loops) s = .next t ∧ (t.tgc ch).busy = true ∧ (t.tgc ch).seed = seed
                ∧ (t.tgc ch).fixed = fixed ∧ (t.tgc ch).loops = loops.extractLsb' 0 32 ∧ (t.tgc ch).ctrl = ctrl &&& 0xFFC0
                ∧ (t.mbx i).resp.status = stTicket ∧ t.mem = s.mem))

/-- R414, R433, R434, R439, R445, R446, R509: SPDM over a function's DOE mailbox, and frames of the rack management port. The answer
codes and layouts of SPDM are the model's own (PRESUMED, notes/assumptions): what the statement says of the manual is the order of
the phases, the two sessions, and which requests a session must carry. Where the manual is silent it rests on choices and
readings of the model, notes/assumptions: DESIGN CHOICE 98, 102; PRESUMED 97. -/
def Obligations.SpdmAndRack : Prop :=
  (∀ (f : FnId) (slot index : Byte) (off len sess : Nat) (nonce : BitVec 256) (key : BitVec 512) (s : State), s.hm.down = false →
    let x := s.fn f
    let early := [(Instr.getCapabilities f, 1), (.negotiateAlgorithms f true, 2), (.getDigests f, 3), (.getCertificate f slot off len, 3),
      (.challenge f slot nonce, 3), (.getMeasurements f index nonce, 3), (.keyExchange f, 3)]
    let answers := fun (i : Instr) (code : Byte) (y : Func) => ∃ t data, exec i s = .next t ∧ t.fn f = y
      ∧ (∀ g, g ≠ f → t.fn g = s.fn g) ∧ t.host.out = s.host.out ++ [.doe f code data]
      ∧ t = { s with host := { s.host with fns := t.host.fns, out := t.host.out } }
    (answers (.getVersion f) 0x04 { x with phase := 1, sessions := [] })
      ∧ (∀ c ∈ early, x.phase < c.2 → answers c.1 0x7F x)
      ∧ (1 ≤ x.phase → answers (.getCapabilities f) 0x61 { x with phase := max 2 x.phase })
      ∧ (2 ≤ x.phase → answers (.negotiateAlgorithms f true) 0x63 { x with phase := 3 }
          ∧ answers (.negotiateAlgorithms f false) 0x7F x)
      ∧ (3 ≤ x.phase → answers (.getDigests f) 0x01 x
          ∧ (∀ c, s.chain slot.toNat = some c → off < c.length → answers (.getCertificate f slot off len) 0x02 x)
          ∧ (s.chain slot.toNat = none → answers (.getCertificate f slot off len) 0x7F x)
          ∧ answers (.challenge f 0 nonce) 0x03 x ∧ (slot ≠ 0 → answers (.challenge f slot nonce) 0x7F x)
          ∧ (index.toNat ≤ 7 ∨ index = 0xF0 ∨ index = 0xFF → answers (.getMeasurements f index nonce) 0x60 x)
          ∧ (∀ n, n < 2 → (∀ p ∈ x.sessions, p.1 ≠ n) → (n = 1 → ∃ p ∈ x.sessions, p.1 = 0) →
              answers (.keyExchange f) 0x64 { x with sessions := x.sessions ++ [(n, false)] })
          ∧ ((∃ p ∈ x.sessions, p.1 = 0) → (∃ p ∈ x.sessions, p.1 = 1) → answers (.keyExchange f) 0x7F x))
      ∧ ((sess, false) ∈ x.sessions →
          answers (.finish f sess true) 0x65 { x with sessions := x.sessions.map fun p => if p.1 = sess then (sess, true) else p }
          ∧ answers (.finish f sess false) 0x7F { x with sessions := x.sessions.filter fun p => p.1 != sess })
      ∧ ((sess, false) ∉ x.sessions → answers (.finish f sess true) 0x7F x)
      ∧ ((sess, true) ∉ x.sessions → ∀ i ∈ [Instr.heartbeat f sess, .keyUpdate f sess, .endSession f sess,
          .vendorDefinedRequest f sess true slot key], answers i 0x7F x)
      ∧ ((sess, true) ∈ x.sessions → answers (.heartbeat f sess) 0x68 x ∧ answers (.keyUpdate f sess) 0x69 x
          ∧ answers (.endSession f sess) 0x6C { x with sessions := x.sessions.filter fun p => p.1 != sess }
          ∧ (slot.toNat < 64 → (s.keySlot slot.toNat).owner = some x.tenant → s.clearDue slot.toNat = false →
              ∃ t, exec (.vendorDefinedRequest f sess true slot key) s = .next t
                ∧ t.keySlot slot.toNat = ⟨some x.tenant, some key⟩ ∧ (∀ k, k ≠ slot.toNat → t.keySlot k = s.keySlot k)
                ∧ t.host.out = s.host.out ++ [.doe f 0x7E []] ∧ t.mem = s.mem)
          ∧ ((s.keySlot slot.toNat).owner ≠ some x.tenant → answers (.vendorDefinedRequest f sess true slot key) 0x7F x)))
    ∧ (∀ (seq op : W16) (args : List Byte) (v : W64) (dest : Byte) (len : Nat) (s : State), s.hm.down = false →
    let viol := { s with sec := { s.sec with rackviol := bump s.sec.rackviol } }
    let out := fun (t : State) (typ : Byte) (data : List Byte) =>
      { t with host := { t.host with out := t.host.out ++ [.rack typ seq data] } }
    let m := s.host.rack
    (s.sec.rackaddr = 0 → ∀ i ∈ [Instr.rackMailboxRequest seq op args, .rackPoll seq, .rackSetCoord seq v, .rackStatus seq],
        exec i s = .next viol)
      ∧ (s.sec.rackaddr ≠ 0 →
          (m.st = 1 → exec (.rackMailboxRequest seq op args) s = .next (out viol 0xFF (leBytes 2 2)))
          ∧ (m.st ≠ 1 → ∃ t, exec (.rackMailboxRequest seq op args) s = .next t ∧ t.host.rack.seq = seq.setWidth 32
              ∧ t.host.rack.op = op ∧ t.host.rack.ien = false ∧ t.host.fns = s.host.fns
              ∧ (s.turnedAway .rack op args.length = none → t.host.rack.st = 1)
              ∧ (∀ st, s.turnedAway .rack op args.length = some st → t.host.rack.st = 2 ∧ t.host.rack.resp.status = st))
          ∧ exec (.rackPoll seq) s = .next (out s 0x82 (if m.st = 2 then leBytes 16 m.resp.header ++ m.resp.result else []))
          ∧ exec (.rackSetCoord seq v) s = .next (if s.formed then out viol 0xFF (leBytes 2 3)
              else out { s with fab := { s.fab with coord := v &&& 0xFFFF00000001FFFF#64 } } 0x83 [])
          ∧ ∃ data, exec (.rackStatus seq) s = .next (out s 0x84 data))
      ∧ (s.sec.rackaddr ≠ 0 → dest = s.sec.rackaddr.setWidth 8 → len ≤ 2048 →
          exec (.rackFrameUndefined dest true len seq) s = .next (out viol 0xFF (leBytes 2 13)))
      ∧ (s.sec.rackaddr ≠ 0 → (dest ≠ s.sec.rackaddr.setWidth 8 ∨ 2048 < len) →
          exec (.rackFrameUndefined dest true len seq) s = .next viol)
      ∧ (s.sec.rackaddr ≠ 0 → exec (.rackFrameUndefined dest false len seq) s = .next viol))

/-! ## Starts -/

/-- R426, R427, R431, R480 to R485, R509: the stages of a start, each after the one before, and what fails in them; a warm start
keeps memory, rails, and the flags that survive it. Where the manual is silent it rests on choices and readings of the
model, notes/assumptions: DEDUCED 57, 104, 105, 107; DESIGN CHOICE 106. -/
def Obligations.StagesOfAStart : Prop :=
  ∀ (rail : Fin 11) (straps : BitVec 7) (k : Ctrl) (ch : ChannelId) (sa sb : Option SigBlock) (ms : W32) (pcieUp : Bool) (s : State),
    let p := s.pwr
    let off := fun (t : State) (stage cause : Nat) => t.hm.down = true ∧ t.mem = [] ∧ t.flash.latch = some (stage, cause)
      ∧ t.pwr.fails = p.fails + 1 ∧ (t.pwr.off = true ↔ 2 ≤ p.fails)
    let fatal := fun (i : Instr) (code : W16) => ∃ t e, exec i s = .next t ∧ t.hm.state = 3 ∧ t.pwr.stage = p.stage
      ∧ t.bbx.waiting = s.bbx.waiting ++ [e] ∧ e.code = code ∧ e.cls = 4#8
    let stays := fun (n : Nat) (is_ : List Instr) => p.stage ≠ n → ∀ i ∈ is_, exec i s = .next s
    (p.off = false → p.fails = 0 → (s.hm.down = true ∨ p.stage = 0) → ∃ t, exec .coldStart s = .next t ∧ t.hm.down = false
        ∧ t.pwr.stage = 1 ∧ t.mem = [] ∧ t.cores = [] ∧ t.flash.boots = s.flash.boots + 1 ∧ t.ident = s.ident
        ∧ t.bbx.slots = s.bbx.slots ∧ t.sec = Sec.reset ∧ t.pending = s.pending)
      ∧ (s.hm.down = true → p.off = false → p.fails ≠ 0 → ∃ t, exec .startRetry s = .next t ∧ t.hm.down = false ∧ t.pwr.stage = 1
          ∧ t.pwr.fails = p.fails ∧ t.mem = s.mem)
      ∧ (s.hm.down = false → ∃ t, exec .warmStart s = .next t ∧ t.mem = s.mem ∧ t.poison = s.poison ∧ t.cores = []
          ∧ t.pwr.stage = 3 ∧ t.pwr.warm = true ∧ t.pwr.good = p.good ∧ t.pwr.root = p.root ∧ t.sec.debugged = s.sec.debugged
          ∧ t.dbg.fails = s.dbg.fails ∧ t.flash = s.flash ∧ t.hm.state = 0 ∧ t.bbx.slots = s.bbx.slots ∧ t.serv = Serving.reset)
      ∧ (s.hm.down = false → s.hm.state ≠ 3 →
          stays 1 [.railSequencing none, .railSequencing (some rail)] ∧ stays 2 [.pllLock true pcieUp, .pllLock false pcieUp]
          ∧ stays 3 [.bootRom true straps, .bootRom false straps] ∧ stays 4 [.firmwareVerification sa sb]
          ∧ stays 5 [.memoryTraining none, .memoryTraining (some k)] ∧ stays 6 [.memorySelfTest none, .memorySelfTest (some ch)]
          ∧ stays (if p.due then 7 else 6) [.portTrainingStage] ∧ stays 8 [.identityCheck true, .identityCheck false]
          ∧ stays 9 [.moduleReady ms]
          ∧ (p.stage = 1 → exec (.railSequencing none) s = .next { s with pwr := { p with good := 0x7FF, stage := 2 } }
              ∧ ∃ t, exec (.railSequencing (some rail)) s = .next t ∧ off t 2 (0x1104 + rail.val * 2 ^ 16))
          ∧ (p.stage = 2 → (∃ t, exec (.pllLock true pcieUp) s = .next t ∧ t.pwr.stage = 3 ∧ t.pwr.root = true ∧ t.pwr.fails = 0
                ∧ t.pwr.linkUp = (pcieUp && !p.perst) ∧ -20 ≤ t.pwr.ppm.toInt ∧ t.pwr.ppm.toInt ≤ 20)
              ∧ ∃ t, exec (.pllLock false pcieUp) s = .next t ∧ off t 3 0x1103)
          ∧ (p.stage = 3 → fatal (.bootRom false straps) 0x1101
              ∧ ∃ t, exec (.bootRom true straps) s = .next t ∧ t.pwr.stage = 4 ∧ t.hm.timeNs = 0 ∧ t.sec.rackaddr = straps
                ∧ t.flash.latch = none ∧ ∀ l, s.flash.latch = some l → ∃ e, t.bbx.waiting = s.bbx.waiting ++ [e] ∧ e.code = 0x1221#16)
          ∧ (p.stage = 4 →
              let slot := fun (b : Bool) => if b then s.flash.slotB else s.flash.slotA
              let sigOf := fun (b : Bool) => if b then sb else sa
              let boots := fun (b : Bool) (img : FwImage) => slot b = some img ∧ s.flash.fuses ≤ img.svn.toNat
                ∧ ∃ x, sigOf b = some x ∧ x.magicOk = true ∧ x.reservedZero = true ∧ x.kind = 1 ∧ x.digestOk = true ∧ x.rsaOk = true
                  ∧ x.slhOk = true
              let act := s.flash.activeB
              (∀ img, boots act img → ∃ t, exec (.firmwareVerification sa sb) s = .next t ∧ t.sec.run = img ∧ t.sec.bootedB = act
                  ∧ t.sec.fallback = false ∧ t.pwr.stage = 5 ∧ t.bbx = s.bbx)
              ∧ (∀ img, (∀ i, ¬boots act i) → boots (!act) img → ∃ t e, exec (.firmwareVerification sa sb) s = .next t ∧ t.sec.run = img
                  ∧ t.sec.bootedB = !act ∧ t.sec.fallback = true ∧ t.pwr.stage = 5 ∧ t.bbx.waiting = s.bbx.waiting ++ [e]
                  ∧ e.code = 0x1001#16)
              ∧ ((∀ b i, ¬boots b i) → ∃ t, exec (.firmwareVerification sa sb) s = .next t ∧ t.sec.recovery = true ∧ t.hm.state = 3
                  ∧ t.pwr.stage = 4))
          ∧ (p.stage = 5 → fatal (.memoryTraining (some k)) 0x1106
              ∧ exec (.memoryTraining none) s = .next { s with mem := [], poison := [], flips := [], pwr := { p with stage := 6 } })
          ∧ (p.stage = 6 → p.due = true → fatal (.memorySelfTest (some ch)) 0x1107
              ∧ exec (.memorySelfTest none) s
                = .next { s with mem := [], poison := [], flips := [], pwr := { p with stage := 7, selftest := true } })
          ∧ (p.stage = 6 → p.due = false → exec (.memorySelfTest none) s = .next s)
          ∧ (p.stage = (if p.due then 7 else 6) → ∃ t, exec .portTrainingStage s = .next t ∧ t.pwr = { p with stage := 8 }
              ∧ (∀ q, (s.port q).en = false → (t.port q).en = true ∧ (t.port q).link = .training)
              ∧ (∀ u, (s.up u).link = .disabled → (t.up u).link = .training) ∧ t.mem = s.mem)
          ∧ (p.stage = 8 → (s.ident.ok = true → exec (.identityCheck true) s = .next { s with pwr := { p with stage := 9 } })
              ∧ fatal (.identityCheck false) 0x1108)
          ∧ (p.stage = 9 → ∃ t, exec (.moduleReady ms) s = .next t ∧ t.hm.state = 1 ∧ t.pwr = { p with ms := ms, k := p.kmax, stage := 10 }
              ∧ t.flash.fuses = max s.flash.fuses s.sec.run.svn.toNat ∧ t.mem = s.mem ∧ t.bbx.waiting.map (·.code)
                = s.bbx.waiting.map (·.code) ++ if s.flash.fuses < s.sec.run.svn.toNat then [0x1220#16, 0x1002] else [0x1220]))

/-! ## The debug port -/

/-- R447, R488 to R493, R465, R484, R499: the scans of the debug port, and its operations that need no unlocked scope. Where
the manual is silent it rests on choices and readings of the model, notes/assumptions: DEDUCED 111, 112, 120; DESIGN CHOICE
119. -/
def Obligations.DebugPort : Prop :=
  ∀ (v : BitVec 128) (tag : Byte) (ix : BitVec 6) (off : BitVec 26) (sc w : BitVec 3) (tok : BitVec 12) (data : W64) (sig : SigBlock)
      (s : State), s.hm.down = false →
    let d := s.dbg
    let asks := fun (op arg : Nat) (x : W64) (used : Nat) => d.asks op tag arg x used = true
    let answer := fun (t : State) (op code : Nat) (x : W64) => { t with dbg := { t.dbg with
      req := none, held := false, resp := dbgResponse op tag code x, cmds := bump t.dbg.cmds, denied := bumpBy (if code = 2 then 1 else 0) t.dbg.denied } }
    exec .dbgTrst s = .next { s with dbg := { d with ir := 1, dr := 0, pended := false } }
      ∧ (d.pended = true ∨ d.req.isSome = true →
          exec (.debugUpdateDr v) s = .next { s with dbg := { d with ir := 8, dr := v, pended := false } })
      ∧ (d.pended = false → d.req = none → dbgUndefined v = false →
          exec (.debugUpdateDr v) s = .next { s with dbg := { d with ir := 8, dr := v, pended := false, req := some v } })
      ∧ (d.pended = false → d.req = none → dbgUndefined v = true → ∃ t, exec (.debugUpdateDr v) s = .next t ∧ t.dbg.req = none
          ∧ t.dbg.resp = dbgResponse (v.toNat % 256) (v.extractLsb' 8 8) 3 0 ∧ t.dbg.cmds = bump d.cmds ∧ t = { s with dbg := t.dbg })
      ∧ (d.req = none → exec .debugCaptureDr s = .next { s with dbg := { d with ir := 8, pended := false, dr := d.resp } })
      ∧ (∀ r, d.req = some r → exec .debugCaptureDr s = .next { s with dbg := { d with
          ir := 8, pended := true, dr := dbgResponse (r.toNat % 256) (r.extractLsb' 8 8) 1 0 } })
      ∧ (d.req = none → ∀ i ∈ [Instr.dbgNop tag, .status tag, .ident tag ix, .bbx tag off, .chal tag sc, .chalrd tag w,
          .tokwr tag tok data, .unlock tag sig, .lock tag, .warm tag], exec i s = .next s)
      ∧ (asks 0x00 0 0 0 → exec (.dbgNop tag) s = .next (answer s 0x00 0 0))
      ∧ (asks 0x01 0 0 0 → exec (.status tag) s = .next (answer s 0x01 0 s.dbgStatus))
      ∧ (asks 0x02 (ix.toNat * 2 ^ 16) 0 0 → exec (.ident tag ix) s = .next (if 45 < ix.toNat then answer s 0x02 3 0
          else answer s 0x02 0 (BitVec.ofNat 64 (ofLe ((s.summary.drop (8 * ix.toNat)).take 8)))))
      ∧ (asks 0x03 (off.toNat * 2 ^ 16) 0 0 → exec (.bbx tag off) s = .next (if off.toNat % 8 ≠ 0 then answer s 0x03 3 0
          else answer s 0x03 0 (BitVec.ofNat 64 (ofLe (s.mramBytes off.toNat 8)))))
      ∧ (asks 0x04 0 (sc.setWidth 64) 3 → exec (.chal tag sc) s = .next (if 8 ≤ d.fails then answer s 0x04 8 0
          else if sc = 0 then answer s 0x04 3 0
          else answer { s with dbg := { d with chal := some (s.challengeOf sc, sc), issued := d.issued + 1 } } 0x04 0 0))
      ∧ exec .challengeExpiry s = .next { s with dbg := { d with chal := none } }
      ∧ (asks 0x05 (w.toNat * 2 ^ 16) 0 0 →
          (∀ c, d.chal = some c → exec (.chalrd tag w) s = .next (answer s 0x05 0 (c.1.extractLsb' (64 * w.toNat) 64)))
          ∧ (d.chal = none → exec (.chalrd tag w) s = .next (answer s 0x05 8 0)))
      ∧ (asks 0x06 (tok.toNat * 2 ^ 16) data 64 → exec (.tokwr tag tok data) s = .next (if 2155 < tok.toNat then answer s 0x06 3 0
          else answer { s with dbg := { d with token := Sparse.put 0 d.token tok.toNat data } } 0x06 0 0))
      ∧ (asks 0x07 0 0 0 →
          (d.chal = none ∨ 8 ≤ d.fails → exec (.unlock tag sig) s = .next (answer s 0x07 8 0))
          ∧ ∀ c scope, d.chal = some (c, scope) → d.fails < 8 →
            let signed := sig.magicOk = true ∧ sig.reservedZero = true ∧ sig.kind = 4 ∧ sig.digestOk = true ∧ sig.rsaOk = true
              ∧ sig.slhOk = true
            let same := ∀ i < 8, Sparse.get 0 d.token i = c.extractLsb' (64 * i) 64
            (signed ∧ same → ∃ t, exec (.unlock tag sig) s = .next t ∧ t.sec.scope = scope ∧ t.dbg.chal = none ∧ t.dbg.fails = d.fails
              ∧ t.dbg.resp = dbgResponse 0x07 tag 0 (scope.setWidth 64)
              ∧ (scope.getLsbD 1 = true ∨ scope.getLsbD 2 = true → t.sec.debugged = true
                  ∧ ∀ p ∈ s.sec.slots, p.1 < 64 → p.2.owner.isSome = true → (t.keySlot p.1).key = none))
            ∧ (¬(signed ∧ same) → ∃ t, exec (.unlock tag sig) s = .next t ∧ t.sec.scope = s.sec.scope ∧ t.dbg.chal = none
              ∧ t.dbg.fails = d.fails + 1 ∧ t.sec.unlockfail = bump s.sec.unlockfail ∧ t.dbg.resp = dbgResponse 0x07 tag 9 0))
      ∧ (asks 0x08 0 0 0 →
          (s.debugHold = true → exec (.lock tag) s = .next (answer s 0x08 7 0))
          ∧ (s.debugHold = false → ∃ t, exec (.lock tag) s = .next t ∧ t.sec = { s.sec with scope := 0 } ∧ t.mem = s.mem
              ∧ t.dbg.fails = d.fails
              ∧ t.dbg.resp = dbgResponse 0x08 tag 0 0))
      ∧ (∃ t, exec .warmStart s = .next t ∧ t.sec.scope = 0)
      ∧ (s.pwr.stage = 0 → s.pwr.off = false → s.pwr.fails = 0 → ∃ t, exec .coldStart s = .next t ∧ t.sec.scope = 0)
      ∧ (asks 0x09 0 0 0 → exec (.warm tag) s = exec .warmStart (answer s 0x09 0 0))

/-- R494 to R500, R61: the operations of the debug port that a scope unlocks; a locked scope denies them and they do nothing
else. Where the manual is silent it rests on choices and readings of the model, notes/assumptions: DEDUCED 112, 113, 114,
117; DESIGN CHOICE 115, 116, 118. -/
def Obligations.DebugOperations : Prop :=
  ∀ (tag : Byte) (h slot : BitVec 2) (en all : Bool) (r : BitVec 6) (c : CoreId) (cls : BitVec 2) (rr : BitVec 5) (w : BitVec 7)
      (addr : BitVec 48) (off : BitVec 18) (data : W64) (fail : Option Byte) (s : State), s.hm.down = false →
    let d := s.dbg
    let cb := BitVec.ofNat 12 c.val
    let x := s.hmAt h
    let k := s.core c
    let good := c.val ∉ s.ident.fused
    let answer := fun (t : State) (op code : Nat) (v : W64) => { t with dbg := { t.dbg with
      req := none, held := false, resp := dbgResponse op tag code v, cmds := bump t.dbg.cmds, denied := bumpBy (if code = 2 then 1 else 0) t.dbg.denied } }
    let hArg := h.toNat * 2 ^ 16
    let rArg := hArg + r.toNat * 2 ^ 20
    let cArg := c.val * 2 ^ 16
    let gArg := cArg + w.toNat * 2 ^ 34 + rr.toNat * 2 ^ 41 + cls.toNat * 2 ^ 46
    let aArg := cArg + if all then 2 ^ 28 else 0
    -- the command, its opcode, its argument, its data and how many of its bits count, and the scope that it needs
    let ops := [(Instr.hmhalt tag h, 0x10, hArg, (0 : W64), 0, 0), (.hmrun tag h, 0x11, hArg, 0, 0, 0), (.hmstep tag h, 0x12, hArg, 0, 0, 0),
      (.hmbrk tag h slot en data, 0x13, hArg + slot.toNat * 2 ^ 18 + (if en then 2 ^ 20 else 0), data, 64, 0),
      (.hmregr tag h r, 0x14, rArg, 0, 0, 2), (.hmregw tag h r data, 0x15, rArg, data, 64, 2),
      (.cchalt tag cb all, 0x20, aArg, 0, 0, 1), (.ccrun tag cb all, 0x21, aArg, 0, 0, 1), (.ccstep tag cb all, 0x22, aArg, 0, 0, 1),
      (.ccbrk tag cb slot en data, 0x23, cArg + slot.toNat * 2 ^ 48 + (if en then 2 ^ 50 else 0), data, 20, 1),
      (.ccregr tag cb cls rr w, 0x24, gArg, 0, 0, 2), (.ccregw tag cb cls rr w data, 0x25, gArg, data, 64, 2),
      (.memrd tag addr, 0x30, addr.toNat * 2 ^ 16, 0, 0, 2), (.memwr tag addr data, 0x31, addr.toNat * 2 ^ 16, data, 64, 2),
      (.pnmrd tag cb off, 0x32, cArg + off.toNat * 2 ^ 28, 0, 0, 2), (.stflag tag data, 0x38, 0, data, 1, 2),
      (.ccbist tag cb fail, 0x39, cArg, 0, 0, 1)]
    let serves := fun (op arg : Nat) (v : W64) (used scope : Nat) => d.asks op tag arg v used = true ∧ s.sec.scope.getLsbD scope = true
    (∀ o ∈ ops, (d.asks o.2.1 tag o.2.2.1 o.2.2.2.1 o.2.2.2.2.1 = false → exec o.1 s = .next s)
        ∧ (d.asks o.2.1 tag o.2.2.1 o.2.2.2.1 o.2.2.2.2.1 = true → s.sec.scope.getLsbD o.2.2.2.2.2 = false →
            exec o.1 s = .next (answer s o.2.1 2 0)))
      ∧ (serves 0x10 hArg 0 0 0 → exec (.hmhalt tag h) s = .next (answer (s.setHm h { x with halted := true }) 0x10 0 0))
      ∧ (serves 0x11 hArg 0 0 0 → exec (.hmrun tag h) s = .next (answer (s.setHm h { x with halted := false, regs := [] }) 0x11 0 0))
      ∧ (serves 0x12 hArg 0 0 0 → exec (.hmstep tag h) s
          = .next (if x.halted then answer (s.setHm h { x with regs := [] }) 0x12 0 0 else answer s 0x12 7 0))
      ∧ (serves 0x13 (hArg + slot.toNat * 2 ^ 18 + if en then 2 ^ 20 else 0) data 64 0 → ∃ t, exec (.hmbrk tag h slot en data) s = .next t
          ∧ (t.hmAt h).breaks = x.breaks.set slot.toNat (if en then some data else none) slot.isLt ∧ t = { s with dbg := t.dbg }
          ∧ t.dbg.resp = dbgResponse 0x13 tag 0 0)
      ∧ (serves 0x14 rArg 0 0 2 → (x.halted = false → exec (.hmregr tag h r) s = .next (answer s 0x14 6 0))
          ∧ ∀ v, x.halted = true → assoc? r.toNat x.regs = some v → exec (.hmregr tag h r) s = .next (answer s 0x14 0 v))
      ∧ (serves 0x15 rArg data 64 2 → exec (.hmregw tag h r data) s = .next (if x.halted then
          answer (s.setHm h { x with regs := Sparse.insert r.toNat data x.regs }) 0x15 0 data else answer s 0x15 6 0))
      ∧ (good → serves 0x20 cArg 0 0 1 → ∃ t, exec (.cchalt tag cb false) s = .next t
          ∧ (k.seq.state = .running ∨ k.seq.state = .stalled ∨ k.seq.state = .ending → (t.core c).seq.state = .halted)
          ∧ (k.seq.state = .idle ∨ k.seq.state = .scrubbing → t.core c = { k with seq := { k.seq with haltAtStart := true } })
          ∧ (∀ e, e ≠ c → t.core e = s.core e) ∧ t.mem = s.mem)
      ∧ (good → serves 0x21 cArg 0 0 1 → ∃ t, exec (.ccrun tag cb false) s = .next t
          ∧ (k.seq.state = .halted → (t.core c).seq.state = (if k.seq.ended then .ending else .running))
          ∧ (∀ e, e ≠ c → t.core e = s.core e) ∧ t.mem = s.mem)
      ∧ (good → serves 0x22 cArg 0 0 1 → ∃ t, exec (.ccstep tag cb false) s = .next t
          ∧ (k.seq.state = .halted → k.seq.ended = false → (t.core c).seq.state = .running ∧ (t.core c).seq.stepOnce = true)
          ∧ (k.seq.state ≠ .halted → t = answer s 0x22 7 0) ∧ (∀ e, e ≠ c → t.core e = s.core e) ∧ t.mem = s.mem)
      ∧ (good → serves 0x23 (cArg + slot.toNat * 2 ^ 48 + if en then 2 ^ 50 else 0) data 20 1 →
          ((data.extractLsb' 0 20).toNat % 32 ≠ 0 → exec (.ccbrk tag cb slot en data) s = .next (answer s 0x23 3 0))
          ∧ ((data.extractLsb' 0 20).toNat % 32 = 0 → ∃ t, exec (.ccbrk tag cb slot en data) s = .next t ∧ t.core c = { k with
              seq := { k.seq with breaks := k.seq.breaks.set slot.toNat (if en then some (data.extractLsb' 0 20) else none) slot.isLt } }))
      ∧ (good → regOk cls rr w = true → k.seq.state = .halted → serves 0x24 gArg 0 0 2 → ∃ t, exec (.ccregr tag cb cls rr w) s = .next t
          ∧ t.core c = k.allLanded ∧ t.dbg.resp = dbgResponse 0x24 tag 0 (k.allLanded.regWord cls rr w) ∧ t.mem = s.mem)
      ∧ (good → cls = 0 → w = 0 → k.seq.state = .halted → serves 0x25 gArg data 64 2 → ∃ t, exec (.ccregw tag cb cls rr w data) s = .next t
          ∧ (t.core c).sreg rr = (if rr = 0 then 0 else data) ∧ (∀ q, q ≠ rr → (t.core c).sreg q = k.allLanded.sreg q) ∧ t.mem = s.mem)
      ∧ (serves 0x30 (addr.toNat * 2 ^ 16) 0 0 2 →
          (addr.toNat % 8 ≠ 0 → exec (.memrd tag addr) s = .next (answer s 0x30 3 0))
          ∧ (∀ e o, addr.toNat % 8 = 0 → addr.toNat < 0x080000000000 → s.dbgPlace addr.toNat = .scratch e o →
              (s.core e).downByte o (o + 7) = none → s.shut e = false → s.calm e = true → o + 8 ≤ 2 ^ 20 → s.poison.contains (spKey e o / 8) = false →
              exec (.memrd tag addr) s = .next (answer s 0x30 0 (BitVec.ofNat 64 (s.spRd e o 8)))))
      ∧ (serves 0x31 (addr.toNat * 2 ^ 16) data 64 2 → ∀ e o, addr.toNat % 8 = 0 → addr.toNat < 0x080000000000 →
          s.dbgPlace addr.toNat = .scratch e o → o % 8 = 0 →
          (s.inbound e o 8 = .land → ∃ t, exec (.memwr tag addr data) s = .next t ∧ BitVec.ofNat 64 (t.spRd e o 8) = data
            ∧ (∀ b, (b < spKey e o ∨ spKey e o + 8 ≤ b) → t.byte b = s.byte b) ∧ t.dbg.resp = dbgResponse 0x31 tag 0 (Config.memWrResult addr.toNat data))
          ∧ (s.inbound e o 8 = .hold → d.held = false → ∃ t, exec (.memwr tag addr data) s = .next t ∧ t.mem = s.mem
            ∧ t.dbg = { d with held := true } ∧ (t.core e).ca.spdHeld = bump (s.core e).ca.spdHeld))
      ∧ (good → off.toNat % 8 = 0 → serves 0x32 (cArg + off.toNat * 2 ^ 28) 0 0 2 → s.calm c = true →
          let bank := (Config.punnetBank (off.toNat / 2048)).val
          let q := k.pun (Fin.ofNat 4 (bank / 32)) (bank % 32) (off.toNat % 2048 / 256)
          let n := off.toNat % 256 / 8
          exec (.pnmrd tag cb off) s = .next (if q.bad.contains n then answer s 0x32 5 0
            else answer s 0x32 0 (BitVec.ofNat 64 (fld q.image (64 * n) 64))))
      ∧ (serves 0x38 0 data 1 2 →
          exec (.stflag tag data) s = .next (answer { s with flash := { s.flash with selfTest := data.getLsbD 0 } } 0x38 0 0))
      ∧ (good → k.seq.state = .idle → k.seq.filling = false → serves 0x39 cArg 0 0 1 → ∃ t, exec (.ccbist tag cb fail) s = .next t
          ∧ (t.core c).seq.state = .idle ∧ (∀ q, (t.core c).sreg q = 0) ∧ (t.core c).acc = [] ∧ (t.core c).punnets = []
          ∧ (fail = none → t.dbg.resp = dbgResponse 0x39 tag 0 1 ∧ t.bbx = s.bbx)
          ∧ (∀ u, fail = some u → ∃ e, t.bbx.waiting = s.bbx.waiting ++ [e] ∧ e.code = 0x1301#16)
          ∧ (∀ v, (t.core c).vreg v = 0) ∧ (∀ n : Fin 32, (t.core c).sb[n] = none)
          ∧ (∀ o, o < 2 ^ 20 → k.seq.bankOn.getLsbD (o / 2 ^ 16) = true → t.byte (spKey c o) = 0) ∧ t.ident = s.ident)
      ∧ (serves 0x39 cArg 0 0 1 → (¬good → exec (.ccbist tag cb fail) s = .next (answer s 0x39 3 0))
          ∧ (good → k.seq.state ≠ .idle → exec (.ccbist tag cb fail) s = .next (answer s 0x39 7 0)))

/-! ## The block as a whole -/

/-- A step runs the command at the front of the queue on the state with the queue's rest; on an empty queue the block idles (the
model's own rule, notes/assumptions). Where the manual is silent it rests on choices and readings of the model,
notes/assumptions: DESIGN CHOICE 1, 2. -/
def Obligations.StepRunsTheFrontCommand : Prop :=
  ∀ (c : Instr) (rest : List Instr) (s : State),
    step { s with pending := c :: rest } = exec c { s with pending := rest } ∧ (s.pending = [] → step s = .next s)

/-- The spec stops on no command: each one completes in every state, and leaves the queue as it is. Where the manual is
silent it rests on choices and readings of the model, notes/assumptions: DEDUCED 5; DESIGN CHOICE 10. -/
def Obligations.EveryCommandCompletes : Prop := ∀ (c : Instr) (s : State), ∃ t, exec c s = .next t ∧ t.pending = s.pending

/-- R247, R248, R265: bundles of the register forms, whatever comes of them, change their own core alone: no memory, no mesh, no
register of another block, also when they stall or fault. Where the manual is silent it rests on choices and readings of the
model, notes/assumptions: DEDUCED 4. -/
def Obligations.RegisterFormsTouchTheirCoreAlone : Prop :=
  ∀ (c : CoreId) (rd ra rb vm : RegIx) (i32 : W32) (i24 : BitVec 24) (i20 : BitVec 20) (i16 : BitVec 16) (i12 : BitVec 12)
      (i8 : BitVec 8) (i7 : BitVec 7) (i6 j6 : BitVec 6) (i5 : BitVec 5) (i4 : BitVec 4) (i3 : BitVec 3) (i2 j2 : BitVec 2) (h : Bool)
      (op : FpOp) (r : VRegs) (b : PbldArgs) (a : PlookArgs) (s t : State),
    let control := [Instr.nop c, .add c rd ra rb, .sub c rd ra rb, .and c rd ra rb, .or c rd ra rb, .xor c rd ra rb, .shl c rd ra rb,
      .shr c rd ra rb, .sra c rd ra rb, .slt c rd ra rb, .sltu c rd ra rb, .seq c rd ra rb, .min c rd ra rb, .max c rd ra rb,
      .addi c rd ra i32, .andi c rd ra i32, .ori c rd ra i32, .shli c rd ra i6, .shri c rd ra i6, .srai c rd ra i6, .lih c rd i32,
      .sld c rd ra i20, .rdcr c rd i16, .sbdrain c, .jmp c i24, .bz c ra i24, .bnz c ra i24, .jal c rd i24, .jr c ra, .loop c ra i12,
      .loopi c i20 i12, .endTask c]
    let vector := [Instr.vnop c, .vadd c r, .vsub c r, .vmul c r, .vfma c r, .vmin c r, .vmax c r, .vabs c rd ra, .vneg c rd ra,
      .vceq c r, .vclt c r, .vcle c r, .vsel c r, .bf16Forms c op r, .viadd c r, .visub c r, .vand c r, .vor c r, .vxor c r, .vshl c r,
      .vshr c r, .vsra c r, .viceq c r, .viclt c r, .vexp c h rd ra, .vlog c h rd ra, .vrsqrt c h rd ra, .vrcp c h rd ra, .vsig c h rd ra,
      .vsilu c h rd ra, .vtanh c h rd ra, .vcvtif c rd ra, .vcvtfi c rd ra, .vpackh c rd ra rb, .vunpkl c rd ra, .vunpkh c rd ra,
      .vbcst c rd ra, .vext c rd ra i5, .vins c rd ra i5, .vmov c rd ra, .vld c rd ra i20, .vldh c rd ra i20, .mld c i2 ra i20, .mtr c i2,
      .mgetr c rd i2 i4, .mputr c ra i2 i4, .mgetc c rd i2 i4, .mputc c ra i2 i4, .rbeg c ra i2 j2 i6, .rfeed c ra i2 i5,
      .rfeedx c ra rb i2 i5, .rget c rd i2 i3, .vrnd c rd ra rb vm]
    let others := [Instr.pnop c, .pbld c b, .plook c a, .pfence c i4 h, .pinv c i4, .acfg c i6 ra h, .aclr c i6 i8 i8, .amrg c i6 j6 i8 i8,
      .aldp c i6 i8 i8 ra, .mnop c, .await c ra rb rd, .qrd c rd i7, .qcnt c rd i7, .dfence c, .rtake c rd i4 h]
    ∀ i ∈ control ++ vector ++ others, exec i s = .next t → t = { s with cores := t.cores } ∧ ∀ d, d ≠ c → t.core d = s.core d

/-- R98, R248, R296, R322, R397, R457, R475, R483, R485, R488: the state after reset, as far as the manual gives it: no command
waits, no core runs, scratchpads and memory hold zeros and no word is poisoned, no model is bound, the journal has no record, every
channel is in service, every port is disabled with its compression bits 1001, the throttle is at 8 of 8, the debug port shows its
IDCODE and is locked. It is in canonical form. Where the manual is silent it rests on choices and readings of the model,
notes/assumptions: DEDUCED 17; DESIGN CHOICE 12, 13. -/
def Obligations.StateAfterReset : Prop :=
  let s := State.reset
  s.pending = [] ∧ (∀ c, (s.core c).seq.state = .idle ∧ (∀ r, (s.core c).sreg r = 0) ∧ ∀ i, (s.core c).accAt i = AccEntry.clear)
    ∧ (∀ key, s.byte key = 0) ∧ s.poison = [] ∧ s.hm.man = none ∧ s.bbx.newest = 0xFFFFFFFF ∧ s.bbx.oldest = 0xFFFFFFFF
    ∧ s.ms.chsvc = BitVec.allOnes 256 ∧ (∀ p, (s.port p).link = .disabled ∧ (s.port p).cdcEn = 9#4) ∧ s.pwr.k = 8 ∧ s.pwr.kmax = 8
    ∧ s.dbg.ir = 1 ∧ s.sec.scope = 0 ∧ (∀ f, s.fn f = Func.reset) ∧ s.serv.reqs = [] ∧ s.canonical = true ∧ s.formingOk = true

/-- Every step keeps the canonical forms: memory, poison marks and the cores that differ from reset stay sorted and without
entries that equal their default; and a slice formation in progress keeps a size and an origin of R382's table. -/
def Obligations.CanonicalFormsAreKept : Prop :=
  ∀ (s t : State), s.canonical = true → s.formingOk = true → step s = .next t → t.canonical = true ∧ t.formingOk = true
end

