-- ==== Sys2Proof/Laws/Sparse.lean ====
section
/-! SUPPORT. Sparse lists and sets of numbers: reads after writes, and the canonical form. -/

namespace Sys2Proof.Machine

variable {α : Type}

theorem Sparse.get_insert_same (d : α) (l : List (Nat × α)) (i : Nat) (x : α) :
    Sparse.get d (Sparse.insert i x l) i = x := by
  induction l with
  | nil => simp [Sparse.insert, Sparse.get]
  | cons p r ih =>
    simp only [Sparse.insert]
    split
    · simp [Sparse.get]
    · split
      · simp [Sparse.get]
      · rename_i h; simp [Sparse.get, h, ih]

theorem Sparse.get_insert_other (d : α) (l : List (Nat × α)) (i j : Nat) (x : α) (h : j ≠ i) :
    Sparse.get d (Sparse.insert i x l) j = Sparse.get d l j := by
  induction l with
  | nil => simp [Sparse.insert, Sparse.get, h]
  | cons p r ih =>
    simp only [Sparse.insert]
    split
    · simp [Sparse.get, h]
    · split
      · rename_i h2; subst h2; simp [Sparse.get, h]
      · simp [Sparse.get, ih]

theorem Sparse.get_erase_same (d : α) (l : List (Nat × α)) (i : Nat) : Sparse.get d (Sparse.erase i l) i = d := by
  induction l with
  | nil => rfl
  | cons p r ih =>
    simp only [Sparse.erase]
    split
    · exact ih
    · rename_i h; simp [Sparse.get, h, ih]

theorem Sparse.get_erase_other (d : α) (l : List (Nat × α)) (i j : Nat) (h : j ≠ i) :
    Sparse.get d (Sparse.erase i l) j = Sparse.get d l j := by
  induction l with
  | nil => rfl
  | cons p r ih =>
    simp only [Sparse.erase]
    split
    · rename_i h2; subst h2; simp [Sparse.get, h, ih]
    · simp [Sparse.get, ih]

variable [DecidableEq α]

/-- A read after a write of the same key gives the value written. -/
@[simp] theorem Sparse.get_put_same (d : α) (l : List (Nat × α)) (i : Nat) (x : α) :
    Sparse.get d (Sparse.put d l i x) i = x := by
  unfold Sparse.put
  split
  · rename_i h; subst h; exact Sparse.get_erase_same ..
  · exact Sparse.get_insert_same ..

/-- A write leaves every other key alone. -/
theorem Sparse.get_put_other (d : α) (l : List (Nat × α)) (i j : Nat) (x : α) (h : j ≠ i) :
    Sparse.get d (Sparse.put d l i x) j = Sparse.get d l j := by
  unfold Sparse.put
  split
  · exact Sparse.get_erase_other _ _ _ _ h
  · exact Sparse.get_insert_other _ _ _ _ _ h

theorem Sparse.okFrom_mono (d : α) (l : List (Nat × α)) (a b : Nat) (h : a ≤ b) :
    Sparse.okFrom d b l = true → Sparse.okFrom d a l = true := by
  cases l with
  | nil => simp [Sparse.okFrom]
  | cons p r => simp only [Sparse.okFrom, Bool.and_eq_true, decide_eq_true_eq]; rintro ⟨⟨h1, h2⟩, h3⟩; exact ⟨⟨by omega, h2⟩, h3⟩

theorem Sparse.okFrom_insert (d : α) (l : List (Nat × α)) (i lo : Nat) (x : α) (hx : x ≠ d) (hlo : lo ≤ i)
    (h : Sparse.okFrom d lo l = true) : Sparse.okFrom d lo (Sparse.insert i x l) = true := by
  induction l generalizing lo with
  | nil => simp [Sparse.insert, Sparse.okFrom, hx, hlo]
  | cons p r ih =>
    simp only [Sparse.okFrom, Bool.and_eq_true, decide_eq_true_eq] at h
    obtain ⟨⟨h1, h2⟩, h3⟩ := h
    simp only [Sparse.insert]
    split
    · simp only [Sparse.okFrom, Bool.and_eq_true, decide_eq_true_eq]; exact ⟨⟨hlo, hx⟩, ⟨by omega, h2⟩, h3⟩
    · split
      · rename_i h4; subst h4; simp [Sparse.okFrom, hx, hlo, h3]
      · simp only [Sparse.okFrom, Bool.and_eq_true, decide_eq_true_eq]; exact ⟨⟨h1, h2⟩, ih _ (by omega) h3⟩

theorem Sparse.okFrom_erase (d : α) (l : List (Nat × α)) (i lo : Nat)
    (h : Sparse.okFrom d lo l = true) : Sparse.okFrom d lo (Sparse.erase i l) = true := by
  induction l generalizing lo with
  | nil => rfl
  | cons p r ih =>
    simp only [Sparse.okFrom, Bool.and_eq_true, decide_eq_true_eq] at h
    obtain ⟨⟨h1, h2⟩, h3⟩ := h
    simp only [Sparse.erase]
    split
    · exact ih _ (Sparse.okFrom_mono d r _ _ (by omega) h3)
    · simp only [Sparse.okFrom, Bool.and_eq_true, decide_eq_true_eq]; exact ⟨⟨h1, h2⟩, ih _ h3⟩

/-- A write keeps the canonical form. -/
theorem Sparse.wf_put (d : α) (l : List (Nat × α)) (i : Nat) (x : α) (h : Sparse.wf d l = true) :
    Sparse.wf d (Sparse.put d l i x) = true := by
  unfold Sparse.put
  split
  · exact Sparse.okFrom_erase _ _ _ _ h
  · rename_i hx; exact Sparse.okFrom_insert _ _ _ _ _ hx (Nat.zero_le _) h

omit [DecidableEq α] in
theorem Sparse.insert_insert (l : List (Nat × α)) (i : Nat) (x y : α) :
    Sparse.insert i y (Sparse.insert i x l) = Sparse.insert i y l := by
  induction l with
  | nil => simp [Sparse.insert]
  | cons p r ih =>
    simp only [Sparse.insert]
    split
    · simp [Sparse.insert]
    · split
      · simp [Sparse.insert]
      · rename_i h1 h2; simp [Sparse.insert, h1, h2, ih]

theorem NSet.okFrom_mono (l : List Nat) (a b : Nat) (h : a ≤ b) : NSet.okFrom b l = true → NSet.okFrom a l = true := by
  cases l with
  | nil => simp [NSet.okFrom]
  | cons p r => simp only [NSet.okFrom, Bool.and_eq_true, decide_eq_true_eq]; rintro ⟨h1, h2⟩; exact ⟨by omega, h2⟩

theorem NSet.okFrom_add (l : List Nat) (i lo : Nat) (hlo : lo ≤ i) (h : NSet.okFrom lo l = true) :
    NSet.okFrom lo (NSet.add i l) = true := by
  induction l generalizing lo with
  | nil => simp [NSet.add, NSet.okFrom, hlo]
  | cons k r ih =>
    simp only [NSet.okFrom, Bool.and_eq_true, decide_eq_true_eq] at h
    simp only [NSet.add]
    split
    · simp only [NSet.okFrom, Bool.and_eq_true, decide_eq_true_eq]; exact ⟨hlo, by omega, h.2⟩
    · split
      · simp [NSet.okFrom, h.1, h.2]
      · simp only [NSet.okFrom, Bool.and_eq_true, decide_eq_true_eq]; exact ⟨h.1, ih _ (by omega) h.2⟩

/-- A set with a member added is canonical. -/
theorem NSet.wf_add (l : List Nat) (i : Nat) (h : NSet.wf l = true) : NSet.wf (NSet.add i l) = true :=
  NSet.okFrom_add _ _ _ (Nat.zero_le _) h

theorem NSet.okFrom_filter (l : List Nat) (p : Nat → Bool) (lo : Nat) (h : NSet.okFrom lo l = true) :
    NSet.okFrom lo (l.filter p) = true := by
  induction l generalizing lo with
  | nil => rfl
  | cons k r ih =>
    simp only [NSet.okFrom, Bool.and_eq_true, decide_eq_true_eq] at h
    simp only [List.filter_cons]
    split
    · simp only [NSet.okFrom, Bool.and_eq_true, decide_eq_true_eq]; exact ⟨h.1, ih _ h.2⟩
    · exact ih _ (NSet.okFrom_mono r _ _ (by omega) h.2)

/-- A part of a canonical set is canonical. -/
theorem NSet.wf_filter (l : List Nat) (p : Nat → Bool) (h : NSet.wf l = true) : NSet.wf (l.filter p) = true :=
  NSet.okFrom_filter _ _ _ h

end Sys2Proof.Machine
end

