-- ==== Sys2Proof/Laws/Issue.lean ====
section
/-! SUPPORT. Issue: what a bundle with one instruction does when it issues, when it stalls and when it faults. -/

namespace Sys2Proof.Machine

open Decode

/-! ## Cores -/

@[simp] theorem State.core_setCore (s : State) (c : CoreId) (k : Core) : (s.setCore c k).core c = k :=
  Sparse.get_put_same _ _ _ _

theorem State.core_setCore_other (s : State) (c d : CoreId) (k : Core) (h : d ≠ c) : (s.setCore c k).core d = s.core d :=
  Sparse.get_put_other _ _ _ _ _ fun e => h (Fin.ext e)

@[simp] theorem State.core_modCore (s : State) (c : CoreId) (f : Core → Core) : (s.modCore c f).core c = f (s.core c) :=
  State.core_setCore ..

theorem State.core_modCore_other (s : State) (c d : CoreId) (f : Core → Core) (h : d ≠ c) :
    (s.modCore c f).core d = s.core d := State.core_setCore_other _ _ _ _ h

/-- A core is what the list of cores says, whatever else changes. -/
theorem State.core_congr {s t : State} (h : t.cores = s.cores) (c : CoreId) : t.core c = s.core c := by
  unfold State.core; rw [h]

theorem State.onlyCore_refl (s : State) (c : CoreId) : s.onlyCore s c (s.core c) := ⟨rfl, rfl, fun _ _ => rfl⟩

theorem State.onlyCore_setCore (s : State) (c : CoreId) (k : Core) : s.onlyCore (s.setCore c k) c k :=
  ⟨rfl, State.core_setCore .., fun _ h => State.core_setCore_other _ _ _ _ h⟩

theorem State.onlyCore_modCore {s t : State} {c : CoreId} {k : Core} (h : s.onlyCore t c k) (f : Core → Core) :
    s.onlyCore (t.modCore c f) c (f k) := by
  obtain ⟨h1, h2, h3⟩ := h
  refine ⟨?_, ?_, fun d hd => ?_⟩
  · rw [h1]; rfl
  · rw [State.core_modCore, h2]
  · rw [State.core_modCore_other _ _ _ _ hd, h3 d hd]

theorem State.onlyCore_set {s t : State} {c : CoreId} {k : Core} (h : s.onlyCore t c k) (k' : Core) :
    s.onlyCore (t.setCore c k') c k' := by
  obtain ⟨h1, _, h3⟩ := h
  refine ⟨?_, State.core_setCore .., fun d hd => ?_⟩
  · rw [h1]; rfl
  · rw [State.core_setCore_other _ _ _ _ hd, h3 d hd]

/-! ## The issue point -/

theorem issueBundle_eq {c : CoreId} {b : Slots} {s : State} (h : canIssue c s) :
    issueBundle c b s = issueAt c b (s.setCore c (s.front c)) := by
  obtain ⟨h1, h2, h3, h4, h5, h6⟩ := h
  have h2' : (s.hm.state == 3) = false := by simpa using h2
  unfold issueBundle beforeIssue State.front
  simp only [h1, h2', h4]
  rw [if_neg (by simp), if_neg (by omega), if_neg (by simp), if_neg (by omega)]

theorem landAll_seq (now : Nat) (l : List PendWrite) (k : Core) : (landAll now l k).seq = k.seq := by
  induction l generalizing k with
  | nil => rfl
  | cons w r ih =>
    simp only [landAll]
    split
    · rw [ih]; cases w with
      | s t o r x => simp only [Core.land, Core.setS]; split <;> rfl
      | v t o r x => rfl
      | m t o u mask x => rfl
    · rfl

@[simp] theorem State.front_seq (s : State) (c : CoreId) : (s.front c).seq = (s.core c).seq := landAll_seq _ _ _

theorem readDescs_none (c : CoreId) (ps : List Plan) (s : State) (h : ps.flatMap (·.descs) = []) : readDescs c ps s = s := by
  unfold readDescs; rw [h]; rfl

theorem landAll_frame (now : Nat) (l : List PendWrite) (k : Core) :
    ∃ a b d p, landAll now l k = { k with s := a, v := b, m := d, pend := p } := by
  induction l generalizing k with
  | nil => exact ⟨_, _, _, _, rfl⟩
  | cons w r ih =>
    simp only [landAll]
    split
    · have h : ∃ a b d, k.land w = { k with s := a, v := b, m := d } := by
        cases w with
        | s t o r x => simp only [Core.land, Core.setS]; split <;> exact ⟨_, _, _, rfl⟩
        | v t o r x => exact ⟨_, _, _, rfl⟩
        | m t o u mask x => exact ⟨_, _, _, rfl⟩
      obtain ⟨a, b, d, h⟩ := h
      obtain ⟨a', b', d', p', h'⟩ := ih (k.land w)
      rw [h', h]
      exact ⟨_, _, _, _, rfl⟩
    · exact ⟨_, _, _, _, rfl⟩

/-- What may differ in the core as its next bundle finds it: results that have landed, entries that are over. -/
theorem State.front_frame (s : State) (c : CoreId) :
    ∃ a b d p q, s.front c = { s.core c with s := a, v := b, m := d, pend := p, sb := q } := by
  obtain ⟨a, b, d, p, h⟩ := landAll_frame (s.core c).seq.cc (s.core c).pend (s.core c)
  have e : s.front c = (landAll (s.core c).seq.cc (s.core c).pend (s.core c)).sweep (s.core c).seq.cc := rfl
  refine ⟨a, b, d, p, (s.front c).sb, ?_⟩
  rw [e, h]
  rfl

/-- The bundle issues: its instructions act, in slot order, and control goes on. -/
theorem issueAt_next {c : CoreId} {b : Slots} {s : State} (ps : List Plan)
    (hps : plans s ((s.core c).point c) b = ps) (hd : readDescs c ps s = s) (hw : (s.core c).stallWord ps = 0)
    (hf : issueFaults (s.core c) ((s.core c).point c) b ps = []) :
    issueAt c b s = (ps.foldl (fun s p => p.act s) (s.setCore c ((s.core c).place (ps.flatMap (·.ranges))))).modCore c
      fun k => k.afterIssue (s.core c).seq.pc.toNat (planFlow ps) := by
  subst hps
  unfold issueAt
  simp only
  rw [if_neg (by simpa using hw)]
  rw [hd]
  unfold issueNow
  simp only
  rw [show ((s.core c).point c).c = c from rfl, hf]
  rfl

/-- The bundle stalls. -/
theorem issueAt_stall {c : CoreId} {b : Slots} {s : State} (ps : List Plan)
    (hps : plans s ((s.core c).point c) b = ps) (hw : (s.core c).stallWord ps ≠ 0) :
    issueAt c b s = s.setCore c ((s.core c).stalled b ps ((s.core c).stallWord ps)) := by
  subst hps
  unfold issueAt
  simp only
  rw [if_pos (by simpa using hw)]

/-- The bundle faults. -/
theorem issueAt_fault {c : CoreId} {b : Slots} {s : State} (ps : List Plan) (f : FaultReq) (fs : List FaultReq)
    (hps : plans s ((s.core c).point c) b = ps) (hd : readDescs c ps s = s) (hw : (s.core c).stallWord ps = 0)
    (hf : issueFaults (s.core c) ((s.core c).point c) b ps = f :: fs) :
    issueAt c b s = s.modCore c fun k => (f :: fs).foldl Core.raise { k with seq := { k.seq with stall := 0 } } := by
  subst hps
  unfold issueAt
  simp only
  rw [if_neg (by simpa using hw)]
  rw [hd]
  unfold issueNow
  simp only
  rw [show ((s.core c).point c).c = c from rfl, hf]

/-! ## After issue -/

/-- Raising a fault changes the sequencer and the unit that shows it, and no more. -/
theorem Core.raise_frame (k : Core) (f : FaultReq) : ∃ q u, k.raise f = { k with seq := q, faultUnit := u } := by
  unfold Core.raise
  split <;> exact ⟨_, _, rfl⟩

theorem Core.flow_frame (k : Core) (pc : Nat) (f : Flow) : ∃ q u, k.flow pc f = { k with seq := q, faultUnit := u } := by
  have toward : ∀ (q : Seq) (P : Prop) [Decidable P] (r : FaultReq), ∃ q' u,
      (if P then ({ k with seq := q } : Core).raise r else { k with seq := q }) = { k with seq := q', faultUnit := u } := by
    intro q P _ r
    split
    · obtain ⟨q', u, h⟩ := Core.raise_frame { k with seq := q } r
      exact ⟨q', u, h⟩
    · exact ⟨_, _, rfl⟩
  unfold Core.flow
  cases f with
  | seq => exact toward ..
  | jump t => exact toward ..
  | loop n b => simp only; split <;> exact toward ..
  | stop => exact ⟨_, _, rfl⟩

/-- R248: what issue itself changes of a core. -/
theorem Core.afterIssue_frame (k : Core) (pc : Nat) (f : Flow) :
    ∃ q u, k.afterIssue pc f = { k with
      seq := q, faultUnit := u, dqu := { k.dqu with takeWait := false, fenceWait := false },
      ca := { k.ca with seqBundles := bump k.ca.seqBundles } } := by
  unfold Core.afterIssue
  simp only
  split
  · exact ⟨_, _, rfl⟩
  · generalize hk : ({ k with
      seq := { k.seq with stall := 0, wdogCount := 0, issues := k.seq.issues + 1, state := .running }
      dqu := { k.dqu with takeWait := false, fenceWait := false }
      ca := { k.ca with seqBundles := bump k.ca.seqBundles } } : Core) = k1
    obtain ⟨q, u, h⟩ := Core.flow_frame k1 pc f
    rw [h]
    subst hk
    split <;> exact ⟨_, _, rfl⟩

/-! ## Bundles with one instruction -/

theorem Core.place_nil (k : Core) : k.place [] = k := by
  have h : ∀ l : List (Option SbEntry), placeAll l [] = l := by
    intro l
    cases l with
    | nil => rfl
    | cons a r => cases a <;> rfl
  have h2 : (Vector.ofFn fun i : Fin 32 => k.sb.toList.getD i.val none) = k.sb := by
    apply Vector.ext; intro i hi; simp
  unfold Core.place
  simp only [h, h2]

/-- Taking ranges changes the scoreboard and no more. -/
theorem Core.place_frame (k : Core) (rs : List SbEntry) : k.place rs = { k with sb := (k.place rs).sb } := rfl

theorem Core.blockMask_nil (k : Core) : k.blockMask [] = 0 := by
  unfold Core.blockMask
  simp only [List.any_nil]
  generalize k.sb.toList = l
  induction l with
  | nil => rfl
  | cons a r ih => simp_all [packFields, bit]

/-- A core with room takes no ranges at all. -/
theorem Core.takes_nil (k : Core) : k.takes [] := by
  refine ⟨k.blockMask_nil, Nat.zero_le _, rfl, by simp, rfl⟩

/-- The four places of an instruction in a bundle whose other slots hold no-ops. -/
def oneOf (i : Nat) (p : Plan) : List Plan :=
  match i with
  | 0 => [p, .nop, .nop, .nop]
  | 1 => [.nop, p, .nop, .nop]
  | 2 => [.nop, .nop, p, .nop]
  | _ => [.nop, .nop, .nop, p]

theorem oneOf_ranges (i : Nat) (p : Plan) : (oneOf i p).flatMap (·.ranges) = p.ranges := by
  unfold oneOf; split <;> simp [Plan.nop]

theorem oneOf_descs (i : Nat) (p : Plan) : (oneOf i p).flatMap (·.descs) = p.descs := by
  unfold oneOf; split <;> simp [Plan.nop]

theorem oneOf_act (i : Nat) (p : Plan) (s : State) : (oneOf i p).foldl (fun s p => p.act s) s = p.act s := by
  unfold oneOf; split <;> simp [Plan.nop]

theorem stallWord_one (k : Core) (i : Nat) (p : Plan) (hs : p.stall = 0) (hr : k.takes p.ranges) :
    k.stallWord (oneOf i p) = 0 := by
  obtain ⟨h1, h2, h3, _, _⟩ := hr
  have h0 : (oneOf i p).foldl (fun n p => n ||| p.stall) 0 = 0 := by unfold oneOf; split <;> simp [Plan.nop, hs]
  unfold Core.stallWord
  simp only [oneOf_ranges, h0, h1, h3, stallIf]
  have : ¬ k.freeEntries < p.ranges.length := by omega
  simp [this]

theorem slotFaults_one (k : Core) (x : At) (b : Slots) (i : Nat) (p : Plan) (hf : p.faultAt k = none) :
    slotFaults k x b (oneOf i p) = [] := by
  unfold slotFaults oneOf
  split <;> simp [List.zipIdx, hf, show Plan.nop.faultAt k = none from rfl]

theorem conflict_one (i : Nat) (p : Plan) (h : selfClash p.ranges = false) : bundleConflict (oneOf i p) = false := by
  unfold bundleConflict oneOf
  split <;> simp [Plan.nop, selfClash, crossClash] <;> simpa [selfClash] using h

theorem faults_one (k : Core) (x : At) (b : Slots) (i : Nat) (p : Plan) (hs : p.fault = none) (hr : k.takes p.ranges) :
    issueFaults k x b (oneOf i p) = [] := by
  obtain ⟨_, _, _, h4, h5⟩ := hr
  have h6 : p.faultAt k = none := by simpa [Plan.faultAt, hs] using h4
  unfold issueFaults
  simp [slotFaults_one _ _ _ _ _ h6, conflict_one _ _ h5]

theorem planFlow_one (i : Nat) (p : Plan) : planFlow (oneOf i p) = if i = 0 then p.flow else .seq := by
  unfold oneOf; split <;> simp_all [planFlow, Plan.nop]

/-- A bundle with one instruction that neither waits nor faults: the whole of what happens. -/
theorem issueBundle_one {c : CoreId} {b : Slots} {s : State} (i : Nat) (p : Plan) (h : canIssue c s)
    (hps : plans (s.setCore c (s.front c)) (s.point c) b = oneOf i p)
    (hs : p.stall = 0) (hf : p.fault = none)
    (hd : p.descs.foldl (fun s d => s.senseSp c d.1 d.2) (s.setCore c (s.front c)) = s.setCore c (s.front c))
    (hr : (s.front c).takes p.ranges) (f : Flow)
    (hflow : f = if i = 0 then p.flow else .seq) :
    issueBundle c b s
      = (p.act ((s.setCore c (s.front c)).setCore c ((s.front c).place p.ranges))).modCore c
          fun k => k.afterIssue (s.core c).seq.pc.toNat f := by
  have hcore : ((s.setCore c (s.front c)).core c) = s.front c := State.core_setCore ..
  have hseq : (s.front c).seq = (s.core c).seq := State.front_seq ..
  have hpt : ((s.setCore c (s.front c)).core c).point c = s.point c := by rw [hcore]; unfold State.point Core.point; rw [hseq]
  have hps' : plans (s.setCore c (s.front c)) (((s.setCore c (s.front c)).core c).point c) b = oneOf i p := by
    rw [hpt]; exact hps
  rw [issueBundle_eq h, issueAt_next (oneOf i p) hps' (by unfold readDescs; rw [oneOf_descs, hd])]
  · rw [oneOf_act, oneOf_ranges, hcore, hseq, hflow, planFlow_one]
  · rw [hcore]; exact stallWord_one _ _ _ hs hr
  · exact faults_one _ _ _ _ _ hf (by rw [hcore]; exact hr)

end Sys2Proof.Machine
end

