-- ==== Sys2Proof/Laws/Sense.lean ====
section
/-! SUPPORT. Bit errors that no read has found (R82, R102, R263): where none lie, a read finds nothing and changes nothing. -/

namespace Sys2Proof.Machine

theorem State.calm_iff (s : State) (c : CoreId) :
    s.calm c = true ↔ (∀ f ∈ s.flips, f.1 < spKey c 0 / 8 ∨ spKey c 0 / 8 + 131072 ≤ f.1) ∧ (s.core c).upsets = [] := by
  simp [State.calm]

/-- Whether a core's memories hold bit errors depends on the marks and that core's list alone. -/
theorem State.calm_of_same {s t : State} {c : CoreId} (h : s.calm c = true) (hf : t.flips = s.flips)
    (hu : (t.core c).upsets = (s.core c).upsets) : t.calm c = true := by
  rw [State.calm_iff] at h ⊢
  rw [hf, hu]; exact h

theorem State.senseSp_calm {s : State} {c : CoreId} (h : s.calm c = true) (off n : Nat) (hn : off + n ≤ 2 ^ 20) :
    s.senseSp c off n = s := by
  rw [State.calm_iff] at h
  have hno : ∀ f ∈ s.flips, (n != 0 && decide (spKey c off / 8 ≤ f.1) && decide (f.1 ≤ (spKey c off + n - 1) / 8)) = false := by
    intro f hf
    have h1 := h.1 f hf
    by_cases h0 : n = 0
    · simp [h0]
    · have h2 : ¬(spKey c off / 8 ≤ f.1 ∧ f.1 ≤ (spKey c off + n - 1) / 8) := by
        simp only [spKey, Config.scratchBase, Config.windowBytes] at h1 ⊢
        omega
      simpa [h0] using h2
  unfold State.senseSp
  simp only
  rw [List.filter_eq_self.mpr fun f hf => by rw [hno f hf]; rfl, List.filter_eq_nil_iff.mpr fun f hf => by rw [hno f hf]; simp]
  rfl

/-- Reads of a core's scratchpad window where no error lies. -/
theorem State.readAll_calm {s : State} {c : CoreId} (h : s.calm c = true) (l : List (Nat × Nat))
    (hl : ∀ r ∈ l, r.1 + r.2 ≤ 2 ^ 20) : l.foldl (fun s r => s.senseSp c r.1 r.2) s = s := by
  induction l with
  | nil => rfl
  | cons r q ih =>
    rw [List.foldl_cons, State.senseSp_calm h _ _ (hl r (by simp))]
    exact ih fun x hx => hl x (by simp [hx])

/-- A descriptor that is read without waiting, fault or poison. -/
theorem withDesc_reads (s : State) (x : At) (off len bits : Nat) (p : Plan) (hw : (s.core x.c).descWaits off len = false)
    (hr : (s.core x.c).rangeFault (spRange .read off len (.atCc (x.now + 2))) = none) (hp : s.spPoison? x.c off len = none) :
    withDesc s x off len bits p = { p.after bits with descs := [(off, len)] } := by
  unfold withDesc
  simp only [hw, hr, hp]
  rfl

/-- A read that meets no error and no poison. -/
theorem readOr_reads {s : State} (x : At) (slot : Nat) (u : FUnit) (off len : Nat) (f : State → State) (h : s.calm x.c = true)
    (hl : off + len ≤ 2 ^ 20) (hp : s.spPoison? x.c off len = none) : readOr x slot u off len f s = f s := by
  unfold readOr
  simp only [State.senseSp_calm h off len hl, hp]

/-- A read of punnet or accumulator memory where no error lies. -/
theorem State.senseCore_calm {s : State} {c : CoreId} (h : s.calm c = true) (hit : ScrubFind → Bool) :
    s.senseCore c hit = s.setCore c (s.core c) := by
  have hu := ((State.calm_iff s c).mp h).2
  unfold State.senseCore State.modCore
  simp only [hu, List.filter_nil, List.foldl_nil]
  congr 1
  rw [← hu]

theorem State.senseAcc_calm {s : State} {c : CoreId} (h : s.calm c = true) (i : Nat) :
    s.senseAcc c i = s.setCore c (s.core c) := State.senseCore_calm h _

theorem State.sensePun_calm {s : State} {c : CoreId} (h : s.calm c = true) (key word : Nat) :
    s.sensePun c key word = s.setCore c (s.core c) := State.senseCore_calm h _

theorem State.calm_setCore {s : State} {c : CoreId} (h : s.calm c = true) (k : Core) (hk : k.upsets = (s.core c).upsets) :
    (s.setCore c k).calm c = true := State.calm_of_same h rfl (by rw [State.core_setCore, hk])

theorem State.calm_front {s : State} {c : CoreId} (h : s.calm c = true) : (s.setCore c (s.front c)).calm c = true := by
  obtain ⟨a, b, d, p, q, e⟩ := s.front_frame c
  exact State.calm_setCore h _ (by rw [e])

/-- A fold of reads that each leave a state alone but for writing core `c` back. -/
theorem State.fold_calm {α : Type} {s : State} {c : CoreId} (h : s.calm c = true) (f : State → α → State) (l : List α)
    (hf : ∀ s' : State, s'.calm c = true → ∀ x ∈ l, f s' x = s' ∨ f s' x = s'.setCore c (s'.core c)) :
    s.onlyCore (l.foldl f s) c (s.core c) := by
  induction l generalizing s with
  | nil => exact State.onlyCore_refl s c
  | cons x r ih =>
    rw [List.foldl_cons]
    rcases hf s h x (by simp) with e | e
    · rw [e]; exact ih h fun s' hs y hy => hf s' hs y (by simp [hy])
    · rw [e]
      have h1 := ih (State.calm_setCore h _ rfl) fun s' hs y hy => hf s' hs y (by simp [hy])
      rw [State.core_setCore] at h1
      exact ⟨h1.1, h1.2.1, fun d hd => by rw [h1.2.2 d hd, State.core_setCore_other _ _ _ _ hd]⟩

end Sys2Proof.Machine
end

