-- ==== Sys2Proof/Laws/Engines.lean ====
section
/-! SUPPORT. Engines: what the shared steps of an engine change (R75, R77, R89, R91). -/

namespace Sys2Proof.Machine

/-- R89: performing the PINVs that are due changes punnet slots and the list of PINVs, and no more. -/
theorem Core.settlePinv_frame (k : Core) : ∃ p w, k.settlePinv = { k with punnets := p, pinvs := w } := by
  have h : ∀ (l : List PinvWait) (k : Core), ∃ p, l.foldl (fun k w => k.pinvClear w.emask) k = { k with punnets := p } := by
    intro l
    induction l with
    | nil => intro k; exact ⟨_, rfl⟩
    | cons a r ih =>
      intro k
      obtain ⟨p, h⟩ := ih (k.pinvClear a.emask)
      exact ⟨p, h⟩
  unfold Core.settlePinv
  obtain ⟨p, h⟩ := h (k.pinvs.filter k.pinvDue) { k with pinvs := k.pinvs.filter fun w => !k.pinvDue w }
  exact ⟨p, _, h⟩

@[simp] theorem Core.engine_modEng (k : Core) (e : EngineId) (f : Engine → Engine) : (k.modEng e f).engines[e] = f k.engines[e] := by
  simp [Core.modEng, Core.setEng]

/-- Changing one engine changes the engines and no more. -/
theorem Core.modEng_frame (k : Core) (e : EngineId) (f : Engine → Engine) : ∃ g, k.modEng e f = { k with engines := g } ∧ g[e] = f k.engines[e] :=
  ⟨_, rfl, by simp⟩

/-- R91: freeing a unit's entries changes the scoreboard and no more. -/
theorem Core.freeUnit_frame (k : Core) (n : Nat) : ∃ q, k.freeUnit n = { k with sb := q } := ⟨_, rfl⟩

/-- R77: a PLOOK that may leave its queue: what changes in the core, and in its engine. -/
theorem Core.finish_frame (k : Core) (e : EngineId) : ∃ g p w q, k.finish e = { k with engines := g, punnets := p, pinvs := w, sb := q }
    ∧ ∃ l u, g[e] = { k.engines[e] with queue := l, undo := u } := by
  unfold Core.finish
  simp only
  split
  · exact ⟨_, _, _, _, rfl, _, _, rfl⟩
  · rename_i p r hq
    split
    · obtain ⟨g, hg, hg2⟩ := Core.modEng_frame k e fun g => { g with queue := r, undo := [] }
      obtain ⟨q, hq⟩ := Core.freeUnit_frame (k.modEng e fun g => { g with queue := r, undo := [] }) (writesDone p.id)
      obtain ⟨a, b, h⟩ := Core.settlePinv_frame ((k.modEng e fun g => { g with queue := r, undo := [] }).freeUnit (writesDone p.id))
      refine ⟨g, a, b, q, ?_, r, [], hg2⟩
      rw [h, hq, hg]
    · obtain ⟨a, b, h⟩ := Core.settlePinv_frame k
      exact ⟨_, a, b, _, h, _, _, rfl⟩

/-- R75: the merge stage changes neither deliveries nor lane queues of its engine, and of the core only what is named here. -/
theorem Core.merge_frame (k : Core) (e : EngineId) : ∃ g p w q, k.merge e = { k with engines := g, punnets := p, pinvs := w, sb := q }
    ∧ g[e].deliv = k.engines[e].deliv ∧ g[e].lanes = k.engines[e].lanes ∧ g[e].nextLine = k.engines[e].nextLine := by
  unfold Core.merge
  simp only
  split
  · exact ⟨_, _, _, _, rfl, rfl, rfl, rfl⟩
  · split
    · obtain ⟨g, p, w, q, h, l, u, h2⟩ := Core.finish_frame k e
      exact ⟨g, p, w, q, h, by rw [h2], by rw [h2], by rw [h2]⟩
    · rename_i p r hq _
      generalize hF : (fun g : Engine => _) = F
      obtain ⟨g1, a1, a2⟩ := Core.modEng_frame k e F
      obtain ⟨g, p', w, q, h, l, u, h2⟩ := Core.finish_frame (k.modEng e F) e
      have h3 : (k.modEng e F).engines[e] = F k.engines[e] := Core.engine_modEng ..
      refine ⟨g, p', w, q, ?_, ?_, ?_, ?_⟩
      · rw [h, a1]
      · rw [h2, h3, ← hF]
      · rw [h2, h3, ← hF]
      · rw [h2, h3, ← hF]

end Sys2Proof.Machine
end

