-- ==== Sys2Proof/Laws/Memory.lean ====
section
/-! SUPPORT. Memory: reads after writes, and that every memory operation keeps the canonical forms. -/

namespace Sys2Proof.Machine

/-! ## Bytes -/

theorem memWrite_out (m : List Host.Cell) (key a : Nat) (bs : List Byte) (h : a < key ∨ key + bs.length ≤ a) :
    Sparse.get memDefault (memWrite m key bs) a = Sparse.get memDefault m a := by
  induction bs generalizing m key with
  | nil => rfl
  | cons b r ih =>
    simp only [List.length_cons] at h
    rw [memWrite, ih _ _ (by omega), Sparse.get_put_other _ _ _ _ _ (by omega)]

theorem memWrite_in (m : List Host.Cell) (key i : Nat) (bs : List Byte) (h : i < bs.length) :
    Sparse.get memDefault (memWrite m key bs) (key + i) = bs.getD i 0 := by
  induction bs generalizing m key i with
  | nil => simp at h
  | cons b r ih =>
    rw [memWrite]
    cases i with
    | zero => rw [memWrite_out _ _ _ _ (by omega)]; simp [Sparse.get_put_same]
    | succ j =>
      have := ih (Sparse.put memDefault m key b) (key + 1) j (by simpa using h)
      rw [show key + (j + 1) = key + 1 + j by omega, this]; simp

theorem memWrite_wf (m : List Host.Cell) (key : Nat) (bs : List Byte) (h : Memory.wf m = true) :
    Memory.wf (memWrite m key bs) = true := by
  induction bs generalizing m key with
  | nil => exact h
  | cons b r ih => exact ih _ _ (Sparse.wf_put memDefault m key b h)

theorem State.byte_wrBytes_out (s : State) (key a : Nat) (bs : List Byte) (h : a < key ∨ key + bs.length ≤ a) :
    (s.wrBytes key bs).byte a = s.byte a := memWrite_out _ _ _ _ h

theorem State.byte_wrBytes_in (s : State) (key i : Nat) (bs : List Byte) (h : i < bs.length) :
    (s.wrBytes key bs).byte (key + i) = bs.getD i 0 := memWrite_in _ _ _ _ h

@[simp] theorem leBytes_length (n x : Nat) : (leBytes n x).length = n := by
  induction n generalizing x with
  | zero => rfl
  | succ n ih => simp [leBytes, ih]

/-- R10: a read of `n` bytes is the sum of the bytes by their places. -/
theorem memRead_congr (m m' : List Host.Cell) (key n : Nat)
    (h : ∀ i < n, Sparse.get memDefault m (key + i) = Sparse.get memDefault m' (key + i)) : memRead m key n = memRead m' key n := by
  induction n generalizing key with
  | zero => rfl
  | succ n ih =>
    simp only [memRead]
    rw [show Sparse.get memDefault m key = _ from h 0 (by omega), ih (key + 1) fun i hi => by
      have := h (i + 1) (by omega)
      rwa [show key + (i + 1) = key + 1 + i by omega] at this]
    rfl

theorem memRead_leBytes (m : List Host.Cell) (key n x : Nat) : memRead (memWrite m key (leBytes n x)) key n = x % 256 ^ n := by
  induction n generalizing m key x with
  | zero => simp [memRead, Nat.mod_one]
  | succ n ih =>
    simp only [leBytes, memWrite, memRead]
    rw [ih, memWrite_out _ _ _ _ (by omega), Sparse.get_put_same]
    rw [Nat.pow_succ, Nat.mul_comm (256 ^ n) 256, Nat.mod_mul]
    simp

/-- R10: what a write of `n` bytes leaves there. -/
theorem State.rd_wr (s : State) (key n x : Nat) : (s.wr key n x).rd key n = x % 256 ^ n := memRead_leBytes ..

theorem State.rd_wrBytes_out (s : State) (key a n : Nat) (bs : List Byte) (h : a + n ≤ key ∨ key + bs.length ≤ a) :
    (s.wrBytes key bs).rd a n = s.rd a n :=
  memRead_congr _ _ _ _ fun i hi => memWrite_out _ _ _ _ (by omega)

/-- R263: which words a write of bytes leaves poisoned. -/
theorem State.poison_wrBytes (s : State) (key w : Nat) (bs : List Byte) :
    w ∈ (s.wrBytes key bs).poison ↔ w ∈ s.poison ∧ ¬(key ≤ 8 * w ∧ 8 * w + 8 ≤ key + bs.length) := by
  simp only [State.wrBytes, List.mem_filter]
  refine and_congr Iff.rfl ?_
  simp only [Bool.not_eq_true', Bool.and_eq_false_iff, decide_eq_false_iff_not]
  omega

/-! ## The canonical forms -/

theorem State.canonical_iff (s : State) :
    s.canonical = true ↔ Memory.wf s.mem = true ∧ NSet.wf s.poison = true ∧ Sparse.wf Core.reset s.cores = true := by
  simp [State.canonical, Bool.and_eq_true, and_assoc]

/-- An update that leaves cores, memory and marks alone keeps the canonical forms. -/
theorem State.canonical_of_same {s t : State} (h : s.canonical = true) (hm : t.mem = s.mem) (hp : t.poison = s.poison)
    (hc : t.cores = s.cores) : t.canonical = true := by
  rw [State.canonical_iff] at h ⊢
  rw [hm, hp, hc]; exact h

theorem State.canonical_setCore {s : State} (h : s.canonical = true) (c : CoreId) (k : Core) :
    (s.setCore c k).canonical = true := by
  rw [State.canonical_iff] at h ⊢
  exact ⟨h.1, h.2.1, Sparse.wf_put _ _ _ _ h.2.2⟩

theorem State.canonical_modCore {s : State} (h : s.canonical = true) (c : CoreId) (f : Core → Core) :
    (s.modCore c f).canonical = true := State.canonical_setCore h ..

theorem State.canonical_wrBytes {s : State} (h : s.canonical = true) (key : Nat) (bs : List Byte) :
    (s.wrBytes key bs).canonical = true := by
  rw [State.canonical_iff] at h ⊢
  exact ⟨memWrite_wf _ _ _ h.1, NSet.wf_filter _ _ h.2.1, h.2.2⟩

theorem State.canonical_wr {s : State} (h : s.canonical = true) (key n x : Nat) : (s.wr key n x).canonical = true :=
  State.canonical_wrBytes h ..

theorem State.canonical_mark {s : State} (h : s.canonical = true) (w : Nat) :
    ({ s with poison := NSet.add w s.poison } : State).canonical = true := by
  rw [State.canonical_iff] at h ⊢
  exact ⟨h.1, NSet.wf_add _ _ h.2.1, h.2.2⟩

theorem State.canonical_wrWords (ws : List MWord) {s : State} (h : s.canonical = true) (key : Nat) :
    (s.wrWords key ws).1.canonical = true := by
  induction ws generalizing s key with
  | nil => exact h
  | cons w r ih =>
    simp only [State.wrWords]
    refine ih ?_ _
    split
    · exact State.canonical_mark (State.canonical_wr h _ _ _) _
    · exact State.canonical_wr h _ _ _

theorem State.canonical_spLand {s : State} (h : s.canonical = true) (c : CoreId) (off : Nat) (ws : List MWord) :
    (s.spLand c off ws).canonical = true := State.canonical_modCore (State.canonical_wrWords ws h _) ..

theorem State.canonical_raise {s : State} (h : s.canonical = true) (c : CoreId) (f : FaultReq) :
    (s.raise c f).canonical = true := State.canonical_modCore h ..

theorem State.canonical_note {s : State} (h : s.canonical = true) (code cls skind sidx : Nat) (handle : W32) (tenant : Nat)
    (payload : List W64) : (s.note code cls skind sidx handle tenant payload).canonical = true :=
  State.canonical_of_same h rfl rfl rfl

theorem State.reset_canonical : State.reset.canonical = true := by decide

theorem State.reset_formingOk : State.reset.formingOk = true := by decide

end Sys2Proof.Machine
end

