-- ==== Sys2Proof/Laws/State.lean ====
section
/-! SUPPORT. What the named updates of the state leave alone: one lemma per update and field, each true by definition. -/

namespace Sys2Proof.Machine

variable (s : State)

/-! ## Updates of cores -/

@[simp] theorem State.setCore_pending (c : CoreId) (k : Core) : (s.setCore c k).pending = s.pending := rfl
@[simp] theorem State.setCore_free (c : CoreId) (k : Core) : (s.setCore c k).free = s.free := rfl
@[simp] theorem State.setCore_mem (c : CoreId) (k : Core) : (s.setCore c k).mem = s.mem := rfl
@[simp] theorem State.setCore_poison (c : CoreId) (k : Core) : (s.setCore c k).poison = s.poison := rfl
@[simp] theorem State.setCore_flips (c : CoreId) (k : Core) : (s.setCore c k).flips = s.flips := rfl
@[simp] theorem State.setCore_mesh (c : CoreId) (k : Core) : (s.setCore c k).mesh = s.mesh := rfl
@[simp] theorem State.setCore_ms (c : CoreId) (k : Core) : (s.setCore c k).ms = s.ms := rfl
@[simp] theorem State.setCore_fab (c : CoreId) (k : Core) : (s.setCore c k).fab = s.fab := rfl
@[simp] theorem State.setCore_bbx (c : CoreId) (k : Core) : (s.setCore c k).bbx = s.bbx := rfl
@[simp] theorem State.setCore_ident (c : CoreId) (k : Core) : (s.setCore c k).ident = s.ident := rfl
@[simp] theorem State.setCore_flash (c : CoreId) (k : Core) : (s.setCore c k).flash = s.flash := rfl
@[simp] theorem State.setCore_hm (c : CoreId) (k : Core) : (s.setCore c k).hm = s.hm := rfl
@[simp] theorem State.setCore_host (c : CoreId) (k : Core) : (s.setCore c k).host = s.host := rfl
@[simp] theorem State.setCore_sec (c : CoreId) (k : Core) : (s.setCore c k).sec = s.sec := rfl
@[simp] theorem State.setCore_pwr (c : CoreId) (k : Core) : (s.setCore c k).pwr = s.pwr := rfl
@[simp] theorem State.setCore_dbg (c : CoreId) (k : Core) : (s.setCore c k).dbg = s.dbg := rfl
@[simp] theorem State.setCore_serv (c : CoreId) (k : Core) : (s.setCore c k).serv = s.serv := rfl
@[simp] theorem State.setCore_plc (c : CoreId) (k : Core) : (s.setCore c k).plc = s.plc := rfl
@[simp] theorem State.modCore_pending (c : CoreId) (f : Core → Core) : (s.modCore c f).pending = s.pending := rfl
@[simp] theorem State.modCore_free (c : CoreId) (f : Core → Core) : (s.modCore c f).free = s.free := rfl
@[simp] theorem State.modCore_mem (c : CoreId) (f : Core → Core) : (s.modCore c f).mem = s.mem := rfl
@[simp] theorem State.modCore_poison (c : CoreId) (f : Core → Core) : (s.modCore c f).poison = s.poison := rfl
@[simp] theorem State.modCore_flips (c : CoreId) (f : Core → Core) : (s.modCore c f).flips = s.flips := rfl
@[simp] theorem State.modCore_mesh (c : CoreId) (f : Core → Core) : (s.modCore c f).mesh = s.mesh := rfl
@[simp] theorem State.modCore_ms (c : CoreId) (f : Core → Core) : (s.modCore c f).ms = s.ms := rfl
@[simp] theorem State.modCore_fab (c : CoreId) (f : Core → Core) : (s.modCore c f).fab = s.fab := rfl
@[simp] theorem State.modCore_bbx (c : CoreId) (f : Core → Core) : (s.modCore c f).bbx = s.bbx := rfl
@[simp] theorem State.modCore_ident (c : CoreId) (f : Core → Core) : (s.modCore c f).ident = s.ident := rfl
@[simp] theorem State.modCore_flash (c : CoreId) (f : Core → Core) : (s.modCore c f).flash = s.flash := rfl
@[simp] theorem State.modCore_hm (c : CoreId) (f : Core → Core) : (s.modCore c f).hm = s.hm := rfl
@[simp] theorem State.modCore_host (c : CoreId) (f : Core → Core) : (s.modCore c f).host = s.host := rfl
@[simp] theorem State.modCore_sec (c : CoreId) (f : Core → Core) : (s.modCore c f).sec = s.sec := rfl
@[simp] theorem State.modCore_pwr (c : CoreId) (f : Core → Core) : (s.modCore c f).pwr = s.pwr := rfl
@[simp] theorem State.modCore_dbg (c : CoreId) (f : Core → Core) : (s.modCore c f).dbg = s.dbg := rfl
@[simp] theorem State.modCore_serv (c : CoreId) (f : Core → Core) : (s.modCore c f).serv = s.serv := rfl
@[simp] theorem State.modCore_plc (c : CoreId) (f : Core → Core) : (s.modCore c f).plc = s.plc := rfl
@[simp] theorem State.modCa_pending (c : CoreId) (f : CtrsA → CtrsA) : (s.modCa c f).pending = s.pending := rfl
@[simp] theorem State.modCa_free (c : CoreId) (f : CtrsA → CtrsA) : (s.modCa c f).free = s.free := rfl
@[simp] theorem State.modCa_mem (c : CoreId) (f : CtrsA → CtrsA) : (s.modCa c f).mem = s.mem := rfl
@[simp] theorem State.modCa_poison (c : CoreId) (f : CtrsA → CtrsA) : (s.modCa c f).poison = s.poison := rfl
@[simp] theorem State.modCa_flips (c : CoreId) (f : CtrsA → CtrsA) : (s.modCa c f).flips = s.flips := rfl
@[simp] theorem State.modCa_mesh (c : CoreId) (f : CtrsA → CtrsA) : (s.modCa c f).mesh = s.mesh := rfl
@[simp] theorem State.modCa_ms (c : CoreId) (f : CtrsA → CtrsA) : (s.modCa c f).ms = s.ms := rfl
@[simp] theorem State.modCa_fab (c : CoreId) (f : CtrsA → CtrsA) : (s.modCa c f).fab = s.fab := rfl
@[simp] theorem State.modCa_bbx (c : CoreId) (f : CtrsA → CtrsA) : (s.modCa c f).bbx = s.bbx := rfl
@[simp] theorem State.modCa_ident (c : CoreId) (f : CtrsA → CtrsA) : (s.modCa c f).ident = s.ident := rfl
@[simp] theorem State.modCa_flash (c : CoreId) (f : CtrsA → CtrsA) : (s.modCa c f).flash = s.flash := rfl
@[simp] theorem State.modCa_hm (c : CoreId) (f : CtrsA → CtrsA) : (s.modCa c f).hm = s.hm := rfl
@[simp] theorem State.modCa_host (c : CoreId) (f : CtrsA → CtrsA) : (s.modCa c f).host = s.host := rfl
@[simp] theorem State.modCa_sec (c : CoreId) (f : CtrsA → CtrsA) : (s.modCa c f).sec = s.sec := rfl
@[simp] theorem State.modCa_pwr (c : CoreId) (f : CtrsA → CtrsA) : (s.modCa c f).pwr = s.pwr := rfl
@[simp] theorem State.modCa_dbg (c : CoreId) (f : CtrsA → CtrsA) : (s.modCa c f).dbg = s.dbg := rfl
@[simp] theorem State.modCa_serv (c : CoreId) (f : CtrsA → CtrsA) : (s.modCa c f).serv = s.serv := rfl
@[simp] theorem State.modCa_plc (c : CoreId) (f : CtrsA → CtrsA) : (s.modCa c f).plc = s.plc := rfl
@[simp] theorem State.modCb_pending (c : CoreId) (f : CtrsB → CtrsB) : (s.modCb c f).pending = s.pending := rfl
@[simp] theorem State.modCb_free (c : CoreId) (f : CtrsB → CtrsB) : (s.modCb c f).free = s.free := rfl
@[simp] theorem State.modCb_mem (c : CoreId) (f : CtrsB → CtrsB) : (s.modCb c f).mem = s.mem := rfl
@[simp] theorem State.modCb_poison (c : CoreId) (f : CtrsB → CtrsB) : (s.modCb c f).poison = s.poison := rfl
@[simp] theorem State.modCb_flips (c : CoreId) (f : CtrsB → CtrsB) : (s.modCb c f).flips = s.flips := rfl
@[simp] theorem State.modCb_mesh (c : CoreId) (f : CtrsB → CtrsB) : (s.modCb c f).mesh = s.mesh := rfl
@[simp] theorem State.modCb_ms (c : CoreId) (f : CtrsB → CtrsB) : (s.modCb c f).ms = s.ms := rfl
@[simp] theorem State.modCb_fab (c : CoreId) (f : CtrsB → CtrsB) : (s.modCb c f).fab = s.fab := rfl
@[simp] theorem State.modCb_bbx (c : CoreId) (f : CtrsB → CtrsB) : (s.modCb c f).bbx = s.bbx := rfl
@[simp] theorem State.modCb_ident (c : CoreId) (f : CtrsB → CtrsB) : (s.modCb c f).ident = s.ident := rfl
@[simp] theorem State.modCb_flash (c : CoreId) (f : CtrsB → CtrsB) : (s.modCb c f).flash = s.flash := rfl
@[simp] theorem State.modCb_hm (c : CoreId) (f : CtrsB → CtrsB) : (s.modCb c f).hm = s.hm := rfl
@[simp] theorem State.modCb_host (c : CoreId) (f : CtrsB → CtrsB) : (s.modCb c f).host = s.host := rfl
@[simp] theorem State.modCb_sec (c : CoreId) (f : CtrsB → CtrsB) : (s.modCb c f).sec = s.sec := rfl
@[simp] theorem State.modCb_pwr (c : CoreId) (f : CtrsB → CtrsB) : (s.modCb c f).pwr = s.pwr := rfl
@[simp] theorem State.modCb_dbg (c : CoreId) (f : CtrsB → CtrsB) : (s.modCb c f).dbg = s.dbg := rfl
@[simp] theorem State.modCb_serv (c : CoreId) (f : CtrsB → CtrsB) : (s.modCb c f).serv = s.serv := rfl
@[simp] theorem State.modCb_plc (c : CoreId) (f : CtrsB → CtrsB) : (s.modCb c f).plc = s.plc := rfl
@[simp] theorem State.modSeq_pending (c : CoreId) (f : Seq → Seq) : (s.modSeq c f).pending = s.pending := rfl
@[simp] theorem State.modSeq_free (c : CoreId) (f : Seq → Seq) : (s.modSeq c f).free = s.free := rfl
@[simp] theorem State.modSeq_mem (c : CoreId) (f : Seq → Seq) : (s.modSeq c f).mem = s.mem := rfl
@[simp] theorem State.modSeq_poison (c : CoreId) (f : Seq → Seq) : (s.modSeq c f).poison = s.poison := rfl
@[simp] theorem State.modSeq_flips (c : CoreId) (f : Seq → Seq) : (s.modSeq c f).flips = s.flips := rfl
@[simp] theorem State.modSeq_mesh (c : CoreId) (f : Seq → Seq) : (s.modSeq c f).mesh = s.mesh := rfl
@[simp] theorem State.modSeq_ms (c : CoreId) (f : Seq → Seq) : (s.modSeq c f).ms = s.ms := rfl
@[simp] theorem State.modSeq_fab (c : CoreId) (f : Seq → Seq) : (s.modSeq c f).fab = s.fab := rfl
@[simp] theorem State.modSeq_bbx (c : CoreId) (f : Seq → Seq) : (s.modSeq c f).bbx = s.bbx := rfl
@[simp] theorem State.modSeq_ident (c : CoreId) (f : Seq → Seq) : (s.modSeq c f).ident = s.ident := rfl
@[simp] theorem State.modSeq_flash (c : CoreId) (f : Seq → Seq) : (s.modSeq c f).flash = s.flash := rfl
@[simp] theorem State.modSeq_hm (c : CoreId) (f : Seq → Seq) : (s.modSeq c f).hm = s.hm := rfl
@[simp] theorem State.modSeq_host (c : CoreId) (f : Seq → Seq) : (s.modSeq c f).host = s.host := rfl
@[simp] theorem State.modSeq_sec (c : CoreId) (f : Seq → Seq) : (s.modSeq c f).sec = s.sec := rfl
@[simp] theorem State.modSeq_pwr (c : CoreId) (f : Seq → Seq) : (s.modSeq c f).pwr = s.pwr := rfl
@[simp] theorem State.modSeq_dbg (c : CoreId) (f : Seq → Seq) : (s.modSeq c f).dbg = s.dbg := rfl
@[simp] theorem State.modSeq_serv (c : CoreId) (f : Seq → Seq) : (s.modSeq c f).serv = s.serv := rfl
@[simp] theorem State.modSeq_plc (c : CoreId) (f : Seq → Seq) : (s.modSeq c f).plc = s.plc := rfl
@[simp] theorem State.modDqu_pending (c : CoreId) (f : Dqu → Dqu) : (s.modDqu c f).pending = s.pending := rfl
@[simp] theorem State.modDqu_free (c : CoreId) (f : Dqu → Dqu) : (s.modDqu c f).free = s.free := rfl
@[simp] theorem State.modDqu_mem (c : CoreId) (f : Dqu → Dqu) : (s.modDqu c f).mem = s.mem := rfl
@[simp] theorem State.modDqu_poison (c : CoreId) (f : Dqu → Dqu) : (s.modDqu c f).poison = s.poison := rfl
@[simp] theorem State.modDqu_flips (c : CoreId) (f : Dqu → Dqu) : (s.modDqu c f).flips = s.flips := rfl
@[simp] theorem State.modDqu_mesh (c : CoreId) (f : Dqu → Dqu) : (s.modDqu c f).mesh = s.mesh := rfl
@[simp] theorem State.modDqu_ms (c : CoreId) (f : Dqu → Dqu) : (s.modDqu c f).ms = s.ms := rfl
@[simp] theorem State.modDqu_fab (c : CoreId) (f : Dqu → Dqu) : (s.modDqu c f).fab = s.fab := rfl
@[simp] theorem State.modDqu_bbx (c : CoreId) (f : Dqu → Dqu) : (s.modDqu c f).bbx = s.bbx := rfl
@[simp] theorem State.modDqu_ident (c : CoreId) (f : Dqu → Dqu) : (s.modDqu c f).ident = s.ident := rfl
@[simp] theorem State.modDqu_flash (c : CoreId) (f : Dqu → Dqu) : (s.modDqu c f).flash = s.flash := rfl
@[simp] theorem State.modDqu_hm (c : CoreId) (f : Dqu → Dqu) : (s.modDqu c f).hm = s.hm := rfl
@[simp] theorem State.modDqu_host (c : CoreId) (f : Dqu → Dqu) : (s.modDqu c f).host = s.host := rfl
@[simp] theorem State.modDqu_sec (c : CoreId) (f : Dqu → Dqu) : (s.modDqu c f).sec = s.sec := rfl
@[simp] theorem State.modDqu_pwr (c : CoreId) (f : Dqu → Dqu) : (s.modDqu c f).pwr = s.pwr := rfl
@[simp] theorem State.modDqu_dbg (c : CoreId) (f : Dqu → Dqu) : (s.modDqu c f).dbg = s.dbg := rfl
@[simp] theorem State.modDqu_serv (c : CoreId) (f : Dqu → Dqu) : (s.modDqu c f).serv = s.serv := rfl
@[simp] theorem State.modDqu_plc (c : CoreId) (f : Dqu → Dqu) : (s.modDqu c f).plc = s.plc := rfl
@[simp] theorem State.raise_pending (c : CoreId) (f : FaultReq) : (s.raise c f).pending = s.pending := rfl
@[simp] theorem State.raise_free (c : CoreId) (f : FaultReq) : (s.raise c f).free = s.free := rfl
@[simp] theorem State.raise_mem (c : CoreId) (f : FaultReq) : (s.raise c f).mem = s.mem := rfl
@[simp] theorem State.raise_poison (c : CoreId) (f : FaultReq) : (s.raise c f).poison = s.poison := rfl
@[simp] theorem State.raise_flips (c : CoreId) (f : FaultReq) : (s.raise c f).flips = s.flips := rfl
@[simp] theorem State.raise_mesh (c : CoreId) (f : FaultReq) : (s.raise c f).mesh = s.mesh := rfl
@[simp] theorem State.raise_ms (c : CoreId) (f : FaultReq) : (s.raise c f).ms = s.ms := rfl
@[simp] theorem State.raise_fab (c : CoreId) (f : FaultReq) : (s.raise c f).fab = s.fab := rfl
@[simp] theorem State.raise_bbx (c : CoreId) (f : FaultReq) : (s.raise c f).bbx = s.bbx := rfl
@[simp] theorem State.raise_ident (c : CoreId) (f : FaultReq) : (s.raise c f).ident = s.ident := rfl
@[simp] theorem State.raise_flash (c : CoreId) (f : FaultReq) : (s.raise c f).flash = s.flash := rfl
@[simp] theorem State.raise_hm (c : CoreId) (f : FaultReq) : (s.raise c f).hm = s.hm := rfl
@[simp] theorem State.raise_host (c : CoreId) (f : FaultReq) : (s.raise c f).host = s.host := rfl
@[simp] theorem State.raise_sec (c : CoreId) (f : FaultReq) : (s.raise c f).sec = s.sec := rfl
@[simp] theorem State.raise_pwr (c : CoreId) (f : FaultReq) : (s.raise c f).pwr = s.pwr := rfl
@[simp] theorem State.raise_dbg (c : CoreId) (f : FaultReq) : (s.raise c f).dbg = s.dbg := rfl
@[simp] theorem State.raise_serv (c : CoreId) (f : FaultReq) : (s.raise c f).serv = s.serv := rfl
@[simp] theorem State.raise_plc (c : CoreId) (f : FaultReq) : (s.raise c f).plc = s.plc := rfl
@[simp] theorem State.setQ_pending (c : CoreId) (q : Nat) (h : HQueue) : (s.setQ c q h).pending = s.pending := rfl
@[simp] theorem State.setQ_free (c : CoreId) (q : Nat) (h : HQueue) : (s.setQ c q h).free = s.free := rfl
@[simp] theorem State.setQ_mem (c : CoreId) (q : Nat) (h : HQueue) : (s.setQ c q h).mem = s.mem := rfl
@[simp] theorem State.setQ_poison (c : CoreId) (q : Nat) (h : HQueue) : (s.setQ c q h).poison = s.poison := rfl
@[simp] theorem State.setQ_flips (c : CoreId) (q : Nat) (h : HQueue) : (s.setQ c q h).flips = s.flips := rfl
@[simp] theorem State.setQ_mesh (c : CoreId) (q : Nat) (h : HQueue) : (s.setQ c q h).mesh = s.mesh := rfl
@[simp] theorem State.setQ_ms (c : CoreId) (q : Nat) (h : HQueue) : (s.setQ c q h).ms = s.ms := rfl
@[simp] theorem State.setQ_fab (c : CoreId) (q : Nat) (h : HQueue) : (s.setQ c q h).fab = s.fab := rfl
@[simp] theorem State.setQ_bbx (c : CoreId) (q : Nat) (h : HQueue) : (s.setQ c q h).bbx = s.bbx := rfl
@[simp] theorem State.setQ_ident (c : CoreId) (q : Nat) (h : HQueue) : (s.setQ c q h).ident = s.ident := rfl
@[simp] theorem State.setQ_flash (c : CoreId) (q : Nat) (h : HQueue) : (s.setQ c q h).flash = s.flash := rfl
@[simp] theorem State.setQ_hm (c : CoreId) (q : Nat) (h : HQueue) : (s.setQ c q h).hm = s.hm := rfl
@[simp] theorem State.setQ_host (c : CoreId) (q : Nat) (h : HQueue) : (s.setQ c q h).host = s.host := rfl
@[simp] theorem State.setQ_sec (c : CoreId) (q : Nat) (h : HQueue) : (s.setQ c q h).sec = s.sec := rfl
@[simp] theorem State.setQ_pwr (c : CoreId) (q : Nat) (h : HQueue) : (s.setQ c q h).pwr = s.pwr := rfl
@[simp] theorem State.setQ_dbg (c : CoreId) (q : Nat) (h : HQueue) : (s.setQ c q h).dbg = s.dbg := rfl
@[simp] theorem State.setQ_serv (c : CoreId) (q : Nat) (h : HQueue) : (s.setQ c q h).serv = s.serv := rfl
@[simp] theorem State.setQ_plc (c : CoreId) (q : Nat) (h : HQueue) : (s.setQ c q h).plc = s.plc := rfl
@[simp] theorem State.modXfer_pending (c : CoreId) (n : Nat) (f : Transfer → Transfer) : (s.modXfer c n f).pending = s.pending := rfl
@[simp] theorem State.modXfer_free (c : CoreId) (n : Nat) (f : Transfer → Transfer) : (s.modXfer c n f).free = s.free := rfl
@[simp] theorem State.modXfer_mem (c : CoreId) (n : Nat) (f : Transfer → Transfer) : (s.modXfer c n f).mem = s.mem := rfl
@[simp] theorem State.modXfer_poison (c : CoreId) (n : Nat) (f : Transfer → Transfer) : (s.modXfer c n f).poison = s.poison := rfl
@[simp] theorem State.modXfer_flips (c : CoreId) (n : Nat) (f : Transfer → Transfer) : (s.modXfer c n f).flips = s.flips := rfl
@[simp] theorem State.modXfer_mesh (c : CoreId) (n : Nat) (f : Transfer → Transfer) : (s.modXfer c n f).mesh = s.mesh := rfl
@[simp] theorem State.modXfer_ms (c : CoreId) (n : Nat) (f : Transfer → Transfer) : (s.modXfer c n f).ms = s.ms := rfl
@[simp] theorem State.modXfer_fab (c : CoreId) (n : Nat) (f : Transfer → Transfer) : (s.modXfer c n f).fab = s.fab := rfl
@[simp] theorem State.modXfer_bbx (c : CoreId) (n : Nat) (f : Transfer → Transfer) : (s.modXfer c n f).bbx = s.bbx := rfl
@[simp] theorem State.modXfer_ident (c : CoreId) (n : Nat) (f : Transfer → Transfer) : (s.modXfer c n f).ident = s.ident := rfl
@[simp] theorem State.modXfer_flash (c : CoreId) (n : Nat) (f : Transfer → Transfer) : (s.modXfer c n f).flash = s.flash := rfl
@[simp] theorem State.modXfer_hm (c : CoreId) (n : Nat) (f : Transfer → Transfer) : (s.modXfer c n f).hm = s.hm := rfl
@[simp] theorem State.modXfer_host (c : CoreId) (n : Nat) (f : Transfer → Transfer) : (s.modXfer c n f).host = s.host := rfl
@[simp] theorem State.modXfer_sec (c : CoreId) (n : Nat) (f : Transfer → Transfer) : (s.modXfer c n f).sec = s.sec := rfl
@[simp] theorem State.modXfer_pwr (c : CoreId) (n : Nat) (f : Transfer → Transfer) : (s.modXfer c n f).pwr = s.pwr := rfl
@[simp] theorem State.modXfer_dbg (c : CoreId) (n : Nat) (f : Transfer → Transfer) : (s.modXfer c n f).dbg = s.dbg := rfl
@[simp] theorem State.modXfer_serv (c : CoreId) (n : Nat) (f : Transfer → Transfer) : (s.modXfer c n f).serv = s.serv := rfl
@[simp] theorem State.modXfer_plc (c : CoreId) (n : Nat) (f : Transfer → Transfer) : (s.modXfer c n f).plc = s.plc := rfl
@[simp] theorem State.modBank_pending (c : CoreId) (n : Nat) (f : RtBank → RtBank) : (s.modBank c n f).pending = s.pending := rfl
@[simp] theorem State.modBank_free (c : CoreId) (n : Nat) (f : RtBank → RtBank) : (s.modBank c n f).free = s.free := rfl
@[simp] theorem State.modBank_mem (c : CoreId) (n : Nat) (f : RtBank → RtBank) : (s.modBank c n f).mem = s.mem := rfl
@[simp] theorem State.modBank_poison (c : CoreId) (n : Nat) (f : RtBank → RtBank) : (s.modBank c n f).poison = s.poison := rfl
@[simp] theorem State.modBank_flips (c : CoreId) (n : Nat) (f : RtBank → RtBank) : (s.modBank c n f).flips = s.flips := rfl
@[simp] theorem State.modBank_mesh (c : CoreId) (n : Nat) (f : RtBank → RtBank) : (s.modBank c n f).mesh = s.mesh := rfl
@[simp] theorem State.modBank_ms (c : CoreId) (n : Nat) (f : RtBank → RtBank) : (s.modBank c n f).ms = s.ms := rfl
@[simp] theorem State.modBank_fab (c : CoreId) (n : Nat) (f : RtBank → RtBank) : (s.modBank c n f).fab = s.fab := rfl
@[simp] theorem State.modBank_bbx (c : CoreId) (n : Nat) (f : RtBank → RtBank) : (s.modBank c n f).bbx = s.bbx := rfl
@[simp] theorem State.modBank_ident (c : CoreId) (n : Nat) (f : RtBank → RtBank) : (s.modBank c n f).ident = s.ident := rfl
@[simp] theorem State.modBank_flash (c : CoreId) (n : Nat) (f : RtBank → RtBank) : (s.modBank c n f).flash = s.flash := rfl
@[simp] theorem State.modBank_hm (c : CoreId) (n : Nat) (f : RtBank → RtBank) : (s.modBank c n f).hm = s.hm := rfl
@[simp] theorem State.modBank_host (c : CoreId) (n : Nat) (f : RtBank → RtBank) : (s.modBank c n f).host = s.host := rfl
@[simp] theorem State.modBank_sec (c : CoreId) (n : Nat) (f : RtBank → RtBank) : (s.modBank c n f).sec = s.sec := rfl
@[simp] theorem State.modBank_pwr (c : CoreId) (n : Nat) (f : RtBank → RtBank) : (s.modBank c n f).pwr = s.pwr := rfl
@[simp] theorem State.modBank_dbg (c : CoreId) (n : Nat) (f : RtBank → RtBank) : (s.modBank c n f).dbg = s.dbg := rfl
@[simp] theorem State.modBank_serv (c : CoreId) (n : Nat) (f : RtBank → RtBank) : (s.modBank c n f).serv = s.serv := rfl
@[simp] theorem State.modBank_plc (c : CoreId) (n : Nat) (f : RtBank → RtBank) : (s.modBank c n f).plc = s.plc := rfl

/-! ## Updates of mem and poison and flips -/

@[simp] theorem State.wrBytes_pending (key : Nat) (bs : List Byte) : (s.wrBytes key bs).pending = s.pending := rfl
@[simp] theorem State.wrBytes_free (key : Nat) (bs : List Byte) : (s.wrBytes key bs).free = s.free := rfl
@[simp] theorem State.wrBytes_cores (key : Nat) (bs : List Byte) : (s.wrBytes key bs).cores = s.cores := rfl
@[simp] theorem State.wrBytes_mesh (key : Nat) (bs : List Byte) : (s.wrBytes key bs).mesh = s.mesh := rfl
@[simp] theorem State.wrBytes_ms (key : Nat) (bs : List Byte) : (s.wrBytes key bs).ms = s.ms := rfl
@[simp] theorem State.wrBytes_fab (key : Nat) (bs : List Byte) : (s.wrBytes key bs).fab = s.fab := rfl
@[simp] theorem State.wrBytes_bbx (key : Nat) (bs : List Byte) : (s.wrBytes key bs).bbx = s.bbx := rfl
@[simp] theorem State.wrBytes_ident (key : Nat) (bs : List Byte) : (s.wrBytes key bs).ident = s.ident := rfl
@[simp] theorem State.wrBytes_flash (key : Nat) (bs : List Byte) : (s.wrBytes key bs).flash = s.flash := rfl
@[simp] theorem State.wrBytes_hm (key : Nat) (bs : List Byte) : (s.wrBytes key bs).hm = s.hm := rfl
@[simp] theorem State.wrBytes_host (key : Nat) (bs : List Byte) : (s.wrBytes key bs).host = s.host := rfl
@[simp] theorem State.wrBytes_sec (key : Nat) (bs : List Byte) : (s.wrBytes key bs).sec = s.sec := rfl
@[simp] theorem State.wrBytes_pwr (key : Nat) (bs : List Byte) : (s.wrBytes key bs).pwr = s.pwr := rfl
@[simp] theorem State.wrBytes_dbg (key : Nat) (bs : List Byte) : (s.wrBytes key bs).dbg = s.dbg := rfl
@[simp] theorem State.wrBytes_serv (key : Nat) (bs : List Byte) : (s.wrBytes key bs).serv = s.serv := rfl
@[simp] theorem State.wrBytes_plc (key : Nat) (bs : List Byte) : (s.wrBytes key bs).plc = s.plc := rfl
@[simp] theorem State.wr_pending (key n x : Nat) : (s.wr key n x).pending = s.pending := rfl
@[simp] theorem State.wr_free (key n x : Nat) : (s.wr key n x).free = s.free := rfl
@[simp] theorem State.wr_cores (key n x : Nat) : (s.wr key n x).cores = s.cores := rfl
@[simp] theorem State.wr_mesh (key n x : Nat) : (s.wr key n x).mesh = s.mesh := rfl
@[simp] theorem State.wr_ms (key n x : Nat) : (s.wr key n x).ms = s.ms := rfl
@[simp] theorem State.wr_fab (key n x : Nat) : (s.wr key n x).fab = s.fab := rfl
@[simp] theorem State.wr_bbx (key n x : Nat) : (s.wr key n x).bbx = s.bbx := rfl
@[simp] theorem State.wr_ident (key n x : Nat) : (s.wr key n x).ident = s.ident := rfl
@[simp] theorem State.wr_flash (key n x : Nat) : (s.wr key n x).flash = s.flash := rfl
@[simp] theorem State.wr_hm (key n x : Nat) : (s.wr key n x).hm = s.hm := rfl
@[simp] theorem State.wr_host (key n x : Nat) : (s.wr key n x).host = s.host := rfl
@[simp] theorem State.wr_sec (key n x : Nat) : (s.wr key n x).sec = s.sec := rfl
@[simp] theorem State.wr_pwr (key n x : Nat) : (s.wr key n x).pwr = s.pwr := rfl
@[simp] theorem State.wr_dbg (key n x : Nat) : (s.wr key n x).dbg = s.dbg := rfl
@[simp] theorem State.wr_serv (key n x : Nat) : (s.wr key n x).serv = s.serv := rfl
@[simp] theorem State.wr_plc (key n x : Nat) : (s.wr key n x).plc = s.plc := rfl
@[simp] theorem State.spWr_pending (c : CoreId) (off n x : Nat) : (s.spWr c off n x).pending = s.pending := rfl
@[simp] theorem State.spWr_free (c : CoreId) (off n x : Nat) : (s.spWr c off n x).free = s.free := rfl
@[simp] theorem State.spWr_cores (c : CoreId) (off n x : Nat) : (s.spWr c off n x).cores = s.cores := rfl
@[simp] theorem State.spWr_mesh (c : CoreId) (off n x : Nat) : (s.spWr c off n x).mesh = s.mesh := rfl
@[simp] theorem State.spWr_ms (c : CoreId) (off n x : Nat) : (s.spWr c off n x).ms = s.ms := rfl
@[simp] theorem State.spWr_fab (c : CoreId) (off n x : Nat) : (s.spWr c off n x).fab = s.fab := rfl
@[simp] theorem State.spWr_bbx (c : CoreId) (off n x : Nat) : (s.spWr c off n x).bbx = s.bbx := rfl
@[simp] theorem State.spWr_ident (c : CoreId) (off n x : Nat) : (s.spWr c off n x).ident = s.ident := rfl
@[simp] theorem State.spWr_flash (c : CoreId) (off n x : Nat) : (s.spWr c off n x).flash = s.flash := rfl
@[simp] theorem State.spWr_hm (c : CoreId) (off n x : Nat) : (s.spWr c off n x).hm = s.hm := rfl
@[simp] theorem State.spWr_host (c : CoreId) (off n x : Nat) : (s.spWr c off n x).host = s.host := rfl
@[simp] theorem State.spWr_sec (c : CoreId) (off n x : Nat) : (s.spWr c off n x).sec = s.sec := rfl
@[simp] theorem State.spWr_pwr (c : CoreId) (off n x : Nat) : (s.spWr c off n x).pwr = s.pwr := rfl
@[simp] theorem State.spWr_dbg (c : CoreId) (off n x : Nat) : (s.spWr c off n x).dbg = s.dbg := rfl
@[simp] theorem State.spWr_serv (c : CoreId) (off n x : Nat) : (s.spWr c off n x).serv = s.serv := rfl
@[simp] theorem State.spWr_plc (c : CoreId) (off n x : Nat) : (s.spWr c off n x).plc = s.plc := rfl

/-! ## Updates of bbx -/

@[simp] theorem State.note_pending (code cls skind sidx : Nat) (h : W32) (tn : Nat) (p : List W64) : (s.note code cls skind sidx h tn p).pending = s.pending := rfl
@[simp] theorem State.note_free (code cls skind sidx : Nat) (h : W32) (tn : Nat) (p : List W64) : (s.note code cls skind sidx h tn p).free = s.free := rfl
@[simp] theorem State.note_cores (code cls skind sidx : Nat) (h : W32) (tn : Nat) (p : List W64) : (s.note code cls skind sidx h tn p).cores = s.cores := rfl
@[simp] theorem State.note_mem (code cls skind sidx : Nat) (h : W32) (tn : Nat) (p : List W64) : (s.note code cls skind sidx h tn p).mem = s.mem := rfl
@[simp] theorem State.note_poison (code cls skind sidx : Nat) (h : W32) (tn : Nat) (p : List W64) : (s.note code cls skind sidx h tn p).poison = s.poison := rfl
@[simp] theorem State.note_flips (code cls skind sidx : Nat) (h : W32) (tn : Nat) (p : List W64) : (s.note code cls skind sidx h tn p).flips = s.flips := rfl
@[simp] theorem State.note_mesh (code cls skind sidx : Nat) (h : W32) (tn : Nat) (p : List W64) : (s.note code cls skind sidx h tn p).mesh = s.mesh := rfl
@[simp] theorem State.note_ms (code cls skind sidx : Nat) (h : W32) (tn : Nat) (p : List W64) : (s.note code cls skind sidx h tn p).ms = s.ms := rfl
@[simp] theorem State.note_fab (code cls skind sidx : Nat) (h : W32) (tn : Nat) (p : List W64) : (s.note code cls skind sidx h tn p).fab = s.fab := rfl
@[simp] theorem State.note_ident (code cls skind sidx : Nat) (h : W32) (tn : Nat) (p : List W64) : (s.note code cls skind sidx h tn p).ident = s.ident := rfl
@[simp] theorem State.note_flash (code cls skind sidx : Nat) (h : W32) (tn : Nat) (p : List W64) : (s.note code cls skind sidx h tn p).flash = s.flash := rfl
@[simp] theorem State.note_hm (code cls skind sidx : Nat) (h : W32) (tn : Nat) (p : List W64) : (s.note code cls skind sidx h tn p).hm = s.hm := rfl
@[simp] theorem State.note_host (code cls skind sidx : Nat) (h : W32) (tn : Nat) (p : List W64) : (s.note code cls skind sidx h tn p).host = s.host := rfl
@[simp] theorem State.note_sec (code cls skind sidx : Nat) (h : W32) (tn : Nat) (p : List W64) : (s.note code cls skind sidx h tn p).sec = s.sec := rfl
@[simp] theorem State.note_pwr (code cls skind sidx : Nat) (h : W32) (tn : Nat) (p : List W64) : (s.note code cls skind sidx h tn p).pwr = s.pwr := rfl
@[simp] theorem State.note_dbg (code cls skind sidx : Nat) (h : W32) (tn : Nat) (p : List W64) : (s.note code cls skind sidx h tn p).dbg = s.dbg := rfl
@[simp] theorem State.note_serv (code cls skind sidx : Nat) (h : W32) (tn : Nat) (p : List W64) : (s.note code cls skind sidx h tn p).serv = s.serv := rfl
@[simp] theorem State.note_plc (code cls skind sidx : Nat) (h : W32) (tn : Nat) (p : List W64) : (s.note code cls skind sidx h tn p).plc = s.plc := rfl
@[simp] theorem State.pwrEvent_pending (code : Nat) (p : List W64) : (s.pwrEvent code p).pending = s.pending := rfl
@[simp] theorem State.pwrEvent_free (code : Nat) (p : List W64) : (s.pwrEvent code p).free = s.free := rfl
@[simp] theorem State.pwrEvent_cores (code : Nat) (p : List W64) : (s.pwrEvent code p).cores = s.cores := rfl
@[simp] theorem State.pwrEvent_mem (code : Nat) (p : List W64) : (s.pwrEvent code p).mem = s.mem := rfl
@[simp] theorem State.pwrEvent_poison (code : Nat) (p : List W64) : (s.pwrEvent code p).poison = s.poison := rfl
@[simp] theorem State.pwrEvent_flips (code : Nat) (p : List W64) : (s.pwrEvent code p).flips = s.flips := rfl
@[simp] theorem State.pwrEvent_mesh (code : Nat) (p : List W64) : (s.pwrEvent code p).mesh = s.mesh := rfl
@[simp] theorem State.pwrEvent_ms (code : Nat) (p : List W64) : (s.pwrEvent code p).ms = s.ms := rfl
@[simp] theorem State.pwrEvent_fab (code : Nat) (p : List W64) : (s.pwrEvent code p).fab = s.fab := rfl
@[simp] theorem State.pwrEvent_ident (code : Nat) (p : List W64) : (s.pwrEvent code p).ident = s.ident := rfl
@[simp] theorem State.pwrEvent_flash (code : Nat) (p : List W64) : (s.pwrEvent code p).flash = s.flash := rfl
@[simp] theorem State.pwrEvent_hm (code : Nat) (p : List W64) : (s.pwrEvent code p).hm = s.hm := rfl
@[simp] theorem State.pwrEvent_host (code : Nat) (p : List W64) : (s.pwrEvent code p).host = s.host := rfl
@[simp] theorem State.pwrEvent_sec (code : Nat) (p : List W64) : (s.pwrEvent code p).sec = s.sec := rfl
@[simp] theorem State.pwrEvent_pwr (code : Nat) (p : List W64) : (s.pwrEvent code p).pwr = s.pwr := rfl
@[simp] theorem State.pwrEvent_dbg (code : Nat) (p : List W64) : (s.pwrEvent code p).dbg = s.dbg := rfl
@[simp] theorem State.pwrEvent_serv (code : Nat) (p : List W64) : (s.pwrEvent code p).serv = s.serv := rfl
@[simp] theorem State.pwrEvent_plc (code : Nat) (p : List W64) : (s.pwrEvent code p).plc = s.plc := rfl
@[simp] theorem State.putSlot_pending (q : W32) (x : BitVec 2048) : (s.putSlot q x).pending = s.pending := rfl
@[simp] theorem State.putSlot_free (q : W32) (x : BitVec 2048) : (s.putSlot q x).free = s.free := rfl
@[simp] theorem State.putSlot_cores (q : W32) (x : BitVec 2048) : (s.putSlot q x).cores = s.cores := rfl
@[simp] theorem State.putSlot_mem (q : W32) (x : BitVec 2048) : (s.putSlot q x).mem = s.mem := rfl
@[simp] theorem State.putSlot_poison (q : W32) (x : BitVec 2048) : (s.putSlot q x).poison = s.poison := rfl
@[simp] theorem State.putSlot_flips (q : W32) (x : BitVec 2048) : (s.putSlot q x).flips = s.flips := rfl
@[simp] theorem State.putSlot_mesh (q : W32) (x : BitVec 2048) : (s.putSlot q x).mesh = s.mesh := rfl
@[simp] theorem State.putSlot_ms (q : W32) (x : BitVec 2048) : (s.putSlot q x).ms = s.ms := rfl
@[simp] theorem State.putSlot_fab (q : W32) (x : BitVec 2048) : (s.putSlot q x).fab = s.fab := rfl
@[simp] theorem State.putSlot_ident (q : W32) (x : BitVec 2048) : (s.putSlot q x).ident = s.ident := rfl
@[simp] theorem State.putSlot_flash (q : W32) (x : BitVec 2048) : (s.putSlot q x).flash = s.flash := rfl
@[simp] theorem State.putSlot_hm (q : W32) (x : BitVec 2048) : (s.putSlot q x).hm = s.hm := rfl
@[simp] theorem State.putSlot_host (q : W32) (x : BitVec 2048) : (s.putSlot q x).host = s.host := rfl
@[simp] theorem State.putSlot_sec (q : W32) (x : BitVec 2048) : (s.putSlot q x).sec = s.sec := rfl
@[simp] theorem State.putSlot_pwr (q : W32) (x : BitVec 2048) : (s.putSlot q x).pwr = s.pwr := rfl
@[simp] theorem State.putSlot_dbg (q : W32) (x : BitVec 2048) : (s.putSlot q x).dbg = s.dbg := rfl
@[simp] theorem State.putSlot_serv (q : W32) (x : BitVec 2048) : (s.putSlot q x).serv = s.serv := rfl
@[simp] theorem State.putSlot_plc (q : W32) (x : BitVec 2048) : (s.putSlot q x).plc = s.plc := rfl
@[simp] theorem State.spi_pending (x : Option (List Byte)) : (s.spi x).pending = s.pending := rfl
@[simp] theorem State.spi_free (x : Option (List Byte)) : (s.spi x).free = s.free := rfl
@[simp] theorem State.spi_cores (x : Option (List Byte)) : (s.spi x).cores = s.cores := rfl
@[simp] theorem State.spi_mem (x : Option (List Byte)) : (s.spi x).mem = s.mem := rfl
@[simp] theorem State.spi_poison (x : Option (List Byte)) : (s.spi x).poison = s.poison := rfl
@[simp] theorem State.spi_flips (x : Option (List Byte)) : (s.spi x).flips = s.flips := rfl
@[simp] theorem State.spi_mesh (x : Option (List Byte)) : (s.spi x).mesh = s.mesh := rfl
@[simp] theorem State.spi_ms (x : Option (List Byte)) : (s.spi x).ms = s.ms := rfl
@[simp] theorem State.spi_fab (x : Option (List Byte)) : (s.spi x).fab = s.fab := rfl
@[simp] theorem State.spi_ident (x : Option (List Byte)) : (s.spi x).ident = s.ident := rfl
@[simp] theorem State.spi_flash (x : Option (List Byte)) : (s.spi x).flash = s.flash := rfl
@[simp] theorem State.spi_hm (x : Option (List Byte)) : (s.spi x).hm = s.hm := rfl
@[simp] theorem State.spi_host (x : Option (List Byte)) : (s.spi x).host = s.host := rfl
@[simp] theorem State.spi_sec (x : Option (List Byte)) : (s.spi x).sec = s.sec := rfl
@[simp] theorem State.spi_pwr (x : Option (List Byte)) : (s.spi x).pwr = s.pwr := rfl
@[simp] theorem State.spi_dbg (x : Option (List Byte)) : (s.spi x).dbg = s.dbg := rfl
@[simp] theorem State.spi_serv (x : Option (List Byte)) : (s.spi x).serv = s.serv := rfl
@[simp] theorem State.spi_plc (x : Option (List Byte)) : (s.spi x).plc = s.plc := rfl

/-! ## Updates of fab -/

@[simp] theorem State.setPort_pending (p : PortId) (f : FPort) : (s.setPort p f).pending = s.pending := rfl
@[simp] theorem State.setPort_free (p : PortId) (f : FPort) : (s.setPort p f).free = s.free := rfl
@[simp] theorem State.setPort_cores (p : PortId) (f : FPort) : (s.setPort p f).cores = s.cores := rfl
@[simp] theorem State.setPort_mem (p : PortId) (f : FPort) : (s.setPort p f).mem = s.mem := rfl
@[simp] theorem State.setPort_poison (p : PortId) (f : FPort) : (s.setPort p f).poison = s.poison := rfl
@[simp] theorem State.setPort_flips (p : PortId) (f : FPort) : (s.setPort p f).flips = s.flips := rfl
@[simp] theorem State.setPort_mesh (p : PortId) (f : FPort) : (s.setPort p f).mesh = s.mesh := rfl
@[simp] theorem State.setPort_ms (p : PortId) (f : FPort) : (s.setPort p f).ms = s.ms := rfl
@[simp] theorem State.setPort_bbx (p : PortId) (f : FPort) : (s.setPort p f).bbx = s.bbx := rfl
@[simp] theorem State.setPort_ident (p : PortId) (f : FPort) : (s.setPort p f).ident = s.ident := rfl
@[simp] theorem State.setPort_flash (p : PortId) (f : FPort) : (s.setPort p f).flash = s.flash := rfl
@[simp] theorem State.setPort_hm (p : PortId) (f : FPort) : (s.setPort p f).hm = s.hm := rfl
@[simp] theorem State.setPort_host (p : PortId) (f : FPort) : (s.setPort p f).host = s.host := rfl
@[simp] theorem State.setPort_sec (p : PortId) (f : FPort) : (s.setPort p f).sec = s.sec := rfl
@[simp] theorem State.setPort_pwr (p : PortId) (f : FPort) : (s.setPort p f).pwr = s.pwr := rfl
@[simp] theorem State.setPort_dbg (p : PortId) (f : FPort) : (s.setPort p f).dbg = s.dbg := rfl
@[simp] theorem State.setPort_serv (p : PortId) (f : FPort) : (s.setPort p f).serv = s.serv := rfl
@[simp] theorem State.setPort_plc (p : PortId) (f : FPort) : (s.setPort p f).plc = s.plc := rfl
@[simp] theorem State.modPort_pending (p : PortId) (f : FPort → FPort) : (s.modPort p f).pending = s.pending := rfl
@[simp] theorem State.modPort_free (p : PortId) (f : FPort → FPort) : (s.modPort p f).free = s.free := rfl
@[simp] theorem State.modPort_cores (p : PortId) (f : FPort → FPort) : (s.modPort p f).cores = s.cores := rfl
@[simp] theorem State.modPort_mem (p : PortId) (f : FPort → FPort) : (s.modPort p f).mem = s.mem := rfl
@[simp] theorem State.modPort_poison (p : PortId) (f : FPort → FPort) : (s.modPort p f).poison = s.poison := rfl
@[simp] theorem State.modPort_flips (p : PortId) (f : FPort → FPort) : (s.modPort p f).flips = s.flips := rfl
@[simp] theorem State.modPort_mesh (p : PortId) (f : FPort → FPort) : (s.modPort p f).mesh = s.mesh := rfl
@[simp] theorem State.modPort_ms (p : PortId) (f : FPort → FPort) : (s.modPort p f).ms = s.ms := rfl
@[simp] theorem State.modPort_bbx (p : PortId) (f : FPort → FPort) : (s.modPort p f).bbx = s.bbx := rfl
@[simp] theorem State.modPort_ident (p : PortId) (f : FPort → FPort) : (s.modPort p f).ident = s.ident := rfl
@[simp] theorem State.modPort_flash (p : PortId) (f : FPort → FPort) : (s.modPort p f).flash = s.flash := rfl
@[simp] theorem State.modPort_hm (p : PortId) (f : FPort → FPort) : (s.modPort p f).hm = s.hm := rfl
@[simp] theorem State.modPort_host (p : PortId) (f : FPort → FPort) : (s.modPort p f).host = s.host := rfl
@[simp] theorem State.modPort_sec (p : PortId) (f : FPort → FPort) : (s.modPort p f).sec = s.sec := rfl
@[simp] theorem State.modPort_pwr (p : PortId) (f : FPort → FPort) : (s.modPort p f).pwr = s.pwr := rfl
@[simp] theorem State.modPort_dbg (p : PortId) (f : FPort → FPort) : (s.modPort p f).dbg = s.dbg := rfl
@[simp] theorem State.modPort_serv (p : PortId) (f : FPort → FPort) : (s.modPort p f).serv = s.serv := rfl
@[simp] theorem State.modPort_plc (p : PortId) (f : FPort → FPort) : (s.modPort p f).plc = s.plc := rfl
@[simp] theorem State.queueFrames_pending (p : PortId) (v : Nat) (xs : List Frame) : (s.queueFrames p v xs).pending = s.pending := rfl
@[simp] theorem State.queueFrames_free (p : PortId) (v : Nat) (xs : List Frame) : (s.queueFrames p v xs).free = s.free := rfl
@[simp] theorem State.queueFrames_cores (p : PortId) (v : Nat) (xs : List Frame) : (s.queueFrames p v xs).cores = s.cores := rfl
@[simp] theorem State.queueFrames_mem (p : PortId) (v : Nat) (xs : List Frame) : (s.queueFrames p v xs).mem = s.mem := rfl
@[simp] theorem State.queueFrames_poison (p : PortId) (v : Nat) (xs : List Frame) : (s.queueFrames p v xs).poison = s.poison := rfl
@[simp] theorem State.queueFrames_flips (p : PortId) (v : Nat) (xs : List Frame) : (s.queueFrames p v xs).flips = s.flips := rfl
@[simp] theorem State.queueFrames_mesh (p : PortId) (v : Nat) (xs : List Frame) : (s.queueFrames p v xs).mesh = s.mesh := rfl
@[simp] theorem State.queueFrames_ms (p : PortId) (v : Nat) (xs : List Frame) : (s.queueFrames p v xs).ms = s.ms := rfl
@[simp] theorem State.queueFrames_bbx (p : PortId) (v : Nat) (xs : List Frame) : (s.queueFrames p v xs).bbx = s.bbx := rfl
@[simp] theorem State.queueFrames_ident (p : PortId) (v : Nat) (xs : List Frame) : (s.queueFrames p v xs).ident = s.ident := rfl
@[simp] theorem State.queueFrames_flash (p : PortId) (v : Nat) (xs : List Frame) : (s.queueFrames p v xs).flash = s.flash := rfl
@[simp] theorem State.queueFrames_hm (p : PortId) (v : Nat) (xs : List Frame) : (s.queueFrames p v xs).hm = s.hm := rfl
@[simp] theorem State.queueFrames_host (p : PortId) (v : Nat) (xs : List Frame) : (s.queueFrames p v xs).host = s.host := rfl
@[simp] theorem State.queueFrames_sec (p : PortId) (v : Nat) (xs : List Frame) : (s.queueFrames p v xs).sec = s.sec := rfl
@[simp] theorem State.queueFrames_pwr (p : PortId) (v : Nat) (xs : List Frame) : (s.queueFrames p v xs).pwr = s.pwr := rfl
@[simp] theorem State.queueFrames_dbg (p : PortId) (v : Nat) (xs : List Frame) : (s.queueFrames p v xs).dbg = s.dbg := rfl
@[simp] theorem State.queueFrames_serv (p : PortId) (v : Nat) (xs : List Frame) : (s.queueFrames p v xs).serv = s.serv := rfl
@[simp] theorem State.queueFrames_plc (p : PortId) (v : Nat) (xs : List Frame) : (s.queueFrames p v xs).plc = s.plc := rfl
@[simp] theorem State.modUp_pending (u : UplinkId) (f : UPort → UPort) : (s.modUp u f).pending = s.pending := rfl
@[simp] theorem State.modUp_free (u : UplinkId) (f : UPort → UPort) : (s.modUp u f).free = s.free := rfl
@[simp] theorem State.modUp_cores (u : UplinkId) (f : UPort → UPort) : (s.modUp u f).cores = s.cores := rfl
@[simp] theorem State.modUp_mem (u : UplinkId) (f : UPort → UPort) : (s.modUp u f).mem = s.mem := rfl
@[simp] theorem State.modUp_poison (u : UplinkId) (f : UPort → UPort) : (s.modUp u f).poison = s.poison := rfl
@[simp] theorem State.modUp_flips (u : UplinkId) (f : UPort → UPort) : (s.modUp u f).flips = s.flips := rfl
@[simp] theorem State.modUp_mesh (u : UplinkId) (f : UPort → UPort) : (s.modUp u f).mesh = s.mesh := rfl
@[simp] theorem State.modUp_ms (u : UplinkId) (f : UPort → UPort) : (s.modUp u f).ms = s.ms := rfl
@[simp] theorem State.modUp_bbx (u : UplinkId) (f : UPort → UPort) : (s.modUp u f).bbx = s.bbx := rfl
@[simp] theorem State.modUp_ident (u : UplinkId) (f : UPort → UPort) : (s.modUp u f).ident = s.ident := rfl
@[simp] theorem State.modUp_flash (u : UplinkId) (f : UPort → UPort) : (s.modUp u f).flash = s.flash := rfl
@[simp] theorem State.modUp_hm (u : UplinkId) (f : UPort → UPort) : (s.modUp u f).hm = s.hm := rfl
@[simp] theorem State.modUp_host (u : UplinkId) (f : UPort → UPort) : (s.modUp u f).host = s.host := rfl
@[simp] theorem State.modUp_sec (u : UplinkId) (f : UPort → UPort) : (s.modUp u f).sec = s.sec := rfl
@[simp] theorem State.modUp_pwr (u : UplinkId) (f : UPort → UPort) : (s.modUp u f).pwr = s.pwr := rfl
@[simp] theorem State.modUp_dbg (u : UplinkId) (f : UPort → UPort) : (s.modUp u f).dbg = s.dbg := rfl
@[simp] theorem State.modUp_serv (u : UplinkId) (f : UPort → UPort) : (s.modUp u f).serv = s.serv := rfl
@[simp] theorem State.modUp_plc (u : UplinkId) (f : UPort → UPort) : (s.modUp u f).plc = s.plc := rfl
@[simp] theorem State.setFlow_pending (g : UFlow) : (s.setFlow g).pending = s.pending := rfl
@[simp] theorem State.setFlow_free (g : UFlow) : (s.setFlow g).free = s.free := rfl
@[simp] theorem State.setFlow_cores (g : UFlow) : (s.setFlow g).cores = s.cores := rfl
@[simp] theorem State.setFlow_mem (g : UFlow) : (s.setFlow g).mem = s.mem := rfl
@[simp] theorem State.setFlow_poison (g : UFlow) : (s.setFlow g).poison = s.poison := rfl
@[simp] theorem State.setFlow_flips (g : UFlow) : (s.setFlow g).flips = s.flips := rfl
@[simp] theorem State.setFlow_mesh (g : UFlow) : (s.setFlow g).mesh = s.mesh := rfl
@[simp] theorem State.setFlow_ms (g : UFlow) : (s.setFlow g).ms = s.ms := rfl
@[simp] theorem State.setFlow_bbx (g : UFlow) : (s.setFlow g).bbx = s.bbx := rfl
@[simp] theorem State.setFlow_ident (g : UFlow) : (s.setFlow g).ident = s.ident := rfl
@[simp] theorem State.setFlow_flash (g : UFlow) : (s.setFlow g).flash = s.flash := rfl
@[simp] theorem State.setFlow_hm (g : UFlow) : (s.setFlow g).hm = s.hm := rfl
@[simp] theorem State.setFlow_host (g : UFlow) : (s.setFlow g).host = s.host := rfl
@[simp] theorem State.setFlow_sec (g : UFlow) : (s.setFlow g).sec = s.sec := rfl
@[simp] theorem State.setFlow_pwr (g : UFlow) : (s.setFlow g).pwr = s.pwr := rfl
@[simp] theorem State.setFlow_dbg (g : UFlow) : (s.setFlow g).dbg = s.dbg := rfl
@[simp] theorem State.setFlow_serv (g : UFlow) : (s.setFlow g).serv = s.serv := rfl
@[simp] theorem State.setFlow_plc (g : UFlow) : (s.setFlow g).plc = s.plc := rfl
@[simp] theorem State.dropFlow_pending (n : W32) : (s.dropFlow n).pending = s.pending := rfl
@[simp] theorem State.dropFlow_free (n : W32) : (s.dropFlow n).free = s.free := rfl
@[simp] theorem State.dropFlow_cores (n : W32) : (s.dropFlow n).cores = s.cores := rfl
@[simp] theorem State.dropFlow_mem (n : W32) : (s.dropFlow n).mem = s.mem := rfl
@[simp] theorem State.dropFlow_poison (n : W32) : (s.dropFlow n).poison = s.poison := rfl
@[simp] theorem State.dropFlow_flips (n : W32) : (s.dropFlow n).flips = s.flips := rfl
@[simp] theorem State.dropFlow_mesh (n : W32) : (s.dropFlow n).mesh = s.mesh := rfl
@[simp] theorem State.dropFlow_ms (n : W32) : (s.dropFlow n).ms = s.ms := rfl
@[simp] theorem State.dropFlow_bbx (n : W32) : (s.dropFlow n).bbx = s.bbx := rfl
@[simp] theorem State.dropFlow_ident (n : W32) : (s.dropFlow n).ident = s.ident := rfl
@[simp] theorem State.dropFlow_flash (n : W32) : (s.dropFlow n).flash = s.flash := rfl
@[simp] theorem State.dropFlow_hm (n : W32) : (s.dropFlow n).hm = s.hm := rfl
@[simp] theorem State.dropFlow_host (n : W32) : (s.dropFlow n).host = s.host := rfl
@[simp] theorem State.dropFlow_sec (n : W32) : (s.dropFlow n).sec = s.sec := rfl
@[simp] theorem State.dropFlow_pwr (n : W32) : (s.dropFlow n).pwr = s.pwr := rfl
@[simp] theorem State.dropFlow_dbg (n : W32) : (s.dropFlow n).dbg = s.dbg := rfl
@[simp] theorem State.dropFlow_serv (n : W32) : (s.dropFlow n).serv = s.serv := rfl
@[simp] theorem State.dropFlow_plc (n : W32) : (s.dropFlow n).plc = s.plc := rfl
@[simp] theorem State.addIn_pending (x : InXfer) : (s.addIn x).pending = s.pending := rfl
@[simp] theorem State.addIn_free (x : InXfer) : (s.addIn x).free = s.free := rfl
@[simp] theorem State.addIn_cores (x : InXfer) : (s.addIn x).cores = s.cores := rfl
@[simp] theorem State.addIn_mem (x : InXfer) : (s.addIn x).mem = s.mem := rfl
@[simp] theorem State.addIn_poison (x : InXfer) : (s.addIn x).poison = s.poison := rfl
@[simp] theorem State.addIn_flips (x : InXfer) : (s.addIn x).flips = s.flips := rfl
@[simp] theorem State.addIn_mesh (x : InXfer) : (s.addIn x).mesh = s.mesh := rfl
@[simp] theorem State.addIn_ms (x : InXfer) : (s.addIn x).ms = s.ms := rfl
@[simp] theorem State.addIn_bbx (x : InXfer) : (s.addIn x).bbx = s.bbx := rfl
@[simp] theorem State.addIn_ident (x : InXfer) : (s.addIn x).ident = s.ident := rfl
@[simp] theorem State.addIn_flash (x : InXfer) : (s.addIn x).flash = s.flash := rfl
@[simp] theorem State.addIn_hm (x : InXfer) : (s.addIn x).hm = s.hm := rfl
@[simp] theorem State.addIn_host (x : InXfer) : (s.addIn x).host = s.host := rfl
@[simp] theorem State.addIn_sec (x : InXfer) : (s.addIn x).sec = s.sec := rfl
@[simp] theorem State.addIn_pwr (x : InXfer) : (s.addIn x).pwr = s.pwr := rfl
@[simp] theorem State.addIn_dbg (x : InXfer) : (s.addIn x).dbg = s.dbg := rfl
@[simp] theorem State.addIn_serv (x : InXfer) : (s.addIn x).serv = s.serv := rfl
@[simp] theorem State.addIn_plc (x : InXfer) : (s.addIn x).plc = s.plc := rfl
@[simp] theorem State.tellSlice_pending (m : HmMsg) : (s.tellSlice m).pending = s.pending := rfl
@[simp] theorem State.tellSlice_free (m : HmMsg) : (s.tellSlice m).free = s.free := rfl
@[simp] theorem State.tellSlice_cores (m : HmMsg) : (s.tellSlice m).cores = s.cores := rfl
@[simp] theorem State.tellSlice_mem (m : HmMsg) : (s.tellSlice m).mem = s.mem := rfl
@[simp] theorem State.tellSlice_poison (m : HmMsg) : (s.tellSlice m).poison = s.poison := rfl
@[simp] theorem State.tellSlice_flips (m : HmMsg) : (s.tellSlice m).flips = s.flips := rfl
@[simp] theorem State.tellSlice_mesh (m : HmMsg) : (s.tellSlice m).mesh = s.mesh := rfl
@[simp] theorem State.tellSlice_ms (m : HmMsg) : (s.tellSlice m).ms = s.ms := rfl
@[simp] theorem State.tellSlice_bbx (m : HmMsg) : (s.tellSlice m).bbx = s.bbx := rfl
@[simp] theorem State.tellSlice_ident (m : HmMsg) : (s.tellSlice m).ident = s.ident := rfl
@[simp] theorem State.tellSlice_flash (m : HmMsg) : (s.tellSlice m).flash = s.flash := rfl
@[simp] theorem State.tellSlice_hm (m : HmMsg) : (s.tellSlice m).hm = s.hm := rfl
@[simp] theorem State.tellSlice_host (m : HmMsg) : (s.tellSlice m).host = s.host := rfl
@[simp] theorem State.tellSlice_sec (m : HmMsg) : (s.tellSlice m).sec = s.sec := rfl
@[simp] theorem State.tellSlice_pwr (m : HmMsg) : (s.tellSlice m).pwr = s.pwr := rfl
@[simp] theorem State.tellSlice_dbg (m : HmMsg) : (s.tellSlice m).dbg = s.dbg := rfl
@[simp] theorem State.tellSlice_serv (m : HmMsg) : (s.tellSlice m).serv = s.serv := rfl
@[simp] theorem State.tellSlice_plc (m : HmMsg) : (s.tellSlice m).plc = s.plc := rfl

/-! ## Updates of host -/

@[simp] theorem State.setFn_pending (f : FnId) (x : Func) : (s.setFn f x).pending = s.pending := rfl
@[simp] theorem State.setFn_free (f : FnId) (x : Func) : (s.setFn f x).free = s.free := rfl
@[simp] theorem State.setFn_cores (f : FnId) (x : Func) : (s.setFn f x).cores = s.cores := rfl
@[simp] theorem State.setFn_mem (f : FnId) (x : Func) : (s.setFn f x).mem = s.mem := rfl
@[simp] theorem State.setFn_poison (f : FnId) (x : Func) : (s.setFn f x).poison = s.poison := rfl
@[simp] theorem State.setFn_flips (f : FnId) (x : Func) : (s.setFn f x).flips = s.flips := rfl
@[simp] theorem State.setFn_mesh (f : FnId) (x : Func) : (s.setFn f x).mesh = s.mesh := rfl
@[simp] theorem State.setFn_ms (f : FnId) (x : Func) : (s.setFn f x).ms = s.ms := rfl
@[simp] theorem State.setFn_fab (f : FnId) (x : Func) : (s.setFn f x).fab = s.fab := rfl
@[simp] theorem State.setFn_bbx (f : FnId) (x : Func) : (s.setFn f x).bbx = s.bbx := rfl
@[simp] theorem State.setFn_ident (f : FnId) (x : Func) : (s.setFn f x).ident = s.ident := rfl
@[simp] theorem State.setFn_flash (f : FnId) (x : Func) : (s.setFn f x).flash = s.flash := rfl
@[simp] theorem State.setFn_hm (f : FnId) (x : Func) : (s.setFn f x).hm = s.hm := rfl
@[simp] theorem State.setFn_sec (f : FnId) (x : Func) : (s.setFn f x).sec = s.sec := rfl
@[simp] theorem State.setFn_pwr (f : FnId) (x : Func) : (s.setFn f x).pwr = s.pwr := rfl
@[simp] theorem State.setFn_dbg (f : FnId) (x : Func) : (s.setFn f x).dbg = s.dbg := rfl
@[simp] theorem State.setFn_serv (f : FnId) (x : Func) : (s.setFn f x).serv = s.serv := rfl
@[simp] theorem State.setFn_plc (f : FnId) (x : Func) : (s.setFn f x).plc = s.plc := rfl
@[simp] theorem State.modFn_pending (f : FnId) (g : Func → Func) : (s.modFn f g).pending = s.pending := rfl
@[simp] theorem State.modFn_free (f : FnId) (g : Func → Func) : (s.modFn f g).free = s.free := rfl
@[simp] theorem State.modFn_cores (f : FnId) (g : Func → Func) : (s.modFn f g).cores = s.cores := rfl
@[simp] theorem State.modFn_mem (f : FnId) (g : Func → Func) : (s.modFn f g).mem = s.mem := rfl
@[simp] theorem State.modFn_poison (f : FnId) (g : Func → Func) : (s.modFn f g).poison = s.poison := rfl
@[simp] theorem State.modFn_flips (f : FnId) (g : Func → Func) : (s.modFn f g).flips = s.flips := rfl
@[simp] theorem State.modFn_mesh (f : FnId) (g : Func → Func) : (s.modFn f g).mesh = s.mesh := rfl
@[simp] theorem State.modFn_ms (f : FnId) (g : Func → Func) : (s.modFn f g).ms = s.ms := rfl
@[simp] theorem State.modFn_fab (f : FnId) (g : Func → Func) : (s.modFn f g).fab = s.fab := rfl
@[simp] theorem State.modFn_bbx (f : FnId) (g : Func → Func) : (s.modFn f g).bbx = s.bbx := rfl
@[simp] theorem State.modFn_ident (f : FnId) (g : Func → Func) : (s.modFn f g).ident = s.ident := rfl
@[simp] theorem State.modFn_flash (f : FnId) (g : Func → Func) : (s.modFn f g).flash = s.flash := rfl
@[simp] theorem State.modFn_hm (f : FnId) (g : Func → Func) : (s.modFn f g).hm = s.hm := rfl
@[simp] theorem State.modFn_sec (f : FnId) (g : Func → Func) : (s.modFn f g).sec = s.sec := rfl
@[simp] theorem State.modFn_pwr (f : FnId) (g : Func → Func) : (s.modFn f g).pwr = s.pwr := rfl
@[simp] theorem State.modFn_dbg (f : FnId) (g : Func → Func) : (s.modFn f g).dbg = s.dbg := rfl
@[simp] theorem State.modFn_serv (f : FnId) (g : Func → Func) : (s.modFn f g).serv = s.serv := rfl
@[simp] theorem State.modFn_plc (f : FnId) (g : Func → Func) : (s.modFn f g).plc = s.plc := rfl
@[simp] theorem State.send_pending (p : Posted) : (s.send p).pending = s.pending := rfl
@[simp] theorem State.send_free (p : Posted) : (s.send p).free = s.free := rfl
@[simp] theorem State.send_cores (p : Posted) : (s.send p).cores = s.cores := rfl
@[simp] theorem State.send_mem (p : Posted) : (s.send p).mem = s.mem := rfl
@[simp] theorem State.send_poison (p : Posted) : (s.send p).poison = s.poison := rfl
@[simp] theorem State.send_flips (p : Posted) : (s.send p).flips = s.flips := rfl
@[simp] theorem State.send_mesh (p : Posted) : (s.send p).mesh = s.mesh := rfl
@[simp] theorem State.send_ms (p : Posted) : (s.send p).ms = s.ms := rfl
@[simp] theorem State.send_fab (p : Posted) : (s.send p).fab = s.fab := rfl
@[simp] theorem State.send_bbx (p : Posted) : (s.send p).bbx = s.bbx := rfl
@[simp] theorem State.send_ident (p : Posted) : (s.send p).ident = s.ident := rfl
@[simp] theorem State.send_flash (p : Posted) : (s.send p).flash = s.flash := rfl
@[simp] theorem State.send_hm (p : Posted) : (s.send p).hm = s.hm := rfl
@[simp] theorem State.send_sec (p : Posted) : (s.send p).sec = s.sec := rfl
@[simp] theorem State.send_pwr (p : Posted) : (s.send p).pwr = s.pwr := rfl
@[simp] theorem State.send_dbg (p : Posted) : (s.send p).dbg = s.dbg := rfl
@[simp] theorem State.send_serv (p : Posted) : (s.send p).serv = s.serv := rfl
@[simp] theorem State.send_plc (p : Posted) : (s.send p).plc = s.plc := rfl
@[simp] theorem State.modRing_pending (f : FnId) (r : RingId) (g : Ring → Ring) : (s.modRing f r g).pending = s.pending := rfl
@[simp] theorem State.modRing_free (f : FnId) (r : RingId) (g : Ring → Ring) : (s.modRing f r g).free = s.free := rfl
@[simp] theorem State.modRing_cores (f : FnId) (r : RingId) (g : Ring → Ring) : (s.modRing f r g).cores = s.cores := rfl
@[simp] theorem State.modRing_mem (f : FnId) (r : RingId) (g : Ring → Ring) : (s.modRing f r g).mem = s.mem := rfl
@[simp] theorem State.modRing_poison (f : FnId) (r : RingId) (g : Ring → Ring) : (s.modRing f r g).poison = s.poison := rfl
@[simp] theorem State.modRing_flips (f : FnId) (r : RingId) (g : Ring → Ring) : (s.modRing f r g).flips = s.flips := rfl
@[simp] theorem State.modRing_mesh (f : FnId) (r : RingId) (g : Ring → Ring) : (s.modRing f r g).mesh = s.mesh := rfl
@[simp] theorem State.modRing_ms (f : FnId) (r : RingId) (g : Ring → Ring) : (s.modRing f r g).ms = s.ms := rfl
@[simp] theorem State.modRing_fab (f : FnId) (r : RingId) (g : Ring → Ring) : (s.modRing f r g).fab = s.fab := rfl
@[simp] theorem State.modRing_bbx (f : FnId) (r : RingId) (g : Ring → Ring) : (s.modRing f r g).bbx = s.bbx := rfl
@[simp] theorem State.modRing_ident (f : FnId) (r : RingId) (g : Ring → Ring) : (s.modRing f r g).ident = s.ident := rfl
@[simp] theorem State.modRing_flash (f : FnId) (r : RingId) (g : Ring → Ring) : (s.modRing f r g).flash = s.flash := rfl
@[simp] theorem State.modRing_hm (f : FnId) (r : RingId) (g : Ring → Ring) : (s.modRing f r g).hm = s.hm := rfl
@[simp] theorem State.modRing_sec (f : FnId) (r : RingId) (g : Ring → Ring) : (s.modRing f r g).sec = s.sec := rfl
@[simp] theorem State.modRing_pwr (f : FnId) (r : RingId) (g : Ring → Ring) : (s.modRing f r g).pwr = s.pwr := rfl
@[simp] theorem State.modRing_dbg (f : FnId) (r : RingId) (g : Ring → Ring) : (s.modRing f r g).dbg = s.dbg := rfl
@[simp] theorem State.modRing_serv (f : FnId) (r : RingId) (g : Ring → Ring) : (s.modRing f r g).serv = s.serv := rfl
@[simp] theorem State.modRing_plc (f : FnId) (r : RingId) (g : Ring → Ring) : (s.modRing f r g).plc = s.plc := rfl
@[simp] theorem State.modTicket_pending (k : W32) (g : Ticket → Ticket) : (s.modTicket k g).pending = s.pending := rfl
@[simp] theorem State.modTicket_free (k : W32) (g : Ticket → Ticket) : (s.modTicket k g).free = s.free := rfl
@[simp] theorem State.modTicket_cores (k : W32) (g : Ticket → Ticket) : (s.modTicket k g).cores = s.cores := rfl
@[simp] theorem State.modTicket_mem (k : W32) (g : Ticket → Ticket) : (s.modTicket k g).mem = s.mem := rfl
@[simp] theorem State.modTicket_poison (k : W32) (g : Ticket → Ticket) : (s.modTicket k g).poison = s.poison := rfl
@[simp] theorem State.modTicket_flips (k : W32) (g : Ticket → Ticket) : (s.modTicket k g).flips = s.flips := rfl
@[simp] theorem State.modTicket_mesh (k : W32) (g : Ticket → Ticket) : (s.modTicket k g).mesh = s.mesh := rfl
@[simp] theorem State.modTicket_ms (k : W32) (g : Ticket → Ticket) : (s.modTicket k g).ms = s.ms := rfl
@[simp] theorem State.modTicket_fab (k : W32) (g : Ticket → Ticket) : (s.modTicket k g).fab = s.fab := rfl
@[simp] theorem State.modTicket_bbx (k : W32) (g : Ticket → Ticket) : (s.modTicket k g).bbx = s.bbx := rfl
@[simp] theorem State.modTicket_ident (k : W32) (g : Ticket → Ticket) : (s.modTicket k g).ident = s.ident := rfl
@[simp] theorem State.modTicket_flash (k : W32) (g : Ticket → Ticket) : (s.modTicket k g).flash = s.flash := rfl
@[simp] theorem State.modTicket_hm (k : W32) (g : Ticket → Ticket) : (s.modTicket k g).hm = s.hm := rfl
@[simp] theorem State.modTicket_sec (k : W32) (g : Ticket → Ticket) : (s.modTicket k g).sec = s.sec := rfl
@[simp] theorem State.modTicket_pwr (k : W32) (g : Ticket → Ticket) : (s.modTicket k g).pwr = s.pwr := rfl
@[simp] theorem State.modTicket_dbg (k : W32) (g : Ticket → Ticket) : (s.modTicket k g).dbg = s.dbg := rfl
@[simp] theorem State.modTicket_serv (k : W32) (g : Ticket → Ticket) : (s.modTicket k g).serv = s.serv := rfl
@[simp] theorem State.modTicket_plc (k : W32) (g : Ticket → Ticket) : (s.modTicket k g).plc = s.plc := rfl
@[simp] theorem State.dropRead_pending (f : FnId) (n : Nat) : (s.dropRead f n).pending = s.pending := rfl
@[simp] theorem State.dropRead_free (f : FnId) (n : Nat) : (s.dropRead f n).free = s.free := rfl
@[simp] theorem State.dropRead_cores (f : FnId) (n : Nat) : (s.dropRead f n).cores = s.cores := rfl
@[simp] theorem State.dropRead_mem (f : FnId) (n : Nat) : (s.dropRead f n).mem = s.mem := rfl
@[simp] theorem State.dropRead_poison (f : FnId) (n : Nat) : (s.dropRead f n).poison = s.poison := rfl
@[simp] theorem State.dropRead_flips (f : FnId) (n : Nat) : (s.dropRead f n).flips = s.flips := rfl
@[simp] theorem State.dropRead_mesh (f : FnId) (n : Nat) : (s.dropRead f n).mesh = s.mesh := rfl
@[simp] theorem State.dropRead_ms (f : FnId) (n : Nat) : (s.dropRead f n).ms = s.ms := rfl
@[simp] theorem State.dropRead_fab (f : FnId) (n : Nat) : (s.dropRead f n).fab = s.fab := rfl
@[simp] theorem State.dropRead_bbx (f : FnId) (n : Nat) : (s.dropRead f n).bbx = s.bbx := rfl
@[simp] theorem State.dropRead_ident (f : FnId) (n : Nat) : (s.dropRead f n).ident = s.ident := rfl
@[simp] theorem State.dropRead_flash (f : FnId) (n : Nat) : (s.dropRead f n).flash = s.flash := rfl
@[simp] theorem State.dropRead_hm (f : FnId) (n : Nat) : (s.dropRead f n).hm = s.hm := rfl
@[simp] theorem State.dropRead_sec (f : FnId) (n : Nat) : (s.dropRead f n).sec = s.sec := rfl
@[simp] theorem State.dropRead_pwr (f : FnId) (n : Nat) : (s.dropRead f n).pwr = s.pwr := rfl
@[simp] theorem State.dropRead_dbg (f : FnId) (n : Nat) : (s.dropRead f n).dbg = s.dbg := rfl
@[simp] theorem State.dropRead_serv (f : FnId) (n : Nat) : (s.dropRead f n).serv = s.serv := rfl
@[simp] theorem State.dropRead_plc (f : FnId) (n : Nat) : (s.dropRead f n).plc = s.plc := rfl
@[simp] theorem State.finish_pending (k : W32) (st : W16) (r : W64) : (s.finish k st r).pending = s.pending := rfl
@[simp] theorem State.finish_free (k : W32) (st : W16) (r : W64) : (s.finish k st r).free = s.free := rfl
@[simp] theorem State.finish_cores (k : W32) (st : W16) (r : W64) : (s.finish k st r).cores = s.cores := rfl
@[simp] theorem State.finish_mem (k : W32) (st : W16) (r : W64) : (s.finish k st r).mem = s.mem := rfl
@[simp] theorem State.finish_poison (k : W32) (st : W16) (r : W64) : (s.finish k st r).poison = s.poison := rfl
@[simp] theorem State.finish_flips (k : W32) (st : W16) (r : W64) : (s.finish k st r).flips = s.flips := rfl
@[simp] theorem State.finish_mesh (k : W32) (st : W16) (r : W64) : (s.finish k st r).mesh = s.mesh := rfl
@[simp] theorem State.finish_ms (k : W32) (st : W16) (r : W64) : (s.finish k st r).ms = s.ms := rfl
@[simp] theorem State.finish_fab (k : W32) (st : W16) (r : W64) : (s.finish k st r).fab = s.fab := rfl
@[simp] theorem State.finish_bbx (k : W32) (st : W16) (r : W64) : (s.finish k st r).bbx = s.bbx := rfl
@[simp] theorem State.finish_ident (k : W32) (st : W16) (r : W64) : (s.finish k st r).ident = s.ident := rfl
@[simp] theorem State.finish_flash (k : W32) (st : W16) (r : W64) : (s.finish k st r).flash = s.flash := rfl
@[simp] theorem State.finish_hm (k : W32) (st : W16) (r : W64) : (s.finish k st r).hm = s.hm := rfl
@[simp] theorem State.finish_sec (k : W32) (st : W16) (r : W64) : (s.finish k st r).sec = s.sec := rfl
@[simp] theorem State.finish_pwr (k : W32) (st : W16) (r : W64) : (s.finish k st r).pwr = s.pwr := rfl
@[simp] theorem State.finish_dbg (k : W32) (st : W16) (r : W64) : (s.finish k st r).dbg = s.dbg := rfl
@[simp] theorem State.finish_serv (k : W32) (st : W16) (r : W64) : (s.finish k st r).serv = s.serv := rfl
@[simp] theorem State.finish_plc (k : W32) (st : W16) (r : W64) : (s.finish k st r).plc = s.plc := rfl

/-! ## Updates of pwr -/

@[simp] theorem State.modPwr_pending (f : Pwr → Pwr) : (s.modPwr f).pending = s.pending := rfl
@[simp] theorem State.modPwr_free (f : Pwr → Pwr) : (s.modPwr f).free = s.free := rfl
@[simp] theorem State.modPwr_cores (f : Pwr → Pwr) : (s.modPwr f).cores = s.cores := rfl
@[simp] theorem State.modPwr_mem (f : Pwr → Pwr) : (s.modPwr f).mem = s.mem := rfl
@[simp] theorem State.modPwr_poison (f : Pwr → Pwr) : (s.modPwr f).poison = s.poison := rfl
@[simp] theorem State.modPwr_flips (f : Pwr → Pwr) : (s.modPwr f).flips = s.flips := rfl
@[simp] theorem State.modPwr_mesh (f : Pwr → Pwr) : (s.modPwr f).mesh = s.mesh := rfl
@[simp] theorem State.modPwr_ms (f : Pwr → Pwr) : (s.modPwr f).ms = s.ms := rfl
@[simp] theorem State.modPwr_fab (f : Pwr → Pwr) : (s.modPwr f).fab = s.fab := rfl
@[simp] theorem State.modPwr_bbx (f : Pwr → Pwr) : (s.modPwr f).bbx = s.bbx := rfl
@[simp] theorem State.modPwr_ident (f : Pwr → Pwr) : (s.modPwr f).ident = s.ident := rfl
@[simp] theorem State.modPwr_flash (f : Pwr → Pwr) : (s.modPwr f).flash = s.flash := rfl
@[simp] theorem State.modPwr_hm (f : Pwr → Pwr) : (s.modPwr f).hm = s.hm := rfl
@[simp] theorem State.modPwr_host (f : Pwr → Pwr) : (s.modPwr f).host = s.host := rfl
@[simp] theorem State.modPwr_sec (f : Pwr → Pwr) : (s.modPwr f).sec = s.sec := rfl
@[simp] theorem State.modPwr_dbg (f : Pwr → Pwr) : (s.modPwr f).dbg = s.dbg := rfl
@[simp] theorem State.modPwr_serv (f : Pwr → Pwr) : (s.modPwr f).serv = s.serv := rfl
@[simp] theorem State.modPwr_plc (f : Pwr → Pwr) : (s.modPwr f).plc = s.plc := rfl
@[simp] theorem State.stageDone_pending (n : Nat) : (s.stageDone n).pending = s.pending := rfl
@[simp] theorem State.stageDone_free (n : Nat) : (s.stageDone n).free = s.free := rfl
@[simp] theorem State.stageDone_cores (n : Nat) : (s.stageDone n).cores = s.cores := rfl
@[simp] theorem State.stageDone_mem (n : Nat) : (s.stageDone n).mem = s.mem := rfl
@[simp] theorem State.stageDone_poison (n : Nat) : (s.stageDone n).poison = s.poison := rfl
@[simp] theorem State.stageDone_flips (n : Nat) : (s.stageDone n).flips = s.flips := rfl
@[simp] theorem State.stageDone_mesh (n : Nat) : (s.stageDone n).mesh = s.mesh := rfl
@[simp] theorem State.stageDone_ms (n : Nat) : (s.stageDone n).ms = s.ms := rfl
@[simp] theorem State.stageDone_fab (n : Nat) : (s.stageDone n).fab = s.fab := rfl
@[simp] theorem State.stageDone_bbx (n : Nat) : (s.stageDone n).bbx = s.bbx := rfl
@[simp] theorem State.stageDone_ident (n : Nat) : (s.stageDone n).ident = s.ident := rfl
@[simp] theorem State.stageDone_flash (n : Nat) : (s.stageDone n).flash = s.flash := rfl
@[simp] theorem State.stageDone_hm (n : Nat) : (s.stageDone n).hm = s.hm := rfl
@[simp] theorem State.stageDone_host (n : Nat) : (s.stageDone n).host = s.host := rfl
@[simp] theorem State.stageDone_sec (n : Nat) : (s.stageDone n).sec = s.sec := rfl
@[simp] theorem State.stageDone_dbg (n : Nat) : (s.stageDone n).dbg = s.dbg := rfl
@[simp] theorem State.stageDone_serv (n : Nat) : (s.stageDone n).serv = s.serv := rfl
@[simp] theorem State.stageDone_plc (n : Nat) : (s.stageDone n).plc = s.plc := rfl

/-! ## Updates of ms -/

@[simp] theorem State.setTgc_pending (ch : ChannelId) (g : Tgc) : (s.setTgc ch g).pending = s.pending := rfl
@[simp] theorem State.setTgc_free (ch : ChannelId) (g : Tgc) : (s.setTgc ch g).free = s.free := rfl
@[simp] theorem State.setTgc_cores (ch : ChannelId) (g : Tgc) : (s.setTgc ch g).cores = s.cores := rfl
@[simp] theorem State.setTgc_mem (ch : ChannelId) (g : Tgc) : (s.setTgc ch g).mem = s.mem := rfl
@[simp] theorem State.setTgc_poison (ch : ChannelId) (g : Tgc) : (s.setTgc ch g).poison = s.poison := rfl
@[simp] theorem State.setTgc_flips (ch : ChannelId) (g : Tgc) : (s.setTgc ch g).flips = s.flips := rfl
@[simp] theorem State.setTgc_mesh (ch : ChannelId) (g : Tgc) : (s.setTgc ch g).mesh = s.mesh := rfl
@[simp] theorem State.setTgc_fab (ch : ChannelId) (g : Tgc) : (s.setTgc ch g).fab = s.fab := rfl
@[simp] theorem State.setTgc_bbx (ch : ChannelId) (g : Tgc) : (s.setTgc ch g).bbx = s.bbx := rfl
@[simp] theorem State.setTgc_ident (ch : ChannelId) (g : Tgc) : (s.setTgc ch g).ident = s.ident := rfl
@[simp] theorem State.setTgc_flash (ch : ChannelId) (g : Tgc) : (s.setTgc ch g).flash = s.flash := rfl
@[simp] theorem State.setTgc_hm (ch : ChannelId) (g : Tgc) : (s.setTgc ch g).hm = s.hm := rfl
@[simp] theorem State.setTgc_host (ch : ChannelId) (g : Tgc) : (s.setTgc ch g).host = s.host := rfl
@[simp] theorem State.setTgc_sec (ch : ChannelId) (g : Tgc) : (s.setTgc ch g).sec = s.sec := rfl
@[simp] theorem State.setTgc_pwr (ch : ChannelId) (g : Tgc) : (s.setTgc ch g).pwr = s.pwr := rfl
@[simp] theorem State.setTgc_dbg (ch : ChannelId) (g : Tgc) : (s.setTgc ch g).dbg = s.dbg := rfl
@[simp] theorem State.setTgc_serv (ch : ChannelId) (g : Tgc) : (s.setTgc ch g).serv = s.serv := rfl
@[simp] theorem State.setTgc_plc (ch : ChannelId) (g : Tgc) : (s.setTgc ch g).plc = s.plc := rfl
@[simp] theorem State.modChan_pending (k : Ctrl) (f : ChanCtr → ChanCtr) : (s.modChan k f).pending = s.pending := rfl
@[simp] theorem State.modChan_free (k : Ctrl) (f : ChanCtr → ChanCtr) : (s.modChan k f).free = s.free := rfl
@[simp] theorem State.modChan_cores (k : Ctrl) (f : ChanCtr → ChanCtr) : (s.modChan k f).cores = s.cores := rfl
@[simp] theorem State.modChan_mem (k : Ctrl) (f : ChanCtr → ChanCtr) : (s.modChan k f).mem = s.mem := rfl
@[simp] theorem State.modChan_poison (k : Ctrl) (f : ChanCtr → ChanCtr) : (s.modChan k f).poison = s.poison := rfl
@[simp] theorem State.modChan_flips (k : Ctrl) (f : ChanCtr → ChanCtr) : (s.modChan k f).flips = s.flips := rfl
@[simp] theorem State.modChan_mesh (k : Ctrl) (f : ChanCtr → ChanCtr) : (s.modChan k f).mesh = s.mesh := rfl
@[simp] theorem State.modChan_fab (k : Ctrl) (f : ChanCtr → ChanCtr) : (s.modChan k f).fab = s.fab := rfl
@[simp] theorem State.modChan_bbx (k : Ctrl) (f : ChanCtr → ChanCtr) : (s.modChan k f).bbx = s.bbx := rfl
@[simp] theorem State.modChan_ident (k : Ctrl) (f : ChanCtr → ChanCtr) : (s.modChan k f).ident = s.ident := rfl
@[simp] theorem State.modChan_flash (k : Ctrl) (f : ChanCtr → ChanCtr) : (s.modChan k f).flash = s.flash := rfl
@[simp] theorem State.modChan_hm (k : Ctrl) (f : ChanCtr → ChanCtr) : (s.modChan k f).hm = s.hm := rfl
@[simp] theorem State.modChan_host (k : Ctrl) (f : ChanCtr → ChanCtr) : (s.modChan k f).host = s.host := rfl
@[simp] theorem State.modChan_sec (k : Ctrl) (f : ChanCtr → ChanCtr) : (s.modChan k f).sec = s.sec := rfl
@[simp] theorem State.modChan_pwr (k : Ctrl) (f : ChanCtr → ChanCtr) : (s.modChan k f).pwr = s.pwr := rfl
@[simp] theorem State.modChan_dbg (k : Ctrl) (f : ChanCtr → ChanCtr) : (s.modChan k f).dbg = s.dbg := rfl
@[simp] theorem State.modChan_serv (k : Ctrl) (f : ChanCtr → ChanCtr) : (s.modChan k f).serv = s.serv := rfl
@[simp] theorem State.modChan_plc (k : Ctrl) (f : ChanCtr → ChanCtr) : (s.modChan k f).plc = s.plc := rfl

/-! ## Updates of serv -/

@[simp] theorem State.addCmd_pending (c : BCmd) : (s.addCmd c).pending = s.pending := rfl
@[simp] theorem State.addCmd_free (c : BCmd) : (s.addCmd c).free = s.free := rfl
@[simp] theorem State.addCmd_cores (c : BCmd) : (s.addCmd c).cores = s.cores := rfl
@[simp] theorem State.addCmd_mem (c : BCmd) : (s.addCmd c).mem = s.mem := rfl
@[simp] theorem State.addCmd_poison (c : BCmd) : (s.addCmd c).poison = s.poison := rfl
@[simp] theorem State.addCmd_flips (c : BCmd) : (s.addCmd c).flips = s.flips := rfl
@[simp] theorem State.addCmd_mesh (c : BCmd) : (s.addCmd c).mesh = s.mesh := rfl
@[simp] theorem State.addCmd_ms (c : BCmd) : (s.addCmd c).ms = s.ms := rfl
@[simp] theorem State.addCmd_fab (c : BCmd) : (s.addCmd c).fab = s.fab := rfl
@[simp] theorem State.addCmd_bbx (c : BCmd) : (s.addCmd c).bbx = s.bbx := rfl
@[simp] theorem State.addCmd_ident (c : BCmd) : (s.addCmd c).ident = s.ident := rfl
@[simp] theorem State.addCmd_flash (c : BCmd) : (s.addCmd c).flash = s.flash := rfl
@[simp] theorem State.addCmd_hm (c : BCmd) : (s.addCmd c).hm = s.hm := rfl
@[simp] theorem State.addCmd_host (c : BCmd) : (s.addCmd c).host = s.host := rfl
@[simp] theorem State.addCmd_sec (c : BCmd) : (s.addCmd c).sec = s.sec := rfl
@[simp] theorem State.addCmd_pwr (c : BCmd) : (s.addCmd c).pwr = s.pwr := rfl
@[simp] theorem State.addCmd_dbg (c : BCmd) : (s.addCmd c).dbg = s.dbg := rfl
@[simp] theorem State.addCmd_plc (c : BCmd) : (s.addCmd c).plc = s.plc := rfl
@[simp] theorem State.modReq_pending (h : W32) (f : Request → Request) : (s.modReq h f).pending = s.pending := rfl
@[simp] theorem State.modReq_free (h : W32) (f : Request → Request) : (s.modReq h f).free = s.free := rfl
@[simp] theorem State.modReq_cores (h : W32) (f : Request → Request) : (s.modReq h f).cores = s.cores := rfl
@[simp] theorem State.modReq_mem (h : W32) (f : Request → Request) : (s.modReq h f).mem = s.mem := rfl
@[simp] theorem State.modReq_poison (h : W32) (f : Request → Request) : (s.modReq h f).poison = s.poison := rfl
@[simp] theorem State.modReq_flips (h : W32) (f : Request → Request) : (s.modReq h f).flips = s.flips := rfl
@[simp] theorem State.modReq_mesh (h : W32) (f : Request → Request) : (s.modReq h f).mesh = s.mesh := rfl
@[simp] theorem State.modReq_ms (h : W32) (f : Request → Request) : (s.modReq h f).ms = s.ms := rfl
@[simp] theorem State.modReq_fab (h : W32) (f : Request → Request) : (s.modReq h f).fab = s.fab := rfl
@[simp] theorem State.modReq_bbx (h : W32) (f : Request → Request) : (s.modReq h f).bbx = s.bbx := rfl
@[simp] theorem State.modReq_ident (h : W32) (f : Request → Request) : (s.modReq h f).ident = s.ident := rfl
@[simp] theorem State.modReq_flash (h : W32) (f : Request → Request) : (s.modReq h f).flash = s.flash := rfl
@[simp] theorem State.modReq_hm (h : W32) (f : Request → Request) : (s.modReq h f).hm = s.hm := rfl
@[simp] theorem State.modReq_host (h : W32) (f : Request → Request) : (s.modReq h f).host = s.host := rfl
@[simp] theorem State.modReq_sec (h : W32) (f : Request → Request) : (s.modReq h f).sec = s.sec := rfl
@[simp] theorem State.modReq_pwr (h : W32) (f : Request → Request) : (s.modReq h f).pwr = s.pwr := rfl
@[simp] theorem State.modReq_dbg (h : W32) (f : Request → Request) : (s.modReq h f).dbg = s.dbg := rfl
@[simp] theorem State.modReq_plc (h : W32) (f : Request → Request) : (s.modReq h f).plc = s.plc := rfl
@[simp] theorem State.dropReq_pending (h : W32) : (s.dropReq h).pending = s.pending := rfl
@[simp] theorem State.dropReq_free (h : W32) : (s.dropReq h).free = s.free := rfl
@[simp] theorem State.dropReq_cores (h : W32) : (s.dropReq h).cores = s.cores := rfl
@[simp] theorem State.dropReq_mem (h : W32) : (s.dropReq h).mem = s.mem := rfl
@[simp] theorem State.dropReq_poison (h : W32) : (s.dropReq h).poison = s.poison := rfl
@[simp] theorem State.dropReq_flips (h : W32) : (s.dropReq h).flips = s.flips := rfl
@[simp] theorem State.dropReq_mesh (h : W32) : (s.dropReq h).mesh = s.mesh := rfl
@[simp] theorem State.dropReq_ms (h : W32) : (s.dropReq h).ms = s.ms := rfl
@[simp] theorem State.dropReq_fab (h : W32) : (s.dropReq h).fab = s.fab := rfl
@[simp] theorem State.dropReq_bbx (h : W32) : (s.dropReq h).bbx = s.bbx := rfl
@[simp] theorem State.dropReq_ident (h : W32) : (s.dropReq h).ident = s.ident := rfl
@[simp] theorem State.dropReq_flash (h : W32) : (s.dropReq h).flash = s.flash := rfl
@[simp] theorem State.dropReq_hm (h : W32) : (s.dropReq h).hm = s.hm := rfl
@[simp] theorem State.dropReq_host (h : W32) : (s.dropReq h).host = s.host := rfl
@[simp] theorem State.dropReq_sec (h : W32) : (s.dropReq h).sec = s.sec := rfl
@[simp] theorem State.dropReq_pwr (h : W32) : (s.dropReq h).pwr = s.pwr := rfl
@[simp] theorem State.dropReq_dbg (h : W32) : (s.dropReq h).dbg = s.dbg := rfl
@[simp] theorem State.dropReq_plc (h : W32) : (s.dropReq h).plc = s.plc := rfl
@[simp] theorem State.modTide_pending (f : Tide → Tide) : (s.modTide f).pending = s.pending := rfl
@[simp] theorem State.modTide_free (f : Tide → Tide) : (s.modTide f).free = s.free := rfl
@[simp] theorem State.modTide_cores (f : Tide → Tide) : (s.modTide f).cores = s.cores := rfl
@[simp] theorem State.modTide_mem (f : Tide → Tide) : (s.modTide f).mem = s.mem := rfl
@[simp] theorem State.modTide_poison (f : Tide → Tide) : (s.modTide f).poison = s.poison := rfl
@[simp] theorem State.modTide_flips (f : Tide → Tide) : (s.modTide f).flips = s.flips := rfl
@[simp] theorem State.modTide_mesh (f : Tide → Tide) : (s.modTide f).mesh = s.mesh := rfl
@[simp] theorem State.modTide_ms (f : Tide → Tide) : (s.modTide f).ms = s.ms := rfl
@[simp] theorem State.modTide_fab (f : Tide → Tide) : (s.modTide f).fab = s.fab := rfl
@[simp] theorem State.modTide_bbx (f : Tide → Tide) : (s.modTide f).bbx = s.bbx := rfl
@[simp] theorem State.modTide_ident (f : Tide → Tide) : (s.modTide f).ident = s.ident := rfl
@[simp] theorem State.modTide_flash (f : Tide → Tide) : (s.modTide f).flash = s.flash := rfl
@[simp] theorem State.modTide_hm (f : Tide → Tide) : (s.modTide f).hm = s.hm := rfl
@[simp] theorem State.modTide_host (f : Tide → Tide) : (s.modTide f).host = s.host := rfl
@[simp] theorem State.modTide_sec (f : Tide → Tide) : (s.modTide f).sec = s.sec := rfl
@[simp] theorem State.modTide_pwr (f : Tide → Tide) : (s.modTide f).pwr = s.pwr := rfl
@[simp] theorem State.modTide_dbg (f : Tide → Tide) : (s.modTide f).dbg = s.dbg := rfl
@[simp] theorem State.modTide_plc (f : Tide → Tide) : (s.modTide f).plc = s.plc := rfl
@[simp] theorem State.setPhase_pending (p : BPhase) : (s.setPhase p).pending = s.pending := rfl
@[simp] theorem State.setPhase_free (p : BPhase) : (s.setPhase p).free = s.free := rfl
@[simp] theorem State.setPhase_cores (p : BPhase) : (s.setPhase p).cores = s.cores := rfl
@[simp] theorem State.setPhase_mem (p : BPhase) : (s.setPhase p).mem = s.mem := rfl
@[simp] theorem State.setPhase_poison (p : BPhase) : (s.setPhase p).poison = s.poison := rfl
@[simp] theorem State.setPhase_flips (p : BPhase) : (s.setPhase p).flips = s.flips := rfl
@[simp] theorem State.setPhase_mesh (p : BPhase) : (s.setPhase p).mesh = s.mesh := rfl
@[simp] theorem State.setPhase_ms (p : BPhase) : (s.setPhase p).ms = s.ms := rfl
@[simp] theorem State.setPhase_fab (p : BPhase) : (s.setPhase p).fab = s.fab := rfl
@[simp] theorem State.setPhase_bbx (p : BPhase) : (s.setPhase p).bbx = s.bbx := rfl
@[simp] theorem State.setPhase_ident (p : BPhase) : (s.setPhase p).ident = s.ident := rfl
@[simp] theorem State.setPhase_flash (p : BPhase) : (s.setPhase p).flash = s.flash := rfl
@[simp] theorem State.setPhase_hm (p : BPhase) : (s.setPhase p).hm = s.hm := rfl
@[simp] theorem State.setPhase_host (p : BPhase) : (s.setPhase p).host = s.host := rfl
@[simp] theorem State.setPhase_sec (p : BPhase) : (s.setPhase p).sec = s.sec := rfl
@[simp] theorem State.setPhase_pwr (p : BPhase) : (s.setPhase p).pwr = s.pwr := rfl
@[simp] theorem State.setPhase_dbg (p : BPhase) : (s.setPhase p).dbg = s.dbg := rfl
@[simp] theorem State.setPhase_plc (p : BPhase) : (s.setPhase p).plc = s.plc := rfl
@[simp] theorem State.setMonitor_pending (n : Nat) (m : Monitor) : (s.setMonitor n m).pending = s.pending := rfl
@[simp] theorem State.setMonitor_free (n : Nat) (m : Monitor) : (s.setMonitor n m).free = s.free := rfl
@[simp] theorem State.setMonitor_cores (n : Nat) (m : Monitor) : (s.setMonitor n m).cores = s.cores := rfl
@[simp] theorem State.setMonitor_mem (n : Nat) (m : Monitor) : (s.setMonitor n m).mem = s.mem := rfl
@[simp] theorem State.setMonitor_poison (n : Nat) (m : Monitor) : (s.setMonitor n m).poison = s.poison := rfl
@[simp] theorem State.setMonitor_flips (n : Nat) (m : Monitor) : (s.setMonitor n m).flips = s.flips := rfl
@[simp] theorem State.setMonitor_mesh (n : Nat) (m : Monitor) : (s.setMonitor n m).mesh = s.mesh := rfl
@[simp] theorem State.setMonitor_ms (n : Nat) (m : Monitor) : (s.setMonitor n m).ms = s.ms := rfl
@[simp] theorem State.setMonitor_fab (n : Nat) (m : Monitor) : (s.setMonitor n m).fab = s.fab := rfl
@[simp] theorem State.setMonitor_bbx (n : Nat) (m : Monitor) : (s.setMonitor n m).bbx = s.bbx := rfl
@[simp] theorem State.setMonitor_ident (n : Nat) (m : Monitor) : (s.setMonitor n m).ident = s.ident := rfl
@[simp] theorem State.setMonitor_flash (n : Nat) (m : Monitor) : (s.setMonitor n m).flash = s.flash := rfl
@[simp] theorem State.setMonitor_hm (n : Nat) (m : Monitor) : (s.setMonitor n m).hm = s.hm := rfl
@[simp] theorem State.setMonitor_host (n : Nat) (m : Monitor) : (s.setMonitor n m).host = s.host := rfl
@[simp] theorem State.setMonitor_sec (n : Nat) (m : Monitor) : (s.setMonitor n m).sec = s.sec := rfl
@[simp] theorem State.setMonitor_pwr (n : Nat) (m : Monitor) : (s.setMonitor n m).pwr = s.pwr := rfl
@[simp] theorem State.setMonitor_dbg (n : Nat) (m : Monitor) : (s.setMonitor n m).dbg = s.dbg := rfl
@[simp] theorem State.setMonitor_plc (n : Nat) (m : Monitor) : (s.setMonitor n m).plc = s.plc := rfl

/-! ## Updates of flash -/

@[simp] theorem State.setImage_pending (b : Bool) (x : Option FwImage) : (s.setImage b x).pending = s.pending := rfl
@[simp] theorem State.setImage_free (b : Bool) (x : Option FwImage) : (s.setImage b x).free = s.free := rfl
@[simp] theorem State.setImage_cores (b : Bool) (x : Option FwImage) : (s.setImage b x).cores = s.cores := rfl
@[simp] theorem State.setImage_mem (b : Bool) (x : Option FwImage) : (s.setImage b x).mem = s.mem := rfl
@[simp] theorem State.setImage_poison (b : Bool) (x : Option FwImage) : (s.setImage b x).poison = s.poison := rfl
@[simp] theorem State.setImage_flips (b : Bool) (x : Option FwImage) : (s.setImage b x).flips = s.flips := rfl
@[simp] theorem State.setImage_mesh (b : Bool) (x : Option FwImage) : (s.setImage b x).mesh = s.mesh := rfl
@[simp] theorem State.setImage_ms (b : Bool) (x : Option FwImage) : (s.setImage b x).ms = s.ms := rfl
@[simp] theorem State.setImage_fab (b : Bool) (x : Option FwImage) : (s.setImage b x).fab = s.fab := rfl
@[simp] theorem State.setImage_bbx (b : Bool) (x : Option FwImage) : (s.setImage b x).bbx = s.bbx := rfl
@[simp] theorem State.setImage_ident (b : Bool) (x : Option FwImage) : (s.setImage b x).ident = s.ident := rfl
@[simp] theorem State.setImage_hm (b : Bool) (x : Option FwImage) : (s.setImage b x).hm = s.hm := rfl
@[simp] theorem State.setImage_host (b : Bool) (x : Option FwImage) : (s.setImage b x).host = s.host := rfl
@[simp] theorem State.setImage_sec (b : Bool) (x : Option FwImage) : (s.setImage b x).sec = s.sec := rfl
@[simp] theorem State.setImage_pwr (b : Bool) (x : Option FwImage) : (s.setImage b x).pwr = s.pwr := rfl
@[simp] theorem State.setImage_dbg (b : Bool) (x : Option FwImage) : (s.setImage b x).dbg = s.dbg := rfl
@[simp] theorem State.setImage_serv (b : Bool) (x : Option FwImage) : (s.setImage b x).serv = s.serv := rfl
@[simp] theorem State.setImage_plc (b : Bool) (x : Option FwImage) : (s.setImage b x).plc = s.plc := rfl

/-! ## Updates of sec -/

@[simp] theorem State.setKeySlot_pending (n : Nat) (x : KeyS) : (s.setKeySlot n x).pending = s.pending := rfl
@[simp] theorem State.setKeySlot_free (n : Nat) (x : KeyS) : (s.setKeySlot n x).free = s.free := rfl
@[simp] theorem State.setKeySlot_cores (n : Nat) (x : KeyS) : (s.setKeySlot n x).cores = s.cores := rfl
@[simp] theorem State.setKeySlot_mem (n : Nat) (x : KeyS) : (s.setKeySlot n x).mem = s.mem := rfl
@[simp] theorem State.setKeySlot_poison (n : Nat) (x : KeyS) : (s.setKeySlot n x).poison = s.poison := rfl
@[simp] theorem State.setKeySlot_flips (n : Nat) (x : KeyS) : (s.setKeySlot n x).flips = s.flips := rfl
@[simp] theorem State.setKeySlot_mesh (n : Nat) (x : KeyS) : (s.setKeySlot n x).mesh = s.mesh := rfl
@[simp] theorem State.setKeySlot_ms (n : Nat) (x : KeyS) : (s.setKeySlot n x).ms = s.ms := rfl
@[simp] theorem State.setKeySlot_fab (n : Nat) (x : KeyS) : (s.setKeySlot n x).fab = s.fab := rfl
@[simp] theorem State.setKeySlot_bbx (n : Nat) (x : KeyS) : (s.setKeySlot n x).bbx = s.bbx := rfl
@[simp] theorem State.setKeySlot_ident (n : Nat) (x : KeyS) : (s.setKeySlot n x).ident = s.ident := rfl
@[simp] theorem State.setKeySlot_flash (n : Nat) (x : KeyS) : (s.setKeySlot n x).flash = s.flash := rfl
@[simp] theorem State.setKeySlot_hm (n : Nat) (x : KeyS) : (s.setKeySlot n x).hm = s.hm := rfl
@[simp] theorem State.setKeySlot_host (n : Nat) (x : KeyS) : (s.setKeySlot n x).host = s.host := rfl
@[simp] theorem State.setKeySlot_pwr (n : Nat) (x : KeyS) : (s.setKeySlot n x).pwr = s.pwr := rfl
@[simp] theorem State.setKeySlot_dbg (n : Nat) (x : KeyS) : (s.setKeySlot n x).dbg = s.dbg := rfl
@[simp] theorem State.setKeySlot_serv (n : Nat) (x : KeyS) : (s.setKeySlot n x).serv = s.serv := rfl
@[simp] theorem State.setKeySlot_plc (n : Nat) (x : KeyS) : (s.setKeySlot n x).plc = s.plc := rfl

/-! ## Updates of dbg -/

@[simp] theorem State.setHm_pending (h : BitVec 2) (x : HmCore) : (s.setHm h x).pending = s.pending := rfl
@[simp] theorem State.setHm_free (h : BitVec 2) (x : HmCore) : (s.setHm h x).free = s.free := rfl
@[simp] theorem State.setHm_cores (h : BitVec 2) (x : HmCore) : (s.setHm h x).cores = s.cores := rfl
@[simp] theorem State.setHm_mem (h : BitVec 2) (x : HmCore) : (s.setHm h x).mem = s.mem := rfl
@[simp] theorem State.setHm_poison (h : BitVec 2) (x : HmCore) : (s.setHm h x).poison = s.poison := rfl
@[simp] theorem State.setHm_flips (h : BitVec 2) (x : HmCore) : (s.setHm h x).flips = s.flips := rfl
@[simp] theorem State.setHm_mesh (h : BitVec 2) (x : HmCore) : (s.setHm h x).mesh = s.mesh := rfl
@[simp] theorem State.setHm_ms (h : BitVec 2) (x : HmCore) : (s.setHm h x).ms = s.ms := rfl
@[simp] theorem State.setHm_fab (h : BitVec 2) (x : HmCore) : (s.setHm h x).fab = s.fab := rfl
@[simp] theorem State.setHm_bbx (h : BitVec 2) (x : HmCore) : (s.setHm h x).bbx = s.bbx := rfl
@[simp] theorem State.setHm_ident (h : BitVec 2) (x : HmCore) : (s.setHm h x).ident = s.ident := rfl
@[simp] theorem State.setHm_flash (h : BitVec 2) (x : HmCore) : (s.setHm h x).flash = s.flash := rfl
@[simp] theorem State.setHm_hm (h : BitVec 2) (x : HmCore) : (s.setHm h x).hm = s.hm := rfl
@[simp] theorem State.setHm_host (h : BitVec 2) (x : HmCore) : (s.setHm h x).host = s.host := rfl
@[simp] theorem State.setHm_sec (h : BitVec 2) (x : HmCore) : (s.setHm h x).sec = s.sec := rfl
@[simp] theorem State.setHm_pwr (h : BitVec 2) (x : HmCore) : (s.setHm h x).pwr = s.pwr := rfl
@[simp] theorem State.setHm_serv (h : BitVec 2) (x : HmCore) : (s.setHm h x).serv = s.serv := rfl
@[simp] theorem State.setHm_plc (h : BitVec 2) (x : HmCore) : (s.setHm h x).plc = s.plc := rfl
@[simp] theorem State.dbgAnswer_pending (op : Nat) (tag : Byte) (code : Nat) (d : W64) : (s.dbgAnswer op tag code d).pending = s.pending := rfl
@[simp] theorem State.dbgAnswer_free (op : Nat) (tag : Byte) (code : Nat) (d : W64) : (s.dbgAnswer op tag code d).free = s.free := rfl
@[simp] theorem State.dbgAnswer_cores (op : Nat) (tag : Byte) (code : Nat) (d : W64) : (s.dbgAnswer op tag code d).cores = s.cores := rfl
@[simp] theorem State.dbgAnswer_mem (op : Nat) (tag : Byte) (code : Nat) (d : W64) : (s.dbgAnswer op tag code d).mem = s.mem := rfl
@[simp] theorem State.dbgAnswer_poison (op : Nat) (tag : Byte) (code : Nat) (d : W64) : (s.dbgAnswer op tag code d).poison = s.poison := rfl
@[simp] theorem State.dbgAnswer_flips (op : Nat) (tag : Byte) (code : Nat) (d : W64) : (s.dbgAnswer op tag code d).flips = s.flips := rfl
@[simp] theorem State.dbgAnswer_mesh (op : Nat) (tag : Byte) (code : Nat) (d : W64) : (s.dbgAnswer op tag code d).mesh = s.mesh := rfl
@[simp] theorem State.dbgAnswer_ms (op : Nat) (tag : Byte) (code : Nat) (d : W64) : (s.dbgAnswer op tag code d).ms = s.ms := rfl
@[simp] theorem State.dbgAnswer_fab (op : Nat) (tag : Byte) (code : Nat) (d : W64) : (s.dbgAnswer op tag code d).fab = s.fab := rfl
@[simp] theorem State.dbgAnswer_bbx (op : Nat) (tag : Byte) (code : Nat) (d : W64) : (s.dbgAnswer op tag code d).bbx = s.bbx := rfl
@[simp] theorem State.dbgAnswer_ident (op : Nat) (tag : Byte) (code : Nat) (d : W64) : (s.dbgAnswer op tag code d).ident = s.ident := rfl
@[simp] theorem State.dbgAnswer_flash (op : Nat) (tag : Byte) (code : Nat) (d : W64) : (s.dbgAnswer op tag code d).flash = s.flash := rfl
@[simp] theorem State.dbgAnswer_hm (op : Nat) (tag : Byte) (code : Nat) (d : W64) : (s.dbgAnswer op tag code d).hm = s.hm := rfl
@[simp] theorem State.dbgAnswer_host (op : Nat) (tag : Byte) (code : Nat) (d : W64) : (s.dbgAnswer op tag code d).host = s.host := rfl
@[simp] theorem State.dbgAnswer_sec (op : Nat) (tag : Byte) (code : Nat) (d : W64) : (s.dbgAnswer op tag code d).sec = s.sec := rfl
@[simp] theorem State.dbgAnswer_pwr (op : Nat) (tag : Byte) (code : Nat) (d : W64) : (s.dbgAnswer op tag code d).pwr = s.pwr := rfl
@[simp] theorem State.dbgAnswer_serv (op : Nat) (tag : Byte) (code : Nat) (d : W64) : (s.dbgAnswer op tag code d).serv = s.serv := rfl
@[simp] theorem State.dbgAnswer_plc (op : Nat) (tag : Byte) (code : Nat) (d : W64) : (s.dbgAnswer op tag code d).plc = s.plc := rfl

end Sys2Proof.Machine
end

