-- ==== Sys2Proof/Laws/Reads.lean ====
section
/-! SUPPORT. Reads after writes of the state's indexed parts: functions, rings, mailboxes, ports, traffic generators, key
slots, queues, accumulator entries, scalar registers, tickets. -/

namespace Sys2Proof.Machine

/-! ## Functions and rings -/

@[simp] theorem State.fn_setFn (s : State) (f : FnId) (x : Func) : (s.setFn f x).fn f = x := Sparse.get_put_same ..

theorem State.fn_setFn_other (s : State) (f g : FnId) (x : Func) (h : g ≠ f) : (s.setFn f x).fn g = s.fn g :=
  Sparse.get_put_other _ _ _ _ _ fun e => h (Fin.ext e)

@[simp] theorem State.fn_modFn (s : State) (f : FnId) (g : Func → Func) : (s.modFn f g).fn f = g (s.fn f) := State.fn_setFn ..

theorem State.fn_modFn_other (s : State) (f h : FnId) (g : Func → Func) (e : h ≠ f) : (s.modFn f g).fn h = s.fn h :=
  State.fn_setFn_other _ _ _ _ e

@[simp] theorem Func.ring_setRing (x : Func) (r : RingId) (g : Ring) : (x.setRing r g).ring r = g := Sparse.get_put_same ..

theorem Func.ring_setRing_other (x : Func) (r q : RingId) (g : Ring) (h : q ≠ r) : (x.setRing r g).ring q = x.ring q :=
  Sparse.get_put_other _ _ _ _ _ fun e => h (Fin.ext e)

@[simp] theorem State.ring_modRing (s : State) (f : FnId) (r : RingId) (g : Ring → Ring) :
    (s.modRing f r g).ring f r = g (s.ring f r) := by simp [State.ring, State.modRing]

@[simp] theorem State.fn_send (s : State) (p : Posted) (f : FnId) : (s.send p).fn f = s.fn f := rfl

@[simp] theorem State.mbx_modMbx (s : State) (i : Issuer) (g : Mbx → Mbx) : (s.modMbx i g).mbx i = g (s.mbx i) := by
  cases i <;> simp [State.mbx, State.modMbx]

/-! ## Ports, generators, key slots -/

@[simp] theorem State.port_setPort (s : State) (p : PortId) (f : FPort) : (s.setPort p f).port p = f := by
  simp [State.port, State.setPort]

theorem State.port_setPort_other (s : State) (p q : PortId) (f : FPort) (h : q ≠ p) : (s.setPort p f).port q = s.port q := by
  have : p.val ≠ q.val := fun e => h (Fin.ext e.symm)
  simp [State.port, State.setPort, this]

@[simp] theorem State.tgc_setTgc (s : State) (ch : ChannelId) (g : Tgc) : (s.setTgc ch g).tgc ch = g := Sparse.get_put_same ..

theorem State.tgc_setTgc_other (s : State) (ch d : ChannelId) (g : Tgc) (h : d ≠ ch) : (s.setTgc ch g).tgc d = s.tgc d :=
  Sparse.get_put_other _ _ _ _ _ fun e => h (Fin.ext e)

@[simp] theorem State.keySlot_setKeySlot (s : State) (n : Nat) (x : KeyS) : (s.setKeySlot n x).keySlot n = x :=
  Sparse.get_put_same ..

theorem State.keySlot_setKeySlot_other (s : State) (n k : Nat) (x : KeyS) (h : k ≠ n) :
    (s.setKeySlot n x).keySlot k = s.keySlot k := Sparse.get_put_other _ _ _ _ _ h

/-! ## Inside a core -/

@[simp] theorem Core.queue_setQueue (k : Core) (q : Nat) (h : HQueue) : (k.setQueue q h).queue q = h := Sparse.get_put_same ..

theorem Core.queue_setQueue_other (k : Core) (q n : Nat) (h : HQueue) (e : n ≠ q) : (k.setQueue q h).queue n = k.queue n :=
  Sparse.get_put_other _ _ _ _ _ e

@[simp] theorem Core.accAt_setAcc (k : Core) (b : Bool) (n : Nat) (e : AccEntry) : (k.setAcc b n e).accAt n = e :=
  Sparse.get_put_same ..

theorem Core.accAt_setAcc_other (k : Core) (b : Bool) (n m : Nat) (e : AccEntry) (h : m ≠ n) :
    (k.setAcc b n e).accAt m = k.accAt m := Sparse.get_put_other _ _ _ _ _ h

/-- s0 reads as zero whatever is written to it (R251). -/
@[simp] theorem Core.sreg_zero (k : Core) : k.sreg 0 = 0 := rfl

theorem Core.s_setS (k : Core) (r : RegIx) (x : W64) (h : r ≠ 0) : (k.setS r x).s = k.s.set! r.toNat x := by
  unfold Core.setS; rw [if_neg h]

@[simp] theorem Core.sreg_setS (k : Core) (r : RegIx) (x : W64) : (k.setS r x).sreg r = if r = 0 then 0 else x := by
  unfold Core.sreg
  split
  · rfl
  · rename_i h
    have h2 : r.toNat < 32 := r.isLt
    rw [Core.s_setS k r x h, getElem!_pos (k.s.set! r.toNat x) r.toNat h2]; simp

theorem Core.sreg_setS_other (k : Core) (r q : RegIx) (x : W64) (h : q ≠ r) : (k.setS r x).sreg q = k.sreg q := by
  have h1 : r.toNat ≠ q.toNat := fun e => h (BitVec.eq_of_toNat_eq e.symm)
  have h2 : q.toNat < 32 := q.isLt
  by_cases hr : r = 0
  · unfold Core.setS; rw [if_pos hr]
  · unfold Core.sreg
    split
    · rfl
    · rw [Core.s_setS k r x hr, getElem!_pos (k.s.set! r.toNat x) q.toNat h2, getElem!_pos k.s q.toNat h2]; simp [h1]

end Sys2Proof.Machine
end

