-- ==== Sys2Proof/Laws/Shared.lean ====
section
/-! SUPPORT. Shared operations: what each of them does, case by case, for the statements' proofs to cite. -/

namespace Sys2Proof.Machine

/-! ## Where a command acts at all -/

theorem State.live_next (s : State) (f : State → State) (h : s.hm.down = false) : s.live f = .next (f s) := by
  simp [State.live, h]

theorem State.live_down (s : State) (f : State → State) (h : s.hm.down = true) : s.live f = .next s := by
  simp [State.live, h]

theorem State.command_taken (s : State) (i : Issuer) (op : W16) (f : State → State) (h : s.taken i op = true) :
    s.command i op f = f s := by simp [State.command, h]

theorem State.command_other (s : State) (i : Issuer) (op : W16) (f : State → State) (h : s.taken i op = false) :
    s.command i op f = s := by simp [State.command, h]

/-- R407, R414: a command that needs buffers waits until its issuer has them. -/
theorem State.hostCommand_eq (s : State) (i : Issuer) (op : W16) (f : State → State) :
    s.hostCommand i op f = if s.taken i op = true ∧ s.hasBuffers i = true then f s else s := by
  unfold State.hostCommand State.command State.hasBuffers
  by_cases h : s.taken i op = true <;> cases i <;> simp [h]

/-- R415: a command that works under a ticket. -/
theorem State.issue_eq (s : State) (i : Issuer) (op : W16) (unit : Byte) (total object : Nat) (go : W32 → State → State) :
    s.issue i op unit total object go
      = if s.ticketsFull i = true then s.reply i stBusy []
        else go (s.told i op unit total object).1 (s.told i op unit total object).2 := rfl

/-- The work of a stage happens after the stage before it, in a start that has not failed. -/
theorem State.afterStage_eq (s : State) (n : Nat) (f : State → State) :
    s.afterStage n f = if s.hm.down = false ∧ s.hm.state ≠ 3 ∧ s.pwr.stage = n then f s else s := by
  unfold State.afterStage
  by_cases h1 : s.hm.down = true <;> by_cases h2 : s.hm.state = 3 <;> by_cases h3 : s.pwr.stage = n <;> simp [h1, h2, h3]

/-! ## The debug port (R489, R490) -/

theorem State.dbgOp_unasked (s : State) (op : Nat) (scope : Option Nat) (tag : Byte) (arg : Nat) (go : State → DbgEnd)
    (h : s.dbg.asks op tag arg 0 0 = false) : s.dbgOp op scope tag arg go = s := by
  unfold State.dbgOp State.dbgServe; rw [h]; rfl

theorem State.dbgOp_locked (s : State) (op b : Nat) (tag : Byte) (arg : Nat) (go : State → DbgEnd)
    (h : s.dbg.asks op tag arg 0 0 = true) (hs : s.sec.scope.getLsbD b = false) :
    s.dbgOp op (some b) tag arg go = s.dbgAnswer op tag dbgLocked 0 := by
  unfold State.dbgOp State.dbgServe; rw [h, Option.map_some, hs]; rfl

theorem State.dbgOp_served (s : State) (op b : Nat) (tag : Byte) (arg : Nat) (go : State → DbgEnd)
    (h : s.dbg.asks op tag arg 0 0 = true) (hs : s.sec.scope.getLsbD b = true) :
    s.dbgOp op (some b) tag arg go = (go s).st.dbgAnswer op tag (go s).code (go s).data := by
  unfold State.dbgOp State.dbgServe; rw [h, Option.map_some, hs]; rfl

theorem State.dbgOp_open (s : State) (op : Nat) (tag : Byte) (arg : Nat) (go : State → DbgEnd)
    (h : s.dbg.asks op tag arg 0 0 = true) :
    s.dbgOp op none tag arg go = (go s).st.dbgAnswer op tag (go s).code (go s).data := by
  unfold State.dbgOp State.dbgServe; rw [h]; rfl

/-! ## Raising a core fault (R265) -/

/-- The first fault of a task fills the record and stops issue. -/
theorem Core.raise_first (k : Core) (f : FaultReq) (h : k.seq.fault = none) :
    ∃ r, (k.raise f).seq.fault = some r ∧ (k.raise f).seq.state = .faulted ∧ r.cause = BitVec.ofNat 16 f.cause
      ∧ r.bundle = f.bundle ∧ r.detail = BitVec.ofNat 64 f.detail ∧ r.stall = k.stallNow
      ∧ (k.raise f).s = k.s ∧ (k.raise f).v = k.v ∧ (k.raise f).acc = k.acc ∧ (k.raise f).dqu = k.dqu
      ∧ (k.raise f).sb = k.sb := by
  unfold Core.raise
  rw [h]
  exact ⟨_, rfl, rfl, rfl, rfl, rfl, rfl, rfl, rfl, rfl, rfl, rfl⟩

/-- A later fault of the task only adds to the record's count. -/
theorem Core.raise_later (k : Core) (f : FaultReq) (r : FaultRec) (h : k.seq.fault = some r) (ht : k.seq.faultThisTask = true) :
    k.raise f = { k with seq := { k.seq with fault := some { r with more := if r.more = 15#4 then 15#4 else r.more + 1 } } } := by
  unfold Core.raise
  rw [h, ht]

end Sys2Proof.Machine
end

