-- ==== Sys2Proof/WellFormed.lean ====
section
/-! DEFINITION. Well-formed commands: operands that the outside of the block can present. A check here rules out only what no
wire, frame or record could carry; what the manual lets a sender do wrong (a bad CRC, a field out of its range) is well-formed
and has its meaning in Machine. -/

namespace Sys2Proof

/-- Why no sender can present a command. -/
inductive Flaw where
  /-- A frame with more payload words than a frame holds (R376). -/
  | framePayload
  /-- A datagram longer than a MAC frame (R391). -/
  | datagramLength
  /-- More errors than a scrubber access reads words, or a word outside the memory (R264). -/
  | scrubWord
  /-- A shipped berth image that is not one 4 KiB page (R212). -/
  | shipPage
  /-- A factor pair without one column for each of r + dout (R342). -/
  | factorColumns
  /-- Content of a tile write that is not 4,096 bytes (R305). -/
  | tileContent
  /-- A rank, a slot or a row that a slice of at most eight modules does not have (R382). -/
  | sliceRank
  /-- A rack frame longer than its length field allows (R445). -/
  | rackLength
  /-- A sensor reading wider than its register (R477). -/
  | sensorWidth
  /-- A completion of a ring entry's read that does not carry the entry's four words (R402, R413). -/
  | hostData
  deriving DecidableEq, Repr

/-- Words of the memories that the idle scrubber visits (R264). -/
def scrubWords : ScrubMem → Nat
  | .scratchpad => 131072
  | .punnet => 32768
  | .accumulator => 32768

def flawUnless (ok : Bool) (f : Flaw) : Option Flaw := if ok then none else some f

def frameFlaw (fr : Frame) : Option Flaw := flawUnless (decide (fr.payload.length ≤ 512)) .framePayload

def datagramFlaw (d : Datagram) : Option Flaw := flawUnless (decide (32 + d.data.length ≤ 9216)) .datagramLength

def boundaryFlaw (b : BoundaryIn) : Option Flaw := flawUnless (b.peers.all fun p => decide (p.rank < 8)) .sliceRank

/-- The first flaw of a command, if it has one. -/
def Instr.flaw : Instr → Option Flaw
  | .scrubAccess _ found =>
    flawUnless (decide (found.length ≤ 8) && found.all fun f => decide (f.word < scrubWords f.mem)) .scrubWord
  | .frameReceive _ fr _ => frameFlaw fr
  | .idleFrame _ fr => frameFlaw fr
  | .writeFrame _ fr => frameFlaw fr
  | .readRequest _ fr => frameFlaw fr
  | .readResponse _ fr => frameFlaw fr
  | .writeAck _ fr => frameFlaw fr
  | .refusalFrame _ fr => frameFlaw fr
  | .contributionFrame _ fr => frameFlaw fr
  | .messageFrame _ fr => frameFlaw fr
  | .linkNak _ fr => frameFlaw fr
  | .uplinkData _ d => datagramFlaw d
  | .uplinkAck _ d => datagramFlaw d
  | .uplinkOpen _ d => datagramFlaw d
  | .uplinkClose _ d => datagramFlaw d
  | .uplinkReset _ d => datagramFlaw d
  | .shipmentReceive _ _ _ _ xs _ => flawUnless (xs.all fun x => x.page.length == 512) .shipPage
  | .adapterInstall _ _ fs _ _ => flawUnless (fs.all fun f => f.cols.length == f.r + f.dout) .factorColumns
  | .tileWrite _ _ content _ => flawUnless (content.length == 512) .tileContent
  | .boundaryExchange b => boundaryFlaw b
  | .musterRecord m => flawUnless (decide (m.slot < 8) && decide (m.rank < 8)) .sliceRank
  | .rackMailboxRequest _ _ args => flawUnless (decide (args.length ≤ 2032)) .rackLength
  | .rackFrameUndefined _ _ len _ => flawUnless (decide (len < 65536)) .rackLength
  | .thermalSample r => flawUnless (decide (r.powerW < 65536)) .sensorWidth
  | .hostReadCompletion _ _ ok _ data => flawUnless (!ok || data.length == 4) .hostData
  | _ => none

/-- A command that some sender can present. -/
def Instr.wf (i : Instr) : Bool := i.flaw.isNone

end Sys2Proof
end

