-- ==== Sys2Proof/Tests/Slice0.lean ====
section
/-! SUPPORT. Own tests: the well-formedness checks, slot words written out from the manual's encodings, single steps on small
states, and for every statement with hypotheses a state that meets them. A name `witness_X` belongs to the statement X. -/

namespace Sys2Proof.Tests

set_option Elab.async false

open Sys2Proof Sys2Proof.Machine

/-- The state that a command leaves. -/
def out (o : Host.Outcome State Fault Refusal) : State :=
  match o with
  | .next t => t
  | _ => State.reset

/-! ## Well-formedness: one ill-formed command for each flaw -/

def frame0 : Frame :=
  ⟨1, 0, false, true, false, true, 0, 0, 0, 1, 0, 0, 0, 0, 0, 0, 0, 0, 0, 0, 0, 0, true, []⟩

def data0 : Datagram := ⟨0, 1, 0, 0, 0, true, false, true, []⟩

def sensors0 : Sensors := ⟨Vector.replicate 16 40, Vector.replicate 4 50, 30, 1000, 2500, 4200⟩

def peer0 : PeerRecord := ⟨1, [], [], [], [], [], 0, true, false, false, false⟩

def ship0 : ShipState := ⟨0, 0, 0, 0, 0, 0, 0, 0, [], [], 0, 0, none, 0, none, []⟩

theorem test_wf_frame : (Instr.writeFrame 0 { frame0 with payload := List.replicate 513 0 }).flaw = some .framePayload := by
  decide +kernel
theorem test_wf_datagram : (Instr.uplinkData 0 { data0 with data := List.replicate 9185 0 }).flaw = some .datagramLength := by
  decide +kernel
theorem test_wf_scrub : (Instr.scrubAccess 0 [⟨.scratchpad, 131072, true⟩]).flaw = some .scrubWord := by decide +kernel
theorem test_wf_ship :
    (Instr.shipmentReceive 0 0 0 ship0 [⟨0, 0, [0], none⟩] true).flaw = some .shipPage := by decide +kernel
theorem test_wf_factor :
    (Instr.adapterInstall .rack 1 [⟨0, 8, 1, 2, [(0, []), (0, [])], []⟩] .ok true).flaw = some .factorColumns := by
  decide +kernel
theorem test_wf_tile : (Instr.tileWrite .rack 0 [0] .ok).flaw = some .tileContent := by decide +kernel
theorem test_wf_rank : (Instr.boundaryExchange ⟨[{ peer0 with rank := 8 }]⟩).flaw = some .sliceRank := by
  decide +kernel
theorem test_wf_muster : (Instr.musterRecord ⟨8, 0, 0, 0, 0, 0⟩).flaw = some .sliceRank := by decide +kernel
theorem test_wf_rack : (Instr.rackMailboxRequest 0 1 (List.replicate 2033 0)).flaw = some .rackLength := by decide +kernel
theorem test_wf_sensor : (Instr.thermalSample { sensors0 with powerW := 65536 }).flaw = some .sensorWidth := by decide +kernel
theorem test_wf_host : (Instr.hostReadCompletion 0 0 true false [0]).flaw = some .hostData := by decide +kernel
theorem test_wf_ok : (Instr.writeFrame 0 frame0).wf = true ∧ (Instr.uplinkData 0 data0).wf = true
    ∧ (Instr.thermalSample sensors0).wf = true := by decide +kernel

/-! ## Slot words, written out field by field -/

/-- R252: op 0x10 in [63:58], rd 3 in [57:53], ra 1 in [52:48], imm −8 in [31:0]. -/
theorem test_word_addi : Decode.ctl 0b010000_00011_00001_00000_00000000000_11111111111111111111111111111000#64
    = .aluImm .addi 3 1 0xFFFFFFF8 := by decide +kernel
/-- R252: op 0x19, ra 1, rb 2 in [47:43], imm[19:0] 0x10. -/
theorem test_word_sst : Decode.ctl 0b011001_00000_00001_00010_00000000000_00000000000000000000000000010000#64
    = .sst 1 2 0x10 := by decide +kernel
/-- R252: bit 32 is reserved. -/
theorem test_word_reserved : Decode.ctl 0b000001_00011_00001_00010_00000000001_00000000000000000000000000000000#64
    = .undefined := by decide +kernel
/-- R254: op 0x29, count in imm[31:12], body in imm[11:0]. -/
theorem test_word_loopi : Decode.ctl 0b101001_00000_00000_00000_00000000000_00000000000000000101_000000000011#64
    = .loopi 5 3 := by decide +kernel
/-- R87: op 0x3, emask 0b1010 in [59:56], bld in [55]. -/
theorem test_word_pfence : Decode.pun 0b0011_1010_1_0000000000000000000000000000000000000000000000000000000#64
    = .pfence 0b1010 true := by decide +kernel

/-! ## States with a task -/

/-- Core 0 runs at offset 64 of a program region of 512 bytes. -/
def seq0 : Seq := { Seq.reset with state := .running, nbm1 := 15, pc := 64, cc := 100, issues := 7 }

/-- s1 holds an offset outside the region, s2 the number 5, s3 the last 8 bytes of the window. -/
def core0 : Core :=
  { Core.reset with seq := seq0, s := ((Core.reset.s.set! 1 0x10000).set! 2 5).set! 3 0xFFFF8 }

def with0 (k : Core) : State := { State.reset with cores := [(0, k)] }

def run0 : State := with0 core0

/-- The last bundle that fits the region. -/
def runLast : State := with0 { core0 with seq := { seq0 with pc := 480 } }

/-! ## Control slot -/

theorem witness_ScalarResults : canIssue 0 run0 ∧ canIssue 0 runLast := by unfold canIssue; decide +kernel

theorem test_sub_wraps : (((out (exec (.sub 0 4 2 1) run0)).core 0).settle 101).sreg 4 = 0xFFFFFFFFFFFF0005#64 := by
  decide +kernel
theorem test_lih : (((out (exec (.lih 0 1 0xABCD0123) run0)).core 0).settle 101).sreg 1 = 0xABCD012300010000#64 := by
  decide +kernel
theorem test_slt_signed : (((out (exec (.sra 0 4 2 2) (with0 { core0 with s := core0.s.set! 2 0x8000000000000004 }))).core
    0).settle 101).sreg 4 = 0xF800000000000000#64 := by decide +kernel

theorem witness_BundlesWithoutAResult : canIssue 0 run0 ∧ (run0.front 0).sb.toList.all (·.isNone) = true
    ∧ (run0.front 0).dqu.transfers = [] ∧ (run0.front 0).dqu.puts = [] := by unfold canIssue; decide +kernel

/-- Core 0 with a scoreboard entry, a put, a build and a lookup that are not over. -/
def plook0 : Plook :=
  { id := 9, bundle := 64, base := 0x10000, rs := 32, ps := 0, gs := 1, firstRow := 0, blk := 0, mask := [], pw := false,
    fresh := true, tile := 0, nRow := 1, nPl := 1, nHalf := 1, entry := 0, h0 := 0, chk := none, fetchSlot := 0,
    fetchRow := 0, fetchPlane := 0, verdictSlot := 0, retrying := false, sumA := 0, sumB := 0, invA := false, invB := false,
    cleared := [], longRows := [], ovfRows := [], sums := [] }

def build0 : Build := ⟨5, 32, 1, 0x10000, 0, 0, 1, 0, ⟨[], 0, false, false, false⟩, false⟩

def runWaits : State := with0 { core0 with
  sb := core0.sb.set! 31 (some (spRange .await 0x20000 64 .byBytes)),
  builds := [build0], engines := core0.engines.set! 3 { Engine.idle with queue := [plook0] },
  dqu := { core0.dqu with puts := [⟨0, 32⟩] } }

theorem witness_WaitingBundlesStall : canIssue 0 runWaits ∧ (runWaits.front 0).sb.toList.any (·.isSome) = true
    ∧ (runWaits.front 0).dqu.puts ≠ [] ∧ (∃ e : EngineId, (8#4).getLsbD e.val = true ∧ (runWaits.front 0).engines[e].queue ≠ [])
    ∧ (runWaits.front 0).builds ≠ [] := by unfold canIssue; decide +kernel

theorem test_pfence_stalls : (out (exec (.pfence 0 8 false) runWaits)).core 0 |>.seq.state |> (· = SeqState.stalled) := by
  decide +kernel

/-- Inside a body of one bundle that is open. -/
def runLoop : State := with0 { core0 with seq := { seq0 with loops := [⟨64, 128, 3⟩] } }

theorem witness_BranchesAndLoopsIssue :
    canIssue 0 runLoop ∧ (runLoop.front 0).inBody (64 + 32 * (2#24).toInt) = true ∧ (runLoop.front 0).sreg 0 = 0
      ∧ (runLoop.front 0).sreg 2 ≠ 0 ∧ (runLoop.front 0).inBody 128 = true ∧ (runLoop.front 0).seq.loops.length < 4
      ∧ (∀ f ∈ (runLoop.front 0).seq.loops.head?, 64 + 32 * ((1#12).toNat + 1) ≤ f.last ∧ f.last ≠ 64)
      ∧ ((runLoop.front 0).sreg 2).toNat < 2 ^ 32 := by unfold canIssue; decide +kernel

theorem witness_JumpRegister : canIssue 0 (with0 { core0 with s := core0.s.set! 2 96 })
    ∧ (((with0 { core0 with s := core0.s.set! 2 96 }).front 0).sreg 2).toNat % 2 ^ 20 % 32 = 0 := by
  unfold canIssue; decide +kernel

theorem test_branch_leaves_body : (out (exec (.jmp 0 3) runLoop)).core 0 |>.seq.state |> (· = SeqState.faulted) := by
  decide +kernel

theorem witness_WhereControlGoes :
    core0.seq.state ≠ .faulted ∧ core0.seq.loops = [] ∧ core0.seq.stepOnce = false ∧ (2 ^ 20 - 64) + 32 < 2 ^ 20
      ∧ ((runLoop.front 0).seq.loops = [⟨64, 128, 3⟩] ∧ (0 : Nat) < 3 ∧ 128 + 32 < 2 ^ 20) := by decide +kernel

theorem test_loop_ends : (({ core0 with seq := { seq0 with loops := [⟨64, 128, 0⟩] } } : Core).afterIssue 128 .seq).seq.pc = 160#20
    ∧ (({ core0 with seq := { seq0 with loops := [⟨64, 128, 1⟩] } } : Core).afterIssue 128 .seq).seq.pc = 64#20 := by
  decide +kernel

theorem witness_ScalarResultsAreVisibleAtTheirLatency : core0.pend = [] := rfl

/-- s3 + 0 is the last 8 aligned bytes of the window. -/
theorem witness_ScalarLoadsAndStores :
    canIssue 0 run0 ∧ run0.calm 0 = true ∧ ((run0.front 0).sreg 3).toNat % 8 = 0 ∧ ((run0.front 0).sreg 3).toNat + 8 ≤ 2 ^ 20
      ∧ (run0.front 0).takes [spRange .read 0xFFFF8 8 (.atCc 102)] ∧ run0.spPoison? 0 0xFFFF8 8 = none
      ∧ (run0.front 0).takes [spRange .write 0xFFFF8 8 (.atCc 102)] := by unfold canIssue Core.takes; decide +kernel

theorem test_sst : (out (exec (.sst 0 1 2 8) run0)).byte (spKey 0 0x10008) = 5 := by decide +kernel
theorem test_sst_misaligned : (out (exec (.sst 0 1 2 4) run0)).core 0 |>.seq.state |> (· = SeqState.faulted) := by
  decide +kernel
theorem test_sld : (((out (exec (.sld 0 4 1 0) (run0.wr (spKey 0 0x10000) 8 77))).core 0).settle 104).sreg 4 = 77#64 := by
  decide +kernel

/-! ## Vector slot -/

def vec0 (x : W32) : BitVec 1024 := BitVec.ofNat 1024 x.toNat

/-- v1 holds 1.5 in lane 0, v2 holds 2.5. -/
def coreV : Core := { core0 with v := (core0.v.set! 1 (vec0 0x3FC00000)).set! 2 (vec0 0x40200000) }

theorem witness_FloatLaneResults : canIssue 0 (with0 coreV) ∧ (with0 coreV).pipeFree 0 pipeArith
    ∧ fpFieldsOk .add ⟨3, 1, 2, 0, false⟩ = true ∧ fpFieldsOk .add ⟨3, 1, 2, 1, false⟩ = false := by
  unfold canIssue State.pipeFree; decide +kernel

/-- 1.5 + 2.5 = 4.0, visible 4 cc later; 1.5 × 2.5 = 3.75. -/
theorem test_vadd : lane ((((out (exec (.vadd 0 ⟨3, 1, 2, 0, false⟩) (with0 coreV))).core 0).settle 104).vreg 3) 0 = 0x40800000#32 := by
  decide +kernel
theorem test_vmul : lane ((((out (exec (.vmul 0 ⟨3, 1, 2, 0, false⟩) (with0 coreV))).core 0).settle 104).vreg 3) 0 = 0x40700000#32 := by
  decide +kernel

theorem witness_IntegerAndMoveResults : canIssue 0 (with0 coreV) ∧ (with0 coreV).pipeFree 0 pipeArith := by
  unfold canIssue State.pipeFree; decide +kernel

theorem test_vext : (((out (exec (.vext 0 4 2 0) (with0 coreV))).core 0).settle 103).sreg 4 = 0x40200000#64 := by decide +kernel

/-- R162: 2.5 converts to 2, ties to even. -/
theorem test_vcvtfi : lane ((((out (exec (.vcvtfi 0 3 2) (with0 coreV))).core 0).settle 103).vreg 3) 0 = 2#32 := by decide +kernel

/-- The special-function pipe is free again in this cc: the boundary. -/
theorem witness_SpecialFunctionResults : canIssue 0 (with0 coreV)
    ∧ (with0 { coreV with pipes := coreV.pipes.set! pipeSpecial ⟨100, 110⟩ }).pipeFree 0 pipeSpecial := by
  unfold canIssue State.pipeFree; decide +kernel

/-- s4 lies 128 bytes before the window's end, s5 64, s6 1,024; s1 + 4 is aligned to an element only. -/
def coreW : Core := { coreV with s := ((core0.s.set! 4 0xFFF80).set! 5 0xFFFC0).set! 6 0xFFC00 }

theorem witness_VectorMemoryAndTiles :
    let s := with0 coreW
    let k := s.front 0
    canIssue 0 s ∧ s.calm 0 = true ∧ s.pipeFree 0 pipeMem ∧ s.pipeFree 0 pipeTile
      ∧ (k.sreg 4).toNat + 128 ≤ 2 ^ 20 ∧ k.takes [spRange .read 0xFFF80 128 (.atCc 104)] ∧ s.spPoison? 0 0xFFF80 128 = none
      ∧ k.takes [spRange .write 0xFFF80 128 (.atCc 104)]
      ∧ k.takes [spRange .read 0x10004 128 (.atCc 105)] ∧ k.takes [spRange .write 0x10004 128 (.atCc 105)]
      ∧ (k.sreg 5).toNat + 64 ≤ 2 ^ 20 ∧ k.takes [spRange .read 0xFFFC0 64 (.atCc 104)]
      ∧ k.takes [spRange .write 0xFFFC0 64 (.atCc 104)] ∧ (k.sreg 6).toNat + 1024 ≤ 2 ^ 20
      ∧ k.takes [spRange .read 0xFFC00 1024 (.atCc 110)] ∧ k.takes [spRange .write 0xFFC00 1024 (.atCc 108)]
      ∧ (14#4).toNat % 2 = 0 := by
  unfold canIssue State.pipeFree Core.takes; decide +kernel

theorem test_vst : (out (exec (.vst 0 1 2 0) (with0 coreV))).byte (spKey 0 0x10003) = 0x40 := by decide +kernel
theorem test_vld_past_window : (out (exec (.vld 0 3 5 0) (with0 coreW))).core 0 |>.seq.state |> (· = SeqState.faulted) := by
  decide +kernel

/-- Context 0 keeps the largest of what it is fed; context 1 sums. -/
def coreR : Core :=
  { coreV with ctx := (coreV.ctx.set! 0 (RedCtx.begin .argmax 1 0)).set! 1 (RedCtx.begin .sum 1 0) }

theorem witness_ReductionAndRandomResults :
    let s := with0 coreR
    canIssue 0 s ∧ s.pipeFree 0 pipeRed ∧ s.pipeFree 0 pipeRand ∧ ((s.front 0).ctxAt 0).active = true
      ∧ ((s.front 0).ctxAt 0).count + (31#5).toNat + 1 < 2 ^ 32 ∧ ((s.front 0).ctxAt 0).mode ≠ .sum
      ∧ ((s.front 0).ctxAt 1).mode = .sum ∧ ((s.front 0).ctxAt 1).active = true
      ∧ (4#3).toNat ≤ 4 ∧ ((s.front 0).ctxAt 0).partOk 4 = true ∧ ((s.front 0).ctxAt 1).partOk 0 = true := by
  unfold canIssue State.pipeFree; decide +kernel

/-- R170: the first word of Philox4x32-10 of a zero counter under a zero key, as its authors publish it. -/
theorem test_philox : (philox 0 ⟨0, 0, 0, 0⟩).word 0 = 0x6627E8D5#32 := by decide +kernel

/-! ## Punnet slot and accumulator class -/

/-- `core0` with further scalar registers. -/
def regs0 (xs : List (Nat × W64)) : Core :=
  { core0 with s := xs.foldl (fun v p => v.set! p.1 p.2) core0.s }

/-- A build of 16 records of fmt 0 that ends at the window's end, with the last block number; a lookup of 256 rows, 5 planes and 16
halves that ends there too; a mask descriptor at the window's last 16 bytes, its bitmap at 0x90000, 4 tile rows of 16 tiles. -/
def corePun : Core :=
  regs0 [(1, 0xFFD00), (2, 0xFFFFFFF0), (3, 0x10000), (4, 0x0000010000100001), (5, 0xFFFFFFF0), (6, 0xFFFF0)]

def bldArgs : PbldArgs := ⟨15, 1, 2, 0, 15⟩

def lookArgs : PlookArgs := ⟨3, 3, 4, 5, 6, false, true, false, 63, 255, 4, 15, 0, 0⟩

def punState : State :=
  (with0 { corePun with s := (corePun.s.set! 4 0x0000100000100001).set! 7 (BitVec.ofNat 64 (2 ^ 20 - 48 * 16)) }).wr (spKey 0 0xFFFF0) 16
    (0x90000 + 16 * 2 ^ 32 + 4 * 2 ^ 64)

theorem witness_PunnetInstructionsAreQueued :
    let s := punState
    let k := s.front 0
    let x := s.point 0
    let a := lookArgs
    let p := plookOf k x a []
    let codes := [spRange .read p.base (p.codeAt (p.nRow - 1) (p.nPl - 1) (16 * p.nHalf - 1) + 1 - p.base) (.byUnit (readsDone p.id))]
    let entries := [{ accRange .write (p.tile * 256 + p.entry) p.nRow (.byUnit (writesDone p.id)) with
      plook := true, fresh := p.fresh }]
    let masks := [spRange .read 0xFFFF0 16 (.byUnit (readsDone p.id)), spRange .read 0x90000 8 (.byUnit (readsDone p.id))]
    canIssue 0 s ∧ bldArgs.emask ≠ 0 ∧ (k.sreg 7).toNat % 8 = 0 ∧ (k.sreg 7).toNat + 16 * recBytes 0 = 2 ^ 20
      ∧ (k.sreg 2).toNat + 16 = 2 ^ 32 ∧ k.builds.length < 4
      ∧ k.takes [spRange .read (k.sreg 7).toNat (16 * recBytes 0) (.byUnit (readsDone (x.id + 1)))]
      ∧ plookFieldsOk a = true ∧ p.inWindow = true ∧ p.blk + p.nHalf = 2 ^ 32 ∧ k.engines[a.eng].queue.length < 4
      ∧ k.takes (codes ++ entries) ∧ (k.sreg a.sMask).toNat + 16 = 2 ^ 20 ∧ k.descWaits 0xFFFF0 16 = false
      ∧ s.spPoison? 0 0xFFFF0 16 = none ∧ (p.firstRow + p.nRow - 1) / 80 = 3 ∧ fld (s.spRd 0 0xFFFF0 16) 64 32 = 4
      ∧ fld (s.spRd 0 0xFFFF0 16) 32 32 = 16 ∧ s.spPoison? 0 0x90000 8 = none ∧ k.takes (codes ++ masks ++ entries)
      ∧ (∀ e : EngineId, k.engines[e].queue = []) := by
  unfold canIssue Core.takes; decide +kernel

/-- The mask's last bit lies in the window's last byte. -/
theorem witness_MaskedLookup :
    let s := (with0 { corePun with s := corePun.s.set! 4 0x0000100000100001 }).wr (spKey 0 0xFFFF0) 16 (0xFFFE8 + 16 * 2 ^ 32 + 4 * 2 ^ 64)
    let k := s.front 0
    let p := plookOf k (s.point 0) { lookArgs with sPos := 0 } []
    s.calm 0 = true ∧ p.blk + p.nHalf ≤ 2 ^ 32 ∧ (p.firstRow + p.nRow - 1) / 80 < fld (s.spRd 0 0xFFFF0 16) 64 32
      ∧ 0xFFFE8 + (3 * 16 + 16 - 1) / 8 < 2 ^ 20 ∧ 0xFFFE8 + (3 * 16 + p.blk + p.nHalf - 1) / 8 < 2 ^ 20
      ∧ s.spPoison? 0 0xFFFE8 8 = none := by decide +kernel

theorem test_pbld_empty_mask : (out (exec (.pbld 0 { bldArgs with emask := 0 }) punState)).core 0 |>.seq.fault.map (·.cause)
    |> (· = some 0x0301) := by decide +kernel

/-- s1 holds 256 records that end at the window's end, s2 a descriptor. -/
def coreAcc : Core := regs0 [(1, 0xFF000), (2, 0xFFFF0)]

/-- R115's descriptor with the largest Nc. -/
def accState : State := (with0 coreAcc).wr (spKey 0 0xFFFF0) 16 (12 * 2 ^ 104)

theorem witness_AccumulatorInstructions :
    let s := accState
    let k := s.front 0
    let x := s.point 0
    canIssue 0 s ∧ s.calm 0 = true ∧ k.verdictsOpen 63 = false ∧ (chkDescOf (s.spRd 0 0xFFFF0 16)).isSome = true ∧ k.descWaits 0xFFFF0 16 = false
      ∧ s.spPoison? 0 0xFFFF0 16 = none ∧ k.takes [spRange .read 0xFFFF0 16 (.atCc (x.now + 2))]
      ∧ k.takes [accRange .write (63 * 256) 256 (.atCc (x.now + 1 + 256))]
      ∧ (∀ e < 256, (k.accAt (63 * 256 + e)).bad = false ∧ (k.accAt (62 * 256 + e)).bad = false)
      ∧ k.takes [accRange .write (63 * 256) 256 (.atCc (x.now + 6 + 256)), accRange .read (62 * 256) 256 (.atCc (x.now + 256))]
      ∧ (k.sreg 1).toNat % 16 = 0 ∧ (k.sreg 1).toNat + 16 * 256 = 2 ^ 20 ∧ s.spPoison? 0 0xFF000 4096 = none
      ∧ k.takes [spRange .read 0xFF000 4096 (.atCc (x.now + 256)), accRange .write (63 * 256) 256 (.atCc (x.now + 4 + 256))]
      ∧ k.takes [accRange .read (63 * 256) 256 (.atCc (x.now + 256)), spRange .write 0xFF000 4096 (.atCc (x.now + 4 + 256))] := by
  unfold canIssue Core.takes; decide +kernel

/-- One entry more than the tile has. -/
theorem test_aclr_past_tile : (out (exec (.aclr 0 63 1 255) accState)).core 0 |>.seq.state |> (· = SeqState.faulted) := by
  decide +kernel

/-! ## Output stage and move slot -/

def oqntArgs : OqntArgs :=
  { sDesc := 1, src := 1, adp := false, sc := false, fuse := 0, ffmt := false, rot := 0, ofmt := 0, tal := true, nrec := 0, tile := 0,
    entry := 0 }

/-- 80 values from 0x20000, the record to the last 48 bytes of the window that leave room for it, the tally to 0x30000. -/
def outState : State :=
  (with0 (regs0 [(1, 0x10000)])).wr (spKey 0 0x10000) 32
    ((2 ^ 20 - 48) * 2 ^ 236 + 0x20000 * 2 ^ 216 + 80 * 2 ^ 76 + 0x30000 * 2 ^ 24)

theorem witness_OutputInstruction :
    let s := outState
    let k := s.front 0
    let x := s.point 0
    let a := oqntArgs
    let d := outDescOf (s.spRd 0 0x10000 32)
    canIssue 0 s ∧ s.calm 0 = true ∧ oqntFieldsOk a = true ∧ (k.sreg a.sDesc).toNat = 0x10000 ∧ k.descWaits 0x10000 32 = false
      ∧ s.spPoison? 0 0x10000 32 = none ∧ outDescOk a d = true ∧ d.dst + outBytes a = 2 ^ 20
      ∧ (k.ost.jobs.filter fun j => decide (x.now ≤ j.done)).length < 4 ∧ k.takes (outRanges x a 0x10000 d (outJob k x a))
      ∧ (∀ r ∈ outSpots a d, s.spPoison? 0 r.1 r.2 = none) ∧ (∀ i ∈ outEntries a d, (k.accAt i).bad = false) := by
  unfold canIssue Core.takes; decide +kernel

/-- R137: a record counts its zero in the tally's word 5 and one record in word 7. -/
theorem test_oqnt_tally : (fld ((out (exec (.oqnt 0 oqntArgs) outState)).spRd 0 0x30000 32) 160 32 = 1)
    ∧ (fld ((out (exec (.oqnt 0 oqntArgs) outState)).spRd 0 0x30000 32) 224 32 = 1) := by decide +kernel

/-- Queue 127, whose ring of 8 positions ends the window, holds `ps`. -/
def queue0 (ps : List QPacket) : Core :=
  { regs0 [(1, 0x20000), (4, 0xFFFF0), (5, 16), (6, 2303 + 127 * 2 ^ 16)] with dqu := { core0.dqu with
      queues := [(127, { HQueue.reset with cfg := 0xFFFC0 + 3 * 2 ^ 20, packets := ps, wp := 2 * ps.length })],
      banks := core0.dqu.banks.set 0 { RtBank.free with complete := true } } }

/-- A packet of one word, none of it read but its tag, at the ring's last two positions. -/
def pkt0 (st : PktState) : QPacket := ⟨6, 1, st, 1, .put 5 9, 5, 0⟩

theorem witness_MoveSlotInstructions :
    let s := (with0 (queue0 [pkt0 .committed])).wr (spKey 0 0xFFFF8) 8 77
    let k := s.front 0
    let e := (with0 (queue0 [])).front 0
    let x := s.point 0
    let h := k.queue 127
    canIssue 0 s ∧ canIssue 0 (with0 (queue0 [])) ∧ s.calm 0 = true ∧ h.base + 8 * h.depth = 2 ^ 20 ∧ k.queueFault 127 = none ∧ e.queueFault 127 = none
      ∧ h.readable = some (pkt0 .committed) ∧ h.slotAt (6 + 1) = 0xFFFF8 ∧ s.spPoison? 0 0xFFFF8 8 = none
      ∧ (e.queue 127).readable = none ∧ (k.sreg 1).toNat % 8 = 0
      ∧ k.takes [spRange .write 0x20000 8 (.atCc (x.now + 3))] ∧ k.takes [spRange .write 0x20000 4096 (.atCc (x.now + 3 + 511))]
      ∧ k.sreg 0 = 0 ∧ (k.sreg 4).toNat + (k.sreg 5).toNat = 2 ^ 20
      ∧ k.takes [{ spRange .await 0xFFFF0 16 .byBytes with left := 16 }]
      ∧ (28#5).toNat + (3#2).toNat = 31 ∧ fld (k.sreg 6).toNat 0 12 = 2303 ∧ k.dqu.puts.length < 32
      ∧ (20#5).toNat + (11#4).toNat = 31 ∧ (k.bank 0).complete = true := by
  unfold canIssue Core.takes; decide +kernel

/-- The read bank of an area at 0 lies there, whatever the bank's length. -/
theorem witness_RouterTake : let s := with0 (queue0 [])
    s.bankBase 0 (bit false) + 48 ≤ 2 ^ 20 ∧ s.spPoison? 0 (s.bankBase 0 (bit false)) (4 * (11 + 1)) = none := by
  have h : (with0 (queue0 [])).bankBase 0 (bit false) = 0 := by
    simp only [State.bankBase, bit, Bool.false_eq_true, if_false, Nat.zero_mul]; decide +kernel
  simp only [h]; decide +kernel

theorem test_qrd : (((out (exec (.qrd 0 4 127) ((with0 (queue0 [pkt0 .committed])).wr (spKey 0 0xFFFF8) 8 77))).core 0).settle 103).sreg 4
    = 77#64 := by decide +kernel
theorem test_qrd_empty : ((out (exec (.qrd 0 4 127) (with0 (queue0 [])))).core 0).queue 127 |>.underrun := by decide +kernel
theorem test_queue_disabled : ((out (exec (.qcnt 0 4 126) (with0 (queue0 [])))).core 0).seq.fault.map (·.cause) = some 0x0A02 := by
  decide +kernel

/-- R275: 8 bytes from the last word of core 0's window to core 1's; tag 5. The second descriptor asks for a completion packet. -/
def dmaState : State :=
  let d := fun (cqe : Nat) => (0x040000000000 + 0xFFFF8) * 2 ^ 192 + (0x040000000000 + 0x100000) * 2 ^ 128 + 7 * 2 ^ 108
    + cqe * 2 ^ 103 + 127 * 2 ^ 96 + 5 * 2 ^ 64
  ((with0 { queue0 [] with s := ((queue0 []).s.set! 1 0x10000).set! 2 0x10020 }).wr (spKey 0 0x10000) 32 (d 0)).wr (spKey 0 0x10020) 32 (d 1)

theorem witness_TransfersStart :
    let s := dmaState
    let k := s.front 0
    let x := s.point 0
    canIssue 0 s ∧ s.calm 0 = true ∧ k.dqu.transfers.length < 16 ∧ k.queueFault 127 = none ∧ ∀ off ∈ [0x10000, 0x10020],
      let d := dmaDescOf (s.spRd 0 off 32)
      k.descWaits off 32 = false ∧ s.spPoison? 0 off 32 = none ∧ s.normAddr d.src = d.src ∧ s.normAddr d.dst = d.dst
        ∧ (s.setCore 0 k).dmaDescOk 0 d = true ∧ d.cqe = decide (off = 0x10020) ∧ ownOff 0 d.src = some 0xFFFF8
        ∧ s.spPoison? 0 0xFFFF8 8 = none ∧ s.scatterOf 0 d = none
        ∧ k.takes [spRange .read off 32 (.atCc (x.now + 2)), spRange .read 0xFFFF8 8 (.atCc (max (x.now + 1) k.dqu.readEnd + 1))] := by
  unfold canIssue Core.takes; decide +kernel

theorem test_dstart : ((out (exec (.dstart 0 1) dmaState)).mesh.vc0.map fun m => (m.src, m.dst)) = [(.core 0, .core 1)] := by decide +kernel

/-! ## Builder and engines -/

/-- A build of fmt 0 whose last group is next; one whose first is. -/
def build1 (next : Nat) : Build := ⟨5, 64, 15, 0xFFFD0, 7, 0, 1, next, ⟨List.replicate 80 0, 0, false, false, false⟩, false⟩

theorem witness_BuilderWritesPunnets :
    let s := with0 { core0 with builds := [build1 0] }
    let t := with0 { core0 with builds := [build1 15] }
    (s.core 0).builds = [build1 0] ∧ (s.core 0).buildWaits (build1 0) (0 / 32) = false ∧ s.spPoison? 0 0xFFFD0 (recBytes 0) = none
      ∧ s.calm 0 = true ∧ 0xFFFD0 + recBytes 0 = 2 ^ 20 ∧ (t.core 0).builds = [build1 15] ∧ (t.core 0).buildWaits (build1 15) (15 / 32) = false
      ∧ 15 + 1 = 16 * (build1 15).nrec := by decide +kernel

/-- A slot that holds the five values 1. -/
def pun1 : PunSlot := ⟨[1, 1, 1, 1, 1], 128, 0, false, false, true, 0, []⟩

/-- Engine 3 of core 0: a lookup of one row, one plane and one half, from h0 on, with codes at 0x10000. -/
def look1 (h0 : Nat) : Plook := { plook0 with base := 0x10000, h0 := h0, fetchSlot := h0 / 2, verdictSlot := h0 / 2, fresh := false }

def punnets1 (h0 : Nat) : List (Nat × PunSlot) :=
  (List.range 16).map fun i => (punKey 3 (h0 % 2 * 16 + i) (h0 / 2), pun1)

def engState (h0 : Nat) (p : Plook) (f : Engine → Engine) : State :=
  (with0 { core0 with punnets := punnets1 h0, engines := core0.engines.set! 3 (f { Engine.idle with queue := [p] }) }).wr
    (spKey 0 0x10000) 1 94

def line1 : Line := ⟨4, 7, 0, 0, false, [31, 30], 5, 6, false, false⟩

/-- Lane 31 has code 94 of line 4 waiting. -/
def laneState : State := engState 15 (look1 15) fun g =>
  { g with lines := [line1], nextLine := 5, lanes := g.lanes.set! 31 [⟨4, 94⟩] }

theorem witness_EngineStages :
    let s := engState 15 (look1 15) id
    let g := (s.core 0).engines[(3 : EngineId)]
    let z := (engState 15 { look1 15 with mask := [(0, 15)] } id).core 0
    g.queue = [look1 15] ∧ (look1 15).fetchDone = false ∧ (look1 15).masked 0 15 = false ∧ (look1 15).halves 7 = [15]
      ∧ (∀ ln < 32, (s.core 0).slotReady 3 (look1 15) ln 7 = true → ((s.core 0).pun 3 ln 7).zero = false)
      ∧ g.inFlight < 16 ∧ s.calm 0 = true ∧ laneState.calm 0 = true
      ∧ (∀ ln < 32, s.spPoison? 0 (0x10000 + ln) 1 = none)
      ∧ (∀ ln < 32, (g.lanes.toList.getD ln []).length < 8)
      ∧ z.engines[(3 : EngineId)].queue = [{ look1 15 with mask := [(0, 15)] }]
      ∧ ({ look1 15 with mask := [(0, 15)] } : Plook).masked 0 15 = true
      ∧ (let k := laneState.core 0
         let g := k.engines[(3 : EngineId)]
         g.queue = [look1 15] ∧ g.lanes.toList.getD 31 [] = [⟨4, 94⟩] ∧ g.lines.find? (fun l => l.id == 4) = some line1
          ∧ k.slotCase 3 (look1 15) 31 7 = .ready ∧ codeValid 94 = true ∧ (k.pun 3 31 7).bad = [] ∧ line1.waiting.erase 31 ≠ []) := by
  decide +kernel

/-- R28, R60: code 94 has trits 0, 0, 0, −1, 0. -/
theorem test_lookup : ((out (exec (.laneLookup 0 3 31 .clean) laneState)).core 0).engines[(3 : EngineId)].lines.map
    (fun l => (l.sum1, l.waiting)) = [(5, [30])] := by decide +kernel

/-- Half 15 of row 0 summed to 6 and is handed on by the lookup `p`; its delivery; the log as long as it may be. -/
def handState (p : Plook) (sum : Int) : State := engState 15 { p with fetchSlot := 8, sums := [⟨15, sum, false⟩] } fun g =>
  { g with ready := [⟨15, 0, 6, false⟩] }

def deliv1 (blk : W32) : Deliv := ⟨7, 0, 6, 128, false, blk⟩

def chk1 : Plook := { look1 15 with chk := some ⟨12, 0, 0, 0⟩, fetchSlot := 8 }

/-- An entry that took block 4 last, a delivery of block 5, and 1,023 log records. -/
def delivState : State :=
  let s := engState 15 chk1 fun g => { g with deliv := [deliv1 5, deliv1 6], undo := List.replicate 1023 ⟨7, 0, AccEntry.clear, false⟩ }
  with0 { s.core 0 with acc := [(0, { AccEntry.clear with live := true, last := 4 })] }

/-- A half whose block integers sum to `sum`; twelve check rows of code 94 in every lane sum to −16 · (3^12 − 1) / 2. -/
def verdictState (sum : Int) (retrying : Bool) : State :=
  (engState 15 { chk1 with sums := [⟨15, sum, false⟩], retrying := retrying } fun g =>
    { g with deliv := [deliv1 5], undo := [⟨7, 0, AccEntry.clear, true⟩] })

theorem witness_DeliveriesAndVerdicts :
    (let s := handState chk1 0
     let k := s.core 0
     let g := k.engines[(3 : EngineId)]
     g.queue = [{ chk1 with sums := [⟨15, 0, false⟩] }] ∧ g.ready = [⟨15, 0, 6, false⟩] ∧ k.mergeHolds g = false
      ∧ ∀ ln ∈ halfLanes 15, k.slotCase 3 { chk1 with sums := [⟨15, 0, false⟩] } ln 7 = .ready)
    ∧ (let k := delivState.core 0
       let g := k.engines[(3 : EngineId)]
       g.queue = [chk1] ∧ g.deliv = [deliv1 5, deliv1 6] ∧ k.mergeHolds g = false ∧ g.undo.length = 1023
        ∧ delivState.calm 0 = true ∧ g.lastHeld chk1 = false ∧ (k.accAt 0).bad = false ∧ (k.accAt 0).live = true
        ∧ (k.accAt 0).last.toNat + 1 = (deliv1 5).block.toNat)
    ∧ (∀ r : Bool, ∀ sum ∈ [(-16 * 265720 : Int), -16 * 265720 + 1],
       let s := (verdictState sum r).wr (spKey 0 0x10000) 1 94
       let k := s.core 0
       let p : Plook := { chk1 with sums := [⟨15, sum, false⟩], retrying := r }
       let g := k.engines[(3 : EngineId)]
       let cs := checkCodes s 0 3 p ⟨12, 0, 0, 0⟩ 7
       g.queue = [p] ∧ p.verdictsDone = false ∧ p.verdictSlot = 7 ∧ g.slotHanded p 7 = true ∧ s.calm 0 = true ∧ k.seq.fault = none
        ∧ (∀ q ∈ k.checkBytes 3 p ⟨12, 0, 0, 0⟩ 7, q.2.2.2 < 2 ^ 20) ∧ s.poison = []
        ∧ (∀ q ∈ cs, codeValid q.code = true ∧ (k.pun 3 q.lane 7).bad = [])
        ∧ ((p.halves 7).all (halfMatches k 3 p 7 cs) = true ↔ sum = -16 * 265720)) := by
  decide +kernel

theorem witness_verdict_reads_no_poison : ∀ o, (verdictState 0 false).spPoison? 0 o 1 = none := fun _ => rfl

theorem test_retry : ((out (exec (.slotVerdict 0 3) (verdictState 1 false))).core 0).engines[(3 : EngineId)].queue.map
    (fun p => (p.fetchSlot, p.retrying)) = [(7, true)] := by decide +kernel

/-! ## Tasks -/

theorem witness_StoredBundlesIssue : canIssue 0 run0 ∧ run0.calm 0 = true ∧ runLast.calm 0 = true ∧ run0.spPoison? 0 64 32 = none
    ∧ canIssue 0 { runLast with poison := [(spKey 0 511) / 8] }
    ∧ { runLast with poison := [(spKey 0 511) / 8] }.spPoison? 0 480 32 = some 504 := by unfold canIssue; decide +kernel

/-- ADDI s4, s0, 5 stands at the program counter. -/
theorem test_bundle_issue : (((out (exec (.bundleIssue 0) (run0.wr (spKey 0 64) 8
    0b010000_00100_00000_00000_00000000000_00000000000000000000000000000101))).core 0).settle 101).sreg 4 = 5#64 := by
  decide +kernel

def idle0 (entry nbm1 : BitVec 15) : State := with0 { Core.reset with seq := { Seq.reset with nbm1 := nbm1, entry := entry } }

def moe0 : MoeSpec := ⟨4, 0, 2, false, 0, 1, [(0, 0), (0, 1), (0, 2), (0, 3)], [], [], [], 0, [], [], none, 2, []⟩

def layer0 : LayerSpec := ⟨⟨false, 0, 0, 0, 0, false⟩, some moe0, true, true, none⟩

/-- A model of one layer with four experts on one gang, two routing cores, and no cores of its own. -/
def man0 : Manifest :=
  { digest := 0, fuornMajor := 0, fuornMinor := 0, fuornPatch := 0, planesKT := 3, headDim := 160, headPairs := 1, cores := [],
    tensors := [], products := [], sites := [], window := 1, reachLength := 1024, chunkLimit := 16, layers := [layer0], bMax := 16,
    draftLayers := [], adaptiveMode := false, copyBudget := none, groups := [], attnRun := 0, rotSeed := 0, shipTimeoutMs := none,
    slips := [], tallies := [], vocabulary := 1, rotIds := [], combineCores := [], senders := [] }

/-- A logical core: its region from bundle 0, and where it starts. -/
def lcore (nbm1 entry : BitVec 15) : LogicalCore := ⟨0, 0xFFFF, 0, 0, nbm1, entry, 0, [], [], none, [], [], []⟩

/-- Core 0 idle, logical core 0 of the model bound to it. -/
def startable (nbm1 entry : BitVec 15) : State :=
  { idle0 entry nbm1 with hm := { Hm.reset with man := some { man0 with cores := [lcore nbm1 entry] }, binding := [(0, 0)] } }

def prepared (nbm1 entry : BitVec 15) : State :=
  (startable nbm1 entry).prepare { man0 with cores := [lcore nbm1 entry] } 0 (lcore nbm1 entry) 0

theorem witness_TasksStart :
    (∀ e ∈ [(32767 : BitVec 15), 0], let s := startable 32767 e
      s.usable 0 = true ∧ (s.core 0).seq.state = .idle ∧ (s.core 0).seq.filling = false ∧ s.hm.state ≠ 3
      ∧ s.hm.binding.find? (fun b => b.2 == 0) = some (0, 0)
      ∧ (let k := (prepared 32767 e).core 0
         (prepared 32767 e).usable 0 = true ∧ k.seq.state = .idle ∧ k.seq.filling = false ∧ k.region = (0, 2 ^ 20)
          ∧ k.downByte 0 (2 ^ 20 - 1) = none ∧ k.region.1 ≤ k.seq.entry.toNat * 32 ∧ k.seq.entry.toNat * 32 < k.region.2))
      ∧ (let k := (prepared 15 16).core 0; k.region.2 ≤ k.seq.entry.toNat * 32)
      ∧ run0.hm.man = none ∧ (∀ b ∈ run0.hm.binding, b.2 ≠ 0) := by decide +kernel

theorem test_start : ((out (exec (.seqCtrlStart 0) (startable 15 15))).core 0).seq.pc = 480#20
    ∧ ((out (exec (.seqCtrlStart 0) (startable 15 16))).core 0).seq.state = .faulted := by decide +kernel

def seqIn (st : SeqState) : Core := { core0 with seq := { seq0 with state := st } }

theorem witness_TasksEndAndAreScrubbed :
    (seqIn .ending).quiet = true ∧ ((with0 (seqIn .scrubbing)).core 0).scrubDue = true
      ∧ ({ seqIn .scrubbing with seq := { seq0 with state := .scrubbing, zeroing := true } } : Core).seq.zeroing = true := by
  decide +kernel

theorem test_scrub : (out (exec (.endOfTaskScrub 0) ((with0 (seqIn .scrubbing)).wr (spKey 0 0xFFFFF) 1 9))).byte (spKey 0 0xFFFFF) = 0 := by
  decide +kernel

theorem witness_CoreRegistersAndScoreboard :
    let k := { core0 with sb := core0.sb.set! 31 (some (spRange .write 0x20000 64 (.atCc 105))) }
    (k.sb[(31#5).toNat]! = some (spRange .write 0x20000 64 (.atCc 105)))
      ∧ (∀ st ∈ [SeqState.stalled, .ending], (seqIn st).seq.state = st ∧ (seqIn st).seq.fault = none)
      ∧ ((250#64).toNat % 2 ^ 28 = 250 ∧ (250000000#64).toNat % 2 ^ 28 = 250000000)
      ∧ (idle0 0 15).usable 0 = true ∧ (idle0 0 15).calm 0 = true ∧ (seqIn .stalled).seq.fetchAt ≤ (seqIn .stalled).seq.cc ∧ ((idle0 0 15).core 0).seq.state = .idle
      ∧ ((idle0 0 15).core 0).seq.scrubPos + 1 < ((idle0 0 15).core 0).passLength
      ∧ (let p := ((idle0 0 15).core 0).passLength - 1
         ({ Core.reset with seq := { Seq.reset with scrubPos := p } } : Core).passLength ≤ p + 1) := by decide +kernel

theorem test_wdog_clamp : ((out (exec (.seqWdogWrite 0 249) run0)).core 0).seq.wdogLimit = 250#28
    ∧ ((out (exec (.seqWdogWrite 0 0xFFFFFFF) run0)).core 0).seq.wdogLimit = 250000000#28 := by decide +kernel

/-! ## Mesh -/

def msg0 (src dst : Node) (b : MsgBody) : Msg := ⟨src, dst, false, b⟩

/-- A write of core 1 to the last word of core 0's window, and one into a range that is being read. -/
def writeTo (off : Nat) (k : Core) : State :=
  { with0 k with mesh := ⟨[msg0 (.core 1) (.core 0) (.write off [⟨7, true⟩] (.dma 1 3))], []⟩ }

def coreReads : Core := { core0 with sb := core0.sb.set! 0 (some (spRange .read 0xFFFFF 1 (.byUnit 4))) }

theorem witness_InboundAccesses :
    (writeTo 0xFFFF8 core0).head0 (.core 1) (.core 0) = some (msg0 (.core 1) (.core 0) (.write 0xFFFF8 [⟨7, true⟩] (.dma 1 3)))
      ∧ ((writeTo 0xFFFF8 core0).core 0).dqu.landing = []
      ∧ (let s : State := { with0 core0 with mesh := ⟨[], [msg0 (.core 1) (.core 0) (.data 0xFFFF8 [⟨7, true⟩] (.dma 0 3))]⟩ }
         s.head0 (.core 1) (.core 0) = none ∧ s.inbound 0 0xFFFF8 8 = .land
          ∧ s.head1 (.core 1) (.core 0) = some (msg0 (.core 1) (.core 0) (.data 0xFFFF8 [⟨7, true⟩] (.dma 0 3))))
      ∧ (writeTo 0xFFFF8 core0).inbound 0 0xFFFF8 8 = .land ∧ (writeTo 0xFFFF8 coreReads).inbound 0 0xFFFF8 8 = .hold
      ∧ (writeTo 0xFFFF8 (seqIn .faulted)).inbound 0 0xFFFF8 8 = .refuse
      ∧ (let s := { run0 with mesh := ⟨[msg0 (.core 1) (.core 0) (.read 0xFFFF8 1 0 (.dma 1 3))], []⟩ }
         s.head0 (.core 1) (.core 0) = some (msg0 (.core 1) (.core 0) (.read 0xFFFF8 1 0 (.dma 1 3))) ∧ s.shut 0 = false
          ∧ (s.core 0).downByte 0xFFFF8 (0xFFFF8 + 7) = none)
      ∧ (with0 (seqIn .scrubbing)).shut 0 = true := by decide +kernel

theorem test_inbound_write : (out (exec (.inboundWrite 0 (.core 1)) (writeTo 0xFFFF8 core0))).byte (spKey 0 0xFFFF8) = 7
    ∧ (out (exec (.inboundWrite 0 (.core 1)) (writeTo 0xFFFF8 core0))).poison = [(spKey 0 0xFFFF8) / 8] := by decide +kernel
theorem test_inbound_hold : ((out (exec (.inboundWrite 0 (.core 1)) (writeTo 0xFFFF8 coreReads))).mesh.vc0.map (·.held)) = [true] := by
  decide +kernel

/-- A transfer of core 0 with one part to come, and one that is over with the status. -/
def xfer0 (left status : Nat) : Transfer :=
  { id := 3, bundle := 64, kind := .copy, src := 0, dst := 0, len := 8, cqe := false, cq := 0, tag := 0, cdc := false, chk := false,
    left := left, tile := 0, held := false, struck := [], status := status }

def ackState (b : MsgBody) (x : Transfer) : State :=
  { with0 { core0 with dqu := { core0.dqu with transfers := [x], puts := [⟨4, 96⟩] } } with mesh := ⟨[], [msg0 (.core 1) (.core 0) b]⟩ }

theorem witness_AnswersAndCompletions :
    let w := writeTo 0xFFFF8 core0
    0 < w.mesh.vc0.length ∧ (∀ h : 0 < w.mesh.vc0.length, w.mesh.vc0[0].body = .write 0xFFFF8 [⟨7, true⟩] (.dma 1 3))
      ∧ (ackState (.ack (.dma 0 3) 5) (xfer0 1 0)).head1 (.core 1) (.core 0) = some (msg0 (.core 1) (.core 0) (.ack (.dma 0 3) 5))
      ∧ (∀ st ∈ [0, 1], (ackState (.ack (.put 0 4) st) (xfer0 1 0)).head1 (.core 1) (.core 0)
          = some (msg0 (.core 1) (.core 0) (.ack (.put 0 4) st)))
      ∧ ((ackState (.ack (.put 0 4) 1) (xfer0 1 0)).core 0).dqu.puts.find? (fun p => p.id == 4) = some ⟨4, 96⟩
      ∧ ((ackState (.ack (.put 0 4) 1) (xfer0 1 0)).core 0).seq.fault = none
      ∧ (∀ st ∈ [0, 4], ((ackState (.ack .none 0) (xfer0 0 st)).core 0).dqu.transfers.find? (fun x => x.id == 3) = some (xfer0 0 st)
          ∧ (xfer0 0 st).complete = true) := by decide +kernel

/-- A packet of `n` words from core 1 for queue 127 of core 0, which holds `ps`. -/
def packetTo (n : Nat) (ps : List QPacket) (f : Core → Core) : State :=
  { with0 (f (queue0 ps)) with mesh := ⟨[msg0 (.core 1) (.core 0) (.packet 127 0 (List.replicate n ⟨7, false⟩) (.put 1 4))], []⟩ }

theorem witness_QueuePackets :
    (packetTo 5 [pkt0 .committed] id).head0 (.core 1) (.core 0)
        = some (msg0 (.core 1) (.core 0) (.packet 127 0 (List.replicate 5 ⟨7, false⟩) (.put 1 4)))
      ∧ (packetTo 7 [] id).arrival 0 127 7 = .reserved ∧ (packetTo 6 [pkt0 .committed] id).arrival 0 127 6 = .reserved
      ∧ (packetTo 7 [pkt0 .committed] id).arrival 0 127 7 = .waits ∧ (packetTo 1 [] fun k => { k with seq := { seq0 with state := .faulted } }).arrival 0 127 1 = .refused
      ∧ (let h := ((with0 (queue0 [pkt0 .arriving])).core 0).queue 127
         h.packets.find? (fun p => p.state == .arriving) = some (pkt0 .arriving) ∧ (pkt0 .arriving).xfer ≠ .none ∧ h.slotAt 6 % 8 = 0)
      ∧ ((with0 (queue0 [])).core 0).seq.fault = none := by decide +kernel

/-- R279: a packet's tag: source core 5, kind 0, first packet since the reset, one data word. -/
theorem test_packet_tag : (out (exec (.packetCommit 0 127) (with0 (queue0 [pkt0 .arriving])))).spRd 0 0xFFFF0 8 = 5 * 2 ^ 40 + 1 := by
  decide +kernel

def bound0 (s : State) : State := { s with hm := { s.hm with man := some man0 } }

/-- R224: layer 0, step 7, gang 0, one entry, from a routing core: row 15 for slot 3. -/
def routeHdr (rcore : Nat) : BitVec 128 := BitVec.ofNat 128 (rcore * 2 ^ 96 + 7 * 2 ^ 64 + 1 * 2 ^ 32)

def routeEntry : W64 := BitVec.ofNat 64 (15 * 2 ^ 48 + 0xFFFFFFFF0FFF)

def routeTo (rcore : Nat) (b : RtBank) (k : Core) : State :=
  bound0 { with0 { k with dqu := { core0.dqu with rtArea := 0x100, banks := core0.dqu.banks.set 0 b } } with
    mesh := ⟨[msg0 (.core 1) (.core 0) (.route (routeHdr rcore) [routeEntry] [] (.dma 1 3))], []⟩ }

/-- Bank 0 begins at the area's base, whatever a bank's length. -/
theorem routeTo_base (rcore : Nat) (b : RtBank) (k : Core) : (routeTo rcore b k).bankBase 0 0 = 0x4000 := by
  simp only [State.bankBase, Nat.zero_mul, Nat.add_zero]; show (0x100#14).toNat * 64 = 0x4000; decide

/-- The count table is being read by an instruction. -/
def tableRead : Core := { core0 with sb := core0.sb.set! 0 (some (spRange .read 0x4000 64 (.byUnit 4))) }

theorem witness_RouterBlockTraffic :
    (let s := routeTo 0 RtBank.free core0
     let k := s.core 0
     s.head0 (.core 1) (.core 0) = some (msg0 (.core 1) (.core 0) (.route (routeHdr 0) [routeEntry] [] (.dma 1 3))) ∧ s.shut 0 = false
      ∧ (k.bank 0).holds = none ∧ (k.bank 0).waiting = [] ∧ (k.bank 0).next = 0 ∧ s.routeBad 0 0 0 0 0 [routeEntry] = false
      ∧ smapSlots routeEntry = [3] ∧ s.calm 0 = true ∧ k.seq.fault = none
      ∧ s.routeBad 0 0 0 2 0 [routeEntry] = true
      ∧ dueEntries 1 0 [(0, [routeEntry])] = [routeEntry])
    ∧ ((((routeTo 0 { RtBank.free with holds := some (0, 8) } core0).core 0).bank 0).holds = some (0, 8))
    ∧ (let s := writeTo 0xFFFF8 { core0 with dqu := { core0.dqu with digestOf := some (3, core0.ost.step.extractLsb' 0 32) } }
       s.inbound 0 0xFFFF8 8 = .land ∧ (s.core 0).recordOk 9 [7] = false ∧ (s.core 0).seq.fault = none
        ∧ (s.core 0).dqu.landing = [] ∧ (s.core 0).awaitTakes 0xFFFF8 8 = false
        ∧ (s.core 0).dqu.digestOf = some (3, (s.core 0).ost.step.extractLsb' 0 32))
    ∧ (let s := writeTo 0xFFFF8 { core0 with sb := core0.sb.set! 0 (some { spRange .await 0xFFFF8 8 .byBytes with left := 8 }) }
       s.inbound 0 0xFFFF8 8 = .land ∧ (s.core 0).recordOk 0 [7] = true ∧ (s.core 0).awaitTakes 0xFFFF8 8 = true) := by
  decide +kernel

theorem witness_RouteWritesLand :
    let s := routeTo 0 RtBank.free core0
    s.routeSpans 0 0x4000 s.bMax true [routeEntry] = [(0x4000, 64), (0x40A0, 2)] ∧ s.inboundAll 0 [(0x4000, 64), (0x40A0, 2)] = .land
      ∧ s.spPoison? 0 0x400C 4 = none := by decide +kernel

theorem witness_RouteWritesHeld :
    let s := routeTo 0 RtBank.free tableRead
    s.routeSpans 0 0x4000 s.bMax true [routeEntry] = [(0x4000, 64), (0x40A0, 2)] ∧ s.inboundAll 0 [(0x4000, 64), (0x40A0, 2)] = .hold := by
  decide +kernel

/-- A packet of a routing core that the layer does not have. -/
theorem test_route_mismatch : ((out (exec (.routePacket 0 (.core 1)) (routeTo 2 RtBank.free core0))).core 0).seq.fault.map (·.cause)
    = some 0x0802 := by decide +kernel

/-! ## Memory -/

/-- Channel 255's last word of its first page under the reset window: page 255 of stacked space. -/
def chanAddr : Nat := 255 * 4096 + 4088

def chanMsg (b : MsgBody) : State := { State.reset with mesh := ⟨[msg0 (.core 1) (.channel 255) b], []⟩ }

theorem witness_ControllersServeAccesses :
    (chanMsg (.read chanAddr 1 0 (.dma 1 3))).head0 (.core 1) (ctrlNode (.channel 255))
        = some (msg0 (.core 1) (.channel 255) (.read chanAddr 1 0 (.dma 1 3)))
      ∧ (let s := chanMsg (.write chanAddr [⟨7, true⟩] (.dma 1 3))
         let key := 255 * Config.channelBytes + 4088
         s.placeRaw chanAddr = .mem (.channel 255) key ∧ s.berthEntry chanAddr = none ∧ s.keyOf chanAddr = some key ∧ key % 8 = 0)
      ∧ ({ chanMsg (.write chanAddr [⟨7, true⟩] (.dma 1 3)) with ms := { MemSys.reset with chsvc := 0 } } : State).placeRaw chanAddr = .unmapped := by
  decide +kernel

theorem test_channel_write : (out (exec (.channelWrite (.channel 255) (.core 1)) (chanMsg (.write chanAddr [⟨7, false⟩] (.dma 1 3))))).rd
    (255 * Config.channelBytes + 4088) 8 = 7 := by decide +kernel

/-- A checked transfer of one tile to the window's last 4 KiB, whose header stands at 0x1000 and its block at 0x8000. -/
def tileX (k : XferKind) (src : Nat) : Transfer :=
  { xfer0 0 0 with kind := k, src := src, dst := 0x040000000000 + 0xFF000, len := 4096, chk := true }

/-- The header: block at 0x8000, raw, tile 0, check value `crc`. -/
def tileState (k : XferKind) (src crc : Nat) (f : MemSys → MemSys) : State :=
  let s := with0 { core0 with dqu := { core0.dqu with transfers := [tileX k src] } }
  (({ s with ms := f s.ms } : State).devWrite 0x1000
    [⟨BitVec.ofNat 64 crc, false⟩, ⟨BitVec.ofNat 64 (0x8000 * 2 ^ 16 + 4096 * 2 ^ 3), false⟩])

/-- R302: the CRC-32C of 4,100 zero bytes, computed outside the model. -/
def crc0 : Nat := 0x81BF8868

theorem test_crc32c : crc32c ((List.range 9).map fun i => BitVec.ofNat 8 (0x31 + i)) = 0xE3069283#32 := by decide +kernel

/-- The same fold, each sum evaluated before the next. -/
def crcFold : List Byte → Nat → Nat
  | [], c => c
  | b :: r, c => if crcByte c b = 0 then crcFold r 0 else crcFold r (crcByte c b)

theorem crcFold_eq (bs : List Byte) (c : Nat) : crcFold bs c = bs.foldl crcByte c := by
  induction bs generalizing c with
  | nil => rfl
  | cons b r ih => simp only [crcFold, List.foldl_cons]; split <;> simp_all

theorem test_crc_of_zeros : tileCrc 0 (List.replicate 4096 0) = BitVec.ofNat 32 crc0 := by
  simp only [tileCrc, crc32c, ← crcFold_eq]; decide +kernel

def goodTile : State := tileState .header 0x1000 crc0 id

/-- The index of its header is 5, where the transfer expects 0; reports of this tile and of a header of zeros. -/
def badTile : State := tileState .header 0x1000 (crc0 + 5 * 2 ^ 40) fun m => { m with reports := [⟨0x3000, false, 0⟩] }

theorem goodTile_hdr : tileHdrOf (goodTile.devNum 0x1000 2) = ⟨0x8000, 4096, false, false, 0, BitVec.ofNat 32 crc0⟩ := by decide +kernel

theorem badTile_hdr : tileHdrOf (badTile.devNum 0x1000 2) = ⟨0x8000, 4096, false, false, 5, BitVec.ofNat 32 crc0⟩ := by decide +kernel

set_option maxRecDepth 100000 in
theorem goodTile_stored : goodTile.stored ⟨0x8000, 4096, false, false, 0, BitVec.ofNat 32 crc0⟩ = .content (List.replicate 4096 0) := by
  have h : leBytes 4096 (goodTile.devNum 0x8000 512) = List.replicate 4096 0 := by decide +kernel
  have r : goodTile.rangeStatus .module 0x8000 4096 = 0 := by decide +kernel
  simp [State.stored, r, h]

/-- A checked transfer of the good tile, of the bad one, and reports of a tile that passes now and of one that does not. -/
theorem witness_TileVerdictsLandOrPoison :
    goodTile.tileXfer 0 3 .header = some (tileX .header 0x1000)
      ∧ (∀ f : TileFetch, goodTile.fetchPasses true 0 (tileHdrOf (goodTile.devNum 0x1000 2)) f = true ↔ f.outcome ≠ .badCrc)
      ∧ goodTile.expectedTile (tileX .header 0x1000) = 0 ∧ (goodTile.tileWords (tileHdrOf (goodTile.devNum 0x1000 2)) ⟨.asStored, []⟩ []).length = 512
      ∧ goodTile.inbound 0 0xFF000 4096 = .land ∧ badTile.tileXfer 0 3 .header = some (tileX .header 0x1000)
      ∧ (∃ b, badTile.stored (tileHdrOf (badTile.devNum 0x1000 2)) = .content b)
      ∧ badTile.tilePasses true 0 (tileHdrOf (badTile.devNum 0x1000 2)) = false ∧ badTile.inbound 0 0xFF000 4096 = .land
      ∧ badTile.ms.reports.find? (fun y => y.header == 0x3000) = some ⟨0x3000, false, 0⟩
      ∧ badTile.tilePasses true 0 (tileHdrOf (badTile.devNum 0x3000 2)) = false := by
  have r : badTile.rangeStatus .module 0x8000 4096 = 0 := by decide +kernel
  have d : (goodTile.devRead 0x8000 512).length = 512 := by decide +kernel
  refine ⟨by decide +kernel, ?_, ?_, ?_, by decide +kernel, by decide +kernel, ?_, ?_, by decide +kernel, by decide +kernel, by decide +kernel⟩
  · rintro ⟨o, bs⟩
    have h : goodTile.tilePasses true 0 ⟨0x8000, 4096, false, false, 0, BitVec.ofNat 32 crc0⟩ = true := by
      rw [State.tilePasses, goodTile_stored]
      show (!true || ((0 : Nat) == 0 && tileCrc 0 (List.replicate 4096 0) == BitVec.ofNat 32 crc0)) = true
      rw [test_crc_of_zeros]; decide +kernel
    rw [goodTile_hdr, State.fetchPasses, h]
    cases o <;> simp
  · simp [State.expectedTile, tileX, xfer0, goodTile_hdr]
  · rw [goodTile_hdr, State.tileWords, goodTile_stored]; decide +kernel
  · rw [badTile_hdr]; exact ⟨_, by simp [State.stored, r]; rfl⟩
  · rw [badTile_hdr, State.tilePasses]
    simp [State.stored, r]

/-- A header whose second word is `up`. -/
def hdrTile (up : W64) : State :=
  (with0 { core0 with dqu := { core0.dqu with transfers := [tileX .header 0x1000] } }).devWrite 0x1008 [⟨up, false⟩]

/-- A header marked as damaged. -/
theorem witness_DamagedTile : (hdrTile 2).tileXfer 0 3 .header = some (tileX .header 0x1000)
    ∧ (tileHdrOf ((hdrTile 2).devNum 0x1000 2)).dmg = true ∧ (hdrTile 2).inbound 0 0xFF000 4096 = .land := by decide +kernel

/-- One whose block lies where no memory is. -/
theorem witness_UnmappedTile :
    let s := hdrTile (BitVec.ofNat 64 (0x070000000000 * 2 ^ 16 + 4096 * 2 ^ 3))
    s.tileXfer 0 3 .header = some (tileX .header 0x1000)
      ∧ tileHdrOf (s.devNum 0x1000 2) = ⟨0x070000000000, 4096, false, false, 0, 0⟩
      ∧ s.stored ⟨0x070000000000, 4096, false, false, 0, 0⟩ = .unmapped := by decide +kernel

/-- A pool of one berth at 0x8000 with its check entry at 0x2000: check value 0, stale bit of tile 0 as given. -/
def berthState (stale : Nat) : State :=
  let s := tileState .berth 0x8000 0 fun m => { m with bpBase := 0x8000, bpCount := 1, bchk := 0x2000 }
  s.devWrite 0x2020 [⟨BitVec.ofNat 64 stale, false⟩]

set_option maxRecDepth 100000 in
theorem witness_berth_tiles :
    ((berthState 1).tileXfer 0 3 .berth = some (tileX .berth 0x8000) ∧ (berthState 1).berthTileOk 0x8000 = true
      ∧ (berthState 1).inbound 0 0xFF000 (8 * ((berthState 1).devRead 0x8000 512).length) = .land
      ∧ ∀ w ∈ (berthState 1).devRead 0x8000 512, w.poison = false)
    ∧ (berthState 0).berthTileOk 0x8000 = false ∧ (berthState 0).inbound 0 0xFF000 4096 = .land := by decide +kernel

/-- Channel 255 with TGC_CTRL op 4, pat 4 and the last page, in service or not, running or not. -/
def tgcState (svc busy : Bool) (loops : W32) : State :=
  { State.reset with ms := { MemSys.reset with
      chsvc := if svc then BitVec.allOnes 256 else BitVec.allOnes 256 >>> 1
      tgcs := [(255, { Tgc.reset with ctrl := 0x4400, range := BitVec.ofNat 64 (589823 + 2 ^ 32), busy := busy, loops := loops })] } }

theorem witness_TrafficGeneratorsAndPools :
    State.reset.hm.down = false ∧ ((tgcState true true 1).tgc 255).busy = true ∧ ((tgcState true true 1).tgc 255).loops ≠ 0
      ∧ (tgcState true false 0).tgcRefused 255 ((tgcState true false 0).tgc 255) = true
      ∧ ((tgcState false false 0).tgc 255).busy = false ∧ (tgcState false false 0).tgcRefused 255 ((tgcState false false 0).tgc 255) = false
      ∧ (∀ d : ChannelId, ((tgcState false false 0).tgc d).busy = false ∧ ((tgcState false false 0).tgc d).svcReq = false)
      ∧ (State.reset.hm.man = none ∧ (bound0 State.reset).hm.man.isSome = true) := by decide +kernel

/-! ## Heat and power -/

def sensorsAt (d j : Int) : Sensors := ⟨Vector.replicate 16 d, Vector.replicate 4 j, 30, 1000, 2500, 4200⟩

theorem witness_ThermalSamples :
    State.reset.hm.down = false ∧ State.reset.hm.state ≠ 3 ∧ State.reset.pwr.dramHot = false ∧ State.reset.pwr.juncHot = false
      ∧ hottest (sensorsAt 113 115).dram.toList = 113
      ∧ (let s : State := { State.reset with pwr := { Pwr.reset with dramHot := true } }
         s.pwr.dramHot = true ∧ 112 < hottest (sensorsAt 113 40).dram.toList) := by decide +kernel

/-- R476: a stack at 106 °C begins thermal hold; at 105 °C it does not, and the throttle moves one step. -/
theorem test_hold : ((out (exec (.thermalSample (sensorsAt 106 40)) State.reset)).pwr.holdDram = true)
    ∧ ((out (exec (.thermalSample (sensorsAt 105 40)) State.reset)).pwr.holdDram = false)
    ∧ ((out (exec (.thermalSample (sensorsAt 105 40)) State.reset)).pwr.k = 7)
    ∧ ((out (exec (.thermalSample (sensorsAt 106 40)) State.reset)).pwr.k = 1) := by decide +kernel

def stage0 (n : Nat) : State := { State.reset with pwr := { Pwr.reset with stage := n, good := 0x7FF } }

theorem witness_PowerEvents :
    State.reset.pwr.band ≠ 1 ∧ State.reset.pwr.band ≠ 2 ∧ 3 ≤ (stage0 3).pwr.stage ∧ (stage0 3).hm.state ≠ 3
      ∧ (let s : State := { State.reset with serv := { Serving.reset with phase := .holding } }
         s.serv.phase = .holding ∧ s.pwr.holdDram = false ∧ s.pwr.holdJunc = false)
      ∧ (stage0 1).pwr.stage = 1 ∧ (stage0 3).pwr.stage ≠ 1 ∧ (stage0 3).pwr.good.getLsbD 10 = true := by decide +kernel

/-! ## Mailboxes, serving -/

/-- The module is ready; function 1 of tenant 5 is a bus master; `i`'s mailbox holds command `op`. -/
def ready0 : State :=
  { State.reset with hm := { Hm.reset with state := 1 }
                     host := { HostIf.reset with fns := [(1, { Func.reset with bme := true, tenant := 5 })] } }

def asked (i : Issuer) (op : W16) (s : State) : State := s.modMbx i fun m => { m with st := 1, op := op }

theorem witness_Mailboxes :
    ready0.hm.down = false ∧ ((asked (.fn 1) 1 ready0).fn 1).mbx.st = 1 ∧ (ready0.fn 1).mbx.st ≠ 1
      ∧ (let s := ready0.modFn 1 fun x => { x with mbx := { x.mbx with win := [(0x40, 1)] } }
         s.turnedAway (.fn 1) (BitVec.ofNat 16 (Sparse.get (0 : W64) (s.fn 1).mbx.win 0x40).toNat) 0 = none)
      ∧ ready0.turnedAway (.fn 1) 0x0301 0 = some stDenied ∧ (0x7F8#12).toNat % 8 = 0
      ∧ ready0.ticketOf (ready0.told (.fn 1) 1 0 0 0).1 = none ∧ ready0.taken (.fn 1) 1 = false := by decide +kernel

theorem test_doorbell_window : ((out (exec (.mailboxWindowWrite 1 0x7F8 9) ready0)).fn 1).mbx.win = [(0x7F8, 9)]
    ∧ ((out (exec (.mailboxWindowWrite 1 0x800 9) ready0)).fn 1).hosterrs = 1 := by decide +kernel

/-- `s` with one ticket of function 1. -/
def ticketed0 (op : W16) : State :=
  let s := asked (.fn 1) 5 ready0
  { s with host := { s.host with tickets := [⟨BitVec.ofNat 32 (2 ^ 25), op, .running, 0, 0xFFFF, 0, 0, 0, 0⟩] } }

theorem witness_MailboxQueries :
    (∀ n ∈ [1, 2, 3, 4, 5, 0x0103, 0x0105, 0x0202, 0x0203], (asked (.fn 0) (BitVec.ofNat 16 n) ready0).taken (.fn 0) (BitVec.ofNat 16 n) = true)
      ∧ (∀ n ∈ [0x0101, 0x0302], ((ticketed0 (BitVec.ofNat 16 n)).ticketOf (BitVec.ofNat 32 (2 ^ 25))).isSome = true
          ∧ ticketIssuer (BitVec.ofNat 32 (2 ^ 25)) = issuerNo (.fn 1) ∧ (ticketed0 (BitVec.ofNat 16 n)).taken (.fn 1) 5 = true)
      ∧ ready0.ticketOf 0 = none ∧ ready0.hm.man = none
      ∧ (bound0 ready0).hm.man = some man0 ∧ ((bound0 ready0).moe 0).isSome = true ∧ 3 + 1 = moe0.routed + moe0.sharedExperts
      ∧ (((ready0.modPort 5 fun p => { p with link := .fenced }).port 5).link = .fenced) ∧ (ready0.port 5).link ≠ .fenced := by
  decide +kernel

/-- R424: a model image's block whose signatures verify. -/
def sig0 (kind : Byte) : SigBlock := ⟨true, kind, false, true, 0, 1, 2, 3, true, 7, 0, true, true⟩

def core1 : LogicalCore := ⟨2303, 0xFFFF, 15, 0, 15, 0, 0, [], [], none, [], [], []⟩

/-- The least model whose limits hold: no layer, one logical core. -/
def man1 : Manifest := { man0 with cores := [core1], layers := [], attnRun := 1, window := 16, bMax := 1, copyBudget := some 0x100000 }

/-- One tile of zeros. -/
def tensor2 : TensorSpec := ⟨1, 1, 80, [0], [⟨0, false, 0, List.replicate 512 0⟩], 0, [0], 1⟩

/-- The same with a tensor of one tile. -/
def man2 : Manifest := { man1 with tensors := [tensor2] }

/-- A tile whose copy failed twice is named; a model without streamed tensors has none. -/
theorem witness_badTile (s : State) (d : BitVec 384) : s.badTile { man1 with digest := d } [] = none
    ∧ s.badTile { man2 with digest := d } [(0, 0)] = some (0, 0) := by
  refine ⟨rfl, ?_⟩
  unfold State.badTile
  rw [show ({ man2 with digest := d } : Manifest).tensors.zipIdx = [(tensor2, 0)] from rfl, List.findSome?_cons,
    show List.range tensor2.tiles.length = [0] from rfl, List.findSome?_cons]
  simp only [show [(0, 0)].contains ((0 : Nat), (0 : Nat)) = true from rfl, Bool.not_true, Bool.and_false, Bool.false_eq_true, if_false]

/-- The header of a bound tile is found. -/
theorem witness_headerIx (s : State) (h : s.hm.man = some man2) : (s.headerIx (s.headerAt man2 0 0)).isSome = true := by
  unfold State.headerIx State.headerAt
  rw [h]
  show Option.isSome ([(tensor2, 0)].findSome? _) = true
  rw [List.findSome?_cons, show tensor2.tiles.length = 1 from rfl]
  simp

/-- One after the other there is room for both, whatever the harbourmaster's own choice is. -/
theorem witness_placement (m : Manifest) (h : m = man1 ∨ m = man2) (d : BitVec 384) : ready0.manifestFits m d = true := by
  have k : ∀ p, p = placeInTurn m [] → placementOk { m with digest := d } [] p = true := by
    rintro p rfl; rcases h with rfl | rfl
    · show placementOk man1 [] (placeInTurn man1 []) = true; decide +kernel
    · show placementOk man2 [] (placeInTurn man2 []) = true; decide +kernel
  have a : placementOk m [] (ready0.placement { m with digest := d }) = true := by
    simp only [State.placement]
    split
    · assumption
    · exact k _ rfl
  have b : (m.tensors.all fun t => t.tiles.all fun x => decide (x.off + 8 * x.block.length ≤ t.sizeMib * 2 ^ 20)) = true := by
    rcases h with rfl | rfl <;> decide +kernel
  have c : (m.cores.all fun l => decide (l.base.toNat * 32 + 8 * l.program.length ≤ Config.windowBytes)
        && l.pinned.all fun p => decide (p.1 + 8 * p.2.length ≤ Config.windowBytes)) = true := by
    rcases h with rfl | rfl <;> decide +kernel
  simp only [State.manifestFits, Bool.and_eq_true]
  exact ⟨⟨a, b⟩, c⟩

theorem witness_loadVerdict (m : Manifest) (h : m = man1 ∨ m = man2) :
    ((asked .rack 0x0101 ready0).told .rack 0x0101 0 0 0).2.loadVerdict (.scatter 65536 .ok) 7 (sig0 2) m = stDone := by
  have f : ((asked .rack 0x0101 ready0).told .rack 0x0101 0 0 0).2.manifestFits m (sig0 2).digest = true := witness_placement m h 7
  have o : manifestOk m = true := by rcases h with rfl | rfl <;> decide +kernel
  unfold State.loadVerdict
  rw [f, o]
  decide +kernel

def adapt0 : AdapterVer := ⟨9, 1, 5, [], true, false⟩

def tune0 : TuneArgs := ⟨9, 1, 2, 1, 1, 1, 0, 0, 0, 0, false⟩

def served0 : State :=
  let s := bound0 ready0
  { s with serv := { s.serv with adapters := [adapt0], sets := [⟨5, 2, []⟩] } }

theorem witness_ServingCommands :
    ready0.ticketsFull .rack = false ∧ (asked .rack 0x0101 ready0).taken .rack 0x0101 = true ∧ ready0.hasBuffers .rack = true
      ∧ ready0.hm.man = none ∧ (asked .rack 0x0101 ready0).loading = false ∧ loadArgBad (.fn 0) (.scatter 65536 .ok) = false
      ∧ loadFetch (.uplink 1 .underWay) = .underWay ∧ loadFetch (.scatter 1 .ok) ≠ .underWay
      ∧ ((asked .rack 0x0101 ready0).told .rack 0x0101 0 0 0).2.loading = true
      ∧ ready0.loadVerdict (.scatter 1 .ok) 7 (sig0 1) man1 = stBadArg
      ∧ (let s := asked .rack 0x0101 ready0
         s.ticketOf (s.told .rack 0x0101 0 0 0).1 = none)
      ∧ (served0.hm.man.isSome = true ∧ served0.digest64 = 0)
      ∧ (∀ n ∈ [0x0102, 0x0104], (asked .rack (BitVec.ofNat 16 n) served0).taken .rack (BitVec.ofNat 16 n) = true)
      ∧ served0.headerIx 1 = none ∧ (served0.reverifying 1 = false)
      ∧ (∀ n ∈ [0x0401, 0x0402, 0x0406, 0x0403, 0x0404], (asked (.fn 1) (BitVec.ofNat 16 n) served0).taken (.fn 1) (BitVec.ofNat 16 n) = true)
      ∧ served0.hasBuffers (.fn 1) = true ∧ served0.foreignAdapter 5 9 = false ∧ served0.jobNames 9 = false
      ∧ served0.tenantOf (.fn 1) = 5
      ∧ served0.serv.adapters.find? (fun a => a.id == 9 && a.version == 1 && a.tenant == 5) = some adapt0
      ∧ (served0.currentAdapter 5 9).isSome = true
      ∧ served0.startFactors 5 tune0 = some [] ∧ served0.untransposed [] = false ∧ tune0.rowShare ≤ served0.bMax
      ∧ served0.jobLoad < 8 ∧ (∃ d ∈ served0.serv.sets, d.tenant = 5 ∧ d.id = 2) := by
  refine ⟨?_, ?_, ?_, ?_, ?_, ?_, ?_, ?_, ?_, ?_, ?_, ?_, ?_, ?_, ?_, ?_, ?_, ?_, ?_, ?_, ?_, ?_, ?_, ?_, ?_, ?_, ⟨⟨5, 2, []⟩, ?_, ?_⟩⟩ <;> decide +kernel

/-- R328: a record that every check passes: prompt 1, context 1,048,576, one new token, model 0, no adapter, ring 2, top_p 1. -/
def record0 : BitVec 1024 := BitVec.ofNat 1024 (2 ^ 672 + 1048576 * 2 ^ 640 + 2 ^ 608 + 0xFFFF * 2 ^ 464 + 2 * 2 ^ 440 + 0x3F800000 * 2 ^ 272)

def req0 (ph : Phase) : Request :=
  { handle := 7, home := 0, f := 1, tenant := 5, ring := 1, ix := 0, record := record0, phase := ph, committed := 1, produced := 0,
    drafted := 0, accepted := 0, steps := 0, held := 0, evicted := 0, aver := 0, a8 := [], sums := [], admitted := 0, ttl := 1000,
    since := 0, seq := 0, top := none, input := 0, base := 1, rows := 1, stop := none, tables := 0, quiet := false, told := false,
    ticket := none, reserve := [], cow := [], short := false, back := false }

/-- Rings of 16 entries: 1 requests with one entry visible, 2 completions. -/
def ringsFn : Func :=
  { Func.reset with bme := true, tenant := 5, rings := [
      (1, { Ring.reset with cfg := BitVec.ofNat 64 (1 + 4 * 2 ^ 20 + 1 * 2 ^ 25), prod := 1 }),
      (2, { Ring.reset with cfg := BitVec.ofNat 64 (1 + 4 * 2 ^ 20 + 2 * 2 ^ 25) }),
      (3, { Ring.reset with cfg := BitVec.ofNat 64 (1 + 4 * 2 ^ 20 + 3 * 2 ^ 25) })] }

def reqState (ph : Phase) : State :=
  let s := bound0 ready0
  { s with serv := { s.serv with reqs := [req0 ph] }, host := { s.host with fns := [(1, ringsFn)] } }

/-- R403: the opcode in the low 16 bits, nothing else but a 128-byte aligned address. -/
def entry0 : BitVec 256 := BitVec.ofNat 256 (0x0301 + 128 * 2 ^ 64)

theorem witness_RequestCommands :
    (∀ ph ∈ [Phase.running, .moored, .movingOut, .prefilled], (reqState ph).visible (.fn 1) 7 = some (req0 ph))
      ∧ (reqState .running).ticketsFull (.fn 1) = false ∧ (7#64).getLsbD 63 = false ∧ (7#64).extractLsb' 0 32 = 7#32
      ∧ (∀ n ∈ [0x0302, 0x0303, 0x0304, 0x0305, 0x0306], (asked (.fn 1) (BitVec.ofNat 16 n) (reqState .running)).taken (.fn 1) (BitVec.ofNat 16 n) = true)
      ∧ (reqState .running).visible (.fn 1) 8 = none
      ∧ (let s := reqState .running
         s.hm.state = 1 ∧ s.hasEntry 1 1 = true ∧ s.turnOf 1 1 = true ∧ s.hasEntry 1 2 = false
          ∧ { s with serv := { s.serv with turn := 128 + 1 } }.turnOf 1 1 = true
          ∧ s.cringOk 1 record0 = true ∧ s.submitVerdict 1 entry0 record0 .ok = stDone
          ∧ s.submitVerdict 1 (entry0 + 1) record0 .ok = stBadArg ∧ (s.ring 1 (cringOf record0)).kept = []
          ∧ s.ringHeld 1 (cringOf record0) < (s.ring 1 (cringOf record0)).room ∧ s.cringOk 1 (record0 + BitVec.ofNat 1024 (2 ^ 440)) = false) := by
  decide +kernel

/-- R334, R335: the end record of a refused request goes to ring 2's slot 0 with status BAD_ARG and the end bit. -/
theorem test_refusal : ((out (exec (.reqSubmit 1 1 (entry0 + 1) (some record0) .ok) (reqState .running))).ring 1 2).prod = 1 := by
  decide +kernel

/-! ## Steps, tide, moves -/

def tide0 (ph : BPhase) (t : Tide) : State := { ready0 with serv := { Serving.reset with phase := ph, tide := t } }

def locked0 (missed : Nat) : Tide := ⟨true, some 1000, 200, missed, 0, 0, 0, 0⟩

def peers0 (hold halt : Bool) : BoundaryIn := ⟨[{ peer0 with halt := halt, hold := hold }]⟩

theorem witness_StepsBeginAndEnd :
    ready0.hm.down = false ∧ ready0.hm.state ≠ 3 ∧ (tide0 .step ⟨false, none, 0, 0, 0, 0, 0, 0⟩).workDone = true
      ∧ (tide0 .step (locked0 0)).workDone = true
      ∧ (1000 ≤ 1050 ∧ 1050 ≤ 1000 + 50) ∧ (locked0 0).last = some 1000 ∧ 1049 < 1000 + 50 ∧ (1000 + 100 ≤ 1100 ∧ 1100 ≤ 1000 + 1000000)
      ∧ (tide0 .step (locked0 0)).serv.phase = .step ∧ (tide0 (.waiting 1050 2 3) (locked0 0)).serv.phase = .waiting 1050 2 3
      ∧ (locked0 0).locked = true ∧ 1000 + ((locked0 0).missed + 1) * (locked0 0).period + 50 < 1251
      ∧ 1000 + ((locked0 1).missed + 1) * (locked0 1).period + 50 < 1451 ∧ 1 ≤ (locked0 1).missed
      ∧ (tide0 .begun (locked0 0)).fab.halted = false ∧ (tide0 .begun (locked0 0)).debugHold = false
      ∧ (tide0 .begun (locked0 0)).faultUnwritten = false
      ∧ (tide0 .exchange (locked0 0)).serv.phase = .exchange ∧ (tide0 .exchange (locked0 0)).fab.halting = false
      ∧ (∃ p ∈ (peers0 false true).peers, p.halt = true) ∧ (∀ p ∈ (peers0 true false).peers, p.halt = false)
      ∧ (peers0 true false).peers.any (·.hold) = true ∧ (peers0 false false).peers.any (·.hold) = false
      ∧ (tide0 .exchange (locked0 0)).pwr.hold = false := by
  decide +kernel

/-- R340: work done 50 µs after the last pulse begins the boundary; 51 µs after, it waits for a pulse. -/
theorem test_work_done : (out (exec (.stepWorkDone 1050) (tide0 .step (locked0 0)))).serv.phase = .begun
    ∧ (out (exec (.stepWorkDone 1051) (tide0 .step (locked0 0)))).serv.phase = BPhase.waiting 1051 0 0 := by decide +kernel
theorem test_boundary : (out (exec (.boundaryExchange (peers0 false false)) (tide0 .exchange (locked0 0)))).hm.step = 1 := by decide +kernel

def shipIn (done : Bool) : Ship := ⟨3, 1, 0, 0, ship0, [], [], done, 0⟩

/-- A pool of one free berth, an arriving shipment, a copy of 10 bytes with 4,096 bytes of budget. -/
def moveState (ph : Phase) : State :=
  let s := reqState ph
  { s with serv := { s.serv with ships := [shipIn false] }, plc := { s.plc with copies := [⟨0, 3, none, 10⟩] } }

theorem witness_RequestsAndShipmentsMove :
    (∀ ph ∈ [Phase.movingOut, .moored, .movingIn, .running], (moveState ph).req 7 = some (req0 ph))
      ∧ (moveState .moored).resuming 7 = false ∧ (moveState .moored).ttlLeft (req0 .moored) ≠ 0
      ∧ (moveState .moored).ttlLeft { req0 .moored with ttl := 0 } = 0
      ∧ (let s := moveState .running
         let c := s.ring 1 (cringOf record0)
         s.homeOf (req0 .running) = true ∧ c.serves 2 = true ∧ s.mastering 1 = true ∧ c.kept = [] ∧ 0 < c.room)
      ∧ (let s := moveState .running
         let old := fun r : BitVec 1024 => s.serv.ships.find? fun y => y.record == r && y.f == 1 && !y.complete
         old 1 = none ∧ old 2 = none ∧ s.shipVerdict 5 ship0 [] = stDone
          ∧ (s.pickHandles false (s.fn 1).tenant 0).isSome = true
          ∧ s.shipVerdict 5 ship0 [⟨1, 0, [], none⟩] ≠ stDone ∧ s.flow ship0.flow = none
          ∧ s.serv.ships.find? (fun y => y.num == 3 && !y.complete) = some (shipIn false)
          ∧ s.plc.copies.find? (isCopy 0 3) = some ⟨0, 3, none, 10⟩ ∧ s.hm.man = some man0 ∧ (s.moe 0).isSome = true) := by
  decide +kernel

/-- R208: a request of a model without layers has no berth alone, so room is there. -/
theorem witness_mooringComplete :
    let s := { moveState .movingOut with hm := { ready0.hm with man := some man1 } }
    s.aloneBerths (req0 .movingOut) = 0 := by decide +kernel

/-- R334: the one sample at a row of the run gives a kept token at position 2, none before anything is sampled. -/
theorem witness_completionRecord :
    let s := moveState .running
    ((s.advance (req0 .running) ⟨7, [[(0x3F800000, 5)]], []⟩).kept.find? (req0 .running).fresh).map (·.position) = some 2
      ∧ (s.advance (req0 .running) ⟨7, [], []⟩).kept.find? (req0 .running).fresh = none ∧ (req0 .running).rows ≠ 0 := by decide +kernel

/-- R214: a shipment that waits less than the timeout, and one that has waited it. -/
theorem witness_shipTimeout :
    let s := moveState .running
    (s.hm.timeNs - 0).toNat < s.shipTimeoutNs
      ∧ s.shipTimeoutNs ≤ (({ s with hm := { s.hm with timeNs := 1000000000 } } : State).hm.timeNs - 0).toNat := by decide +kernel

/-- R365: 10 of a slice's 100,000 bytes are left, and a step's budget holds 4 of them. -/
theorem witness_placerCopy :
    let e := { moe0 with sliceBytes := 100000 }
    let had := e.sliceBytes - 10
    had + 4 ≠ e.sliceBytes ∧ had ≠ e.sliceBytes ∧ (had + 4) / 4096 = had / 4096 := by decide +kernel

/-- R419: a tile of a bound tensor that no re-verification holds. -/
theorem witness_tileWrite :
    let s := asked .rack 0x0104 { ready0 with hm := { ready0.hm with man := some man2 } }
    s.hm.man = some man2 ∧ s.taken .rack 0x0104 = true ∧ s.hasBuffers .rack = true ∧ (∀ h, s.reverifying h = false)
      ∧ s.ticketOf (s.told .rack 0x0104 0 0 0).1 = none := ⟨rfl, by decide +kernel, by decide +kernel, fun _ => rfl, by decide +kernel⟩

/-! ## Host -/

theorem witness_HostRings :
    let s := reqState .running
    s.hm.down = false ∧ s.hm.state ≠ 0 ∧ s.hm.state ≠ 3 ∧ State.reset.hm.state = 0 ∧ (s.ring 1 1).serves 1 = true
      ∧ (16#32 - (s.ring 1 1).prod).toNat = (s.ring 1 1).room ∧ (s.ring 1 1).room < (17#32 - (s.ring 1 1).prod).toNat
      ∧ (s.ring 1 2).serves 2 = true ∧ (s.ring 1 3).serves 3 = true ∧ (s.ring 1 2).kept = [] ∧ (s.ring 1 2).used < (1#32 - (s.ring 1 2).cons).toNat
      ∧ (s.ring 1 4).serves 1 = false ∧ (s.ring 1 4).serves 2 = false ∧ (s.ring 1 4).serves 3 = false
      ∧ (s.ring 1 4).en = false ∧ s.usesCring 1 4 = false ∧ (s.ring 1 1).en = true
      ∧ s.host.reads.length + (16 - (s.ring 1 1).next).toNat ≤ 768 := by decide +kernel

/-- R405: the doorbell that fills the ring is taken, one entry more is refused. -/
theorem test_bell : ((out (exec (.pciRdbDoorbell 1 1 16) (reqState .running))).ring 1 1).prod = 16
    ∧ ((out (exec (.pciRdbDoorbell 1 1 17) (reqState .running))).fn 1).ringerrs = 1 := by decide +kernel

def hostState (tries : Nat) : State :=
  let s := reqState .running
  { s with host := { s.host with reads := [⟨1, 4, tries, 1, 0⟩], nextTag := 5 }
           sec := { s.sec with ide := [⟨64, [1], true⟩] } }

theorem witness_HostFunctions :
    (reqState .running).hm.down = false ∧ (ready0.fn 1).rings = [] ∧ ((1 : FnId) ≠ 0)
      ∧ (∀ n ∈ [1, 2, 3], (hostState n).readOf 1 4 = some ⟨1, 4, n, 1, 0⟩ ∧ 4 < (hostState n).host.nextTag)
      ∧ (hostState 1).host.reads.length ≤ 768
      ∧ (let s := ready0.modFn 1 fun x => { x with pba := 0x80000000 }
         (s.fn 1).pba.getLsbD 31 = true ∧ s.mastering 1 = true)
      ∧ ((hostState 1).sec.ide.any fun i => i.fns == [1] && i.secure) = true
      ∧ (64 ≤ 64 ∧ (0, true) ∈ ((ready0.modFn 0 fun x => { x with sessions := [(0, true)] }).fn 0).sessions)
      ∧ ((ready0.fn 1).tenant ≠ 0 ∧ ∀ g : FnId, g ≠ 1 → (ready0.fn g).tenant ≠ (ready0.fn 1).tenant) := by decide +kernel

theorem witness_RegisterWrites : State.reset.hm.down = false ∧ State.reset.usable 2303 = true ∧ (run0.core 0).seq.state ≠ .idle
    ∧ State.reset.hm.man = none := by decide +kernel

/-! ## Fabric -/

/-- XLK_COORD: this module at (0, 0, 0) of a torus of 2 × 2 × 2. -/
def coord0 : W64 := BitVec.ofNat 64 (2 ^ 16 + 2 * 2 ^ 48 + 2 * 2 ^ 52 + 2 * 2 ^ 56)

def linkState (l : LinkState) : State :=
  let s := { State.reset with fab := { Fabric.reset with coord := coord0, outs := [⟨0, .dma 0 3, ⟨1, 0, 0⟩, true, 0, 8⟩] } }
  (s.modPort 5 fun f => { f with en := true, link := l }).modPort 0 fun f => { f with en := true, link := l }

/-- A frame of a type from the module at (1, 0, 0) to this one. -/
def frameOf (t : Byte) (vc : BitVec 2) (addr : Nat) (ws : List W64) : Frame :=
  { frame0 with ftype := t, vc := vc, dstX := 0, srcX := 1, addr := BitVec.ofNat 48 addr, payload := ws, words := BitVec.ofNat 12 ws.length }

theorem witness_PortsTrainAndFence :
    State.reset.hm.down = false ∧ (State.reset.port 5).en = false ∧ ((linkState .down).port 5).en = true
      ∧ ((linkState .training).port 5).link = .training ∧ ((linkState .narrow).port 5).link = .narrow
      ∧ ((linkState .fenced).port 5).link = .fenced ∧ (State.reset.up 1).link = .disabled
      ∧ (∀ l ∈ [LinkState.training, .down], let s := State.reset.modUp 1 fun u => { u with link := l }
          (s.up 1).link = l)
      ∧ ((4#3).toNat = (5 : PortId).val ^^^ 1 ∧ (⟨0, 0, 1⟩ : Coord) = (linkState .training).expectNeigh 5)
      ∧ ((⟨0, 0, 0⟩ : Coord) ≠ (linkState .training).expectNeigh 5 ∧ (linkState .training).fab.coord.getLsbD 16 = true) := by
  decide +kernel

/-- R378: port 5 holds one frame, number 0, whose replay comes for the eighth time. -/
def replayState (n : Nat) : State := (linkState .wide).modPort 5 fun f => { f with replay := [frame0], replays := n }

theorem witness_FramesOnTheLink :
    let s := linkState .wide
    ((s.port 5).link = .wide) ∧ ((linkState .down).port 5).link = .down ∧ (frameOf 1 0 0 []).ftype ≠ 0 ∧ (frameOf 1 0 0 []).lseq = (s.port 5).rxSeq
      ∧ { frameOf 1 0 0 [] with lseq := 0xFFFF }.lseq ≠ (s.port 5).rxSeq ∧ s.mustNak 5 (frameOf 1 0 0 []) = false
      ∧ (frameOf 8 0 0 []).crcOk = true ∧ frameMalformed (frameOf 8 0 0 []) = false
      ∧ ((s.port 5).trailer (frameOf 8 0 0 [])).from_ 0 = [] ∧ (((replayState 7).port 5).trailer { frameOf 8 0 0 [] with ack := 0 }).from_ 0 ≠ []
      ∧ 8 ≤ (((replayState 7).port 5).trailer { frameOf 8 0 0 [] with ack := 0 }).replays + 1 := by decide +kernel

/-- R386: the send area of core 0 holds a header of zeros; slip 63 receives at the window's last 32 bytes. -/
def slipState : State :=
  let s := linkState .wide
  { s with fab := { s.fab with slips := [(63, (BitVec.ofNat 64 (2 ^ 51 + 0xFFFE0 * 2 ^ 20), 32))] } }

/-- A contribution of rank 1's header and no more, for the given step and configuration. -/
def contFrame (step : W32) (cfg : W64) : Frame :=
  { frameOf 6 2 (0x040000000000 + 0xFFFE0) [0, 0, 0, BitVec.ofNat 64 (2 ^ 40)] with step := step, cfg := cfg }

theorem witness_FramesReachTheirModule :
    let s := linkState .wide
    let w := frameOf 1 0 (0x040000000000 + 0xFFFF8) [7]
    frameMalformed w = false ∧ s.exitPort w = none ∧ s.strayFrame 5 w = false ∧ s.inXfer w = none
      ∧ s.rangeStatus (.frame w.tenant.val) (w.addr.toNat / 8 * 8) (8 * w.payload.length) = 0
      ∧ frameMalformed (frameOf 2 0 0x040000000000 [8]) = false
      ∧ s.rangeStatus (.frame 0) 0x040000000000 (wordAt (frameOf 2 0 0x040000000000 [8]).payload 0 / 8 * 8) = 0
      ∧ frameMalformed (frameOf 3 1 0 [7]) = false ∧ s.fab.outs.find? (outXferOf (frameOf 3 1 0 [7]) true) = some ⟨0, .dma 0 3, ⟨1, 0, 0⟩, true, 0, 8⟩
      ∧ frameMalformed (frameOf 5 1 0 [1]) = false
      ∧ s.fab.outs.find? (fun x => outXferOf (frameOf 5 1 0 [1]) true x || outXferOf (frameOf 5 1 0 [1]) false x) = some ⟨0, .dma 0 3, ⟨1, 0, 0⟩, true, 0, 8⟩
      ∧ (let s := { s with fab := { s.fab with outs := [⟨0, .dma 0 3, ⟨1, 0, 0⟩, false, 0, 0⟩] } }
         frameMalformed (frameOf 4 1 0 []) = false ∧ s.fab.outs.find? (outXferOf (frameOf 4 1 0 []) false) = some ⟨0, .dma 0 3, ⟨1, 0, 0⟩, false, 0, 0⟩)
      ∧ frameMalformed (frameOf 7 3 0 []) = false ∧ s.fab.forming = none
      ∧ (let f := contFrame 0 0
         frameMalformed f = false ∧ slipState.exitPort f = none ∧ slipState.inXfer f = none ∧ slipState.slipTo f.addr.toNat = some (0, 0, 32)
          ∧ (slipState.port 5).held = [] ∧ f.payload.length = 4
          ∧ (contHdrOf (packFields 64 (f.payload.map (·.toNat)))).bytes + 32 = 32
          ∧ ({ slipState with fab := { slipState.fab with slips := [(63, (BitVec.ofNat 64 (2 ^ 51 + 0xFFFC0 * 2 ^ 20), 64))] } } : State).slipTo
              (0x040000000000 + 0xFFFC0) = some (0, 0, 64)
          ∧ (let h := contHdrOf (packFields 64 (f.payload.map (·.toNat)))
             let l := contHdrOf (packFields 64 ((slipState.rdWords (spKey 0 0) 4).map fun w => w.data.toNat))
             contVerdict 0 0 slipState.rank 0 0 h l = .accepted ∧ contVerdict 0 0 slipState.rank 0 1 h l = .held
              ∧ contVerdict 0 0 slipState.rank 1 0 h l = .mismatch 0 ∧ contVerdict 0 0 slipState.rank 0 2 h l = .mismatch 1)
          ∧ (slipState.vc2Frame 5 f).isSome = true ∧ slipState.vc2Frame 5 (contFrame 1 0) = none) := by decide +kernel

theorem test_write_frame : ((out (exec (.writeFrame 5 (frameOf 1 0 (0x040000000000 + 0xFFFF8) [7])) (linkState .wide))).mesh.vc0.map
    fun m => (m.src, m.dst)) = [(.port 5, .core 0)] := by decide +kernel
theorem test_bad_number : ((out (exec (.frameReceive 5 { frameOf 1 0 0 [] with lseq := 1 } true) (linkState .wide))).port 5).naks = 1 := by
  decide +kernel

/-- R382: a slice of 2 modules along X that begins at slot 0; this module is its rank 0, all of its ports up or not. -/
def sliceState (up : Bool) : State :=
  let s := linkState (if up then .wide else .down)
  let t := s.modPort 1 fun f => { f with link := if up then .wide else .down }
  { t with fab := { t.fab with forming := some ⟨4, 2, 2, 1, 0, [⟨0, 0, 0, 0, 0, 0⟩]⟩ } }

theorem witness_SlicesForm :
    let s := asked .rack 0x0201 ready0
    let c := asked .rack 0x0201 { ready0 with fab := { Fabric.reset with coord := 0x10007 } }
    let f : Forming := ⟨4, 2, 2, 1, 0, [⟨0, 0, 0, 0, 0, 0⟩]⟩
    s.taken .rack 0x0201 = true ∧ s.ticketsFull .rack = false ∧ s.fab.forming = none ∧ s.slot = 0
      ∧ (8#8).toNat = (4#8).toNat * (2#8).toNat ∧ s.ticketOf (s.told .rack 0x0201 0 0 0).1 = none
      ∧ c.slot = 1 ∧ (sliceState true).fab.forming = some f ∧ (sliceState true).slot = f.origin ∧ (sliceState true).formingOk = true := by
  decide +kernel

/-- The other module's record agrees; a port that is not up shows in the entries. -/
theorem witness_musters :
    (∀ e ∈ (sliceState true).musterEntries ⟨4, 2, 2, 1, 0, [⟨0, 0, 0, 0, 0, 0⟩, ⟨1, 0, 1, 0, 0, 0⟩]⟩, e.2.1 = 0)
      ∧ (∃ e ∈ (sliceState false).musterEntries ⟨4, 2, 2, 1, 0, [⟨0, 0, 0, 0, 0, 0⟩, ⟨1, 0, 1, 0, 0, 0⟩]⟩, e.2.1 ≠ 0) := by decide +kernel

/-! ## Faults, journal -/

def faulted0 (cause : W16) (read : Bool) : State :=
  with0 { core0 with seq := { seq0 with state := .faulted, faultRead := read, fault := some ⟨cause, 3, 0, 0, 0, 64, 0, 0, 0⟩ } }

theorem witness_FaultsAreContainedOrFatal :
    State.reset.hm.down = false ∧ ((faulted0 0x0904 false).core 0).seq.state = .faulted ∧ ((faulted0 0x0904 false).core 0).seq.faultRead = false
      ∧ ((faulted0 0x0904 true).core 0).seq.faultRead = true ∧ (faulted0 0x0904 false).stepCore 0 = false
      ∧ (let s := faulted0 0x0904 false
         { s with hm := { s.hm with binding := [(0, 0)] } }.stepCore 0 = true)
      ∧ State.reset.hm.state ≠ 3 ∧ (State.reset.hmAt 3).halted = false
      ∧ (let s := { State.reset with fab := { Fabric.reset with slice := 0x10001 } }
         s.formed = true) ∧ State.reset.formed = false := by decide +kernel

def rec1 : JRec := ⟨false, 0x1220, 1, 0, 0, 0, 0, 0, 0, 0, 0, []⟩

def journal0 (newest : W32) (broken : Bool) : State :=
  let s := asked .rack 0x0601 ready0
  { s with bbx := { Bbx.reset with waiting := [rec1], newest := newest, oldest := 0, broken := broken } }

theorem witness_RecordsCommitAndAreRead :
    State.reset.bbx.waiting = [] ∧ (journal0 262143 true).bbx.waiting = [rec1] ∧ (journal0 262143 true).bbx.broken = true
      ∧ (journal0 262143 false).bbx.broken = false
      ∧ { rec1 with cls := 4 }.cls = 4 ∧ rec1.more = false ∧ (let s := { State.reset with fab := { Fabric.reset with slice := 0x10002 } }
         s.formed = true ∧ 1 < s.modules ∧ s.rank = 0)
      ∧ (journal0 262143 false).taken .rack 0x0601 = true ∧ (journal0 262143 false).hasBuffers .rack = true
      ∧ (journal0 262143 false).ticketsFull .rack = false ∧ (journal0 262143 false).bbx.none = false
      ∧ (262143#32 - (journal0 262143 false).bbx.oldest).toNat ≤ ((journal0 262143 false).bbx.newest - (journal0 262143 false).bbx.oldest).toNat
      ∧ (journal0 262143 false).ticketOf ((journal0 262143 false).told .rack 0x0601 3 1 0).1 = none := by decide +kernel

/-- R457: the record behind number 262,143 goes into slot 0. -/
theorem test_journal_wraps : ((out (exec (.journalCommit true true) (journal0 262143 false))).bbx.slots.map (·.1)) = [0] := by decide +kernel

/-! ## Uplinks -/

def flow0 : UFlow := { UFlow.fresh 1 0 5 with sinceAck := 15 }

def upState (f : UFlow) : State :=
  let s := State.reset.modUp 1 fun u => { u with link := .wide }
  { s with fab := { s.fab with flows := [f] }, hm := { s.hm with synced := true } }

theorem witness_UplinksCarryFlows :
    let s := upState flow0
    let d : Datagram := { data0 with flow := 1, seq := 5, data := List.replicate 8192 0 }
    (s.up 1).link = .wide ∧ ¬(d.reservedZero = false ∨ d.crcOk = false ∨ 8192 < d.data.length ∨ 3 < d.dclass.toNat)
      ∧ ({ d with dclass := 4 } : Datagram).dclass.toNat = 4 ∧ s.flow 2 = none ∧ s.flow 1 = some flow0 ∧ d.seq = flow0.expect ∧ 16 ≤ flow0.sinceAck + 1
      ∧ (1028#32 - flow0.expect).toNat = 1023 ∧ (1029#32 - flow0.expect).toNat = 1024 ∧ (∀ y ∈ s.fab.flows, samePeer flow0 y = true → ∀ z ∈ s.flow y.id, z.toSend = [])
      ∧ s.flowUplink 1 = some 1 ∧ (∀ e ∈ flow0.unacked, e.flow = 1) ∧ s.hm.synced = true ∧ State.reset.hm.synced = false
      ∧ ((State.reset.modUp 1 fun u => { u with link := .down }).up 1).link = .down := by decide +kernel

/-! ## Firmware, tenants, SPDM, the rack -/

def fnAsked (f : FnId) (op : W16) : State := asked (.fn f) op (ready0.modFn f fun x => { x with bme := true })

theorem witness_FirmwareAndTenants :
    (∀ n ∈ [0x0501, 0x0502, 0x0503, 0x0504, 0x0602], (fnAsked 0 (BitVec.ofNat 16 n)).taken (.fn 0) (BitVec.ofNat 16 n) = true
        ∧ (fnAsked 0 (BitVec.ofNat 16 n)).hasBuffers (.fn 0) = true ∧ (fnAsked 0 (BitVec.ofNat 16 n)).ticketsFull (.fn 0) = false
        ∧ (fnAsked 0 (BitVec.ofNat 16 n)).ticketOf ((fnAsked 0 (BitVec.ofNat 16 n)).told (.fn 0) 0 0 0 0).1 = none)
      ∧ ready0.sec.recovery = false ∧ ready0.flash.fuses ≤ (sig0 1).svn.toNat ∧ (sig0 1).kind = 1 ∧ (sig0 2).kind ≠ 1
      ∧ (let s := ready0.setKeySlot 63 ⟨some 5, none⟩
         (s.keySlot 63).owner = some 5) ∧ (ready0.keySlot 63).owner = none
      ∧ ((tgcState false true 0).tgc 255).busy = true ∧ (tgcState true false 0).ms.chsvc.getLsbD 255 = true
      ∧ (tgcState false false 0).tgcRefused 255 { (tgcState false false 0).tgc 255 with
          ctrl := 0x4400 &&& 0xFFC0, range := BitVec.ofNat 64 (589823 + 2 ^ 32) &&& 0x000FFFFF000FFFFF } = false := by decide +kernel

def spdm0 (phase : Nat) (sessions : List (Nat × Bool)) : State :=
  let s := ready0.modFn 1 fun x => { x with phase := phase, sessions := sessions }
  { s with ident := { s.ident with rsaChain := [1] } }.setKeySlot 63 ⟨some 5, none⟩

theorem witness_SpdmAndRack :
    ready0.hm.down = false ∧ (∀ n ∈ [0, 1, 2, 3], ((spdm0 n []).fn 1).phase = n) ∧ (spdm0 3 []).chain 0 = some [1] ∧ (spdm0 3 []).chain 2 = none
      ∧ (∀ p ∈ ((spdm0 3 [(0, false)]).fn 1).sessions, p.1 ≠ 1) ∧ (∃ p ∈ ((spdm0 3 [(0, false)]).fn 1).sessions, p.1 = 0)
      ∧ ((0, false) ∈ ((spdm0 3 [(0, false), (1, true)]).fn 1).sessions ∧ (1, true) ∈ ((spdm0 3 [(0, false), (1, true)]).fn 1).sessions)
      ∧ ((spdm0 3 [(1, true)]).keySlot 63).owner = some ((spdm0 3 [(1, true)]).fn 1).tenant ∧ (spdm0 3 [(1, true)]).clearDue 63 = false
      ∧ ((spdm0 3 []).keySlot 62).owner ≠ some ((spdm0 3 []).fn 1).tenant
      ∧ ready0.sec.rackaddr ≠ 0 ∧ (127#8 = ready0.sec.rackaddr.setWidth 8) ∧ (asked .rack 1 ready0).host.rack.st = 1 ∧ ready0.host.rack.st ≠ 1
      ∧ ready0.turnedAway .rack 0x0001 0 = none ∧ ready0.turnedAway .rack 0x0302 0 = some stDenied
      ∧ { ready0 with sec := { Sec.reset with rackaddr := 0 } }.sec.rackaddr = 0 := by decide +kernel

/-! ## Starts, the debug port -/

def start0 (n fails : Nat) (due : Bool) : State := { State.reset with pwr := { Pwr.reset with stage := n, fails := fails, due := due } }

/-- R431: the identity whose stored crc is that of its other bytes. -/
theorem witness_identity (d : Ident) : ({ d with crc := crc32c d.image } : Ident).ok = true := beq_self_eq_true _

theorem witness_StagesOfAStart :
    (start0 0 0 false).pwr.off = false ∧ (start0 0 0 false).pwr.fails = 0 ∧ { State.reset.hm with down := true }.down = true
      ∧ (∀ n ∈ [1, 2, 3, 4, 5, 6, 7, 8, 9], (start0 n 2 true).pwr.stage = n ∧ (start0 n 2 true).hm.down = false ∧ (start0 n 2 true).hm.state ≠ 3)
      ∧ (start0 6 0 false).pwr.due = false ∧ (start0 7 0 true).pwr.due = true
      ∧ (let s := start0 4 0 false
         s.flash.slotA = some FwImage.none ∧ s.flash.fuses ≤ FwImage.none.svn.toNat ∧ (sig0 1).kind = 1 ∧ s.flash.activeB = false
          ∧ s.flash.slotB = none) := by decide +kernel

/-- R481: the third failed start in a row leaves the module off. -/
theorem test_third_failure : (out (exec (.pllLock false true) (start0 2 2 false))).pwr.off = true
    ∧ (out (exec (.pllLock false true) (start0 2 1 false))).pwr.off = false := by decide +kernel

/-- The port holds a request of an opcode with tag 9, an argument and data. -/
def dbgState (op arg data : Nat) (scope : BitVec 3) : State :=
  { run0 with dbg := { Dbg.reset with req := some (BitVec.ofNat 128 (op + 9 * 2 ^ 8 + arg + data * 2 ^ 64)) },
              sec := { Sec.reset with scope := scope } }

theorem witness_DebugPort :
    State.reset.hm.down = false ∧ State.reset.dbg.pended = false ∧ State.reset.dbg.req = none ∧ dbgUndefined 0x0900 = false ∧ dbgUndefined 0x0A = true
      ∧ ((dbgState 0 0 0 0).dbg.req.isSome = true)
      ∧ (∀ n ∈ [0, 1, 7, 8, 9], (dbgState n 0 0 0).dbg.asks n 9 0 0 0 = true)
      ∧ (dbgState 2 (45 * 2 ^ 16) 0 0).dbg.asks 2 9 ((45#6).toNat * 2 ^ 16) 0 0 = true
      ∧ (dbgState 3 ((2 ^ 26 - 8) * 2 ^ 16) 0 0).dbg.asks 3 9 ((0x3FFFFF8#26).toNat * 2 ^ 16) 0 0 = true
      ∧ (dbgState 4 0 7 0).dbg.asks 4 9 0 ((7#3).setWidth 64) 3 = true ∧ (dbgState 5 (7 * 2 ^ 16) 0 0).dbg.asks 5 9 ((7#3).toNat * 2 ^ 16) 0 0 = true
      ∧ (dbgState 6 (2155 * 2 ^ 16) 3 0).dbg.asks 6 9 ((2155#12).toNat * 2 ^ 16) 3 64 = true
      ∧ (dbgState 7 0 0 0).dbg.chal = none ∧ (dbgState 7 0 0 0).debugHold = false ∧ (dbgState 8 0 0 0).dbg.fails < 8 := by decide +kernel

/-- An outstanding challenge, its token complete, and a signature that verifies. -/
theorem witness_unlock : let d : Dbg := { Dbg.reset with chal := some (7, 5), token := [(0, 7)] }
    d.chal = some (7, 5) ∧ (∀ i < 8, Sparse.get 0 d.token i = (7#512).extractLsb' (64 * i) 64) ∧ (sig0 4).kind = 4 := by decide +kernel

/-- R497: an argument with core 0, register class, register and word; a halted core. -/
def haltedState (op arg data : Nat) : State := { dbgState op arg data 7 with cores := [(0, seqIn .halted)] }

theorem witness_DebugOperations :
    (∀ n ∈ [0x10, 0x11, 0x12, 0x20, 0x21, 0x22, 0x39], (dbgState n 0 0 7).dbg.asks n 9 0 0 0 = true)
      ∧ (∀ i < 3, (dbgState 0 0 0 7).sec.scope.getLsbD i = true) ∧ ((dbgState 0x10 0 0 0).sec.scope.getLsbD 0 = false)
      ∧ (dbgState 0x13 (3 * 2 ^ 16 + 3 * 2 ^ 18 + 2 ^ 20) 64 7).dbg.asks 0x13 9 ((3#2).toNat * 2 ^ 16 + (3#2).toNat * 2 ^ 18 + 2 ^ 20) 64 64 = true
      ∧ (dbgState 0x15 (63 * 2 ^ 20) 64 7).dbg.asks 0x15 9 (63 * 2 ^ 20) 64 64 = true
      ∧ (dbgState 0x23 (3 * 2 ^ 48 + 2 ^ 50) 0xFFFE0 7).dbg.asks 0x23 9 (3 * 2 ^ 48 + 2 ^ 50) 0xFFFE0 20 = true ∧ (0xFFFE0 : Nat) % 32 = 0
      ∧ (haltedState 0x24 (15 * 2 ^ 34 + 31 * 2 ^ 41 + 2 ^ 46) 0).dbg.asks 0x24 9 (15 * 2 ^ 34 + 31 * 2 ^ 41 + 2 ^ 46) 0 0 = true
      ∧ regOk 1 31 15 = true ∧ ((haltedState 0 0 0).core 0).seq.state = .halted ∧ (0 ∉ (haltedState 0 0 0).ident.fused)
      ∧ (dbgState 0x30 ((0x040000000000 + 0xFFFF8) * 2 ^ 16) 0 7).dbg.asks 0x30 9 ((0x0400000FFFF8#48).toNat * 2 ^ 16) 0 0 = true
      ∧ (dbgState 0x30 0 0 7).dbgPlace 0x0400000FFFF8 = .scratch 0 0xFFFF8 ∧ ((dbgState 0x30 0 0 7).core 0).downByte 0xFFFF8 0xFFFFF = none
      ∧ (dbgState 0x30 0 0 7).shut 0 = false ∧ (dbgState 0x31 0 5 7).inbound 0 0xFFFF8 8 = .land
      ∧ (dbgState 0x30 0 0 7).calm 0 = true ∧ 0xFFFF8 + 8 ≤ 2 ^ 20 ∧ (dbgState 0x30 0 0 7).poison.contains (spKey 0 0xFFFF8 / 8) = false
      ∧ (haltedState 0 0 0).debugHold = true
      ∧ (let s := haltedState 0x14 (63 * 2 ^ 20) 0
         let q := s.setHm 0 { s.hmAt 0 with halted := true, regs := [(63, 5)] }
         (q.hmAt 0).halted = true ∧ assoc? 63 (q.hmAt 0).regs = some 5)
      ∧ ({ dbgState 0x31 0 5 7 with cores := [(0, coreReads)] } : State).inbound 0 0xFFFF8 8 = .hold
      ∧ (dbgState 0x32 (0x3FFF8 * 2 ^ 28) 0 7).dbg.asks 0x32 9 ((0x3FFF8#18).toNat * 2 ^ 28) 0 0 = true
      ∧ (dbgState 0x38 0 1 7).dbg.asks 0x38 9 0 1 1 = true
      ∧ ((idle0 0 15).core 0).seq.filling = false ∧ (run0.core 0).seq.state ≠ .idle := by decide +kernel

theorem test_memrd : (out (exec (.memrd 9 0x0400000FFFF8) ((dbgState 0x30 (0x0400000FFFF8 * 2 ^ 16) 0 7).wr (spKey 0 0xFFFF8) 8 77))).dbg.resp
    = dbgResponse 0x30 9 0 77 := by decide +kernel

/-! ## The block as a whole -/

theorem witness_StepRunsTheFrontCommand : State.reset.pending = [] ∧ { State.reset with pending := [Instr.nop 0] }.pending = [.nop 0] := ⟨rfl, rfl⟩

theorem test_step : step { run0 with pending := [.pnop 0, .nop 0] } = exec (.pnop 0) { run0 with pending := [.nop 0] } := rfl

theorem witness_RegisterFormsTouchTheirCoreAlone : ∃ t, exec (.pnop 0) run0 = .next t := ⟨_, rfl⟩

theorem witness_CanonicalFormsAreKept : State.reset.canonical = true ∧ State.reset.formingOk = true
    ∧ (sliceState true).formingOk = true ∧ ((writeTo 0xFFFF8 core0).wr (spKey 0 0) 8 77).canonical = true
    ∧ ∃ t, step State.reset = .next t := by
  refine ⟨by decide +kernel, by decide +kernel, by decide +kernel, by decide +kernel, _, rfl⟩

/-! ## More slot words, written out field by field -/

/-- R159, R160: class 0x1, fn 3, vd 7, va 8, vb 9, vc 10, bs 1. -/
theorem test_word_vfma : Decode.vec 0b0001_000011_00111_01000_01001_01010_1_000000000000000000000000000000000#64
    = .fp .fma false ⟨7, 8, 9, 10, true⟩ := by decide +kernel
/-- R159: class 0x6, fn 1, va 2, vb 4, off 0x40. -/
theorem test_word_vst : Decode.vec 0b0110_000001_00000_00010_00100_00000_0_00000000000001000000_0000000000000#64
    = .vst false 2 4 0x40 := by decide +kernel
/-- R159: class 0x8, fn 0, va 1, cx 2, mode 3, km1 7. -/
theorem test_word_rbeg : Decode.vec 0b1000_000000_00000_00001_00000_00000_10_11_000111_000000000000000000000000#64
    = .rbeg 1 2 3 7 := by decide +kernel
/-- R121: class 0xF, op 1, tile 5, entry 16, n − 1 = 7. -/
theorem test_word_aclr : Decode.vec 0b1111_0_001_000101_00010000_00000111_0000000000000000000000000000000000#64
    = .aclr 5 16 7 := by decide +kernel
/-- R121: op 5 is not defined. -/
theorem test_word_acc_undefined : Decode.vec 0b1111_0_101_000000_00000000_00000000_0000000000000000000000000000000000#64
    = .undefinedAcc := by decide +kernel
/-- R284: class 0x3, fn 0, rd 6, q 65. -/
theorem test_word_qrd : Decode.mov 0b0011_0000_00110_1000001_00000000000000000000000000000000000000000000#64
    = .qrd 6 65 := by decide +kernel
/-- R258: class 0xB, s_addr 1, s_len 2, s_cnt 3. -/
theorem test_word_await : Decode.mov 0b1011_0000_00001_00010_00011_00000000000000000000000000000000000000000#64
    = .await 1 2 3 := by decide +kernel
/-- R129: op 0xE, src 0, tile 4, entry 9, nrec 2, ofmt 1, rot 3, fuse 1, ffmt 1, adp 0, sc 1, tal 0, s_desc 12. -/
theorem test_word_oqnt : Decode.mov 0b1110_00_000100_00001001_0010_001_011_01_1_0_1_0_01100_00000000000000000000000#64
    = .oqnt ⟨0, 4, 9, 2, 1, 3, 1, true, false, true, false, 12⟩ := by decide +kernel

end Sys2Proof.Tests
end

section
/-! PROOF. Writes of registers and reads of BAR0: what the address of a write names, what each register does with it, and what
the host reads. -/

namespace Sys2Proof.Machine

/-! ## Bits and functions -/

/-- R9: a bit of a word's number is the bit of the word. -/
theorem tb_toNat {n : Nat} (v : BitVec n) (i : Nat) : tb v.toNat i = v.getLsbD i := by
  rw [BitVec.getLsbD, Nat.testBit_eq_decide_div_mod_eq]; rfl

theorem State.onlyFn_modFn (s : State) (f : FnId) (g : Func → Func) : s.onlyFn (s.modFn f g) f (g (s.fn f)) :=
  ⟨rfl, State.fn_modFn .., fun _ h => State.fn_modFn_other _ _ _ _ h⟩

/-! ## Addresses of registers (R11, R292) -/

/-- The address by which the host names the register at `off` of BAR0 of a function. DESIGN CHOICE (log 83). -/
abbrev barAddr (f : FnId) (off : Nat) : W64 := BitVec.ofNat 64 (f.val * 0x10000 + off)

/-- The address of the register at `off` of control space. -/
abbrev ctlAddr (off : Nat) : W64 := BitVec.ofNat 64 (0x080000000000 + off)

theorem exec_registerWrite {s : State} (h : s.hm.down = false) (addr v : W64) (src : Node) :
    exec (.registerWrite addr v src) s = .next (s.regWrite addr v src) :=
  State.live_next s (fun s => s.regWrite addr v src) h

theorem exec_mbxDoorbell {s : State} (h : s.hm.down = false) (f : FnId) (v : W64) :
    exec (.mbxDoorbell f v) s = .next (s.doorbell f v) := State.live_next s (fun s => s.doorbell f v) h

theorem exec_pciRdbDoorbell {s : State} (h : s.hm.down = false) (f : FnId) (r : RingId) (v : W32) :
    exec (.pciRdbDoorbell f r v) s = .next (s.bell f r v) := State.live_next s (fun s => s.bell f r v) h

theorem State.regWrite_bar (s : State) (f : FnId) (off : Nat) (v : W64) (h : off < 0x10000) :
    s.regWrite (barAddr f off) v .pcie = s.barWrite f off v := by
  have hf := f.isLt
  have ha : (barAddr f off).toNat = f.val * 0x10000 + off := by rw [BitVec.toNat_ofNat]; omega
  have hq : (Fin.ofNat 64 ((f.val * 0x10000 + off) / 0x10000) : FnId) = f := Fin.ext (by simp only [Fin.val_ofNat]; omega)
  have hr : (f.val * 0x10000 + off) % 0x10000 = off := by omega
  simp only [State.regWrite, ha, hq, hr]
  exact if_pos (by omega)

theorem ctlAddr_toNat (off : Nat) (h : off < 0x20000000) : (ctlAddr off).toNat = 0x080000000000 + off := by
  rw [BitVec.toNat_ofNat]; omega

theorem State.regWrite_harbourmaster (s : State) (off : Nat) (v : W64) (h : off < 0x20000000) :
    s.regWrite (ctlAddr off) v .harbourmaster = s.ctlWrite false (0x080000000000 + off) v := by
  rw [State.regWrite, ctlAddr_toNat off h]

theorem State.regWrite_debug (s : State) (off : Nat) (v : W64) (h : off < 0x20000000) :
    s.regWrite (ctlAddr off) v .debug = s.ctlWrite true (0x080000000000 + off) v := by
  rw [State.regWrite, ctlAddr_toNat off h]

theorem ctlBlock_core (c : CoreId) (o : Nat) (h : o < 0x10000) :
    ctlBlock (0x080000000000 + (c.val * 0x10000 + o)) = some (.core c, o) := by
  have hc := c.isLt
  have ha : 0x080000000000 + (c.val * 0x10000 + o) - 0x080000000000 = c.val * 0x10000 + o := by omega
  have hq : (Fin.ofNat 2304 ((c.val * 0x10000 + o) / 0x10000) : CoreId) = c := Fin.ext (by simp only [Fin.val_ofNat]; omega)
  have hr : (c.val * 0x10000 + o) % 0x10000 = o := by omega
  simp only [ctlBlock, Config.controlBase, ha, hq, hr]
  rw [if_neg (by omega), if_pos (by omega)]

/-! ## Writes of control space -/

theorem State.ctlWrite_core (s : State) (debug : Bool) (c : CoreId) (o : Nat) (v : W64) (h : o < 0x10000) :
    s.ctlWrite debug (0x080000000000 + (c.val * 0x10000 + o)) v = s.writeCore c o v := by
  rw [State.ctlWrite, ctlBlock_core c o h]

/-- The blocks whose registers are all RO. -/
def CtlBlock.readOnly : CtlBlock → Bool
  | .ctrl _ | .bbx | .pwr | .clk | .thm | .dbg => true
  | _ => false

theorem State.ctlWrite_readOnly (s : State) (debug : Bool) {addr : Nat} (v : W64) {b : CtlBlock} {o : Nat}
    (h : ctlBlock addr = some (b, o)) (hb : b.readOnly = true) : s.ctlWrite debug addr v = s := by
  rw [State.ctlWrite, h]
  cases b with
  | ctrl | bbx | pwr | clk | thm | dbg => rfl
  | core | mem | channel | anc | fabric | port | uplink | sec => cases hb

theorem State.ctlWrite_unmapped (s : State) (debug : Bool) {addr : Nat} (v : W64) (h : ctlBlock addr = none) :
    s.ctlWrite debug addr v = s := by rw [State.ctlWrite, h]

/-- R397: XLK_COORD. -/
theorem State.ctlWrite_coord (s : State) (debug : Bool) (v : W64) : s.ctlWrite debug (0x080000000000 + 0x14000000) v
    = { s with fab := { s.fab with coord := v &&& 0xFFFF00000001FFFF#64 } } := by
  rw [State.ctlWrite, show ctlBlock (0x080000000000 + 0x14000000) = some (.fabric, 0) by decide]; rfl

/-- R388, R397: XLK_STEP takes no write. DEDUCED (log 79). -/
theorem State.ctlWrite_step (s : State) (debug : Bool) (v : W64) : s.ctlWrite debug (0x080000000000 + 0x14000010) v = s := by
  rw [State.ctlWrite, show ctlBlock (0x080000000000 + 0x14000010) = some (.fabric, 0x10) by decide]; rfl

/-- R217: MEM_BPOOL_BASE while no model is bound. -/
theorem State.ctlWrite_bpBase (s : State) (debug : Bool) (v : W64) (h : s.hm.man = none) :
    s.ctlWrite debug (0x080000000000 + 0x10000C00) v
      = { s with ms := { s.ms with bpBase := v &&& 0xFFFFFFFFFFFF8000#64 } } := by
  rw [State.ctlWrite, show ctlBlock (0x080000000000 + 0x10000C00) = some (.mem, 0xC00) by decide]
  simp [State.writeMemReg, h]

/-- R448: SEC_REGERR; the debug port needs its scope for the security block. -/
theorem State.ctlWrite_regerr_debug (s : State) (v : W64) : s.ctlWrite true (0x080000000000 + 0x16000010) v
    = if s.sec.scope.getLsbD 2 then { s with sec := { s.sec with regValid := s.sec.regValid && !v.getLsbD 8 } } else s := by
  rw [State.ctlWrite, show ctlBlock (0x080000000000 + 0x16000010) = some (.sec, 0x10) by decide]
  cases s.sec.scope.getLsbD 2 <;> simp [State.writeSec, tb_toNat]

/-! ## Registers of a core (R243) -/

theorem State.writeCore_wdog (s : State) (c : CoreId) (v : W64) (h : s.usable c = true) :
    s.writeCore c 0x10 v = s.wdogWrite c v := by
  simp [State.writeCore, idleOnly, h]

theorem State.writeCore_ostStep (s : State) (c : CoreId) (v : W64) (h : s.usable c = true) :
    s.writeCore c 0x318 v = s.modCore c fun k => { k with ost := { k.ost with step := v, poisonSeen := false } } := by
  simp [State.writeCore, idleOnly, h]

/-- R261, R289: a register that is written only while its core is idle. -/
theorem State.writeCore_notIdle (s : State) (c : CoreId) (o : Nat) (v : W64) (ho : idleOnly o = true)
    (h : (s.core c).seq.state ≠ .idle) : s.writeCore c o v = s := by
  simp [State.writeCore, ho, h]

/-! ## Writes of BAR0 (R399) -/

theorem State.barWrite_err (s : State) (f : FnId) (v : W64) :
    s.barWrite f 0x18 v = s.modFn f fun x => { x with err := x.err &&& ~~~(v.extractLsb' 0 6) } := rfl

theorem State.barWrite_evring (s : State) (f : FnId) (v : W64) :
    s.barWrite f 0x20 v = s.modFn f fun x => { x with evring := v.extractLsb' 0 8 } := rfl

theorem State.barWrite_mbxDoorbell (s : State) (f : FnId) (v : W64) : s.barWrite f 0x1000 v = s.doorbell f v := rfl

theorem State.barWrite_lost (s : State) (f : FnId) (v : W64) : s.barWrite f 0x4000 v = s.lostWrite f := rfl

theorem State.barWrite_ringDoorbell (s : State) (f : FnId) (r : RingId) (v : W64) :
    s.barWrite f (0x2000 + 8 * r.val) v = s.bell f r (v.extractLsb' 0 32) := by
  have hr := r.isLt
  have hq : (Fin.ofNat 128 ((0x2000 + 8 * r.val - 0x2000) / 8) : RingId) = r := Fin.ext (by simp only [Fin.val_ofNat]; omega)
  unfold State.barWrite
  rw [if_neg (by omega), if_neg (by omega), if_neg (by omega), if_neg (by omega), if_neg (by omega), if_pos (by omega), hq]

/-! ## Reads of BAR0 (R399, R405, R411) -/

/-- MBX_STATUS is two halves: the sequence number above, the state and the collision bit below. -/
theorem Mbx.read_status (m : Mbx) : m.read 8 = m.seq ++ BitVec.ofNat 32 (bit m.collide * 4 + m.st.toNat) := by
  have hb : bit m.collide ≤ 1 := by cases m.collide <;> decide
  have hm := m.st.isLt
  have hs := m.seq.isLt
  apply BitVec.eq_of_toNat_eq
  rw [Mbx.read, if_pos rfl, BitVec.toNat_append, ← Nat.shiftLeft_add_eq_or_of_lt (BitVec.isLt _)]
  simp only [BitVec.toNat_ofNat, Nat.shiftLeft_eq]
  omega

theorem State.barRead_mbx (s : State) (f : FnId) (o : Nat) (ho : o < 0x1000) (h8 : o % 8 = 0) :
    s.barRead f (0x1000 + o) = (s.fn f).mbx.read o := by
  unfold State.barRead
  rw [if_neg (by omega), if_pos (by omega), Nat.add_sub_cancel_left]

theorem State.barRead_ringDoorbell (s : State) (f : FnId) (r : RingId) : s.barRead f (0x2000 + 8 * r.val) = 0 := by
  have hr := r.isLt
  unfold State.barRead
  rw [if_neg (by omega), if_neg (by omega), if_neg (by omega), if_neg (by omega)]
  split
  case h_11 => rfl
  all_goals omega

theorem State.barRead_ring (s : State) (f : FnId) (r : RingId) (o : Nat) (ho : o < 32) (h8 : o % 8 = 0) :
    s.barRead f (0x3000 + 32 * r.val + o) = (s.ring f r).read o := by
  have hr := r.isLt
  have hq : (Fin.ofNat 128 ((0x3000 + 32 * r.val + o - 0x3000) / 32) : RingId) = r :=
    Fin.ext (by simp only [Fin.val_ofNat]; omega)
  have hm : (0x3000 + 32 * r.val + o) % 32 = o := by omega
  unfold State.barRead
  rw [if_neg (by omega), if_neg (by omega), if_pos (by omega), hq, hm]

theorem State.barRead_rcfg (s : State) (f : FnId) (r : RingId) : s.barRead f (0x3008 + 32 * r.val) = (s.ring f r).cfg := by
  rw [show 0x3008 + 32 * r.val = 0x3000 + 32 * r.val + 8 by omega, State.barRead_ring _ _ _ _ (by omega) rfl]; rfl

theorem State.barRead_rstat (s : State) (f : FnId) (r : RingId) :
    s.barRead f (0x3010 + 32 * r.val) = (s.ring f r).cons ++ (s.ring f r).prod := by
  rw [show 0x3010 + 32 * r.val = 0x3000 + 32 * r.val + 16 by omega, State.barRead_ring _ _ _ _ (by omega) rfl]; rfl

/-- R399: what the host reads of BAR0. -/
theorem State.barRead_registers (s : State) (f : FnId) (r : RingId) :
    s.barRead f 0 = s.sec.run.major ++ s.sec.run.minor ++ s.sec.run.patch ++ s.ident.hwrev ++ BitVec.ofNat 8 f.val
      ∧ s.barRead f 8 = s.ident.serial ∧ s.barRead f 0x18 = (s.fn f).err.setWidth 64
      ∧ s.barRead f 0x20 = (s.fn f).evring.setWidth 64
      ∧ s.barRead f 0x1000 = 0 ∧ s.barRead f (0x2000 + 8 * r.val) = 0
      ∧ s.barRead f 0x1008
          = (s.fn f).mbx.seq ++ BitVec.ofNat 32 (bit (s.fn f).mbx.collide * 4 + (s.fn f).mbx.st.toNat)
      ∧ s.barRead f (0x3008 + 32 * r.val) = (s.ring f r).cfg
      ∧ s.barRead f (0x3010 + 32 * r.val) = (s.ring f r).cons ++ (s.ring f r).prod :=
  ⟨rfl, rfl, rfl, rfl, s.barRead_mbx f 0 (by omega) rfl, s.barRead_ringDoorbell f r,
    (s.barRead_mbx f 8 (by omega) rfl).trans (s.fn f).mbx.read_status, s.barRead_rcfg f r, s.barRead_rstat f r⟩

/-! ## The commands -/

variable {s : State} (hup : s.hm.down = false)
include hup

theorem exec_registerWrite_bar (f : FnId) (off : Nat) (v : W64) (h : off < 0x10000) :
    exec (.registerWrite (barAddr f off) v .pcie) s = .next (s.barWrite f off v) := by
  rw [exec_registerWrite hup, State.regWrite_bar s f off v h]

theorem exec_registerWrite_ctl (off : Nat) (v : W64) (h : off < 0x20000000) :
    exec (.registerWrite (ctlAddr off) v .harbourmaster) s = .next (s.ctlWrite false (0x080000000000 + off) v) := by
  rw [exec_registerWrite hup, State.regWrite_harbourmaster s off v h]

theorem exec_registerWrite_core (c : CoreId) (o : Nat) (v : W64) (h : o < 0x10000) :
    exec (.registerWrite (ctlAddr (c.val * 0x10000 + o)) v .harbourmaster) s = .next (s.writeCore c o v) := by
  rw [exec_registerWrite_ctl hup _ v (by omega), State.ctlWrite_core s false c o v h]

/-- R405, R411: the two doorbells are commands of their own. -/
theorem registerWrite_doorbells (f : FnId) (r : RingId) (v : W64) :
    exec (.registerWrite (barAddr f 0x1000) v .pcie) s = exec (.mbxDoorbell f v) s
      ∧ exec (.registerWrite (barAddr f (0x2000 + 8 * r.val)) v .pcie) s = exec (.pciRdbDoorbell f r (v.extractLsb' 0 32)) s := by
  have hr := r.isLt
  constructor
  · rw [exec_registerWrite_bar hup f _ v (by omega), State.barWrite_mbxDoorbell, exec_mbxDoorbell hup]
  · rw [exec_registerWrite_bar hup f _ v (by omega), State.barWrite_ringDoorbell, exec_pciRdbDoorbell hup]

/-- A write of BAR0 that changes only the function's own registers. -/
theorem registerWrite_onlyFn (f : FnId) (off : Nat) (v : W64) (g : Func → Func) (h : off < 0x10000)
    (hw : s.barWrite f off v = s.modFn f g) :
    ∃ t, exec (.registerWrite (barAddr f off) v .pcie) s = .next t ∧ s.onlyFn t f (g (s.fn f)) :=
  ⟨_, by rw [exec_registerWrite_bar hup f off v h, hw], State.onlyFn_modFn s f g⟩

/-- R243, R259, R289: registers of a core's control window. -/
theorem registerWrite_core (c : CoreId) (v : W64) (hc : s.usable c = true) :
    exec (.registerWrite (ctlAddr (c.val * 0x10000 + 0x10)) v .harbourmaster) s = exec (.seqWdogWrite c v) s
      ∧ (∃ t, exec (.registerWrite (ctlAddr (c.val * 0x10000 + 0x318)) v .harbourmaster) s = .next t ∧ s.onlyCore t c
          { s.core c with ost := { (s.core c).ost with step := v, poisonSeen := false } })
      ∧ ((s.core c).seq.state ≠ .idle →
          exec (.registerWrite (ctlAddr (c.val * 0x10000 + 0x540)) v .harbourmaster) s = .next s) := by
  refine ⟨?_, ⟨_, exec_registerWrite_core hup c 0x318 v (by omega), ?_⟩, fun hi => ?_⟩
  · rw [exec_registerWrite_core hup c 0x10 v (by omega), State.writeCore_wdog s c v hc]; rfl
  · rw [State.writeCore_ostStep s c v hc]; exact State.onlyCore_modCore (State.onlyCore_refl s c) _
  · rw [exec_registerWrite_core hup c 0x540 v (by omega), State.writeCore_notIdle s c 0x540 v rfl hi]

/-- R11, R292: RO registers, blocks of RO registers alone, and an unmapped address take no write. -/
theorem registerWrite_discarded (v : W64) :
    ∀ off ∈ [0x14000010, 0x17000008, 0x18000000, 0x19000008, 0x1A000000, 0x1B000000, 0x1C000000],
      exec (.registerWrite (ctlAddr off) v .harbourmaster) s = .next s := by
  have block (off : Nat) (b : CtlBlock) (o : Nat) (h : off < 0x20000000)
      (hb : ctlBlock (0x080000000000 + off) = some (b, o)) (hro : b.readOnly = true) :
      exec (.registerWrite (ctlAddr off) v .harbourmaster) s = .next s := by
    rw [exec_registerWrite_ctl hup off v h, State.ctlWrite_readOnly s false v hb hro]
  simp only [List.forall_mem_cons, List.not_mem_nil, false_implies, implies_true, and_true]
  refine ⟨?_, block _ .bbx 8 (by decide) (by decide) rfl, block _ .pwr 0 (by decide) (by decide) rfl,
    block _ .clk 8 (by decide) (by decide) rfl, block _ .thm 0 (by decide) (by decide) rfl,
    block _ .dbg 0 (by decide) (by decide) rfl, ?_⟩
  · rw [exec_registerWrite_ctl hup _ v (by omega), State.ctlWrite_step]
  · rw [exec_registerWrite_ctl hup _ v (by omega), State.ctlWrite_unmapped s false v (by decide)]

/-- R11: a core or a torus port writes no register. -/
theorem registerWrite_otherSource (c : CoreId) (p : PortId) (addr v : W64) :
    ∀ src ∈ [Node.core c, .port p], exec (.registerWrite addr v src) s = .next s := by
  simp only [List.forall_mem_cons, List.not_mem_nil, false_implies, implies_true, and_true]
  exact ⟨exec_registerWrite hup .., exec_registerWrite hup ..⟩

end Sys2Proof.Machine

open Sys2Proof Sys2Proof.Machine

/-- Settles O42: a write goes to the register that its address names, clause by clause. -/
theorem registerWrites : Obligations.RegisterWrites := by
  intro f r c p v s hup bar ctl
  obtain ⟨hmbx, hring⟩ := registerWrite_doorbells hup f r v
  refine ⟨hmbx, hring, registerWrite_onlyFn hup f 0x18 v _ (by omega) (s.barWrite_err f v),
    registerWrite_onlyFn hup f 0x20 v _ (by omega) (s.barWrite_evring f v),
    registerWrite_onlyFn hup f 0x4000 v _ (by omega) (s.barWrite_lost f v),
    registerWrite_core hup c v, fun hman => ?_, ?_, registerWrite_discarded hup v, ?_,
    registerWrite_otherSource hup c p (ctl 0x14000000) v, s.barRead_registers f r⟩
  · rw [exec_registerWrite_ctl hup 0x10000C00 v (by omega), s.ctlWrite_bpBase false v hman]
  · rw [exec_registerWrite_ctl hup 0x14000000 v (by omega), s.ctlWrite_coord false v]
  · rw [exec_registerWrite hup, s.regWrite_debug 0x16000010 v (by omega), s.ctlWrite_regerr_debug v]

end

section
/-! PROOF. The start of a task: when it is ignored, what the core is as its task starts, and the region check. -/

namespace Sys2Proof.Machine

/-! ## The write of start (R244) -/

/-- R244: offset of the first bundle of a task. -/
def Core.entryOffset (k : Core) : Nat := k.seq.entry.toNat * 32

/-- R245: the region does not lie within the scratchpad, a bank of it is powered down, or it does not hold the entry. -/
def Core.startBad (k : Core) : Bool :=
  decide (Config.windowBytes < k.region.2) || (k.downByte k.region.1 (k.region.2 - 1)).isSome
    || decide (k.entryOffset < k.region.1) || decide (k.region.2 ≤ k.entryOffset)

theorem Core.startBad_iff (k : Core) : k.startBad = true ↔ 2 ^ 20 < k.region.2 ∨ k.entryOffset < k.region.1
    ∨ k.region.2 ≤ k.entryOffset ∨ (k.downByte k.region.1 (k.region.2 - 1)).isSome = true := by
  have hwindow : Config.windowBytes = 2 ^ 20 := rfl
  simp only [Core.startBad, Bool.or_eq_true, decide_eq_true_eq]
  rw [hwindow, or_assoc, or_assoc]
  exact or_congr_right (or_comm.trans or_assoc)

theorem Core.startBad_eq_false {k : Core} (hwin : k.region.2 ≤ 2 ^ 20) (hbank : k.downByte k.region.1 (k.region.2 - 1) = none)
    (hlo : k.region.1 ≤ k.entryOffset) (hhi : k.entryOffset < k.region.2) : k.startBad = false := by
  rw [Bool.eq_false_iff, ne_eq, Core.startBad_iff, hbank]
  simp only [Option.isSome_none, Bool.false_eq_true, or_false]
  omega

/-- R244: what a start makes of the core's sequencer. -/
def Core.started (k : Core) : Core :=
  { k with
    faultUnit := none
    faultQuay := none
    seq := { k.seq with
      fault := none, faultThisTask := false, faultRead := false, startCc := k.seq.cc, stall := 0, fetchAt := 0, wdogCount := 0,
      ended := false, loops := [], ibuf := [], frozen := none, pc := BitVec.ofNat 20 k.entryOffset,
      state := if k.seq.haltAtStart then .halted else .running, haltAtStart := false, stepOnce := false, passBreak := false } }

/-- R245, R265: the fault of a start whose region or entry does not fit. -/
def Core.startFault (k : Core) : FaultReq := ⟨0x0905, 0, 0, BitVec.ofNat 20 k.entryOffset, k.entryOffset, .seq⟩

theorem Core.started_pc_toNat (k : Core) : k.started.seq.pc.toNat = k.entryOffset := by
  have hentry : k.entryOffset < 2 ^ 20 := by unfold Core.entryOffset; omega
  exact (BitVec.toNat_ofNat ..).trans (Nat.mod_eq_of_lt hentry)

/-- The fault record being clear as the task starts, the fault of a start is the task's first. -/
theorem Core.raise_started (k : Core) (f : FaultReq) :
    ∃ r, (k.started.raise f).seq.fault = some r ∧ (k.started.raise f).seq.state = .faulted
      ∧ r.cause = BitVec.ofNat 16 f.cause ∧ (k.started.raise f).s = k.s ∧ (k.started.raise f).v = k.v
      ∧ (k.started.raise f).acc = k.acc ∧ (k.started.raise f).dqu = k.dqu := by
  obtain ⟨r, hfault, hstate, hcause, _, _, _, hs, hv, hacc, hdqu, _⟩ := k.started.raise_first f rfl
  exact ⟨r, hfault, hstate, hcause, hs, hv, hacc, hdqu⟩

section
variable {s : State} {c : CoreId} (hu : s.usable c = true) (hi : (s.core c).seq.state = .idle)
  (hf : (s.core c).seq.filling = false)
include hu hi hf

/-- R244: an idle core takes the start, and its region is checked. -/
theorem State.startTask_idle : s.startTask c =
    if (s.core c).startBad then (s.setCore c (s.core c).started).raise c (s.core c).startFault
    else s.setCore c (s.core c).started := if_neg (by simp [hu, hi, hf])

theorem State.startTask_runs (h : (s.core c).startBad = false) : s.onlyCore (s.startTask c) c (s.core c).started := by
  rw [State.startTask_idle hu hi hf, if_neg (by simp [h])]
  exact State.onlyCore_setCore ..

theorem State.startTask_faults (h : (s.core c).startBad = true) :
    s.onlyCore (s.startTask c) c ((s.core c).started.raise (s.core c).startFault) := by
  rw [State.startTask_idle hu hi hf, if_pos h]
  exact State.onlyCore_modCore (State.onlyCore_setCore ..) _

end

/-! ## The harbourmaster's start of a bound core (R27, R244, R451) -/

theorem State.startBound_noModel (s : State) (c : CoreId) (h : s.hm.man = none) : s.startBound c = s := by
  unfold State.startBound; rw [h]

theorem State.startBound_unbound (s : State) (c : CoreId) (h : ∀ b ∈ s.hm.binding, b.2 ≠ c.val) : s.startBound c = s := by
  have hfind : s.hm.binding.find? (fun b => b.2 == c.val) = none := by simpa using h
  unfold State.startBound
  rw [hfind]
  cases s.hm.man <;> rfl

theorem State.startBound_notReady (s : State) (c : CoreId)
    (h : (s.core c).seq.state ≠ .idle ∨ s.usable c = false ∨ s.hm.state = 3) : s.startBound c = s := by
  unfold State.startBound
  split
  · split
    · exact if_pos (by rcases h with h | h | h <;> simp [h])
    · rfl
  · rfl

/-- R244: the harbourmaster writes again what the program needs, and then starts the core. -/
theorem State.startBound_bound {s : State} {c : CoreId} {m : Manifest} {b : Nat × Nat} {x : LogicalCore}
    (hm : s.hm.man = some m) (hb : s.hm.binding.find? (fun b => b.2 == c.val) = some b) (hx : m.cores[b.1]? = some x)
    (hu : s.usable c = true) (hi : (s.core c).seq.state = .idle) (hf : (s.core c).seq.filling = false) (h3 : s.hm.state ≠ 3) :
    s.startBound c = (s.prepare m b.1 x c).startTask c := by
  have h3' : (s.hm.state == 3) = false := beq_false_of_ne h3
  unfold State.startBound
  rw [hm, hb]
  simp only [hx]
  exact if_neg (by simp only [hu, hi, hf, h3']; decide)

end Sys2Proof.Machine

open Sys2Proof Sys2Proof.Machine

/-- Settles O22: without a model, a binding or an idle usable core a start changes nothing; else the prepared core starts, and its
region decides whether it runs or faults. -/
theorem tasksStart : Obligations.TasksStart := by
  intro c s
  have exec_start : exec (.seqCtrlStart c) s = .next (s.startBound c) := rfl
  rw [exec_start]
  refine ⟨fun h => ?_, fun h => congrArg _ (s.startBound_unbound c h), ?_⟩
  · rcases h with h | h
    · rw [s.startBound_noModel c h]
    · rw [s.startBound_notReady c h]
  · intro m b x hm hb hx hu hi hf h3 p k entry hpu hpi hpf
    rw [State.startBound_bound hm hb hx hu hi hf h3]
    refine ⟨fun hwin hbank hlo hhi => ?_, fun h => ?_⟩
    · obtain ⟨hframe, hcore, hothers⟩ := State.startTask_runs hpu hpi hpf (Core.startBad_eq_false hwin hbank hlo hhi)
      refine ⟨_, rfl, hframe, hothers, ?_⟩
      rw [hcore]
      exact ⟨rfl, k.started_pc_toNat, rfl, rfl, rfl, rfl, rfl, rfl, rfl, rfl, rfl⟩
    · obtain ⟨hframe, hcore, hothers⟩ := State.startTask_faults hpu hpi hpf (k.startBad_iff.mpr h)
      obtain ⟨r, hfault, hstate, hcause, hkeep⟩ := k.raise_started k.startFault
      refine ⟨_, r, rfl, hframe, hothers, ?_⟩
      rw [hcore]
      exact ⟨hstate, hfault, hcause, hkeep⟩

end

section
/-! PROOF. The accumulator class of the vector slot (R101, R115, R121, R122): how its bundle issues, what its entry-by-entry loop
leaves in accumulator memory, and what it stores to scratchpad. -/

namespace Sys2Proof.Machine

open Decode

/-! ## One change of the state after another -/

theorem State.onlyCore_trans {s t u : State} {c : CoreId} {k k' : Core} (h : s.onlyCore t c k) (h' : t.onlyCore u c k') :
    s.onlyCore u c k' := by
  obtain ⟨ht, _, hother⟩ := h
  obtain ⟨hu, hcore, hother'⟩ := h'
  refine ⟨?_, hcore, fun d hd => (hother' d hd).trans (hother d hd)⟩
  rw [hu, ht]

theorem State.core_of_onlyCore {s t : State} {c : CoreId} {k : Core} (h : s.onlyCore t c k) : t.core c = k := h.2.1

theorem State.core_of_coreAndBytes {s t : State} {c : CoreId} {k : Core} {key : Nat} {bs : List Byte}
    (h : s.coreAndBytes t c k key bs) : t.core c = k := h.2.1

theorem State.spRd_of_mem {s t : State} (h : t.mem = s.mem) (d : CoreId) (off n : Nat) : t.spRd d off n = s.spRd d off n :=
  congrArg (fun m => memRead m (spKey d off) n) h

theorem State.spRd_onlyCore {s t : State} {c : CoreId} {k : Core} (h : s.onlyCore t c k) (d : CoreId) (off n : Nat) :
    t.spRd d off n = s.spRd d off n := State.spRd_of_mem (by rw [h.1]) d off n

theorem State.spPoison?_onlyCore {s t : State} {c : CoreId} {k : Core} (h : s.onlyCore t c k) (d : CoreId) (off n : Nat) :
    t.spPoison? d off n = s.spPoison? d off n := by
  rw [h.1]; rfl

theorem getD_append_of_lt (bs bs' : List Byte) (i : Nat) (h : i < bs.length) : (bs ++ bs').getD i 0 = bs.getD i 0 := by
  rw [List.getD_eq_getElem?_getD, List.getD_eq_getElem?_getD, List.getElem?_append_left h]

theorem getD_append_of_le (bs bs' : List Byte) (i : Nat) (h : bs.length ≤ i) :
    (bs ++ bs').getD i 0 = bs'.getD (i - bs.length) 0 := by
  rw [List.getD_eq_getElem?_getD, List.getD_eq_getElem?_getD, List.getElem?_append_right h]

theorem State.coreAndBytes_refl (s : State) (c : CoreId) (key : Nat) : s.coreAndBytes s c (s.core c) key [] := by
  have empty (w : Nat) : ¬(key ≤ 8 * w ∧ 8 * w + 8 ≤ key + ([] : List Byte).length) := by
    simp only [List.length_nil]; omega
  exact ⟨rfl, rfl, fun _ _ => rfl, fun i hi => absurd hi (Nat.not_lt_zero i), fun _ _ => rfl,
    fun w => ⟨fun h => ⟨h, empty w⟩, And.left⟩, fun f => ⟨fun h => ⟨h, empty f.1⟩, And.left⟩⟩

theorem State.coreAndBytes_wrBytes (s : State) (c : CoreId) (key : Nat) (bs : List Byte) :
    s.coreAndBytes (s.wrBytes key bs) c (s.core c) key bs := by
  refine ⟨rfl, rfl, fun _ _ => rfl, fun i => s.byte_wrBytes_in key i bs, fun a => s.byte_wrBytes_out key a bs,
    fun w => s.poison_wrBytes key w bs, fun f => ?_⟩
  simp only [State.wrBytes, List.mem_filter, Bool.not_eq_true', Bool.and_eq_false_iff, decide_eq_false_iff_not]
  exact and_congr Iff.rfl (by omega)

theorem State.coreAndBytes_after_onlyCore {s t u : State} {c : CoreId} {k k' : Core} {key : Nat} {bs : List Byte}
    (h : s.onlyCore t c k) (h' : t.coreAndBytes u c k' key bs) : s.coreAndBytes u c k' key bs := by
  obtain ⟨ht, _, hother⟩ := h
  obtain ⟨hu, hcore, hother', hbytes⟩ := h'
  have hmem : t.mem = s.mem := by rw [ht]
  have hp : t.poison = s.poison := by rw [ht]
  have hf : t.flips = s.flips := by rw [ht]
  refine ⟨?_, hcore, fun d hd => (hother' d hd).trans (hother d hd), ?_⟩
  · rw [hu, ht]
  · simpa only [State.byte, hmem, hp, hf] using hbytes

theorem State.coreAndBytes_before_onlyCore {s t u : State} {c : CoreId} {k k' : Core} {key : Nat} {bs : List Byte}
    (h : s.coreAndBytes t c k key bs) (h' : t.onlyCore u c k') : s.coreAndBytes u c k' key bs := by
  obtain ⟨ht, _, hother, hbytes⟩ := h
  obtain ⟨hu, hcore, hother'⟩ := h'
  have hmem : u.mem = t.mem := by rw [hu]
  have hp : u.poison = t.poison := by rw [hu]
  have hf : u.flips = t.flips := by rw [hu]
  refine ⟨?_, hcore, fun d hd => (hother' d hd).trans (hother d hd), ?_⟩
  · rw [hu, ht]
  · simpa only [State.byte, hmem, hp, hf] using hbytes

theorem State.coreAndBytes_modCore {s t : State} {c : CoreId} {k : Core} {key : Nat} {bs : List Byte}
    (h : s.coreAndBytes t c k key bs) (f : Core → Core) : s.coreAndBytes (t.modCore c f) c (f k) key bs := by
  rw [← State.core_of_coreAndBytes h]
  exact State.coreAndBytes_before_onlyCore h (State.onlyCore_modCore (State.onlyCore_refl t c) f)

/-- Two writes that adjoin at a word's bound are one write: no word lies across the bound, so the words that lose their marks
are those of the two parts. -/
theorem State.coreAndBytes_append {s t u : State} {c : CoreId} {k k' : Core} {key : Nat} {bs bs' : List Byte}
    (h : s.coreAndBytes t c k key bs) (h' : t.coreAndBytes u c k' (key + bs.length) bs') (h8 : (key + bs.length) % 8 = 0) :
    s.coreAndBytes u c k' key (bs ++ bs') := by
  obtain ⟨ht, _, hother, hin, hout, hpoison, hflips⟩ := h
  obtain ⟨hu, hcore, hother', hin', hout', hpoison', hflips'⟩ := h'
  have words (w : Nat) : ¬(key ≤ 8 * w ∧ 8 * w + 8 ≤ key + (bs ++ bs').length) ↔
      ¬(key ≤ 8 * w ∧ 8 * w + 8 ≤ key + bs.length)
        ∧ ¬(key + bs.length ≤ 8 * w ∧ 8 * w + 8 ≤ key + bs.length + bs'.length) := by
    rw [List.length_append]; omega
  refine ⟨?_, hcore, fun d hd => (hother' d hd).trans (hother d hd), fun i hi => ?_, fun a ha => ?_, fun w => ?_, fun f => ?_⟩
  · rw [hu, ht]
  · rw [List.length_append] at hi
    by_cases hlt : i < bs.length
    · rw [hout' _ (by omega), hin i hlt, getD_append_of_lt _ _ _ hlt]
    · have hge : bs.length ≤ i := by omega
      rw [getD_append_of_le _ _ _ hge, ← hin' (i - bs.length) (by omega)]
      congr 1
      omega
  · rw [List.length_append] at ha
    rw [hout' a (by omega), hout a (by omega)]
  · rw [hpoison', hpoison, words, and_assoc]
  · rw [hflips', hflips, words, and_assoc]

/-- A core without bit errors stays so under writes to memory that leave its list of them alone. -/
theorem State.calm_coreAndBytes {s t : State} {c : CoreId} {k : Core} {key : Nat} {bs : List Byte} (hs : s.calm c = true)
    (h : s.coreAndBytes t c k key bs) (hk : k.upsets = (s.core c).upsets) : t.calm c = true := by
  obtain ⟨_, hcore, _, _, _, _, hflips⟩ := h
  rw [State.calm_iff] at hs ⊢
  exact ⟨fun f hf => hs.1 f ((hflips f).mp hf).1, by rw [hcore, hk, hs.2]⟩

theorem State.calm_onlyCore {s t : State} {c : CoreId} {k : Core} (hs : s.calm c = true) (h : s.onlyCore t c k)
    (hk : k.upsets = (s.core c).upsets) : t.calm c = true := by
  obtain ⟨ht, hcore, _⟩ := h
  exact State.calm_of_same hs (by rw [ht]) (by rw [hcore, hk])

theorem State.onlyCore_senseAcc {s : State} {c : CoreId} (hs : s.calm c = true) (i : Nat) :
    s.onlyCore (s.senseAcc c i) c (s.core c) := by
  rw [State.senseAcc_calm hs]
  exact s.onlyCore_setCore c _

/-- What is read of the core after issue itself has changed it (R248). -/
theorem Core.afterIssue_keeps (k : Core) (pc : Nat) (f : Flow) :
    (k.afterIssue pc f).acc = k.acc ∧ (k.afterIssue pc f).pend = k.pend ∧ (k.afterIssue pc f).sb = k.sb := by
  obtain ⟨q, u, h⟩ := k.afterIssue_frame pc f
  rw [h]
  exact ⟨rfl, rfl, rfl⟩

/-! ## How the bundle issues -/

@[simp] theorem State.point_c (s : State) (c : CoreId) : (s.point c).c = c := rfl

/-- R121: the core with one more instruction counted in VEC_ISSUED. -/
def Core.vecCounted (k : Core) : Core := { k with cb := { k.cb with vecIssued := bump k.cb.vecIssued } }

theorem Plan.after_zero (p : Plan) : p.after 0 = p := by
  rw [Plan.after, Nat.or_zero]

/-- A bundle whose vector slot holds an accumulator instruction and whose other slots hold no-ops: its effect starts from the core
with the ranges taken and the instruction counted, and control goes on in sequence. -/
theorem issueBundle_accIssue_descs {c : CoreId} {i : VecInstr} {s : State} {rs : List SbEntry} {act : State → State}
    {ds : List (Nat × Nat)} (h : canIssue c s)
    (hp : vecSlot (s.setCore c (s.front c)) (s.point c) i = { accIssue (s.point c) 0 rs act with descs := ds })
    (hd : ds.foldl (fun s d => s.senseSp c d.1 d.2) (s.setCore c (s.front c)) = s.setCore c (s.front c))
    (hr : (s.front c).takes rs) :
    ∃ s1, s.onlyCore s1 c ((s.front c).place rs).vecCounted
      ∧ issueBundle c { Slots.nops with vec := i } s = (act s1).modCore c fun k => s.issued c k .seq :=
  ⟨_, State.onlyCore_modCore (State.onlyCore_set (s.onlyCore_setCore c _) _) Core.vecCounted,
    issueBundle_one (b := { Slots.nops with vec := i }) 2 _ h (congrArg (oneOf 2) hp) rfl rfl hd hr .seq rfl⟩

theorem issueBundle_accIssue {c : CoreId} {i : VecInstr} {s : State} {rs : List SbEntry} {act : State → State} (h : canIssue c s)
    (hp : vecSlot (s.setCore c (s.front c)) (s.point c) i = accIssue (s.point c) 0 rs act) (hr : (s.front c).takes rs) :
    ∃ s1, s.onlyCore s1 c ((s.front c).place rs).vecCounted
      ∧ issueBundle c { Slots.nops with vec := i } s = (act s1).modCore c fun k => s.issued c k .seq :=
  issueBundle_accIssue_descs (ds := []) h hp rfl hr

theorem Core.vecCounted_place_checks (k : Core) (rs : List SbEntry) : (k.place rs).vecCounted.checks = k.checks := by
  simp only [Core.vecCounted, Core.place]

theorem Core.vecCounted_sb (k : Core) : k.vecCounted.sb = k.sb := rfl

theorem Core.vecCounted_place_pend (k : Core) (rs : List SbEntry) : (k.place rs).vecCounted.pend = k.pend := by
  simp only [Core.vecCounted, Core.place]

theorem Core.vecCounted_place_accAt (k : Core) (rs : List SbEntry) (e : Nat) : (k.place rs).vecCounted.accAt e = k.accAt e := by
  simp only [Core.vecCounted, Core.place, Core.accAt]

theorem Core.vecCounted_place_upsets (k : Core) (rs : List SbEntry) : (k.place rs).vecCounted.upsets = k.upsets := by
  simp only [Core.vecCounted, Core.place]

theorem State.front_upsets (s : State) (c : CoreId) : (s.front c).upsets = (s.core c).upsets := by
  obtain ⟨a, b, d, p, q, h⟩ := s.front_frame c
  rw [h]

theorem State.calm_counted {s t : State} {c : CoreId} {rs : List SbEntry} (hs : s.calm c = true)
    (h : s.onlyCore t c ((s.front c).place rs).vecCounted) : t.calm c = true :=
  State.calm_onlyCore hs h ((Core.vecCounted_place_upsets ..).trans (s.front_upsets c))

theorem State.accAt_counted {s t : State} {c : CoreId} {rs : List SbEntry} (h : s.onlyCore t c ((s.front c).place rs).vecCounted)
    (e : Nat) : (t.core c).accAt e = (s.front c).accAt e := by
  rw [State.core_of_onlyCore h, Core.vecCounted_place_accAt]

/-! ## Entry by entry -/

theorem eachEntry_succ (f : Nat → State → State) (i n : Nat) (s : State) :
    eachEntry f i (n + 1) s = f (i + n) (eachEntry f i n s) := by
  induction n generalizing i s with
  | zero => rfl
  | succ n ih =>
    rw [eachEntry, ih, eachEntry, show i + 1 + n = i + (n + 1) by omega]

/-- What holds before the loop and is kept by each of its steps holds after it. -/
theorem eachEntry_induct {f : Nat → State → State} {i n : Nat} {s : State} (P : Nat → State → Prop) (h0 : P 0 s)
    (hs : ∀ m < n, ∀ t, P m t → P (m + 1) (f (i + m) t)) : P n (eachEntry f i n s) := by
  induction n with
  | zero => exact h0
  | succ n ih =>
    rw [eachEntry_succ]
    exact hs n (by omega) _ (ih fun m hm => hs m (by omega))

/-- From `s` to `t` the entries `lo` to `lo + n - 1` of core `c` have become `v`, with no change elsewhere but in the core's first
group of counters, and there only if `counted`. -/
def State.writesAcc (s t : State) (c : CoreId) (counted : Bool) (lo n : Nat) (v : Nat → AccEntry) : Prop :=
  ∃ q a, s.onlyCore t c { s.core c with acc := q, ca := a } ∧ (counted = false → a = (s.core c).ca)
    ∧ ∀ e, Sparse.get AccEntry.clear q e = if lo ≤ e ∧ e < lo + n then v e else (s.core c).accAt e

theorem State.writesAcc_refl (s : State) (c : CoreId) (counted : Bool) (lo : Nat) (v : Nat → AccEntry) :
    s.writesAcc s c counted lo 0 v :=
  ⟨_, _, s.onlyCore_refl c, fun _ => rfl, fun e => by rw [if_neg (by omega)]; rfl⟩

theorem State.calm_writesAcc {s t : State} {c : CoreId} {counted : Bool} {lo n : Nat} {v : Nat → AccEntry}
    (hs : s.calm c = true)
    (h : s.writesAcc t c counted lo n v) : t.calm c = true := by
  obtain ⟨q, a, h, _, _⟩ := h
  exact State.calm_onlyCore hs h rfl

theorem State.writesAcc_mem {s t : State} {c : CoreId} {counted : Bool} {lo n : Nat} {v : Nat → AccEntry}
    (h : s.writesAcc t c counted lo n v) : t.mem = s.mem := by
  obtain ⟨q, a, ⟨ht, _, _⟩, _, _⟩ := h
  rw [ht]

/-- An entry outside the range still reads as before. -/
theorem State.writesAcc_accAt_outside {s t : State} {c : CoreId} {counted : Bool} {lo n : Nat} {v : Nat → AccEntry}
    (h : s.writesAcc t c counted lo n v) {e : Nat} (he : e < lo ∨ lo + n ≤ e) : (t.core c).accAt e = (s.core c).accAt e := by
  obtain ⟨q, a, ⟨_, hcore, _⟩, _, hq⟩ := h
  rw [hcore]
  exact (hq e).trans (if_neg (by omega))

/-- A step after it that changes no core's contents keeps it. -/
theorem State.writesAcc_onlyCore {s t u : State} {c : CoreId} {counted : Bool} {lo n : Nat} {v : Nat → AccEntry}
    (h : s.writesAcc t c counted lo n v) (hu : t.onlyCore u c (t.core c)) : s.writesAcc u c counted lo n v := by
  obtain ⟨q, a, ht, hkeep⟩ := h
  rw [State.core_of_onlyCore ht] at hu
  exact ⟨q, a, State.onlyCore_trans ht hu, hkeep⟩

/-- Writing the next entry extends the range by one. The core's list of bit errors is empty, so the write takes none out. -/
theorem State.writesAcc_setAcc {s t : State} {c : CoreId} {counted : Bool} {lo n : Nat} {v : Nat → AccEntry}
    (hs : s.calm c = true)
    (h : s.writesAcc t c counted lo n v) :
    s.writesAcc (t.modCore c fun k => k.setAcc counted (lo + n) (v (lo + n))) c counted lo (n + 1) v := by
  obtain ⟨q, a, hk, ha, hq⟩ := h
  have hu : (s.core c).upsets = [] := ((State.calm_iff s c).mp hs).2
  have hacc := State.onlyCore_modCore hk fun k => k.setAcc counted (lo + n) (v (lo + n))
  refine ⟨Sparse.put AccEntry.clear q (lo + n) (v (lo + n)),
    (({ s.core c with acc := q, ca := a } : Core).setAcc counted (lo + n) (v (lo + n))).ca, ?_, fun hc => ?_, fun e => ?_⟩
  · have hset : ({ s.core c with acc := q, ca := a } : Core).setAcc counted (lo + n) (v (lo + n))
        = { s.core c with
            acc := Sparse.put AccEntry.clear q (lo + n) (v (lo + n))
            ca := (({ s.core c with acc := q, ca := a } : Core).setAcc counted (lo + n) (v (lo + n))).ca } := by
      simp only [Core.setAcc, hu, List.filter_nil]
    rwa [hset] at hacc
  · subst hc
    exact ha rfl
  · by_cases he : e = lo + n
    · subst he
      rw [Sparse.get_put_same, if_pos (by omega)]
    · have hrange : (lo ≤ e ∧ e < lo + n) ↔ (lo ≤ e ∧ e < lo + (n + 1)) := by omega
      rw [Sparse.get_put_other _ _ _ _ _ he, hq e]
      simp only [hrange]

/-- A loop each of whose steps writes one entry, `v` of its index. -/
theorem State.writesAcc_eachEntry {f : Nat → State → State} {i n : Nat} {s : State} {c : CoreId} {counted : Bool} {lo : Nat}
    {v : Nat → AccEntry}
    (hf : ∀ m < n, ∀ t, s.writesAcc t c counted lo m v → s.writesAcc (f (i + m) t) c counted lo (m + 1) v) :
    s.writesAcc (eachEntry f i n s) c counted lo n v :=
  eachEntry_induct (fun m t => s.writesAcc t c counted lo m v) (s.writesAcc_refl c counted lo v) hf

/-- A loop whose steps write each entry with a value that memory alone determines. -/
theorem State.writesAcc_eachEntry_setAcc {s : State} {c : CoreId} (hs : s.calm c = true) (v : Nat → State → AccEntry)
    (hv : ∀ e t, t.mem = s.mem → v e t = v e s) (i n : Nat) :
    s.writesAcc (eachEntry (fun j t => t.modCore c fun k => k.setAcc false j (v j t)) i n s) c false i n fun e => v e s :=
  State.writesAcc_eachEntry fun m _ t ht => by
    simp only [hv _ t (State.writesAcc_mem ht)]
    exact State.writesAcc_setAcc hs ht

/-- The whole bundle, when its effect writes entries without counting their flags. -/
theorem State.onlyCore_issued_writesAcc {s s1 t : State} {c : CoreId} {k : Core} {lo n : Nat} {v : Nat → AccEntry}
    (h1 : s.onlyCore s1 c k) (h : s1.writesAcc t c false lo n v) :
    ∃ q, s.onlyCore (t.modCore c fun k => s.issued c k .seq) c (s.issued c { k with acc := q } .seq)
      ∧ ∀ e, Sparse.get AccEntry.clear q e = if lo ≤ e ∧ e < lo + n then v e else k.accAt e := by
  obtain ⟨q, a, ht, ha, hq⟩ := h
  have hcore := State.core_of_onlyCore h1
  rw [ha rfl, hcore] at ht
  rw [hcore] at hq
  exact ⟨q, State.onlyCore_modCore (State.onlyCore_trans h1 ht) _, hq⟩

/-- One step of AMRG: with both entries good and no bit error to find, the next entry becomes the merge of the two. -/
theorem amrgOne_writesAcc {x : At} {s1 t : State} {v : Nat → AccEntry} {ta tb i m : Nat} (hs1 : s1.calm x.c = true)
    (hv : v (ta * 256 + i + m) = ((s1.core x.c).accAt (ta * 256 + i + m)).merge ((s1.core x.c).accAt (tb * 256 + i + m)))
    (ha : ((s1.core x.c).accAt (ta * 256 + i + m)).bad = false) (hb : ((s1.core x.c).accAt (tb * 256 + i + m)).bad = false)
    (hout : tb * 256 + i + m < ta * 256 + i ∨ ta * 256 + i + m ≤ tb * 256 + i + m)
    (ht : s1.writesAcc t x.c true (ta * 256 + i) m v) :
    s1.writesAcc (amrgOne x ta tb (i + m) t) x.c true (ta * 256 + i) (m + 1) v := by
  have ht1 := State.writesAcc_onlyCore ht (State.onlyCore_senseAcc (State.calm_writesAcc hs1 ht) (ta * 256 + i + m))
  have ht2 := State.writesAcc_onlyCore ht1 (State.onlyCore_senseAcc (State.calm_writesAcc hs1 ht1) (tb * 256 + i + m))
  have hset := State.writesAcc_setAcc hs1 ht2
  have hgood : (((s1.core x.c).accAt (ta * 256 + i + m)).bad || ((s1.core x.c).accAt (tb * 256 + i + m)).bad) = false := by
    rw [ha, hb]; rfl
  simp only [amrgOne, ← Nat.add_assoc, State.writesAcc_accAt_outside ht2 hout,
    State.writesAcc_accAt_outside ht2 (Or.inr (Nat.le_refl (ta * 256 + i + m))), hgood, ← hv]
  exact hset

/-! ## Stored records (R100, R121) -/

/-- The bytes of the pair records of `n` entries from `i` on. -/
def Core.records (k : Core) (i n : Nat) : List Byte := (List.range n).flatMap fun e => leBytes 16 (k.accAt (i + e)).toRecord.toNat

theorem Core.records_succ (k : Core) (i n : Nat) :
    k.records i (n + 1) = k.records i n ++ leBytes 16 (k.accAt (i + n)).toRecord.toNat := by
  simp only [Core.records, List.range_succ, List.flatMap_append, List.flatMap_singleton]

@[simp] theorem Core.records_length (k : Core) (i n : Nat) : (k.records i n).length = 16 * n := by
  induction n with
  | zero => rfl
  | succ n ih => rw [Core.records_succ, List.length_append, ih, leBytes_length]; omega

theorem leBytes_getD (n x l : Nat) (hl : l < n) : (leBytes n x).getD l 0 = BitVec.ofNat 8 (x / 256 ^ l) := by
  induction n generalizing x l with
  | zero => omega
  | succ n ih =>
    cases l with
    | zero => simp [leBytes]
    | succ l => rw [leBytes, List.getD_cons_succ, ih _ _ (by omega), Nat.div_div_eq_div_mul, Nat.pow_succ, Nat.mul_comm]

/-- R10: byte `l` of a word's number is byte `l` of the word. -/
theorem ofNat_toNat_div {n : Nat} (v : BitVec n) (l : Nat) : BitVec.ofNat 8 (v.toNat / 256 ^ l) = v.extractLsb' (8 * l) 8 := by
  apply BitVec.eq_of_toNat_eq
  rw [BitVec.toNat_ofNat, BitVec.extractLsb'_toNat, Nat.shiftRight_eq_div_pow, Nat.pow_mul]

/-- Each record stands at 16 times its place. -/
theorem Core.records_getD (k : Core) (i n e l : Nat) (he : e < n) (hl : l < 16) :
    (k.records i n).getD (16 * e + l) 0 = (k.accAt (i + e)).toRecord.extractLsb' (8 * l) 8 := by
  induction n with
  | zero => omega
  | succ n ih =>
    rw [Core.records_succ]
    by_cases hlt : e < n
    · rw [getD_append_of_lt _ _ _ (by rw [Core.records_length]; omega), ih hlt]
    · obtain rfl : e = n := by omega
      rw [getD_append_of_le _ _ _ (by rw [Core.records_length]; omega), Core.records_length, Nat.add_sub_cancel_left,
        leBytes_getD _ _ _ hl, ofNat_toNat_div]

/-- One step of ASTP: with a good entry and no bit error to find, the next record goes to memory. -/
theorem astpOne_coreAndBytes {x : At} {s1 t : State} {a i m : Nat} (ha16 : a % 16 = 0) (hs1 : s1.calm x.c = true)
    (hgood : ((s1.core x.c).accAt (i + m)).bad = false)
    (ht : s1.coreAndBytes t x.c (s1.core x.c) (spKey x.c a) ((s1.core x.c).records i m)) :
    s1.coreAndBytes (astpOne x i a (i + m) t) x.c (s1.core x.c) (spKey x.c a) ((s1.core x.c).records i (m + 1)) := by
  have hread := State.onlyCore_senseAcc (State.calm_coreAndBytes hs1 ht rfl) (i + m)
  have hcore := (State.core_of_onlyCore hread).trans (State.core_of_coreAndBytes ht)
  have hkey : spKey x.c (a + 16 * (i + m - i)) = spKey x.c a + ((s1.core x.c).records i m).length := by
    rw [Core.records_length, spKey, spKey]; omega
  have h8 : (spKey x.c a + ((s1.core x.c).records i m).length) % 8 = 0 := by
    rw [Core.records_length, spKey, Config.scratchBase, Config.windowBytes]; omega
  have hwrite := State.coreAndBytes_wrBytes (t.senseAcc x.c (i + m)) x.c (spKey x.c a + ((s1.core x.c).records i m).length)
    (leBytes 16 ((s1.core x.c).accAt (i + m)).toRecord.toNat)
  rw [hcore] at hwrite
  simp only [astpOne, hcore, hgood]
  rw [Core.records_succ, State.spWr, State.wr, hkey]
  exact State.coreAndBytes_append (State.coreAndBytes_before_onlyCore ht hread) hwrite h8

end Sys2Proof.Machine
end

section
/-! PROOF. ACFG, ACLR, AMRG, ALDP and ASTP, each with what it changes of its core and of memory. -/

namespace Sys2Proof.Machine

open Decode

variable {c : CoreId} {s : State} (h : canIssue c s)
include h

/-! ## Checks of tiles (R115) -/

/-- R115: ACFG without `en` removes the tile's check. -/
theorem exec_acfg_remove (tile : BitVec 6) (sr : RegIx) (hv : (s.front c).verdictsOpen tile.toNat = false) :
    ∃ t, exec (.acfg c tile sr false) s = .next t ∧ s.onlyCore t c
      (s.issued c { (s.front c).vecCounted with checks := Sparse.erase tile.toNat (s.front c).checks } .seq) := by
  have hplan : acfgPlan (s.setCore c (s.front c)) (s.point c) tile sr false
      = accIssue (s.point c) 0 [] fun t => t.modCore c fun k => { k with checks := Sparse.erase tile.toNat k.checks } := by
    simp only [acfgPlan, State.point, Core.point, State.core_setCore, hv]
    rfl
  obtain ⟨s1, hk, hb⟩ := issueBundle_accIssue (i := .acfg tile sr false) h hplan (s.front c).takes_nil
  rw [Core.place_nil] at hk
  exact ⟨_, congrArg Host.Outcome.next hb, State.onlyCore_modCore (State.onlyCore_modCore hk _) _⟩

/-- R115: ACFG with `en` sets the tile's check from its descriptor. -/
theorem exec_acfg_set (tile : BitVec 6) (sr : RegIx) (d : ChkDesc) (hv : (s.front c).verdictsOpen tile.toNat = false)
    (hs : s.calm c = true) (a : Nat) (ha : a = ((s.front c).sreg sr).toNat) (hd : chkDescOf (s.spRd c a 16) = some d)
    (hwin : a + 16 ≤ 2 ^ 20) (hw : (s.front c).descWaits a 16 = false) (hp : s.spPoison? c a 16 = none)
    (hr : (s.front c).takes [spRange .read a 16 (.atCc ((s.point c).now + 2))]) :
    ∃ t, exec (.acfg c tile sr true) s = .next t ∧ s.onlyCore t c (s.issued c
      { ((s.front c).place [spRange .read a 16 (.atCc ((s.point c).now + 2))]).vecCounted with
          checks := Sparse.insert tile.toNat d (s.front c).checks } .seq) := by
  obtain ⟨_, _, _, hrange, _⟩ := id hr
  have hfront := s.onlyCore_setCore c (s.front c)
  have hcore : (s.setCore c (s.front c)).core (s.point c).c = s.front c := State.core_setCore ..
  have hp' : (s.setCore c (s.front c)).spPoison? (s.point c).c a 16 = none := by
    rw [s.point_c, State.spPoison?_onlyCore hfront, hp]
  have hplan : acfgPlan (s.setCore c (s.front c)) (s.point c) tile sr true
      = { accIssue (s.point c) 0 [spRange .read a 16 (.atCc ((s.point c).now + 2))]
            (fun t => t.modCore c fun k => { k with checks := Sparse.insert tile.toNat d k.checks }) with
          descs := [(a, 16)] } := by
    have hin : inWin a 16 = true := decide_eq_true hwin
    have hd' : chkDescOf ((s.setCore c (s.front c)).spRd (s.point c).c a 16) = some d := by
      rw [s.point_c, State.spRd_onlyCore hfront, hd]
    simp only [acfgPlan, if_true, hcore, ← ha, hin, hv, hd', stallIf, Bool.false_eq_true, if_false]
    rw [withDesc_reads _ _ _ _ _ _ (by rw [hcore]; exact hw) (by rw [hcore]; exact hrange _ (List.mem_singleton_self _)) hp',
      Plan.after_zero, s.point_c]
  obtain ⟨s1, hk, hb⟩ := issueBundle_accIssue_descs (i := .acfg tile sr true) h hplan
    (State.senseSp_calm (State.calm_front hs) a 16 hwin) hr
  rw [← Core.vecCounted_place_checks (s.front c) [spRange .read a 16 (.atCc ((s.point c).now + 2))]]
  exact ⟨_, congrArg Host.Outcome.next hb, State.onlyCore_modCore (State.onlyCore_modCore hk _) _⟩

/-! ## Writes of entries (R101, R121, R122) -/

variable (tile tb_ : BitVec 6) (entry nm1 : BitVec 8) (sr : RegIx)
variable (hs : s.calm c = true) {n i : Nat} (hn : n = nm1.toNat + 1) (hi : i = tile.toNat * 256 + entry.toNat)
  (hlast : entry.toNat + n ≤ 256)
include hs hn hi hlast

/-- R101: ACLR clears its entries. -/
theorem exec_aclr (hr : (s.front c).takes [accRange .write i n (.atCc ((s.point c).now + 1 + n))]) :
    ∃ t q, exec (.aclr c tile entry nm1) s = .next t
      ∧ s.onlyCore t c (s.issued c
          { ((s.front c).place [accRange .write i n (.atCc ((s.point c).now + 1 + n))]).vecCounted with acc := q } .seq)
      ∧ ∀ e, Sparse.get AccEntry.clear q e = if i ≤ e ∧ e < i + n then AccEntry.clear else (s.front c).accAt e := by
  subst hn hi
  have hplan : aclrPlan (s.point c) tile entry nm1 = _ := if_neg (Nat.not_lt.mpr hlast)
  obtain ⟨s1, hk, hb⟩ := issueBundle_accIssue (i := .aclr tile entry nm1) h hplan hr
  have hloop := State.writesAcc_eachEntry_setAcc (State.calm_counted hs hk) (fun _ _ => AccEntry.clear) (fun _ _ _ => rfl)
    (tile.toNat * 256 + entry.toNat) (nm1.toNat + 1)
  obtain ⟨q, ht, hq⟩ := State.onlyCore_issued_writesAcc hk hloop
  simp only [Core.vecCounted_place_accAt] at hq
  exact ⟨_, q, congrArg Host.Outcome.next hb, ht, hq⟩

/-- R122: AMRG merges the entries of two tiles into those of the first. -/
theorem exec_amrg {j : Nat} (hj : j = tb_.toNat * 256 + entry.toNat) (htiles : tile ≠ tb_)
    (hgood : ∀ e < n, ((s.front c).accAt (i + e)).bad = false ∧ ((s.front c).accAt (j + e)).bad = false)
    {merge : List SbEntry} (hmerge : merge = [accRange .write i n (.atCc ((s.point c).now + 6 + n)),
      accRange .read j n (.atCc ((s.point c).now + n))])
    (hr : (s.front c).takes merge) :
    ∃ t q, exec (.amrg c tile tb_ entry nm1) s = .next t ∧ t = { s with cores := t.cores }
      ∧ (t.core c).acc = q ∧ (t.core c).pend = (s.front c).pend ∧ (t.core c).sb = ((s.front c).place merge).sb
      ∧ ∀ e, Sparse.get AccEntry.clear q e = if i ≤ e ∧ e < i + n then
          ((s.front c).accAt e).merge ((s.front c).accAt (e - i + j)) else (s.front c).accAt e := by
  subst hn hi hj hmerge
  have htoNat : tile.toNat ≠ tb_.toNat := fun he => htiles (BitVec.eq_of_toNat_eq he)
  have hplan : amrgPlan (s.point c) tile tb_ entry nm1 = _ := if_neg (Nat.not_lt.mpr hlast)
  obtain ⟨s1, hk, hb⟩ := issueBundle_accIssue (i := .amrg tile tb_ entry nm1) h hplan hr
  have haccAt := State.accAt_counted hk
  have hloop := State.writesAcc_eachEntry (s := s1) (c := c) (counted := true) (f := amrgOne (s.point c) tile.toNat tb_.toNat)
    (i := entry.toNat) (lo := tile.toNat * 256 + entry.toNat) (n := nm1.toNat + 1)
    (v := fun e => ((s.front c).accAt e).merge
      ((s.front c).accAt (e - (tile.toNat * 256 + entry.toNat) + (tb_.toNat * 256 + entry.toNat))))
    fun m hm t ht => by
      obtain ⟨ha, hb⟩ := hgood m hm
      refine amrgOne_writesAcc (x := s.point c) (State.calm_counted hs hk) ?_ ?_ ?_ (by omega) ht
      · simp only [s.point_c, haccAt, Nat.add_sub_cancel_left, Nat.add_comm m]
      · rw [s.point_c, haccAt, ha]
      · rw [s.point_c, haccAt, hb]
  obtain ⟨q, a, ht, _, hq⟩ := hloop
  have hcore1 := State.core_of_onlyCore hk
  obtain ⟨hframe, hcore, _⟩ := State.onlyCore_modCore (State.onlyCore_trans hk ht) fun k => s.issued c k .seq
  obtain ⟨hacc, hpend, hsb⟩ := Core.afterIssue_keeps { s1.core c with acc := q, ca := a } (s.core c).seq.pc.toNat .seq
  simp only [haccAt] at hq
  refine ⟨_, q, congrArg Host.Outcome.next hb, hframe, ?_, ?_, ?_, hq⟩
  · exact (congrArg Core.acc hcore).trans hacc
  · exact ((congrArg Core.pend hcore).trans hpend).trans ((congrArg Core.pend hcore1).trans (Core.vecCounted_place_pend ..))
  · exact ((congrArg Core.sb hcore).trans hsb).trans ((congrArg Core.sb hcore1).trans (Core.vecCounted_sb _))

variable {a : Nat} (ha : a = ((s.front c).sreg sr).toNat) (ha16 : a % 16 = 0) (hwin : a + 16 * n ≤ 2 ^ 20)
include ha ha16 hwin

omit h hs hi in
/-- R121: the operands of ALDP and ASTP are within the tile, at a multiple of 16, within the window. -/
theorem records_inBounds : ¬(entry.toNat + (nm1.toNat + 1) > 256
    ∨ ((((s.setCore c (s.front c)).core (s.point c).c).sreg sr).toNat % 16 ≠ 0)
    ∨ (!inWin (((s.setCore c (s.front c)).core (s.point c).c).sreg sr).toNat (16 * (nm1.toNat + 1))) = true) := by
  subst hn
  have hin : inWin a (16 * (nm1.toNat + 1)) = true := decide_eq_true hwin
  rw [s.point_c, State.core_setCore, ← ha, hin]
  simp only [Bool.not_true, Bool.false_eq_true, or_false]
  omega

/-- R121: ALDP loads entries from pair records. -/
theorem exec_aldp {load : List SbEntry} (hload : load = [spRange .read a (16 * n) (.atCc ((s.point c).now + n)),
      accRange .write i n (.atCc ((s.point c).now + 4 + n))])
    (hr : (s.front c).takes load) (hp : s.spPoison? c a (16 * n) = none) :
    ∃ t q, exec (.aldp c tile entry nm1 sr) s = .next t
      ∧ s.onlyCore t c (s.issued c { ((s.front c).place load).vecCounted with acc := q } .seq)
      ∧ ∀ e, Sparse.get AccEntry.clear q e = if i ≤ e ∧ e < i + n then
          AccEntry.ofRecord (BitVec.ofNat 128 (s.spRd c (a + 16 * (e - i)) 16)) else (s.front c).accAt e := by
  have hplan : aldpPlan (s.setCore c (s.front c)) (s.point c) tile entry nm1 sr
      = accIssue (s.point c) 0 load (readOr (s.point c) 2 .acc a (16 * n) fun t =>
          eachEntry (fun j t => t.modCore c fun k =>
            k.setAcc false j (AccEntry.ofRecord (BitVec.ofNat 128 (t.spRd c (a + 16 * (j - i)) 16)))) i n t) := by
    rw [aldpPlan, if_neg (records_inBounds entry nm1 sr hn hlast ha ha16 hwin),
      hload, hn, hi, s.point_c, State.core_setCore, ← ha]
  obtain ⟨s1, hk, hb⟩ := issueBundle_accIssue (i := .aldp tile entry nm1 sr) h hplan hr
  have hs1 := State.calm_counted hs hk
  rw [readOr_reads (s.point c) 2 .acc a (16 * n) _ hs1 hwin ((State.spPoison?_onlyCore hk c a _).trans hp)] at hb
  have hloop := State.writesAcc_eachEntry_setAcc hs1
    (fun e t => AccEntry.ofRecord (BitVec.ofNat 128 (t.spRd c (a + 16 * (e - i)) 16)))
    (fun e t ht => by rw [State.spRd_of_mem ht]) i n
  simp only [State.spRd_onlyCore hk] at hloop
  obtain ⟨q, ht, hq⟩ := State.onlyCore_issued_writesAcc hk hloop
  simp only [Core.vecCounted_place_accAt] at hq
  exact ⟨_, q, congrArg Host.Outcome.next hb, ht, hq⟩

/-- R121: ASTP stores the pair records of its entries. -/
theorem exec_astp {store : List SbEntry} (hstore : store = [accRange .read i n (.atCc ((s.point c).now + n)),
      spRange .write a (16 * n) (.atCc ((s.point c).now + 4 + n))])
    (hr : (s.front c).takes store) (hgood : ∀ e < n, ((s.front c).accAt (i + e)).bad = false) :
    ∃ t bs, exec (.astp c tile entry nm1 sr) s = .next t ∧ bs.length = 16 * n
      ∧ (∀ e < n, ∀ l < 16, bs.getD (16 * e + l) 0 = ((s.front c).accAt (i + e)).toRecord.extractLsb' (8 * l) 8)
      ∧ s.coreAndBytes t c (s.issued c ((s.front c).place store).vecCounted .seq) (spKey c a) bs := by
  have hplan : astpPlan (s.setCore c (s.front c)) (s.point c) tile entry nm1 sr
      = accIssue (s.point c) 0 store (eachEntry (astpOne (s.point c) i a) i n) := by
    rw [astpPlan, if_neg (records_inBounds entry nm1 sr hn hlast ha ha16 hwin),
      hstore, hn, hi, s.point_c, State.core_setCore, ← ha]
  obtain ⟨s1, hk, hb⟩ := issueBundle_accIssue (i := .astp tile entry nm1 sr) h hplan hr
  have haccAt := State.accAt_counted hk
  have hloop := eachEntry_induct (fun m t => s1.coreAndBytes t c (s1.core c) (spKey c a) ((s1.core c).records i m))
    (s1.coreAndBytes_refl c _) fun m hm t =>
      astpOne_coreAndBytes (x := s.point c) ha16 (State.calm_counted hs hk) (by rw [s.point_c, haccAt, hgood m hm])
  have hstored := State.coreAndBytes_modCore (State.coreAndBytes_after_onlyCore hk hloop) fun k => s.issued c k .seq
  rw [State.core_of_onlyCore hk] at hstored
  refine ⟨_, _, congrArg Host.Outcome.next hb, Core.records_length _ _ _, fun e he l hl => ?_, hstored⟩
  rw [Core.records_getD _ _ _ _ _ he hl, Core.vecCounted_place_accAt]

end Sys2Proof.Machine

open Sys2Proof Sys2Proof.Machine

/-- Settles O14: each of the five instructions issues and does what its rule says. -/
theorem accumulatorInstructions : Obligations.AccumulatorInstructions := by
  intro c tile tb_ entry nm1 sr s h k x n i j a counted clear merge load store
  refine ⟨fun hv => ⟨exec_acfg_remove h tile sr hv, fun d hs hd hwin hw hp hr => ?_⟩, fun hlast => ⟨fun hs hr => ?_,
    fun htiles hs hgood hr => ?_, fun ha16 hwin => ⟨fun hs hr hp => ?_, fun hs hr hgood => ?_⟩⟩⟩
  · exact exec_acfg_set h tile sr d hv hs a rfl hd hwin hw hp hr
  · exact exec_aclr h tile entry nm1 hs rfl rfl hlast hr
  · exact exec_amrg h tile tb_ entry nm1 hs rfl rfl hlast rfl htiles hgood rfl hr
  · exact exec_aldp h tile entry nm1 sr hs rfl rfl hlast rfl ha16 hwin rfl hr hp
  · exact exec_astp h tile entry nm1 sr hs rfl rfl hlast rfl ha16 hwin rfl hr hgood

end

section
/-! PROOF. What the state after reset holds: its cores, its memory, its ports and functions (R98, R397, R483). -/

namespace Sys2Proof.Machine

/-- No core differs from a core after module reset. -/
theorem State.core_reset (c : CoreId) : State.reset.core c = Core.reset := rfl

theorem Core.sreg_reset (r : RegIx) : Core.reset.sreg r = 0 := by
  have hr : r.toNat < 32 := r.isLt
  unfold Core.sreg
  split
  · rfl
  · rw [Core.reset, getElem!_pos _ r.toNat hr, Vector.getElem_replicate]

theorem Core.accAt_reset (i : Nat) : Core.reset.accAt i = AccEntry.clear := rfl

/-- R483: memory and scratchpads hold zeros. -/
theorem State.byte_reset (key : Nat) : State.reset.byte key = 0 := rfl

/-- R397: every port is as after reset. -/
theorem State.port_reset (p : PortId) : State.reset.port p = FPort.reset := Vector.getElem_replicate p.isLt

theorem State.fn_reset (f : FnId) : State.reset.fn f = Func.reset := rfl

end Sys2Proof.Machine

open Sys2Proof Sys2Proof.Machine

/-- Settles O58: every part of the reset state is read off, and the two canonical forms hold of it. -/
theorem stateAfterReset : Obligations.StateAfterReset := by
  have cores (c : CoreId) : (State.reset.core c).seq.state = .idle ∧ (∀ r, (State.reset.core c).sreg r = 0)
      ∧ ∀ i, (State.reset.core c).accAt i = AccEntry.clear := by
    rw [State.core_reset]
    exact ⟨rfl, Core.sreg_reset, Core.accAt_reset⟩
  have ports (p : PortId) : (State.reset.port p).link = .disabled ∧ (State.reset.port p).cdcEn = 9#4 := by
    rw [State.port_reset]
    exact ⟨rfl, rfl⟩
  exact ⟨rfl, cores, State.byte_reset, rfl, rfl, rfl, rfl, rfl, ports, rfl, rfl, rfl, rfl, State.fn_reset, rfl,
    State.reset_canonical, State.reset_formingOk⟩

end

section
/-! PROOF. The output stage: what an OQNT that can read its descriptor and its sources leaves of its core, of memory and of the
health events (R127 to R138, R146, R147). -/

namespace Sys2Proof.Machine

open Decode

/-! ## A core and the health events (R152) -/

/-- Core `c` becomes `k` and health events may be noted; nothing else of the block changes. -/
def State.coreAndEvents (s t : State) (c : CoreId) (k : Core) : Prop :=
  t = { s with cores := t.cores, hm := { s.hm with once := t.hm.once }, bbx := { s.bbx with waiting := t.bbx.waiting } }
    ∧ t.core c = k ∧ ∀ e, e ≠ c → t.core e = s.core e

theorem State.coreAndEvents_of_onlyCore {s t : State} {c : CoreId} {k : Core} (h : s.onlyCore t c k) : s.coreAndEvents t c k := by
  obtain ⟨ht, hcore⟩ := h
  refine ⟨?_, hcore⟩
  rw [ht]

theorem State.core_of_coreAndEvents {s t : State} {c : CoreId} {k : Core} (h : s.coreAndEvents t c k) : t.core c = k := h.2.1

theorem State.mem_of_coreAndEvents {s t : State} {c : CoreId} {k : Core} (h : s.coreAndEvents t c k) : t.mem = s.mem := by
  rw [h.1]

theorem State.coreAndEvents_modCore {s t : State} {c : CoreId} {k : Core} (h : s.coreAndEvents t c k) (f : Core → Core) :
    s.coreAndEvents (t.modCore c f) c (f k) := by
  obtain ⟨ht, hcore, hother⟩ := h
  refine ⟨?_, ?_, fun e he => ?_⟩
  · rw [ht]; rfl
  · rw [State.core_modCore, hcore]
  · rw [State.core_modCore_other _ _ _ _ he, hother e he]

theorem State.coreAndEvents_health {s t : State} {c : CoreId} {k : Core} (h : s.coreAndEvents t c k) (site cause : Nat)
    (baseline measured : W32) : s.coreAndEvents (t.health site cause baseline measured) c k := by
  obtain ⟨ht, hcore⟩ := h
  unfold State.health
  split
  · exact ⟨ht, hcore⟩
  · refine ⟨?_, hcore⟩
    rw [ht]; rfl

/-- R146, R147: of its core the report changes counters and `poison_seen` alone. -/
theorem outReport_coreAndEvents (c : CoreId) (d : OutDesc) (units : List UnitOut) (long : Bool) (s : State) :
    ∃ b o, s.coreAndEvents (outReport c d units long s) c { s.core c with cb := b, ost := o }
      ∧ b.ostRecords = bumpBy units.length (s.core c).cb.ostRecords
      ∧ b.ostPoison = bumpBy (units.filter (·.poisoned)).length (s.core c).cb.ostPoison := by
  unfold outReport
  extract_lets n s1 s2
  have hcounted : s.coreAndEvents s1 c _ := State.coreAndEvents_of_onlyCore (State.onlyCore_modCore (s.onlyCore_refl c) _)
  have hlong {k : Core} (h : s.coreAndEvents s1 c k) : s.coreAndEvents s2 c k := by
    unfold s2
    split
    · exact State.coreAndEvents_health h ..
    · exact h
  split
  · exact ⟨_, _, State.coreAndEvents_health (State.coreAndEvents_modCore (hlong hcounted) _) .., rfl, rfl⟩
  · exact ⟨_, _, hlong hcounted, rfl, rfl⟩

/-! ## The records and the tally record in memory (R132, R137) -/

theorem packFields_lt (w : Nat) (l : List Nat) : packFields w l < 2 ^ (w * l.length) := by
  induction l with
  | nil => exact Nat.one_pos
  | cons x r ih =>
    have hx : x % 2 ^ w < 2 ^ w := Nat.mod_lt _ (Nat.two_pow_pos w)
    calc packFields w (x :: r) < 2 ^ w * (packFields w r + 1) := by rw [packFields, Nat.mul_succ]; omega
      _ ≤ 2 ^ w * 2 ^ (w * r.length) := Nat.mul_le_mul_left _ ih
      _ = 2 ^ (w * (x :: r).length) := by rw [← Nat.pow_add, List.length_cons, Nat.mul_succ, Nat.add_comm]

/-- The tally record is 32 bytes. -/
theorem tallyAdd_lt (old : Nat) (units : List UnitOut) (sq : List W32) : tallyAdd old units sq < 256 ^ 32 :=
  Nat.lt_of_lt_of_eq (packFields_lt 32 _) (Nat.pow_mul 2 8 32)

/-- The state after the records `out` and, if the instruction keeps a tally, its record `v` have been written. -/
def State.outWritten (s : State) (c : CoreId) (a : OqntArgs) (d : OutDesc) (out : List Byte) (v : Nat) : State :=
  if a.tal then (s.wrBytes (spKey c d.dst) out).spWr c d.tally 32 v else s.wrBytes (spKey c d.dst) out

variable {s : State} {c : CoreId} {a : OqntArgs} {d : OutDesc} {out : List Byte} {v : Nat}

theorem State.outWritten_frame : s.outWritten c a d out v = { s with
    mem := (s.outWritten c a d out v).mem, poison := (s.outWritten c a d out v).poison
    flips := (s.outWritten c a d out v).flips } := by
  unfold State.outWritten
  split <;> rfl

theorem State.core_outWritten (e : CoreId) : (s.outWritten c a d out v).core e = s.core e :=
  State.core_congr (congrArg State.cores State.outWritten_frame) e

theorem State.outWritten_tally (ha : a.tal = true) (hv : v < 256 ^ 32) : (s.outWritten c a d out v).spRd c d.tally 32 = v := by
  rw [State.outWritten, if_pos ha]
  exact (State.rd_wr _ _ _ _).trans (Nat.mod_eq_of_lt hv)

/-- Off the tally record, memory is as the records' write leaves it. -/
theorem State.outWritten_byte {key : Nat} (h : ¬(a.tal = true ∧ spKey c d.tally ≤ key ∧ key < spKey c d.tally + 32)) :
    (s.outWritten c a d out v).byte key = (s.wrBytes (spKey c d.dst) out).byte key := by
  unfold State.outWritten
  split
  · next ha =>
    refine State.byte_wrBytes_out _ _ _ _ ?_
    have hout : ¬(spKey c d.tally ≤ key ∧ key < spKey c d.tally + 32) := fun hin => h ⟨ha, hin⟩
    rw [leBytes_length]
    omega
  · rfl

/-- A change of core `c`, then the writes, then a change of core `c` with events: what changes of the block in all. -/
theorem State.outWritten_changes {s2 t : State} {k k' : Core} (hs2 : s.onlyCore s2 c k)
    (ht : (s2.outWritten c a d out v).coreAndEvents t c k') :
    t = { s with cores := t.cores, mem := t.mem, poison := t.poison, flips := t.flips, hm := t.hm, bbx := t.bbx }
      ∧ t.hm = { s.hm with once := t.hm.once } ∧ t.bbx = { s.bbx with waiting := t.bbx.waiting }
      ∧ ∀ e, e ≠ c → t.core e = s.core e := by
  obtain ⟨hs2, _, hother2⟩ := hs2
  obtain ⟨ht, _, hother⟩ := ht
  have hw := State.outWritten_frame (s := s2) (c := c) (a := a) (d := d) (out := out) (v := v)
  refine ⟨?_, ?_, ?_, fun e he => ?_⟩
  · rw [ht, hw, hs2]
  · rw [ht, hw, hs2]
  · rw [ht, hw, hs2]
  · rw [hother e he, State.core_outWritten, hother2 e he]

/-- Off the tally record, the records stand at the destination and the other bytes are as before. -/
theorem State.outWritten_bytes {s2 t : State} (hs2 : s2.mem = s.mem) (ht : t.mem = (s2.outWritten c a d out v).mem) {key : Nat}
    (h : ¬(a.tal = true ∧ spKey c d.tally ≤ key ∧ key < spKey c d.tally + 32)) :
    t.byte key = (s.wrBytes (spKey c d.dst) out).byte key :=
  calc t.byte key = (s2.outWritten c a d out v).byte key := congrArg (Sparse.get memDefault · key) ht
    _ = (s2.wrBytes (spKey c d.dst) out).byte key := State.outWritten_byte h
    _ = (s.wrBytes (spKey c d.dst) out).byte key := by rw [State.byte, State.wrBytes, hs2]; rfl

/-! ## The effect of the instruction -/

/-- R127: the read-out takes from the block what memory and the accumulator hold, and nothing else. -/
theorem outFront_congr {s t : State} {c : CoreId} (hmem : t.mem = s.mem) (hacc : (t.core c).acc = (s.core c).acc) (a : OqntArgs)
    (d : OutDesc) : outFront t c a d = outFront s c a d := by
  simp only [outFront, outRead, outAdapt, outFuse, spF32, spB16, State.spRd_of_mem hmem, Core.accAt, hacc]

/-- R44, R135: the records take of the core the output stage's registers, and not its queue. -/
theorem outUnits_congr {k k' : Core} (h : k'.ost = { k.ost with jobs := k'.ost.jobs }) (a : OqntArgs) (d : OutDesc)
    (front : List Elem) : outUnits k' a d front = outUnits k a d front := by
  unfold outUnits g8Draw
  rw [h]

theorem outAct_eq (x : At) (a : OqntArgs) (d : OutDesc) (s : State) {front : List Elem} {units : List UnitOut}
    (hfront : front = outFront s x.c a d) (hunits : units = outUnits (s.core x.c) a d front) :
    outAct x a d s = outReport x.c d units ((outEntries a d).any fun i => ((s.core x.c).accAt i).long)
      (s.outWritten x.c a d (units.flatMap (·.bytes)) (tallyAdd (s.spRd x.c d.tally 32) units (squares a front units))) := by
  subst hunits hfront
  rfl

/-- R133: the core with the job in the output stage's queue, from which the jobs that are over have gone. -/
def Core.outQueued (k : Core) (x : At) (j : OstJob) : Core :=
  { k with ost := { k.ost with jobs := k.ost.jobs.filter (fun j => decide (x.now ≤ max j.done j.tallyAt)) ++ [j] } }

theorem Core.place_upsets (k : Core) (rs : List SbEntry) : (k.place rs).upsets = k.upsets := by
  rw [Core.place_frame]

theorem Core.place_accAt (k : Core) (rs : List SbEntry) (i : Nat) : (k.place rs).accAt i = k.accAt i := by
  rw [Core.place_frame, Core.accAt, Core.accAt]

theorem Core.outQueued_place_acc (k : Core) (rs : List SbEntry) (x : At) (j : OstJob) :
    ((k.place rs).outQueued x j).acc = k.acc := by
  rw [Core.place_frame, Core.outQueued]

theorem Core.outQueued_place_cb (k : Core) (rs : List SbEntry) (x : At) (j : OstJob) :
    ((k.place rs).outQueued x j).cb = k.cb := by
  rw [Core.place_frame, Core.outQueued]

/-- The job leaves the output stage's registers as they were. -/
theorem Core.outQueued_place_ost (k : Core) (rs : List SbEntry) (x : At) (j : OstJob) :
    ((k.place rs).outQueued x j).ost = { k.ost with jobs := ((k.place rs).outQueued x j).ost.jobs } := by
  rw [Core.place_frame, Core.outQueued]

/-- What an OQNT does when its bundle issues. -/
def outCommit (x : At) (a : OqntArgs) (d : OutDesc) (j : OstJob) (s : State) : State :=
  let s2 := outSense x.c a d (s.modCore x.c fun k => k.outQueued x j)
  if (outSpots a d).any (fun r => (s2.spPoison? x.c r.1 r.2).isSome)
      || (outEntries a d).any (fun i => ((s2.core x.c).accAt i).bad) then
    outFaulted x a d s2
  else outAct x a d s2

/-- R129 to R131: what the instruction reads lies in the window. -/
theorem outSpots_inWin (h : outDescOk a d = true) : ∀ r ∈ outSpots a d, r.1 + r.2 ≤ 2 ^ 20 := by
  simp only [outDescOk, Bool.and_eq_true, List.all_eq_true] at h
  obtain ⟨⟨⟨⟨⟨⟨_, htally⟩, _⟩, _⟩, _⟩, hreads⟩, _⟩ := h
  intro r hr
  rcases List.mem_append.mp hr with hr | hr
  · exact of_decide_eq_true (hreads r hr)
  · split at hr
    · next ha =>
      rw [List.mem_singleton] at hr
      subst hr
      simp only [ha, Bool.not_true, Bool.false_or, Bool.and_eq_true] at htally
      exact of_decide_eq_true htally.2
    · exact absurd hr List.not_mem_nil

theorem onlyCore_outSense (hs : s.calm c = true) (hd : outDescOk a d = true) : s.onlyCore (outSense c a d s) c (s.core c) := by
  unfold outSense
  rw [State.readAll_calm hs _ (outSpots_inWin hd)]
  exact State.fold_calm hs _ _ fun s' hs' i _ => Or.inr (State.senseAcc_calm hs' i)

/-- With every operand readable, the instruction does its work on a state that differs by the queued job alone. -/
theorem outCommit_reads {x : At} {j : OstJob} {k : Core} (hs : s.calm x.c = true) (hk : s.core x.c = k)
    (hd : outDescOk a d = true) (hp : ∀ r ∈ outSpots a d, s.spPoison? x.c r.1 r.2 = none)
    (hgood : ∀ i ∈ outEntries a d, (k.accAt i).bad = false) :
    ∃ s2, s.onlyCore s2 x.c (k.outQueued x j) ∧ outCommit x a d j s = outAct x a d s2 := by
  have hq := State.onlyCore_modCore (s.onlyCore_refl x.c) fun k => k.outQueued x j
  have hsense := onlyCore_outSense (State.calm_onlyCore hs hq rfl) hd
  rw [State.core_modCore, hk] at hsense
  have hs2 := State.onlyCore_trans hq hsense
  refine ⟨_, hs2, if_neg ?_⟩
  rw [Bool.or_eq_true, List.any_eq_true, List.any_eq_true]
  rintro (⟨r, hr, hbad⟩ | ⟨i, hi, hbad⟩)
  · rw [State.spPoison?_onlyCore hs2, hp r hr] at hbad
    exact Bool.noConfusion hbad
  · rw [State.core_of_onlyCore hs2, show (k.outQueued x j).accAt i = k.accAt i from rfl, hgood i hi] at hbad
    exact Bool.noConfusion hbad

/-- R127 to R138, R147: the records and the tally record are written, and the core's counters move. -/
theorem outAct_writes {x : At} (hx : x.c = c) {front : List Elem} {units : List UnitOut} (hfront : front = outFront s c a d)
    (hunits : units = outUnits (s.core c) a d front) :
    ∃ b o, (s.outWritten c a d (units.flatMap (·.bytes))
          (tallyAdd (s.spRd c d.tally 32) units (squares a front units))).coreAndEvents
        (outAct x a d s) c { s.core c with cb := b, ost := o }
      ∧ b.ostRecords = bumpBy units.length (s.core c).cb.ostRecords
      ∧ b.ostPoison = bumpBy (units.filter (·.poisoned)).length (s.core c).cb.ostPoison := by
  subst hx
  rw [outAct_eq x a d s hfront hunits]
  have hreport := outReport_coreAndEvents x.c d units ((outEntries a d).any fun i => ((s.core x.c).accAt i).long)
    (s.outWritten x.c a d (units.flatMap (·.bytes)) (tallyAdd (s.spRd x.c d.tally 32) units (squares a front units)))
  rwa [State.core_outWritten] at hreport

/-! ## The bundle -/

/-- R128 to R134: the instruction's fields and its descriptor `d`, read at `at_`, are good, the output stage's queue of core `k` has
room, and the scoreboard takes the ranges. -/
structure OqntIssues (s : State) (x : At) (k : Core) (a : OqntArgs) (at_ : Nat) (d : OutDesc) : Prop where
  at_eq : at_ = (k.sreg a.sDesc).toNat
  desc_eq : d = outDescOf (s.spRd x.c at_ 32)
  fieldsOk : oqntFieldsOk a = true
  aligned : at_ % 32 = 0
  inWindow : at_ + 32 ≤ 2 ^ 20
  noWait : k.descWaits at_ 32 = false
  unpoisoned : s.spPoison? x.c at_ 32 = none
  descOk : outDescOk a d = true
  room : (k.ost.jobs.filter fun j => decide (x.now ≤ j.done)).length < 4
  takes : k.takes (outRanges x a at_ d (outJob k x a))

theorem OqntIssues.of_onlyCore {t : State} {x : At} {k k' : Core} {at_ : Nat} (h : OqntIssues s x k a at_ d)
    (ht : s.onlyCore t c k') : OqntIssues t x k a at_ d :=
  { h with
    desc_eq := by rw [State.spRd_onlyCore ht, ← h.desc_eq]
    unpoisoned := by rw [State.spPoison?_onlyCore ht, h.unpoisoned] }

/-- The plan of an OQNT that need not wait and does not fault. -/
theorem OqntIssues.plan_eq {x : At} {k : Core} {at_ : Nat} (hi : OqntIssues s x k a at_ d) (hk : s.core x.c = k) :
    oqntPlan s x a
      = ⟨none, 0, outRanges x a at_ d (outJob k x a), .seq, outCommit x a d (outJob k x a), [(at_, 32)]⟩ := by
  obtain ⟨rfl, rfl, hfields, h32, hwin, hw, hp, hok, hroom, _, _, _, hrange, _⟩ := hi
  subst hk
  have hin : inWin ((s.core x.c).sreg a.sDesc).toNat 32 = true := decide_eq_true hwin
  have hread := hrange (spRange .read ((s.core x.c).sreg a.sDesc).toNat 32 (.atCc (x.now + 2))) (by simp [outRanges])
  have hqueue : decide (((s.core x.c).ost.jobs.filter fun j => decide (x.now ≤ j.done)).length ≥ 4) = false :=
    decide_eq_false (by omega)
  unfold oqntPlan
  simp only
  rw [if_neg (by simp [hfields, h32, hin]), withDesc_reads _ _ _ _ _ _ hw hread hp, hqueue, hok, stallIf,
    if_neg Bool.false_ne_true, Plan.after_zero]
  rfl

/-- An OQNT that issues: its effect starts from the core with its ranges taken, and control goes on in sequence. -/
theorem exec_oqnt (h : canIssue c s) (hs : s.calm c = true) {at_ : Nat} {rs : List SbEntry} {j : OstJob}
    (hi : OqntIssues s (s.point c) (s.front c) a at_ d) (hj : j = outJob (s.front c) (s.point c) a)
    (hrs : rs = outRanges (s.point c) a at_ d j) (hspots : ∀ r ∈ outSpots a d, s.spPoison? c r.1 r.2 = none)
    (hgood : ∀ i ∈ outEntries a d, ((s.front c).accAt i).bad = false) :
    ∃ s2, s.onlyCore s2 c (((s.front c).place rs).outQueued (s.point c) j)
      ∧ exec (.oqnt c a) s = .next ((outAct (s.point c) a d s2).modCore c fun k => s.issued c k .seq) := by
  subst hj hrs
  have hfront := s.onlyCore_setCore c (s.front c)
  have hplan := (hi.of_onlyCore hfront).plan_eq (State.core_setCore ..)
  have hbundle := issueBundle_one (b := { Slots.nops with mov := .oqnt a }) 3 _ h (congrArg (oneOf 3) hplan) rfl rfl
    (State.senseSp_calm (State.calm_front hs) at_ 32 hi.inWindow) hi.takes .seq rfl
  have hplaced := State.onlyCore_set hfront ((s.front c).place (outRanges (s.point c) a at_ d (outJob (s.front c) (s.point c) a)))
  have hcalm := State.calm_onlyCore hs hplaced ((Core.place_upsets ..).trans (s.front_upsets c))
  obtain ⟨s2, hs2, hact⟩ := outCommit_reads (x := s.point c) (j := outJob (s.front c) (s.point c) a) hcalm
    (State.core_of_onlyCore hplaced) hi.descOk (fun r hr => (State.spPoison?_onlyCore hplaced c r.1 r.2).trans (hspots r hr))
    fun i hi => by rw [Core.place_accAt, hgood i hi]
  refine ⟨s2, State.onlyCore_trans hplaced hs2, congrArg Host.Outcome.next (hbundle.trans ?_)⟩
  exact congrArg (fun t => t.modCore c fun k => s.issued c k .seq) hact

/-- R248: what of its core an OQNT leaves as it was, and what it has changed for the bundles after it. -/
theorem State.issued_outQueued {s : State} {k k' : Core} {rs : List SbEntry} {x : At} {j : OstJob} {b : CtrsB} {o : Ost}
    (hk : k' = s.issued c { (k.place rs).outQueued x j with cb := b, ost := o } .seq) :
    k'.sb = (k.place rs).sb ∧ k'.s = k.s ∧ k'.v = k.v ∧ k'.m = k.m ∧ k'.acc = k.acc ∧ k'.dqu.queues = k.dqu.queues
      ∧ k'.pend = k.pend ∧ k'.cb = b := by
  obtain ⟨q, u, h⟩ := Core.afterIssue_frame { (k.place rs).outQueued x j with cb := b, ost := o } (s.core c).seq.pc.toNat .seq
  rw [hk, State.issued, h, Core.outQueued, Core.place_frame]
  exact ⟨rfl, rfl, rfl, rfl, rfl, rfl, rfl, rfl⟩

end Sys2Proof.Machine

open Sys2Proof Sys2Proof.Machine

/-- Settles O15: the records and the tally record are written from what the sources hold at issue, the report moves the counters,
and issue goes on. -/
theorem outputInstruction : Obligations.OutputInstruction := by
  intro c a s h hs k x at_ d j rs hfields h32 hwin hw hp hok hroom hr hspots hgood front units out inTally
  have hissues : OqntIssues s x k a at_ d := ⟨rfl, rfl, hfields, h32, hwin, hw, hp, hok, hroom, hr⟩
  obtain ⟨s2, hs2, hexec⟩ := exec_oqnt (j := j) (rs := rs) h hs hissues rfl rfl hspots hgood
  have hcore := State.core_of_onlyCore hs2
  have hmem : s2.mem = s.mem := by rw [hs2.1]
  have hacc : (s2.core c).acc = ((s.setCore c k).core c).acc := by rw [hcore, State.core_setCore, Core.outQueued_place_acc]
  have hfront : front = outFront s2 c a d := (outFront_congr (hmem.trans (State.setCore_mem ..).symm) hacc a d).symm
  have hunits : units = outUnits (s2.core c) a d front := by
    rw [hcore]
    exact (outUnits_congr (Core.outQueued_place_ost k rs x j) a d front).symm
  obtain ⟨b, o, hact, hrecords, hpoison⟩ := outAct_writes (x := x) (s.point_c c) hfront hunits
  have ht := State.coreAndEvents_modCore hact fun k => s.issued c k .seq
  rw [hcore, State.spRd_onlyCore hs2] at ht
  rw [hcore] at hrecords hpoison
  obtain ⟨hframe, hhm, hbbx, hother⟩ := State.outWritten_changes hs2 ht
  have htmem := State.mem_of_coreAndEvents ht
  obtain ⟨hsb, hsreg, hv, hm, haccT, hqueues, hpend, hcb⟩ := State.issued_outQueued (State.core_of_coreAndEvents ht)
  refine ⟨_, hexec, hframe, hhm, hbbx, hother, fun i hi hout => ?_, fun ha => ?_, fun key hkey hout => ?_, hsb, hsreg, hv, hm,
    haccT, hqueues, hpend, ?_, ?_⟩
  · rw [State.outWritten_bytes hmem htmem hout, State.byte_wrBytes_in _ _ _ _ hi]
  · rw [State.spRd_of_mem htmem, State.outWritten_tally ha (tallyAdd_lt ..)]
  · rw [State.outWritten_bytes hmem htmem hout, State.byte_wrBytes_out _ _ _ _ hkey]
  · rw [hcb, hrecords, Core.outQueued_place_cb]
  · rw [hcb, hpoison, Core.outQueued_place_cb]

end

section
/-! PROOF. Registers as lanes and elements, and numbers as fields: what is read of a number that fields were packed into, and of
a number that bytes were read into (R10, R156, R165). -/

namespace Sys2Proof.Machine

/-! ## Fields packed into a number -/

theorem packFields_div_mod (w : Nat) (l : List Nat) (i : Nat) (h : i < l.length) :
    packFields w l / 2 ^ (w * i) % 2 ^ w = l[i] % 2 ^ w := by
  induction l generalizing i with
  | nil => exact absurd h (Nat.not_lt_zero i)
  | cons x r ih =>
    cases i with
    | zero => simp [packFields]
    | succ i =>
      have hdiv : packFields w (x :: r) / 2 ^ w = packFields w r := by
        rw [packFields, Nat.add_mul_div_left _ _ (Nat.two_pow_pos w), Nat.div_eq_of_lt (Nat.mod_lt _ (Nat.two_pow_pos w)),
          Nat.zero_add]
      rw [Nat.mul_succ, Nat.add_comm, Nat.pow_add, ← Nat.div_div_eq_div_mul, hdiv, ih i (Nat.lt_of_succ_lt_succ h),
        List.getElem_cons_succ]

theorem packFields_range_div_mod {w : Nat} (f : Nat → BitVec w) {m l : Nat} (h : l < m) :
    packFields w ((List.range m).map fun i => (f i).toNat) / 2 ^ (w * l) % 2 ^ w = (f l).toNat := by
  rw [packFields_div_mod w _ l (by simpa using h), List.getElem_map, List.getElem_range, Nat.mod_eq_of_lt (f l).isLt]

/-- Fields that fit into a word: each of them is the slice of the word at its place. -/
theorem extractLsb'_packFields {w : Nat} (f : Nat → BitVec w) {m n l : Nat} (h : l < m) (hn : w * m ≤ n) :
    (BitVec.ofNat n (packFields w ((List.range m).map fun i => (f i).toNat))).extractLsb' (w * l) w = f l := by
  have hlt : packFields w ((List.range m).map fun i => (f i).toNat) < 2 ^ n :=
    Nat.lt_of_lt_of_le (packFields_lt w _) (Nat.pow_le_pow_right Nat.two_pos (by simpa using hn))
  apply BitVec.eq_of_toNat_eq
  rw [BitVec.extractLsb'_toNat, BitVec.toNat_ofNat, Nat.mod_eq_of_lt hlt, Nat.shiftRight_eq_div_pow,
    packFields_range_div_mod f h]

/-- Bits that fit into a word: each of them is the word's bit of its place. -/
theorem getLsbD_packFields (b : Nat → Bool) {m n l : Nat} (h : l < m) (hn : m ≤ n) :
    (BitVec.ofNat n (packFields 1 ((List.range m).map fun i => bit (b i)))).getLsbD l = b l := by
  have hbit : decide (bit (b l) % 2 = 1) = b l := by cases b l <;> rfl
  have hfield := packFields_div_mod 1 ((List.range m).map fun i => bit (b i)) l (by simpa using h)
  rw [List.getElem_map, List.getElem_range, Nat.one_mul, Nat.pow_one] at hfield
  rw [BitVec.getLsbD_ofNat, decide_eq_true (Nat.lt_of_lt_of_le h hn), Bool.true_and, Nat.testBit_eq_decide_div_mod_eq, hfield,
    hbit]

/-! ## Lanes and elements (R156, R159) -/

@[simp] theorem lane_lanesOf (f : Nat → W32) {l : Nat} (h : l < 32) : lane (lanesOf f) l = f l :=
  extractLsb'_packFields f h (by decide)

@[simp] theorem lane16_lanes16Of (f : Nat → W16) {l : Nat} (h : l < 64) : lane16 (lanes16Of f) l = f l :=
  extractLsb'_packFields f h (by decide)

theorem tileElem_tileOf (f : Nat → W32) {r j : Nat} (hr : r < 16) (hj : j < 16) :
    tileElem (tileOf f) r j = f (16 * r + j) := extractLsb'_packFields f (by omega) (by decide)

/-- R159: a lane of the b operand is the broadcast scalar's low half or a lane of the vector register. -/
theorem Core.lane_opB32 (k : Core) (r : VRegs) {l : Nat} (h : l < 32) :
    lane (k.opB32 r) l = if r.bs then (k.sreg r.vb).extractLsb' 0 32 else lane (k.vreg r.vb) l := by
  unfold Core.opB32
  split
  · exact lane_lanesOf _ h
  · rfl

theorem Core.lane16_opB16 (k : Core) (r : VRegs) {l : Nat} (h : l < 64) :
    lane16 (k.opB16 r) l = if r.bs then (k.sreg r.vb).extractLsb' 0 16 else lane16 (k.vreg r.vb) l := by
  unfold Core.opB16
  split
  · exact lane16_lanes16Of _ h
  · rfl

/-! ## Pairs of rows and columns (R165) -/

theorem getLsbD_allElems {r j : Nat} (hr : r < 16) (hj : j < 16) : allElems.getLsbD (16 * r + j) = true := by
  rw [allElems, BitVec.getLsbD_allOnes, decide_eq_true (by omega)]

theorem elem_row {r j : Nat} (hj : j < 16) : (16 * r + j) / 16 = r := by omega

theorem elem_col {r j : Nat} (hj : j < 16) : (16 * r + j) % 16 = j := by omega

theorem getLsbD_pairMask (col : Bool) (ix : Nat) {r j : Nat} (hr : r < 16) (hj : j < 16) :
    (pairMask col ix).getLsbD (16 * r + j) = (let n := if col then j else r; n == ix || n == ix + 1) := by
  rw [pairMask, getLsbD_packFields (fun e => let n := if col then e % 16 else e / 16; n == ix || n == ix + 1) (by omega)
    (Nat.le_refl 256)]
  simp only [elem_row hj, elem_col hj]

theorem tileElem_pairTile (v : BitVec 1024) (col : Bool) (ix : Nat) {r j : Nat} (hr : r < 16) (hj : j < 16) :
    tileElem (pairTile v col ix) r j = lane v (16 * ((if col then j else r) - ix) + if col then r else j) := by
  rw [pairTile, tileElem_tileOf _ hr hj]
  simp only [elem_row hj, elem_col hj, Nat.mul_comm _ 16]

/-! ## Bytes of packed fields, and fields of bytes read (R10) -/

/-- The bytes of 16-bit fields that were packed. -/
theorem leBytes_packFields16 (f : Nat → W16) {m l j : Nat} (hl : l < m) (hj : j < 2) :
    (leBytes (2 * m) (packFields 16 ((List.range m).map fun i => (f i).toNat))).getD (2 * l + j) 0
      = (f l).extractLsb' (8 * j) 8 := by
  have hfield := packFields_range_div_mod f hl
  have hplace : 256 ^ (2 * l + j) = 2 ^ (16 * l) * 256 ^ j := by
    rw [Nat.pow_add, Nat.pow_mul, Nat.pow_mul]
  rw [leBytes_getD _ _ _ (by omega), hplace, ← Nat.div_div_eq_div_mul, ← ofNat_toNat_div, ← hfield]
  generalize packFields 16 ((List.range m).map fun i => (f i).toNat) / 2 ^ (16 * l) = y
  apply BitVec.eq_of_toNat_eq
  rw [BitVec.toNat_ofNat, BitVec.toNat_ofNat]
  obtain rfl | rfl : j = 0 ∨ j = 1 := by omega
  · omega
  · omega

theorem memRead_lt (m : List Host.Cell) (key n : Nat) : memRead m key n < 256 ^ n := by
  induction n generalizing key with
  | zero => exact Nat.one_pos
  | succ n ih =>
    have hbyte := (Sparse.get memDefault m key).isLt
    have hrest := ih (key + 1)
    rw [memRead, Nat.pow_succ]
    omega

theorem memRead_add (m : List Host.Cell) (key i n : Nat) :
    memRead m key (i + n) = memRead m key i + 256 ^ i * memRead m (key + i) n := by
  induction i generalizing key with
  | zero => simp [memRead]
  | succ i ih =>
    rw [Nat.succ_add, memRead, memRead, ih, Nat.pow_succ, Nat.mul_add, ← Nat.mul_assoc, Nat.mul_comm 256 (256 ^ i),
      show key + (i + 1) = key + 1 + i by omega, ← Nat.add_assoc]

/-- A field of whole bytes of what was read is what those bytes read as. -/
theorem memRead_div_mod (m : List Host.Cell) (key i n j : Nat) :
    memRead m key (i + (n + j)) / 256 ^ i % 256 ^ n = memRead m (key + i) n := by
  rw [memRead_add, Nat.add_mul_div_left _ _ (Nat.pow_pos (by decide)), Nat.div_eq_of_lt (memRead_lt m key i), Nat.zero_add,
    memRead_add, Nat.add_mul_mod_self_left, Nat.mod_eq_of_lt (memRead_lt m _ n)]

theorem State.fld_spRd (s : State) (c : CoreId) (a : Nat) {n l : Nat} (h : 2 * l + 2 ≤ n) :
    fld (s.spRd c a n) (16 * l) 16 = s.spRd c (a + 2 * l) 2 := by
  obtain ⟨j, rfl⟩ := Nat.exists_eq_add_of_le h
  have hplace : 2 ^ (16 * l) = 256 ^ (2 * l) := by rw [Nat.pow_mul, Nat.pow_mul]
  have hkey : spKey c (a + 2 * l) = spKey c a + 2 * l := (Nat.add_assoc ..).symm
  rw [fld, hplace, Nat.add_assoc, State.spRd, State.spRd, hkey]
  exact memRead_div_mod s.mem (spKey c a) (2 * l) 2 j

/-! ## A scalar result on its way (R158, R249) -/

theorem Core.sreg_settle_putS {k : Core} (hpend : k.pend = []) (x : At) (slot lat : Nat) (r q : RegIx) (v : W64) (now : Nat) :
    ((k.putS x slot lat r v).settle now).sreg q = if x.now + lat ≤ now then (k.setS r v).sreg q else k.sreg q := by
  have hsettle : (k.putS x slot lat r v).settle now
      = landAll now [.s (x.now + lat) (x.id + slot) r v] (k.putS x slot lat r v) := by
    rw [Core.settle, Core.putS, hpend]; rfl
  have hland : (landAll now [] ((k.putS x slot lat r v).land (.s (x.now + lat) (x.id + slot) r v))).sreg q
      = (k.setS r v).sreg q := by
    simp only [landAll, Core.land, Core.setS]
    split <;> rfl
  rw [hsettle, landAll, PendWrite.time]
  split
  · exact hland
  · rfl

end Sys2Proof.Machine

open Sys2Proof Sys2Proof.Machine

/-- Settles O6: the result waits as the one entry of the list of results on their way, and is written to its register when its
cc has come. -/
theorem scalarResultsAreVisibleAtTheirLatency : Obligations.ScalarResultsAreVisibleAtTheirLatency := by
  intro k x slot lat r v now hpend
  simp only [Core.sreg_settle_putS hpend, Core.sreg_setS]
  refine ⟨?_, fun q hq => ?_⟩
  · by_cases hr : r = 0
    · subst hr
      rw [if_pos rfl, if_pos rfl, Core.sreg_zero, ite_self]
    · simp only [if_neg hr]
  · rw [Core.sreg_setS_other k r q v hq, ite_self]

end

section
/-! PROOF. The vector slot: how a bundle with one vector instruction issues on its pipe (R155, R163), what its result is (R158,
R178), and how an undefined form faults (R176). -/

namespace Sys2Proof.Machine

open Decode

/-! ## The state that the next bundle finds -/

/-- The state in which the next bundle of core `c` finds its core. -/
abbrev State.found (s : State) (c : CoreId) : State := s.setCore c (s.front c)

theorem State.core_found (s : State) (c : CoreId) : (s.found c).core c = s.front c := State.core_setCore ..

theorem Core.pipeWait_free {s : State} {c : CoreId} {p : Nat} (hp : s.pipeFree c p) :
    ((s.found c).core c).pipeWait (s.point c) p = 0 := by
  rw [State.core_found]
  exact if_neg fun hlt => Nat.not_lt.mpr hp (of_decide_eq_true hlt)

/-- The row of a vector instruction: the bundle that holds it and no-ops in the other slots. -/
abbrev issueVec (c : CoreId) (i : VecInstr) (s : State) : Host.Outcome State Fault Refusal :=
  .next (issueBundle c { Slots.nops with vec := i } s)

/-- R178: whether VEC_NANOUT counts a result in this view. -/
def NanView.counts : NanView → BitVec 1024 → Bool
  | .none, _ => false
  | .full, v => hasNan false v
  | .half, v => hasNan true v

theorem vecOut_eq (x : At) (lat : Nat) (vd : RegIx) (view : NanView) (v : BitVec 1024) (s : State) :
    vecOut x lat vd view v s = s.modCore x.c fun k =>
      { k.putV x lat vd v with cb := if view.counts v then { k.cb with vecNanout := bump k.cb.vecNanout } else k.cb } := by
  cases view <;> rfl

theorem State.onlyCore_vecOut {s t : State} {c : CoreId} {k : Core} {x : At} (hx : x.c = c) {p iv lat : Nat} {vd : RegIx}
    {view : NanView} {v : BitVec 1024} (ht : s.onlyCore t c (k.usePipe x p iv lat)) (f : Core → Core) :
    s.onlyCore ((vecOut x lat vd view v t).modCore c f) c (f (k.vectorResult x p iv lat vd (view.counts v) v)) := by
  subst hx
  rw [vecOut_eq]
  exact State.onlyCore_modCore (State.onlyCore_modCore ht _) f

/-! ## Instructions on a pipe -/

section Issue

variable {c : CoreId} {s : State} {i : VecInstr} {k : Core} {p iv lat : Nat}
variable (h : canIssue c s) (hk : (s.found c).core c = k) (hp : s.pipeFree c p)
include h hk hp

/-- The instruction acts on the core with its ranges taken and its pipe in use, and control goes on in sequence. -/
theorem issueBundle_onPipe {rs : List SbEntry} {act : State → State}
    (hplan : vecSlot (s.found c) (s.point c) i = onPipe k (s.point c) p iv lat rs act) (hr : k.takes rs) :
    ∃ s1, s.onlyCore s1 c ((k.place rs).usePipe (s.point c) p iv lat)
      ∧ issueVec c i s = .next ((act s1).modCore c fun k => s.issued c k .seq) := by
  subst hk
  have hstall : (onPipe ((s.found c).core c) (s.point c) p iv lat rs act).stall = 0 := Core.pipeWait_free hp
  rw [State.core_found] at hplan hstall hr ⊢
  exact ⟨_, State.onlyCore_modCore (State.onlyCore_set (s.onlyCore_setCore c _) _) fun k => k.usePipe (s.point c) p iv lat,
    congrArg Host.Outcome.next <|
      issueBundle_one (b := { Slots.nops with vec := i }) 2 _ h (congrArg (oneOf 2) hplan) hstall rfl rfl hr .seq rfl⟩

/-- An instruction without ranges that changes its core by `g`. -/
theorem issueBundle_modCore {g : Core → Core}
    (hplan : vecSlot (s.found c) (s.point c) i = onPipe k (s.point c) p iv lat [] fun s1 => s1.modCore c g) :
    ∃ t, issueVec c i s = .next t
      ∧ s.onlyCore t c (s.issued c (g (k.usePipe (s.point c) p iv lat)) .seq) := by
  obtain ⟨s1, hs1, hb⟩ := issueBundle_onPipe h hk hp hplan k.takes_nil
  rw [Core.place_nil] at hs1
  exact ⟨_, hb, State.onlyCore_modCore (State.onlyCore_modCore hs1 g) _⟩

/-- An instruction without ranges whose result is a vector register. -/
theorem issueBundle_vecOut {vd : RegIx} {view : NanView} {v : BitVec 1024}
    (hplan : vecSlot (s.found c) (s.point c) i = onPipe k (s.point c) p iv lat [] (vecOut (s.point c) lat vd view v)) :
    ∃ t, issueVec c i s = .next t
      ∧ s.onlyCore t c (s.issued c (k.vectorResult (s.point c) p iv lat vd (view.counts v) v) .seq) := by
  obtain ⟨s1, hs1, hb⟩ := issueBundle_onPipe h hk hp hplan k.takes_nil
  rw [Core.place_nil] at hs1
  exact ⟨_, hb, State.onlyCore_vecOut (s.point_c c) hs1 _⟩

/-- A vector result that is given lane by lane. -/
theorem issueBundle_lanes {vd : RegIx} {view : NanView} {f g : Nat → W32}
    (hplan : vecSlot (s.found c) (s.point c) i = onPipe k (s.point c) p iv lat [] (vecOut (s.point c) lat vd view (lanesOf f)))
    (hfg : ∀ l < 32, f l = g l) :
    ∃ t v, issueVec c i s = .next t
      ∧ (∀ l < 32, lane v l = g l)
      ∧ s.onlyCore t c (s.issued c (k.vectorResult (s.point c) p iv lat vd (view.counts v) v) .seq) := by
  obtain ⟨t, hb, ht⟩ := issueBundle_vecOut h hk hp hplan
  exact ⟨t, _, hb, fun l hl => (lane_lanesOf f hl).trans (hfg l hl), ht⟩

/-- A vector result that is given by its BF16 lanes. -/
theorem issueBundle_lanes16 {vd : RegIx} {view : NanView} {f g : Nat → W16}
    (hplan : vecSlot (s.found c) (s.point c) i = onPipe k (s.point c) p iv lat [] (vecOut (s.point c) lat vd view (lanes16Of f)))
    (hfg : ∀ l < 64, f l = g l) :
    ∃ t v, issueVec c i s = .next t
      ∧ (∀ l < 64, lane16 v l = g l)
      ∧ s.onlyCore t c (s.issued c (k.vectorResult (s.point c) p iv lat vd (view.counts v) v) .seq) := by
  obtain ⟨t, hb, ht⟩ := issueBundle_vecOut h hk hp hplan
  exact ⟨t, _, hb, fun l hl => (lane16_lanes16Of f hl).trans (hfg l hl), ht⟩

/-- R176: an undefined form faults once its pipe is free, and does nothing. -/
theorem issueBundle_badVec (hplan : vecSlot (s.found c) (s.point c) i = badVec.after (k.pipeWait (s.point c) p)) :
    ∃ t, issueVec c i s = .next t
      ∧ s.onlyCore t c
          (Core.raise { k with seq := { k.seq with stall := 0 } } ⟨0x0601, 2, 0, (s.core c).seq.pc, 0, .vec⟩) := by
  have hwait : k.pipeWait (s.point c) p = 0 := hk ▸ Core.pipeWait_free hp
  have hpoint : k.point c = s.point c := by
    rw [← hk, State.core_found, State.point, Core.point, Core.point, State.front_seq]
  have hplans : plans (s.found c) (k.point c) { Slots.nops with vec := i } = oneOf 2 (badVec.after 0) := by
    rw [hpoint]
    exact congrArg (oneOf 2) (hplan.trans (by rw [hwait]))
  subst hk
  have hissue := issueAt_fault (b := { Slots.nops with vec := i })
    (f := ⟨0x0601, 2, 0, (((s.found c).core c).point c).pc, 0, .vec⟩) (fs := []) _ hplans
    (readDescs_none c _ _ rfl) (stallWord_one _ 2 _ rfl (Core.takes_nil _)) rfl
  rw [hpoint] at hissue
  exact ⟨_, congrArg Host.Outcome.next ((issueBundle_eq h).trans hissue),
    State.core_found s c ▸ State.onlyCore_modCore (s.onlyCore_setCore c (s.front c)) _⟩

end Issue

/-! ## Vector loads and stores (R163) -/

theorem bit_memInterval (a size : Nat) : bit (memInterval a size == 2) = memInterval a size - 1 := by
  unfold memInterval
  split <;> rfl

theorem Core.usePipe_upsets (k : Core) (x : At) (p iv lat : Nat) : (k.usePipe x p iv lat).upsets = k.upsets := rfl

section Memory

variable {c : CoreId} {s : State} {i : VecInstr} {k : Core} {a size align lat iv extra : Nat}
variable (h : canIssue c s) (hk : (s.found c).core c = k) (hp : s.pipeFree c pipeMem)
variable (halign : a % align = 0) (hwin : a + size ≤ 2 ^ 20) (hextra : bit (iv == 2) = extra)
include h hk hp halign hwin hextra

/-- An aligned load within the window: its effect starts from the core with the range taken and the pipe in use. -/
theorem issueBundle_vecLoad {act : State → State}
    (hplan : vecSlot (s.found c) (s.point c) i = vecLoad k (s.point c) a size align lat iv act) (hs : s.calm c = true)
    (hr : k.takes [spRange .read a size (.atCc ((s.point c).now + lat - 2 + extra))]) (hpoison : s.spPoison? c a size = none) :
    ∃ s1, s.onlyCore s1 c
        ((k.place [spRange .read a size (.atCc ((s.point c).now + lat - 2 + extra))]).usePipe (s.point c) pipeMem iv lat)
      ∧ issueVec c i s = .next ((act s1).modCore c fun k => s.issued c k .seq) := by
  subst hextra
  obtain ⟨s1, hs1, hb⟩ := issueBundle_onPipe h hk hp
    (hplan.trans (if_pos (⟨halign, decide_eq_true hwin⟩ : a % align = 0 ∧ inWin a size = true))) hr
  have hupsets : ((k.place [spRange .read a size (.atCc ((s.point c).now + lat - 2 + bit (iv == 2)))]).usePipe (s.point c)
      pipeMem iv lat).upsets = (s.core c).upsets := by
    rw [Core.usePipe_upsets, Core.place_upsets, ← hk, State.core_found, State.front_upsets]
  rw [readOr_reads (s.point c) 2 .vec a size act (State.calm_onlyCore hs hs1 hupsets) hwin
    ((State.spPoison?_onlyCore hs1 c a size).trans hpoison)] at hb
  exact ⟨s1, hs1, hb⟩

/-- An aligned store within the window. -/
theorem issueBundle_vecStore {bytes : List Byte}
    (hplan : vecSlot (s.found c) (s.point c) i = vecStore k (s.point c) a size align lat iv bytes)
    (hr : k.takes [spRange .write a size (.atCc ((s.point c).now + lat + extra))]) :
    ∃ t, issueVec c i s = .next t ∧ s.coreAndBytes t c
      (s.issued c ((k.place [spRange .write a size (.atCc ((s.point c).now + lat + extra))]).usePipe (s.point c) pipeMem iv lat)
        .seq) (spKey c a) bytes := by
  subst hextra
  obtain ⟨s1, hs1, hb⟩ := issueBundle_onPipe h hk hp
    (hplan.trans (if_pos (⟨halign, decide_eq_true hwin⟩ : a % align = 0 ∧ inWin a size = true))) hr
  have hwrite := s1.coreAndBytes_wrBytes c (spKey c a) bytes
  rw [State.core_of_onlyCore hs1] at hwrite
  exact ⟨_, hb, State.coreAndBytes_modCore (State.coreAndBytes_after_onlyCore hs1 hwrite) fun k => s.issued c k .seq⟩

end Memory

end Sys2Proof.Machine
end

section
/-! PROOF. The lane operations: FP32 and BF16 (R160, R161), integers, conversions and moves (R160, R162, R173), and the special
functions (R164). -/

namespace Sys2Proof.Machine

open Decode

theorem Core.lane_opB32_toNat (k : Core) (r : VRegs) {l : Nat} (h : l < 32) : (lane (k.opB32 r) l).toNat
    = if r.bs then ((k.sreg r.vb).extractLsb' 0 32).toNat else (lane (k.vreg r.vb) l).toNat := by
  rw [Core.lane_opB32 k r h, apply_ite BitVec.toNat]

theorem Core.lane16_opB16_toNat (k : Core) (r : VRegs) {l : Nat} (h : l < 64) : (lane16 (k.opB16 r) l).toNat
    = if r.bs then ((k.sreg r.vb).extractLsb' 0 16).toNat else (lane16 (k.vreg r.vb) l).toNat := by
  rw [Core.lane16_opB16 k r h, apply_ite BitVec.toNat]

theorem fpLat_eq (op : FpOp) : fpLat op = if op = .add ∨ op = .sub ∨ op = .mul ∨ op = .fma then 4 else 2 := by
  cases op <;> rfl

/-- R160: the mask of "less or equal" is that of "less, or equal". -/
theorem fpLane_cle (f : FFmt) (a b d : Nat) :
    fpLane f .cle a b d = if f.lt a b ∨ f.eqv a b then 2 ^ f.w - 1 else 0 := by
  simp only [fpLane, fMask, Bool.or_eq_true]

section Lanes

variable {c : CoreId} {s : State} {k : Core}
variable (h : canIssue c s) (hk : (s.found c).core c = k)
include h hk

section Arith

variable (hp : s.pipeFree c pipeArith)
include hp

/-- An FP32 form whose unused fields are zero: lane by lane one operation, `g` of its lanes. -/
theorem issueVec_fp32 (op : FpOp) (r : VRegs) {g : Nat → Nat} (hok : fpFieldsOk op r = true)
    (hg : ∀ l, fpLane fp32 op (lane (k.vreg r.va) l).toNat
      (if r.bs then ((k.sreg r.vb).extractLsb' 0 32).toNat else (lane (k.vreg r.vb) l).toNat)
      (lane (k.vreg r.vc) l).toNat = g l) :
    ∃ t v, issueVec c (.fp op false r) s = .next t ∧ (∀ l < 32, lane v l = BitVec.ofNat 32 (g l))
      ∧ s.onlyCore t c (s.issued c (k.vectorResult (s.point c) pipeArith 1 (fpLat op) r.vd (hasNan false v) v) .seq) := by
  subst hk
  exact issueBundle_lanes h rfl hp (view := .full) (if_pos hok) fun l hl => by
    rw [Core.lane_opB32_toNat _ r hl, State.point_c, hg]

theorem issueVec_bf16 (op : FpOp) (r : VRegs) (hok : fpFieldsOk op r = true) :
    ∃ t v, issueVec c (.fp op true r) s = .next t
      ∧ (∀ l < 64, lane16 v l = BitVec.ofNat 16 (fpLane bf16 op (lane16 (k.vreg r.va) l).toNat
          (if r.bs then ((k.sreg r.vb).extractLsb' 0 16).toNat else (lane16 (k.vreg r.vb) l).toNat)
          (lane16 (k.vreg r.vc) l).toNat))
      ∧ s.onlyCore t c (s.issued c (k.vectorResult (s.point c) pipeArith 1 (fpLat op) r.vd (hasNan true v) v) .seq) := by
  subst hk
  exact issueBundle_lanes16 h rfl hp (view := .half) (if_pos hok) fun l hl => by
    rw [Core.lane16_opB16_toNat _ r hl, State.point_c]

/-- An integer form, `g` lane by lane. -/
theorem issueVec_int (op : IntOp) (r : VRegs) {g : Nat → W32} (hvc : r.vc = 0)
    (hg : ∀ l, intLane op (lane (k.vreg r.va) l)
      (if r.bs then (k.sreg r.vb).extractLsb' 0 32 else lane (k.vreg r.vb) l) = g l) :
    ∃ t v, issueVec c (.int op r) s = .next t ∧ (∀ l < 32, lane v l = g l)
      ∧ s.onlyCore t c (s.issued c (k.vectorResult (s.point c) pipeArith 1 2 r.vd false v) .seq) := by
  subst hk
  exact issueBundle_lanes h rfl hp (view := .none) (if_pos hvc) fun l hl => by
    rw [Core.lane_opB32 _ r hl, State.point_c, hg]

end Arith

/-- A special function, in its FP32 or its BF16 form. -/
theorem issueVec_special (fn : SpecialFn) (half : Bool) (vd va : RegIx) (hp : s.pipeFree c pipeSpecial) :
    ∃ t v, issueVec c (.special fn half vd va) s = .next t
      ∧ (if half then ∀ l < 64, lane16 v l = specialBf16 (specialNum fn) (lane16 (k.vreg va) l)
         else ∀ l < 32, lane v l = specialFp32 (specialNum fn) (lane (k.vreg va) l))
      ∧ s.onlyCore t c (s.issued c
          (k.vectorResult (s.point c) pipeSpecial (if half then 4 else 2) (specialLat fn) vd (hasNan half v) v) .seq) := by
  subst hk
  cases half with
  | false => exact issueBundle_lanes h rfl hp (view := .full) rfl fun _ _ => rfl
  | true => exact issueBundle_lanes16 h rfl hp (view := .half) rfl fun _ _ => rfl

end Lanes

end Sys2Proof.Machine

open Sys2Proof Sys2Proof.Machine

/-- Settles O8: every form is one operation per lane on the arithmetic pipe; a BF16 form with a field that it does not use set
faults. -/
theorem floatLaneResults : Obligations.FloatLaneResults := by
  refine ⟨fun c r s h hp => ?_, fun c op r s h hp => ?_⟩
  · intro k a b d result
    have hk : (s.found c).core c = k := s.core_found c
    have fields (hvc : r.vc = 0) : (r.vc == 0) = true := beq_iff_eq.mpr hvc
    refine ⟨issueVec_fp32 h hk hp .fma r rfl fun _ => rfl, issueVec_fp32 h hk hp .sel r rfl fun _ => rfl, fun hvc =>
      ⟨issueVec_fp32 h hk hp .add r (fields hvc) fun _ => rfl, issueVec_fp32 h hk hp .sub r (fields hvc) fun _ => rfl,
        issueVec_fp32 h hk hp .mul r (fields hvc) fun _ => rfl, issueVec_fp32 h hk hp .min r (fields hvc) fun _ => rfl,
        issueVec_fp32 h hk hp .max r (fields hvc) fun _ => rfl, issueVec_fp32 h hk hp .ceq r (fields hvc) fun _ => rfl,
        issueVec_fp32 h hk hp .clt r (fields hvc) fun _ => rfl,
        issueVec_fp32 h hk hp .cle r (fields hvc) fun _ => fpLane_cle ..⟩,
      issueVec_fp32 h hk hp .abs ⟨r.vd, r.va, 0, 0, false⟩ rfl fun _ => rfl,
      issueVec_fp32 h hk hp .neg ⟨r.vd, r.va, 0, 0, false⟩ rfl fun _ => rfl⟩
  · intro k a b d
    have hk : (s.found c).core c = k := s.core_found c
    split
    case isTrue hok =>
      rw [← fpLat_eq]
      exact issueVec_bf16 h hk hp op r hok
    case isFalse hok =>
      refine issueBundle_badVec (i := .fp op true r) h hk hp ?_
      rw [← hk]
      exact if_neg hok

/-- Settles O9: every form is one operation per lane on the arithmetic pipe; VEXT alone writes a scalar register. -/
theorem integerAndMoveResults : Obligations.IntegerAndMoveResults := by
  refine ⟨fun c r s h hp hvc => ?_, fun c vd va vb ln s h hp => ?_⟩
  · intro k a b
    have hk : (s.found c).core c = k := s.core_found c
    simp only [List.forall_mem_cons, List.not_mem_nil, false_implies, implies_true, and_true]
    refine ⟨issueVec_int h hk hp .add r hvc fun _ => rfl, issueVec_int h hk hp .sub r hvc fun _ => rfl,
      issueVec_int h hk hp .and r hvc fun _ => rfl, issueVec_int h hk hp .or r hvc fun _ => rfl,
      issueVec_int h hk hp .xor r hvc fun _ => rfl, issueVec_int h hk hp .shl r hvc fun _ => rfl,
      issueVec_int h hk hp .shr r hvc fun _ => rfl, issueVec_int h hk hp .sra r hvc fun _ => rfl,
      issueVec_int h hk hp .ceq r hvc fun l => ?_, issueVec_int h hk hp .clt r hvc fun l => ?_⟩
    · simp only [intLane, beq_iff_eq, a, b]
    · simp only [intLane, BitVec.slt, decide_eq_true_eq, a, b]
  · intro k a result
    have hk : (s.found c).core c = k := s.core_found c
    clear_value k
    subst hk
    refine ⟨?cvtif, ?cvtfi, ?unpkl, ?unpkh, ?bcst, ?ins, ?mov, ?packh, ?ext⟩
    case cvtif => exact issueBundle_lanes (view := .full) h rfl hp rfl fun _ _ => rfl
    case cvtfi => exact issueBundle_lanes (view := .none) h rfl hp rfl fun _ _ => rfl
    case unpkl => exact issueBundle_lanes (view := .full) h rfl hp rfl fun _ _ => rfl
    case unpkh => exact issueBundle_lanes (view := .full) h rfl hp rfl fun _ _ => rfl
    case bcst => exact issueBundle_lanes (view := .full) h rfl hp rfl fun _ _ => rfl
    case ins => exact issueBundle_lanes (view := .full) h rfl hp rfl fun _ _ => rfl
    case mov =>
      obtain ⟨t, hb, ht⟩ := issueBundle_vecOut (i := .vmov vd va) (view := .full) h rfl hp rfl
      exact ⟨t, _, hb, fun _ _ => rfl, ht⟩
    case packh =>
      obtain ⟨t, v, hb, hv, ht⟩ := issueBundle_lanes16 (i := .vpackh vd va vb) (view := .half) h rfl hp rfl fun _ _ => rfl
      refine ⟨t, v, hb, fun l hl => ⟨?_, ?_⟩, ht⟩
      · rw [hv l (by omega), if_pos hl, State.point_c]
      · rw [hv (32 + l) (by omega), if_neg (by omega), Nat.add_sub_cancel_left, State.point_c]
    case ext =>
      exact issueBundle_modCore (i := .vext vd va ln)
        (g := fun k => k.putS (s.point c) 2 3 vd ((a ln.toNat).setWidth 64)) h rfl hp rfl

/-- Settles O10: every special function is one function per lane on its own pipe. -/
theorem specialFunctionResults : Obligations.SpecialFunctionResults := by
  intro c half vd va s h hp k
  have hk : (s.found c).core c = k := s.core_found c
  simp only [List.forall_mem_cons, List.not_mem_nil, false_implies, implies_true, and_true]
  exact ⟨issueVec_special h hk .exp half vd va hp, issueVec_special h hk .log half vd va hp,
    issueVec_special h hk .rsqrt half vd va hp, issueVec_special h hk .rcp half vd va hp,
    issueVec_special h hk .sig half vd va hp, issueVec_special h hk .silu half vd va hp,
    issueVec_special h hk .tanh half vd va hp⟩

end

section
/-! PROOF. Vector and tile loads and stores, transposes and pairs of rows or columns (R163, R165), reductions (R166 to R169) and
random words (R171). -/

namespace Sys2Proof.Machine

open Decode

/-! ## Reductions (R166, R169) -/

/-- R166: the core after a feed of `n` elements of register `va` into context `cx`, with the indices `ix` if it has them. -/
def Core.fed (k k1 : Core) (cx : BitVec 2) (va : RegIx) (n : Nat) (ix : Option (List W32)) : Core :=
  { k1.setCtx cx ((k.ctxAt cx).feed ((List.range n).map fun l => lane (k.vreg va) l) ix) with
      cb := { k1.cb with vecFeeds := bumpBy n k1.cb.vecFeeds } }

/-- R166: a feed of an active context that does not overrun its count, without indices if it is a sum. -/
theorem feedPlan_eq (k : Core) (x : At) (cx : BitVec 2) (va : RegIx) (nm1 : BitVec 5) (ixs : Option RegIx)
    (hactive : (k.ctxAt cx).active = true) (hsum : ixs.isSome = true → (k.ctxAt cx).mode ≠ .sum)
    (hcount : (k.ctxAt cx).count + nm1.toNat + 1 < 2 ^ 32) :
    feedPlan k x va cx nm1 ixs
      = onPipe k x pipeRed (if ixs.isSome || (k.ctxAt cx).mode == .topk then 2 else 1) 1 [] fun s => s.modCore x.c fun k1 =>
          k.fed k1 cx va (nm1.toNat + 1) (ixs.map fun vb => (List.range (nm1.toNat + 1)).map fun l => lane (k.vreg vb) l) := by
  have hmode : (ixs.isSome && (k.ctxAt cx).mode == .sum) = false := by
    rw [Bool.and_eq_false_imp]
    exact fun hi => beq_eq_false_iff_ne.mpr (hsum hi)
  have hroom : ¬(k.ctxAt cx).count + (nm1.toNat + 1) > 2 ^ 32 - 1 := by omega
  unfold feedPlan
  simp only [hactive, hmode, Bool.not_true, Bool.or_false, Bool.false_eq_true, if_false, if_neg hroom]
  rfl

/-- R169: the view in which VEC_NANOUT looks at a part; counts, flags and indices are bits only. -/
def RedCtx.partView (r : RedCtx) (part : Nat) : NanView := if part = 4 ∨ (r.mode = .topk ∧ 2 ≤ part) then .none else .full

theorem RedCtx.partView_counts (r : RedCtx) (part : BitVec 3) (v : BitVec 1024) :
    (r.partView part.toNat).counts v = (hasNan false v && !(part == 4#3 || (r.mode == .topk && decide (2 ≤ part.toNat)))) := by
  have hpart : (part == 4#3) = decide (part.toNat = 4) := by
    rw [Bool.eq_iff_iff, beq_iff_eq, decide_eq_true_eq, ← BitVec.toNat_inj]; rfl
  have hmode : (r.mode == .topk) = decide (r.mode = .topk) := rfl
  have hvalue : (part == 4#3 || (r.mode == .topk && decide (2 ≤ part.toNat)))
      = decide (part.toNat = 4 ∨ (r.mode = .topk ∧ 2 ≤ part.toNat)) := by
    rw [hpart, hmode, Bool.decide_or, Bool.decide_and]
  rw [hvalue, RedCtx.partView]
  split
  case isTrue hnone => rw [decide_eq_true hnone, Bool.not_true, Bool.and_false]; rfl
  case isFalse hfull => rw [decide_eq_false hfull, Bool.not_false, Bool.and_true]; rfl

theorem rgetPlan_eq (k : Core) (x : At) (vd : RegIx) (cx : BitVec 2) (part : BitVec 3) (hactive : (k.ctxAt cx).active = true)
    (hpart : part.toNat ≤ 4) (hok : (k.ctxAt cx).partOk part.toNat = true) :
    rgetPlan k x vd cx part = onPipe k x pipeRed 1 (if (k.ctxAt cx).mode = .sum ∧ part.toNat = 0 then 10 else 6) []
      (vecOut x (if (k.ctxAt cx).mode = .sum ∧ part.toNat = 0 then 10 else 6) vd ((k.ctxAt cx).partView part.toNat)
        (lanesOf ((k.ctxAt cx).partLane part.toNat))) := by
  unfold rgetPlan
  simp only [hactive, hok, Bool.not_true, Bool.false_eq_true, if_false, if_neg (Nat.not_lt.mpr hpart)]
  rfl

section Forms

variable {c : CoreId} {s : State} {k : Core}
variable (h : canIssue c s) (hk : (s.found c).core c = k)
include h hk

/-! ## Loads and stores (R163) -/

section Memory

variable (hp : s.pipeFree c pipeMem) {va : RegIx} {off : BitVec 20} {a : Nat} (ha : a = k.addr va off)
include hp ha

theorem issueVec_vld (vd : RegIx) (halign : a % 4 = 0) (hwin : a + 128 ≤ 2 ^ 20) (hs : s.calm c = true) {load : List SbEntry}
    (hload : load = [spRange .read a 128 (.atCc ((s.point c).now + 6 - 2 + (memInterval a 128 - 1)))])
    (hr : k.takes load) (hpoison : s.spPoison? c a 128 = none) :
    ∃ t v, issueVec c (.vld false vd va off) s = .next t ∧ v = BitVec.ofNat 1024 (s.spRd c a 128)
      ∧ s.onlyCore t c (s.issued c
        ((k.place load).vectorResult (s.point c) pipeMem (memInterval a 128) 6 vd (hasNan false v) v) .seq) := by
  subst ha hk hload
  obtain ⟨s1, hs1, hb⟩ := issueBundle_vecLoad (i := .vld false vd va off) h rfl hp halign hwin (bit_memInterval ..) rfl hs hr
    hpoison
  exact ⟨_, _, hb, congrArg (BitVec.ofNat 1024) (State.spRd_onlyCore hs1 ..),
    State.onlyCore_vecOut (view := .full) (s.point_c c) hs1 fun k => s.issued c k .seq⟩

theorem issueVec_vldh (vd : RegIx) (halign : a % 2 = 0) (hwin : a + 64 ≤ 2 ^ 20) (hs : s.calm c = true) {load : List SbEntry}
    (hload : load = [spRange .read a 64 (.atCc ((s.point c).now + 6 - 2 + (memInterval a 64 - 1)))])
    (hr : k.takes load) (hpoison : s.spPoison? c a 64 = none) :
    ∃ t v, issueVec c (.vld true vd va off) s = .next t
      ∧ (∀ l < 32, lane v l = unbf (BitVec.ofNat 16 (s.spRd c (a + 2 * l) 2)))
      ∧ s.onlyCore t c (s.issued c
        ((k.place load).vectorResult (s.point c) pipeMem (memInterval a 64) 6 vd (hasNan false v) v) .seq) := by
  subst ha hk hload
  obtain ⟨s1, hs1, hb⟩ := issueBundle_vecLoad (i := .vld true vd va off) h rfl hp halign hwin (bit_memInterval ..) rfl hs hr
    hpoison
  refine ⟨_, _, hb, fun l hl => ?_, State.onlyCore_vecOut (view := .full) (s.point_c c) hs1 fun k => s.issued c k .seq⟩
  rw [lane_lanesOf _ hl, State.fld_spRd _ _ _ (by omega), State.spRd_onlyCore hs1]
  rfl

theorem issueVec_mld (tm : BitVec 2) (halign : a % 4 = 0) (hwin : a + 1024 ≤ 2 ^ 20) (hs : s.calm c = true)
    {load : List SbEntry} (hload : load = [spRange .read a 1024 (.atCc ((s.point c).now + 12 - 2 + 0))])
    (hr : k.takes load) (hpoison : s.spPoison? c a 1024 = none) :
    ∃ t, issueVec c (.mld tm va off) s = .next t ∧ s.onlyCore t c (s.issued c
      (((k.place load).usePipe (s.point c) pipeMem 8 12).putM (s.point c) 12 tm allElems (BitVec.ofNat 8192 (s.spRd c a 1024)))
        .seq) := by
  subst ha hk hload
  obtain ⟨s1, hs1, hb⟩ := issueBundle_vecLoad (i := .mld tm va off) h rfl hp halign hwin rfl rfl hs hr hpoison
  rw [← State.spRd_onlyCore hs1]
  exact ⟨_, hb, State.onlyCore_modCore (State.onlyCore_modCore hs1 _) fun k => s.issued c k .seq⟩

theorem issueVec_vst (vb : RegIx) (halign : a % 4 = 0) (hwin : a + 128 ≤ 2 ^ 20) {store : List SbEntry}
    (hstore : store = [spRange .write a 128 (.atCc ((s.point c).now + 4 + (memInterval a 128 - 1)))]) (hr : k.takes store) :
    ∃ t, issueVec c (.vst false va vb off) s = .next t ∧ s.coreAndBytes t c
      (s.issued c ((k.place store).usePipe (s.point c) pipeMem (memInterval a 128) 4) .seq) (spKey c a)
      (leBytes 128 (k.vreg vb).toNat) := by
  subst ha hk hstore
  exact issueBundle_vecStore h rfl hp halign hwin (bit_memInterval ..) rfl hr

theorem issueVec_vsth (vb : RegIx) (halign : a % 2 = 0) (hwin : a + 64 ≤ 2 ^ 20) {store : List SbEntry}
    (hstore : store = [spRange .write a 64 (.atCc ((s.point c).now + 4 + (memInterval a 64 - 1)))]) (hr : k.takes store) :
    ∃ t bs, issueVec c (.vst true va vb off) s = .next t ∧ bs.length = 64
      ∧ (∀ l < 32, bs.getD (2 * l) 0 = (bf (lane (k.vreg vb) l)).extractLsb' 0 8
          ∧ bs.getD (2 * l + 1) 0 = (bf (lane (k.vreg vb) l)).extractLsb' 8 8)
      ∧ s.coreAndBytes t c (s.issued c ((k.place store).usePipe (s.point c) pipeMem (memInterval a 64) 4) .seq)
          (spKey c a) bs := by
  subst ha hk hstore
  obtain ⟨t, hb, ht⟩ := issueBundle_vecStore (i := .vst true va vb off) h rfl hp halign hwin (bit_memInterval ..) rfl hr
  exact ⟨t, _, hb, leBytes_length .., fun l hl => ⟨leBytes_packFields16 _ hl (j := 0) (by decide),
    leBytes_packFields16 _ hl (j := 1) (by decide)⟩, ht⟩

theorem issueVec_mst (tm : BitVec 2) (halign : a % 4 = 0) (hwin : a + 1024 ≤ 2 ^ 20) {store : List SbEntry}
    (hstore : store = [spRange .write a 1024 (.atCc ((s.point c).now + 8 + 0))]) (hr : k.takes store) :
    ∃ t, issueVec c (.mst tm va off) s = .next t ∧ s.coreAndBytes t c
      (s.issued c ((k.place store).usePipe (s.point c) pipeMem 8 8) .seq) (spKey c a) (leBytes 1024 (k.mreg tm).toNat) := by
  subst ha hk hstore
  exact issueBundle_vecStore (i := .mst tm va off) (lat := 8) (iv := 8) (extra := 0) h rfl hp halign hwin rfl rfl hr

end Memory

/-! ## Tiles (R165) -/

/-- An instruction whose result is a tile's elements in a mask: `mine` says which, and `f` what they become. -/
theorem issueBundle_putM {i : VecInstr} {p iv lat : Nat} {tm : BitVec 2} {mask : BitVec 256} {w : BitVec 8192}
    {mine : Nat → Nat → Bool} {f : Nat → Nat → W32} (hp : s.pipeFree c p)
    (hplan : vecSlot (s.found c) (s.point c) i
      = onPipe k (s.point c) p iv lat [] fun s1 => s1.modCore c fun k => k.putM (s.point c) lat tm mask w)
    (hmask : ∀ r < 16, ∀ j < 16, mask.getLsbD (16 * r + j) = mine r j) (hw : ∀ r < 16, ∀ j < 16, tileElem w r j = f r j) :
    ∃ t mask w, issueVec c i s = .next t
      ∧ (∀ r < 16, ∀ j < 16, mask.getLsbD (16 * r + j) = mine r j ∧ (mine r j = true → tileElem w r j = f r j))
      ∧ s.onlyCore t c (s.issued c ((k.usePipe (s.point c) p iv lat).putM (s.point c) lat tm mask w) .seq) := by
  obtain ⟨t, hb, ht⟩ := issueBundle_modCore h hk hp hplan
  exact ⟨t, mask, w, hb, fun r hr j hj => ⟨hmask r hr j hj, fun _ => hw r hr j hj⟩, ht⟩

/-! ## A part of a context (R169) -/

theorem issueVec_rget (hp : s.pipeFree c pipeRed) (vd : RegIx) (cx : BitVec 2) (part : BitVec 3)
    (hactive : (k.ctxAt cx).active = true) (hpart : part.toNat ≤ 4)
    (hok : (k.ctxAt cx).partOk part.toNat = true) :
    ∃ t v, issueVec c (.rget vd cx part) s = .next t ∧ (∀ l < 32, lane v l = (k.ctxAt cx).partLane part.toNat l)
      ∧ s.onlyCore t c (s.issued c (k.vectorResult (s.point c) pipeRed 1
          (if (k.ctxAt cx).mode = .sum ∧ part = 0 then 10 else 6) vd
          (hasNan false v && !(part == 4#3 || ((k.ctxAt cx).mode == .topk && decide (2 ≤ part.toNat)))) v) .seq) := by
  subst hk
  have hzero : part = 0 ↔ part.toNat = 0 := BitVec.toNat_inj.symm
  obtain ⟨t, v, hb, hv, ht⟩ := issueBundle_lanes (i := .rget vd cx part) h rfl hp
    (rgetPlan_eq _ (s.point c) vd cx part hactive hpart hok) fun _ _ => rfl
  rw [RedCtx.partView_counts] at ht
  simp only [hzero]
  exact ⟨t, v, hb, hv, ht⟩

end Forms

end Sys2Proof.Machine

open Sys2Proof Sys2Proof.Machine

/-- Settles O11: loads and stores on the memory pipe, tile forms on the tile pipe. -/
theorem vectorMemoryAndTiles : Obligations.VectorMemoryAndTiles := by
  refine ⟨fun c vd va vb tm off s h hp => ?_, fun c vd va tm ix s h hp => ?_⟩
  · intro k x a iv rd wr
    have hk : (s.found c).core c = k := s.core_found c
    refine ⟨fun halign hwin => ⟨fun hs hr hpoison => ?_, fun hr => ?_⟩,
      fun halign hwin => ⟨fun hs hr hpoison => ?_, fun hr => ?_⟩,
      fun halign hwin => ⟨fun hs hr hpoison => ?_, fun hr => ?_⟩⟩
    · exact issueVec_vld h hk hp rfl vd halign hwin hs rfl hr hpoison
    · exact issueVec_vst h hk hp rfl vb halign hwin rfl hr
    · exact issueVec_vldh h hk hp rfl vd halign hwin hs rfl hr hpoison
    · exact issueVec_vsth h hk hp rfl vb halign hwin rfl hr
    · exact issueVec_mld h hk hp rfl tm halign hwin hs rfl hr hpoison
    · exact issueVec_mst h hk hp rfl tm halign hwin rfl hr
  · intro k x get put
    have hk : (s.found c).core c = k := s.core_found c
    clear_value k
    subst hk
    refine ⟨issueBundle_putM (i := .mtr tm) (mask := allElems)
        (w := tileOf fun e => tileElem (((s.found c).core c).mreg tm) (e % 16) (e / 16)) h rfl hp rfl
        (fun r hr j hj => getLsbD_allElems hr hj) fun r hr j hj => ?_, fun hix => ⟨?_, ?_, ?_, ?_⟩⟩
    · rw [tileElem_tileOf _ hr hj, elem_row hj, elem_col hj]
    · exact issueBundle_lanes (i := .mget false vd tm ix) (view := .full) h rfl hp (if_pos hix) fun _ _ => rfl
    · exact issueBundle_lanes (i := .mget true vd tm ix) (view := .full) h rfl hp (if_pos hix) fun _ _ => rfl
    · exact issueBundle_putM (i := .mput false va tm ix) h rfl hp (if_pos hix)
        (fun r hr j hj => getLsbD_pairMask false _ hr hj) fun r hr j hj => tileElem_pairTile _ false _ hr hj
    · exact issueBundle_putM (i := .mput true va tm ix) h rfl hp (if_pos hix)
        (fun r hr j hj => getLsbD_pairMask true _ hr hj) fun r hr j hj => tileElem_pairTile _ true _ hr hj

/-- Settles O12: reductions on the reduction pipe, random words on their own. -/
theorem reductionAndRandomResults : Obligations.ReductionAndRandomResults := by
  intro c vd va vb vc cx mode km1 nm1 part s h hred hrand k x ctx fed feeds
  have hk : (s.found c).core c = k := s.core_found c
  clear_value k
  subst hk
  refine ⟨fun hmode => ?_, fun hactive hcount => ⟨?_, fun hsum => ?_⟩, fun hactive hpart hok => ?_, ?_⟩
  · exact issueBundle_modCore (g := fun k => k.setCtx cx _) h rfl hred (if_pos hmode)
  · have hplan := feedPlan_eq ((s.found c).core c) x cx va nm1 none hactive (fun hi => nomatch hi) hcount
    simp only [Option.isSome_none, Bool.false_or, beq_iff_eq] at hplan
    exact issueBundle_modCore (i := .rfeed va cx nm1) h rfl hred hplan
  · have hplan := feedPlan_eq ((s.found c).core c) x cx va nm1 (some vb) hactive (fun _ => hsum) hcount
    exact issueBundle_modCore (i := .rfeedx va vb cx nm1) h rfl hred hplan
  · exact issueVec_rget h rfl hred vd cx part hactive hpart hok
  · exact issueBundle_lanes (i := .vrnd vd va vb vc) (view := .none) h rfl hrand rfl fun _ _ => rfl

end

section
/-! PROOF. Traffic generators, channel service bits and berth pool counts: what a run leaves alone outside memory, what its start
and its end do to the generator's registers, and the bits that a service write sets. -/

namespace Sys2Proof.Machine

/-! ## What alone differs outside memory -/

/-- The state with its memory, the marks on it and the count of draws blanked: what a write of memory leaves as it is. -/
def State.exceptMem (s : State) : State := { s with free := 0, mem := [], poison := [], flips := [] }

theorem State.ms_of_exceptMem {s t : State} (h : t.exceptMem = s.exceptMem) : t.ms = s.ms :=
  (congrArg State.ms h : t.exceptMem.ms = s.exceptMem.ms)

theorem State.cores_of_exceptMem {s t : State} (h : t.exceptMem = s.exceptMem) : t.cores = s.cores :=
  (congrArg State.cores h : t.exceptMem.cores = s.exceptMem.cores)

theorem foldl_keeps {α β γ : Type} (p : β → γ) {f : β → α → β} (h : ∀ b a, p (f b a) = p b) (l : List α) (b : β) :
    p (l.foldl f b) = p b := by
  induction l generalizing b with
  | nil => rfl
  | cons a l ih => exact (ih _).trans (h b a)

@[simp] theorem State.exceptMem_wrWords (s : State) (key : Nat) (ws : List MWord) :
    (s.wrWords key ws).1.exceptMem = s.exceptMem := by
  induction ws generalizing s key with
  | nil => rfl
  | cons w r ih =>
    refine (ih _ _).trans ?_
    split <;> rfl

/-! ## A run (R323, R324) -/

theorem State.exceptMem_visit (s : State) (ch : ChannelId) (n : Nat) (v : Nat × Visit) (g : Tgc) :
    (s.visit ch n v g).1.exceptMem = s.exceptMem := by
  obtain ⟨page, kind⟩ := v
  cases kind with
  | write => exact s.exceptMem_wrWords _ _
  | compare => rfl
  | read => rfl

theorem exceptMem_runVisits (ch : ChannelId) (vs : List (Nat × Visit)) (q : State × Tgc) :
    (runVisits ch vs q).1.exceptMem = q.1.exceptMem := by
  induction vs generalizing q with
  | nil => rfl
  | cons v r ih =>
    unfold runVisits
    split
    · rfl
    · exact (ih _).trans (State.exceptMem_visit ..)

theorem exceptMem_runPasses (ch : ChannelId) (vs : List (Nat × Visit)) (n : Nat) (q : State × Tgc) :
    (runPasses ch vs n q).1.exceptMem = q.1.exceptMem := by
  induction n generalizing q with
  | zero => rfl
  | succ n ih =>
    unfold runPasses
    split
    · rfl
    · refine (ih _).trans ?_
      split <;> exact exceptMem_runVisits ch vs q

theorem exceptMem_runBursts (ch : ChannelId) (vs : List (Nat × Visit)) (k : Nat) (q : State × Tgc) :
    (runBursts ch vs k q).1.exceptMem = q.1.exceptMem := by
  have hpages : (runVisits ch (vs.take (k / 128)) q).1.exceptMem = q.1.exceptMem := exceptMem_runVisits ..
  unfold runBursts
  split
  · dsimp only
    split
    · exact hpages
    · exact (State.exceptMem_visit ..).trans hpages
  · exact hpages

theorem State.exceptMem_tgcRun (s : State) (ch : ChannelId) (g : Tgc) : (s.tgcRun ch g).1.exceptMem = s.exceptMem := by
  unfold State.tgcRun
  split
  · exact (exceptMem_runBursts ..).trans (exceptMem_runPasses ..)
  · exact exceptMem_runPasses ..

/-! ## Start, stop and end -/

theorem State.tgc_congr {s t : State} (h : t.ms.tgcs = s.ms.tgcs) : t.tgc = s.tgc :=
  funext fun _ => by rw [State.tgc, h]; rfl

/-- A generator's registers as a run starts (R323). -/
def Tgc.started (g : Tgc) : Tgc :=
  { g with passes := 0, err := false, done := false, busy := true, refused := false, errs := 0, firstA := 0, firstX := 0,
           firstG := 0, bytes := 0, memcc := 0, stopReq := false }

theorem State.tgcGo_cases (s : State) (ch : ChannelId) : s.tgcGo ch
    = if (s.tgc ch).busy = true then s
      else if s.tgcRefused ch (s.tgc ch) = true then s.setTgc ch { s.tgc ch with refused := true, done := true }
      else s.setTgc ch (s.tgc ch).started := rfl

theorem State.tgcStop_busy {s : State} {ch : ChannelId} (h : (s.tgc ch).busy = true) :
    s.tgcStop ch = s.setTgc ch { s.tgc ch with stopReq := true } := if_pos h

theorem State.tgcTicket_frame (s : State) (ch : ChannelId) (result : W64) :
    (s.tgcTicket ch result).ms = s.ms ∧ (s.tgcTicket ch result).cores = s.cores := by
  unfold State.tgcTicket
  split <;> exact ⟨rfl, rfl⟩

/-- R324: a run that has an end, or was stopped, ends: its registers say so, and its channel leaves service if its bit was written. -/
theorem State.tgcRunEnd_ends (s : State) (ch : ChannelId) (cc : Nat) (hbusy : (s.tgc ch).busy = true)
    (hend : (s.tgc ch).loops ≠ 0 ∨ (s.tgc ch).stopReq = true) :
    ∃ g : Tgc, g.busy = false ∧ g.done = true ∧ g.memcc = bumpBy cc 0 ∧ (s.tgcRunEnd ch cc).cores = s.cores
      ∧ (s.tgcRunEnd ch cc).tgc = (s.setTgc ch g).tgc
      ∧ (s.tgcRunEnd ch cc).ms.chsvc
          = if (s.tgc ch).svcReq = true then s.ms.chsvc ||| BitVec.ofNat 256 (2 ^ ch.val) else s.ms.chsvc := by
  have hrun := s.exceptMem_tgcRun ch (s.tgc ch)
  have hms := State.ms_of_exceptMem hrun
  have hcores := State.cores_of_exceptMem hrun
  have hgo : ((s.tgc ch).loops == 0 && !(s.tgc ch).stopReq
      && !((s.tgc ch).stopErr && (s.tgcRun ch (s.tgc ch)).2.err)) = false := by
    rcases hend with h | h
    · rw [beq_eq_false_iff_ne.mpr h]; rfl
    · rw [h, Bool.not_true, Bool.and_false]; rfl
  refine ⟨{ (s.tgcRun ch (s.tgc ch)).2 with
    busy := false, done := true, memcc := bumpBy cc 0, stopReq := false, svcReq := false }, rfl, rfl, rfl, ?_⟩
  simp only [State.tgcRunEnd, hbusy, hgo, Bool.not_true, Bool.false_eq_true, if_false]
  split <;> refine ⟨?_, State.tgc_congr ?_, ?_⟩ <;> simp only [State.tgcTicket_frame, State.setTgc, hms, hcores]

/-! ## Service bits (R322) -/

theorem getLsbD_two_pow (c : Nat) {d : Nat} (hd : d < 256) : (BitVec.ofNat 256 (2 ^ c)).getLsbD d = decide (c = d) := by
  rw [BitVec.getLsbD_ofNat, Nat.testBit_two_pow]
  simp [hd]

theorem getLsbD_or_two_pow (x : BitVec 256) (c : Nat) {d : Nat} (hd : d < 256) :
    (x ||| BitVec.ofNat 256 (2 ^ c)).getLsbD d = (x.getLsbD d || decide (c = d)) := by
  rw [BitVec.getLsbD_or, getLsbD_two_pow c hd]

theorem getLsbD_and_not_two_pow (x : BitVec 256) (c : Nat) {d : Nat} (hd : d < 256) :
    (x &&& ~~~BitVec.ofNat 256 (2 ^ c)).getLsbD d = (x.getLsbD d && !decide (c = d)) := by
  rw [BitVec.getLsbD_and, BitVec.getLsbD_not, getLsbD_two_pow c hd, decide_eq_true hd, Bool.true_and]

/-- The state with other service bits. -/
def State.withService (s : State) (x : BitVec 256) : State := { s with ms := { s.ms with chsvc := x } }

/-- The service bits after bits 0 to n − 1 of a write of word `i` of MEM_CHSVC. -/
def serviceBits (i : BitVec 2) (v : W64) (x : BitVec 256) (n : Nat) : BitVec 256 :=
  (List.range n).foldl (fun x j =>
    let one := BitVec.ofNat 256 (2 ^ (Fin.ofNat 256 (64 * i.toNat + j)).val)
    if v.getLsbD j then x ||| one else x &&& ~~~one) x

theorem State.chsvcWrite_idle {s : State} (h : ∀ d : ChannelId, (s.tgc d).busy = false ∧ (s.tgc d).svcReq = false)
    (i : BitVec 2) (v : W64) : s.chsvcWrite i v = s.withService (serviceBits i v s.ms.chsvc 64) := by
  refine List.foldl_hom s.withService (init := s.ms.chsvc) fun x j => ?_
  have hidle : ∀ d, ((s.withService x).tgc d).busy = false ∧ ((s.withService x).tgc d).svcReq = false := h
  simp only [tb_toNat, hidle, Bool.false_eq_true, if_false]
  split <;> rfl

theorem getLsbD_serviceBits (i : BitVec 2) (v : W64) (x : BitVec 256) {n : Nat} (hn : n ≤ 64) (d : ChannelId) :
    (serviceBits i v x n).getLsbD d.val
      = if d.val / 64 = i.toNat ∧ d.val % 64 < n then v.getLsbD (d.val % 64) else x.getLsbD d.val := by
  have hd : d.val < 256 := d.isLt
  have hi : i.toNat < 4 := i.isLt
  induction n with
  | zero => simp [serviceBits]
  | succ n ih =>
    have hc : (Fin.ofNat 256 (64 * i.toNat + n)).val = 64 * i.toNat + n := Nat.mod_eq_of_lt (by omega)
    have hstep : serviceBits i v x (n + 1) = if v.getLsbD n then serviceBits i v x n ||| BitVec.ofNat 256 (2 ^ (64 * i.toNat + n))
        else serviceBits i v x n &&& ~~~BitVec.ofNat 256 (2 ^ (64 * i.toNat + n)) := by
      rw [serviceBits, List.range_succ, List.foldl_append, ← hc]; rfl
    have hbit : (serviceBits i v x (n + 1)).getLsbD d.val
        = if 64 * i.toNat + n = d.val then v.getLsbD n else (serviceBits i v x n).getLsbD d.val := by
      rw [hstep]
      cases v.getLsbD n with
      | true =>
        rw [if_pos rfl, getLsbD_or_two_pow _ _ hd]
        split <;> simp only [*, decide_true, decide_false, Bool.or_true, Bool.or_false]
      | false =>
        rw [if_neg Bool.false_ne_true, getLsbD_and_not_two_pow _ _ hd]
        split <;> simp only [*, decide_true, decide_false, Bool.not_true, Bool.not_false, Bool.and_true, Bool.and_false]
    rw [hbit, ih (by omega)]
    by_cases he : 64 * i.toNat + n = d.val
    · rw [if_pos he, if_pos (by omega), show d.val % 64 = n by omega]
    · rw [if_neg he]
      exact ite_congr (propext (by omega)) (fun _ => rfl) (fun _ => rfl)

end Sys2Proof.Machine

open Sys2Proof Sys2Proof.Machine

/-- Settles O31: starts and stops by the cases of the generator's start, an end by what a run leaves outside memory, a service
write bit by bit. -/
theorem trafficGeneratorsAndPools : Obligations.TrafficGeneratorsAndPools := by
  intro ch cc i v anch n s hup g
  have hgo : exec (.tgcGo ch) s = .next (s.tgcGo ch) := s.live_next (fun s => s.tgcGo ch) hup
  rw [s.tgcGo_cases ch] at hgo
  refine ⟨fun hbusy => ?_, fun hidle hrefused => ?_, fun hidle hok => ?_, fun hbusy => ?_, fun hbusy hend => ?_, fun hidle => ?_, ?_⟩
  · rw [hgo, if_pos hbusy]
  · rw [if_neg (ne_true_of_eq_false hidle), if_pos hrefused] at hgo
    exact ⟨_, hgo, rfl, State.tgc_setTgc ..⟩
  · rw [if_neg (ne_true_of_eq_false hidle), if_neg (ne_true_of_eq_false hok)] at hgo
    refine ⟨_, hgo, rfl, ?_⟩
    rw [State.tgc_setTgc]
    exact ⟨rfl, rfl, rfl, rfl, rfl, rfl, rfl, rfl, fun d hd => State.tgc_setTgc_other _ _ _ _ hd⟩
  · exact ⟨_, congrArg Host.Outcome.next (State.tgcStop_busy hbusy), State.tgc_setTgc .., rfl⟩
  · obtain ⟨g', hb, hd, hcc, hcores, htgc, hsvc⟩ := s.tgcRunEnd_ends ch cc hbusy hend
    refine ⟨_, rfl, ?_⟩
    rw [htgc, hsvc, State.tgc_setTgc]
    refine ⟨hb, hd, hcc, ?_, hcores, fun d hne => State.tgc_setTgc_other _ _ _ _ hne⟩
    show _ ↔ _ ∨ (s.tgc ch).svcReq = true
    cases (s.tgc ch).svcReq with
    | true => simp only [if_true, getLsbD_or_two_pow _ _ ch.isLt, decide_true, Bool.or_true, or_true]
    | false => simp only [Bool.false_eq_true, if_false, or_false]
  · refine ⟨_, s.live_next (fun s => s.chsvcWrite i v) hup, ?_⟩
    rw [State.chsvcWrite_idle hidle]
    refine ⟨rfl, fun d => (getLsbD_serviceBits i v s.ms.chsvc (Nat.le_refl _) d).trans
      (ite_congr (propext ?_) (fun _ => rfl) (fun _ => rfl))⟩
    omega
  · exact ⟨_, s.live_next (fun s => s.poolCount anch n) hup, rfl⟩

end

section
/-! PROOF. Lists with one element replaced, and the host's side of the block: what rings, mailboxes and uplink flows leave alone, and
what each of their operations does to the ring or the flow that it names. -/

namespace Sys2Proof.Machine

/-- Commands that leave equal states end alike. -/
theorem next_congr {s t : State} (h : s = t) : (.next s : Host.Outcome State Fault Refusal) = .next t := congrArg _ h

/-! ## The first element of a list that meets a condition -/

theorem find?_updFirst {α : Type} (p : α → Bool) (f : α → α) (l : List α) (h : ∀ x, p x = true → p (f x) = true) :
    (updFirst p f l).find? p = (l.find? p).map f := by
  induction l with
  | nil => rfl
  | cons x r ih =>
    unfold updFirst
    cases hx : p x with
    | true => simp [hx, h x hx]
    | false => simp [hx, ih]

theorem State.req_handle {s : State} {h : W32} {q : Request} (hq : s.req h = some q) : q.handle = h := by
  simpa using List.find?_some hq

theorem State.req_modReq {s : State} {h : W32} {q : Request} {f : Request → Request} (hq : s.req h = some q)
    (hf : ∀ x, (f x).handle = x.handle) : (s.modReq h f).req h = some (f q) := by
  have := find?_updFirst (fun x : Request => x.handle == h) f s.serv.reqs fun x hx => by rwa [hf]
  rw [State.req] at hq
  rw [State.req, State.modReq, this, hq]; rfl

theorem State.ticketOf_modTicket {s : State} {k : W32} {x : Ticket} {g : Ticket → Ticket} (hx : s.ticketOf k = some x)
    (hg : ∀ y, (g y).num = y.num) : (s.modTicket k g).ticketOf k = some (g x) := by
  have := find?_updFirst (fun y : Ticket => y.num == k) g s.host.tickets fun y hy => by rwa [hg]
  rw [State.ticketOf] at hx
  rw [State.ticketOf, State.modTicket, this, hx]; rfl

theorem State.flow_id {s : State} {id : W32} {g : UFlow} (hg : s.flow id = some g) : g.id = id := by
  simpa using List.find?_some hg

theorem State.flow_setFlow {s : State} {g g' : UFlow} (hg : s.flow g'.id = some g) : (s.setFlow g').flow g'.id = some g' := by
  have := find?_updFirst (fun f : UFlow => f.id == g'.id) (fun _ => g') s.fab.flows fun _ _ => beq_self_eq_true _
  rw [State.flow] at hg
  rw [State.flow, State.setFlow, this, hg]; rfl

/-- R415: a running ticket that finishes after its progress has moved ends with the status given. -/
theorem State.ended_finish_progressTo {s : State} {k : W32} {x : Ticket} (hx : s.ticketOf k = some x) (hr : x.st = .running)
    (n : Nat) (st : W16) (result : W64) : ((s.progressTo k n).finish k st result).ended k st result := by
  have hp := State.ticketOf_modTicket (g := fun x => if x.st = .finished then x else { x with progress := max x.progress n }) hx
    fun y => by split <;> rfl
  have hf := State.ticketOf_modTicket (s := s.progressTo k n) hp fun y => show (if y.st = .finished then y else
      { y with st := .finished, status := if y.st = .cancelling then stCancelled else st, result := result,
               progress := if y.unit = 0 ∧ st = stDone ∧ y.st = .running then 10000 else y.progress }).num = y.num by
    split <;> rfl
  exact ⟨_, hf, by simp [hr], by simp [hr], by simp [hr]⟩

/-! ## What alone differs on the host's side and on the links -/

/-- The state with the host's side and the fabric blanked: what work on rings, mailboxes, tickets and flows leaves as it is. -/
def State.exceptLinks (s : State) : State := { s with host := HostIf.reset, fab := Fabric.reset }

theorem State.serv_of_exceptLinks {s t : State} (h : t.exceptLinks = s.exceptLinks) : t.serv = s.serv :=
  (congrArg State.serv h : t.exceptLinks.serv = s.exceptLinks.serv)

theorem State.mem_of_exceptLinks {s t : State} (h : t.exceptLinks = s.exceptLinks) : t.mem = s.mem :=
  (congrArg State.mem h : t.exceptLinks.mem = s.exceptLinks.mem)

theorem State.cores_of_exceptLinks {s t : State} (h : t.exceptLinks = s.exceptLinks) : t.cores = s.cores :=
  (congrArg State.cores h : t.exceptLinks.cores = s.exceptLinks.cores)

@[simp] theorem State.exceptLinks_modFn (s : State) (f : FnId) (g : Func → Func) :
    (s.modFn f g).exceptLinks = s.exceptLinks := rfl

@[simp] theorem State.exceptLinks_interrupt (s : State) (f : FnId) (v : Nat) :
    (s.interrupt f v).exceptLinks = s.exceptLinks := by
  unfold State.interrupt
  split <;> rfl

@[simp] theorem State.exceptLinks_moderate (s : State) (f : FnId) (r : RingId) (n : Nat) :
    (s.moderate f r n).exceptLinks = s.exceptLinks := by
  unfold State.moderate
  dsimp only
  split
  · exact State.exceptLinks_interrupt ..
  · rfl

@[simp] theorem State.exceptLinks_readTries (s : State) (i : Issuer) (e : FetchEnd) :
    (s.readTries i e).exceptLinks = s.exceptLinks := by
  unfold State.readTries
  split <;> rfl

@[simp] theorem State.exceptLinks_answerMbx (s : State) (i : Issuer) (status : W16) (k : W32) (result : List Byte) :
    (s.answerMbx i status k result).exceptLinks = s.exceptLinks := by
  cases i with
  | fn f =>
    unfold State.answerMbx
    dsimp only
    split
    · exact State.exceptLinks_interrupt ..
    · rfl
  | rack => rfl

@[simp] theorem State.exceptLinks_told (s : State) (i : Issuer) (op : W16) (unit : Byte) (total object : Nat) :
    (s.told i op unit total object).2.exceptLinks = s.exceptLinks := State.exceptLinks_answerMbx ..

/-! ## Rings (R401 to R409) -/

theorem State.ring_modRing_other (s : State) (f : FnId) {r q : RingId} (h : q ≠ r) (g : Ring → Ring) :
    (s.modRing f r g).ring f q = s.ring f q := by
  rw [State.ring, State.modRing, State.fn_modFn, Func.ring_setRing_other _ _ _ _ h]; rfl

theorem State.fn_modRing (s : State) (f : FnId) (r : RingId) (g : Ring → Ring) :
    (s.modRing f r g).fn f = (s.fn f).setRing r (g (s.ring f r)) := State.fn_modFn ..

/-- A change of a function that leaves its rings leaves each of them. -/
theorem State.ring_modFn (s : State) (f : FnId) {g : Func → Func} (hg : ∀ x, (g x).rings = x.rings) (q : RingId) :
    (s.modFn f g).ring f q = s.ring f q := by
  rw [State.ring, State.fn_modFn, Func.ring, hg]; rfl

@[simp] theorem State.ring_interrupt (s : State) (f : FnId) (v : Nat) (q : RingId) : (s.interrupt f v).ring f q = s.ring f q := by
  unfold State.interrupt
  split
  · refine State.ring_modFn _ _ ?_ _
    exact fun _ => rfl
  · rfl

theorem State.mem_out_interrupt {s : State} {p : Posted} (h : p ∈ s.host.out) (f : FnId) (v : Nat) :
    p ∈ (s.interrupt f v).host.out := by
  unfold State.interrupt
  split
  · exact h
  · exact List.mem_append_left _ h

theorem State.mem_out_moderate {s : State} {p : Posted} (h : p ∈ s.host.out) (f : FnId) (r : RingId) (n : Nat) :
    p ∈ (s.moderate f r n).host.out := by
  unfold State.moderate
  dsimp only
  split
  · exact State.mem_out_interrupt (s := s.modRing f r _) h f _
  · exact h

@[simp] theorem State.prod_moderate (s : State) (f : FnId) (r : RingId) (n : Nat) :
    ((s.moderate f r n).ring f r).prod = (s.ring f r).prod := by
  unfold State.moderate
  dsimp only
  split <;> simp

theorem State.ring_moderate_other (s : State) (f : FnId) {r q : RingId} (h : q ≠ r) (n : Nat) :
    (s.moderate f r n).ring f q = s.ring f q := by
  unfold State.moderate
  dsimp only
  split
  · rw [State.ring_interrupt, State.ring_modRing_other _ _ h]
  · rw [State.ring_modRing_other _ _ h]

@[simp] theorem State.ring_send (s : State) (p : Posted) (f : FnId) (q : RingId) : (s.send p).ring f q = s.ring f q := rfl

/-- R404: one record goes to the slot at the producer index, then the index to the writeback word. -/
theorem State.pushRecs_one (s : State) (f : FnId) (r : RingId) (x : BitVec 256) :
    s.pushRecs f r [x] = (((s.send (.write f ((s.ring f r).slotAt (s.ring f r).prod) (leBytes 32 x.toNat))).modRing f r fun g =>
      { g with prod := (s.ring f r).prod + 1 }).send (.write f (fld (s.ring f r).wb.toNat 3 61 * 8)
        (leBytes 8 ((s.ring f r).prod + 1).toNat))).moderate f r 1 := by
  have hzero : (s.ring f r).prod + BitVec.ofNat 32 0 = (s.ring f r).prod := BitVec.add_zero _
  simp only [State.pushRecs, List.zipIdx_cons, List.zipIdx_nil, List.foldl_cons, List.foldl_nil, hzero, List.length_singleton]
  rfl

/-- R404: a completion ring takes a record: it goes out to the slot at the producer index, which moves on. -/
theorem State.complete_taken {s : State} {f : FnId} {r : RingId} (x : BitVec 256) (hserves : (s.ring f r).serves 2 = true)
    (hbm : s.mastering f = true) (hkept : (s.ring f r).kept = []) (hroom : 0 < (s.ring f r).room) :
    .write f ((s.ring f r).slotAt (s.ring f r).prod) (leBytes 32 x.toNat) ∈ (s.complete f r x).host.out
      ∧ ((s.complete f r x).ring f r).prod = (s.ring f r).prod + 1
      ∧ (∀ q, q ≠ r → (s.complete f r x).ring f q = s.ring f q) ∧ (s.complete f r x).exceptLinks = s.exceptLinks := by
  have hpush : s.complete f r x = s.pushRecs f r [x] := by
    simp [State.complete, hserves, hbm, hkept, hroom]
  rw [hpush, State.pushRecs_one]
  refine ⟨State.mem_out_moderate ?_ f r 1, ?_, fun q hq => ?_, State.exceptLinks_moderate ..⟩
  · exact List.mem_append_left _ (List.mem_append_right _ (List.mem_singleton.mpr rfl))
  · rw [State.prod_moderate, State.ring_send, State.ring_modRing]
  · rw [State.ring_moderate_other _ _ hq, State.ring_send, State.ring_modRing_other _ _ hq, State.ring_send]

/-! ## Entries of request rings (R402) -/

theorem Ring.advance_next (n : Nat) (g : Ring) : (Ring.advance n g).next = g.next := by
  induction n generalizing g with
  | zero => rfl
  | succ n ih =>
    unfold Ring.advance
    split
    · exact ih _
    · rfl

@[simp] theorem State.next_leave (s : State) (f : FnId) (r : RingId) (ix : W32) :
    ((s.leave f r ix).ring f r).next = (s.ring f r).next := by
  rw [State.leave, State.ring_modRing, Ring.advance_next]

theorem State.ring_leave_other (s : State) (f : FnId) {r q : RingId} (h : q ≠ r) (ix : W32) :
    (s.leave f r ix).ring f q = s.ring f q := State.ring_modRing_other _ _ h _

@[simp] theorem State.ring_takeEntry (s : State) (f : FnId) (r : RingId) (ix : W32) :
    (s.takeEntry f r ix).ring f r = { s.ring f r with next := ix + 1 } := State.ring_modRing ..

theorem State.ring_takeEntry_other (s : State) (f : FnId) {r q : RingId} (h : q ≠ r) (ix : W32) :
    (s.takeEntry f r ix).ring f q = s.ring f q := State.ring_modRing_other _ _ h _

@[simp] theorem State.exceptLinks_takeEntry (s : State) (f : FnId) (r : RingId) (ix : W32) :
    (s.takeEntry f r ix).exceptLinks = s.exceptLinks := rfl

@[simp] theorem State.exceptLinks_leave (s : State) (f : FnId) (r : RingId) (ix : W32) :
    (s.leave f r ix).exceptLinks = s.exceptLinks := rfl

@[simp] theorem State.out_modFn (s : State) (f : FnId) (g : Func → Func) : (s.modFn f g).host.out = s.host.out := rfl

@[simp] theorem State.out_takeEntry (s : State) (f : FnId) (r : RingId) (ix : W32) :
    (s.takeEntry f r ix).host.out = s.host.out := rfl

@[simp] theorem State.out_leave (s : State) (f : FnId) (r : RingId) (ix : W32) :
    (s.leave f r ix).host.out = s.host.out := rfl

/-- An entry is taken and leaves its ring: of the function only the ring changes. -/
theorem State.fn_leave_takeEntry (s : State) (f : FnId) (r : RingId) (ix : W32) :
    ((s.takeEntry f r ix).leave f r ix).fn f = { s.fn f with rings := (((s.takeEntry f r ix).leave f r ix).fn f).rings } := by
  rw [State.leave, State.fn_modRing, State.takeEntry, State.fn_modRing]; rfl

/-! ## Flows (R392) -/

@[simp] theorem State.exceptLinks_sendDatagram (s : State) (typ : Byte) (d : Datagram) :
    (s.sendDatagram typ d).exceptLinks = s.exceptLinks := by
  unfold State.sendDatagram
  split <;> rfl

@[simp] theorem State.flow_sendDatagram (s : State) (typ : Byte) (d : Datagram) (id : W32) :
    (s.sendDatagram typ d).flow id = s.flow id := by
  unfold State.sendDatagram
  split <;> rfl

@[simp] theorem State.exceptLinks_pumpFlow (n : Nat) (id : W32) (s : State) : (s.pumpFlow n id).exceptLinks = s.exceptLinks := by
  induction n generalizing s with
  | zero => rfl
  | succ n ih =>
    unfold State.pumpFlow
    split
    · rfl
    · dsimp only
      split
      · rfl
      · exact (ih _).trans (State.exceptLinks_sendDatagram ..)

@[simp] theorem State.exceptLinks_runFlow (s : State) (id : W32) : (s.runFlow id).exceptLinks = s.exceptLinks := by
  unfold State.runFlow
  split
  · exact State.exceptLinks_pumpFlow ..
  · rfl

/-- A flow whose next datagram has gone out. -/
def UFlow.sent (g : UFlow) : UFlow :=
  { g with nextSeq := g.nextSeq + 1, unacked := g.unacked ++ [g.datagram g.nextSeq false (g.toSend.take 8192)],
           toSend := g.toSend.drop 8192 }

/-- What a flow sends changes neither its peer nor its class. -/
theorem State.flow_pumpFlow {id : W32} (n : Nat) {s : State} {g : UFlow} (hg : s.flow id = some g) :
    ∃ g', (s.pumpFlow n id).flow id = some g' ∧ g'.peer = g.peer ∧ g'.dclass = g.dclass := by
  induction n generalizing s g with
  | zero => exact ⟨g, hg, rfl, rfl⟩
  | succ n ih =>
    obtain rfl := State.flow_id hg
    simp only [State.pumpFlow, hg]
    split
    · exact ⟨g, hg, rfl, rfl⟩
    · exact ih (g := g.sent) ((State.flow_sendDatagram ..).trans (State.flow_setFlow (g' := g.sent) hg))

theorem State.flow_runFlow {s : State} {id : W32} {g : UFlow} (hg : s.flow id = some g) :
    ∃ g', (s.runFlow id).flow id = some g' ∧ g'.peer = g.peer ∧ g'.dclass = g.dclass := by
  rw [State.runFlow, hg]
  exact State.flow_pumpFlow _ hg

end Sys2Proof.Machine

end

section
/-! PROOF. The commands that name a request, a shipment as it is sent, and the next entry of a request ring. -/

namespace Sys2Proof.Machine

/-! ## Commands that name a request (R208 to R210, R345 to R348) -/

/-- R415: a command that works under a ticket, while its issuer has fewer than 16. -/
theorem State.issue_ticket {s : State} {i : Issuer} (h : s.ticketsFull i = false) (op : W16) (unit : Byte) (total object : Nat)
    (go : W32 → State → State) :
    s.issue i op unit total object go = go (s.told i op unit total object).1 (s.told i op unit total object).2 := by
  rw [State.issue_eq, h]; rfl

section
variable {s : State} {i : Issuer} {h : W32} {q : Request}

/-- R411: a command that the mailbox holds is carried out. -/
theorem State.next_command {s : State} {i : Issuer} {op : W16} (h : s.taken i op = true) {f : State → State} {t : State}
    (hf : f s = t) : (.next (s.command i op f) : Host.Outcome State Fault Refusal) = .next t := by
  rw [State.command_taken s i op f h, hf]

theorem State.reqCancel_handle (hfull : s.ticketsFull i = false) (f : FnId) {name : W64} (hbit : name.getLsbD 63 = false)
    (hq : s.visible i (name.extractLsb' 0 32) = some q) :
    s.reqCancel i f name = let x := s.told i 0x0302 0 0 (name.extractLsb' 0 32).toNat
      x.2.addCmd (.cancel (name.extractLsb' 0 32) (some x.1)) := by
  rw [State.reqCancel, tb_toNat, hbit, if_neg Bool.false_ne_true]
  dsimp only
  rw [hq, State.issue_ticket hfull]
  exact if_pos rfl

theorem State.reqPause_visible (hfull : s.ticketsFull i = false) (hq : s.visible i h = some q) (ttl : W32) :
    s.reqPause i h ttl = if 1 ≤ ttl.toNat ∧ ttl.toNat ≤ 604800 then
      let x := s.told i 0x0303 1 0 h.toNat
      x.2.addCmd (.pause h (1000 * ttl.toNat) (some x.1)) else s.reply i stBadArg [] := by
  rw [State.reqPause, hq, State.issue_ticket hfull]
  by_cases httl : 1 ≤ ttl.toNat ∧ ttl.toNat ≤ 604800
  · simp [within, httl]
  · have hw : within 1 604800 ttl.toNat = false := by
      rw [within, ← Bool.decide_and]
      exact decide_eq_false httl
    rw [hw, if_neg httl]; rfl

theorem Request.paused_iff (q : Request) : q.paused = true ↔ q.phase = .movingOut ∨ q.phase = .moored := by
  rw [Request.paused, Bool.or_eq_true, beq_iff_eq, beq_iff_eq]

theorem State.reqResume_visible (hfull : s.ticketsFull i = false) (hq : s.visible i h = some q) :
    s.reqResume i h = if q.phase ≠ .movingOut ∧ q.phase ≠ .moored then s.reply i stNotFound []
      else if s.hm.man.isNone ∨ qModel q.record ≠ s.digest64 then s.reply i stDigest []
      else let x := s.told i 0x0304 1 0 h.toNat
        x.2.addCmd (.resume h (some x.1)) := by
  rw [State.reqResume, hq, State.issue_ticket hfull]
  refine ite_congr (propext ?_) (fun _ => rfl) (fun _ => rfl)
  rw [Bool.not_eq_true', ← Bool.not_eq_true, q.paused_iff, not_or]

theorem State.reqStatus_visible (hq : s.visible i h = some q) : s.reqStatus i h = s.reply i stDone (s.statRecord q) := by
  rw [State.reqStatus, hq]

/-- R345, R346, R348: a name that the issuer may not use is not found. -/
theorem State.request_notFound (hq : s.visible i h = none) : s.reqStatus i h = s.reply i stNotFound []
    ∧ s.reqResume i h = s.reply i stNotFound [] ∧ ∀ order, s.reqShip i h order = s.reply i stNotFound [] := by
  refine ⟨?_, ?_, fun order => ?_⟩
  · rw [State.reqStatus, hq]
  · rw [State.reqResume, hq]
  · rw [State.reqShip, hq]

theorem State.reqShip_busy (hq : s.visible i h = some q) (hp : q.phase ≠ .prefilled) (order : ShipOrder) :
    s.reqShip i h order = s.reply i stBusy [] := by
  rw [State.reqShip, hq]
  exact if_pos hp

/-! ## A shipment is sent (R346, R392) -/

theorem State.exceptLinks_sendShipment (s : State) (q : Request) (flow : W32) (order : ShipOrder) :
    (s.sendShipment q flow order).exceptLinks = s.exceptLinks :=
  (State.exceptLinks_runFlow ..).trans (State.exceptLinks_sendDatagram ..)

/-- R392: the flow of a shipment is a new one, of class 0, to the peer of the order. -/
theorem State.flow_sendShipment (s : State) (q : Request) (flow : W32) (order : ShipOrder) :
    ∃ g, (s.sendShipment q flow order).flow flow = some g ∧ g.peer = order.peer ∧ g.dclass = 0 := by
  let g : UFlow := { UFlow.fresh flow 0 0 with
    peer := order.peer, nextSeq := 1, toSend := shipBytes flow (s.shipParts q) }
  have hnone : (s.fab.flows.filter fun f => f.id != flow).find? (fun f => f.id == flow) = none := by
    simp
  refine State.flow_runFlow (g := g) ((State.flow_sendDatagram ..).trans ?_)
  rw [State.flow, State.dropFlow, List.find?_append, hnone, Option.none_or]
  exact List.find?_cons_of_pos (p := fun f : UFlow => f.id == flow) (beq_self_eq_true flow)

theorem State.reqShip_prefilled (hfull : s.ticketsFull i = false) (hq : s.visible i h = some q) (hp : q.phase = .prefilled)
    (order : ShipOrder) : let x := s.told i 0x0305 2 0 0
    (s.reqShip i h order).exceptLinks = State.exceptLinks { s with serv := { s.serv with
        cmds := s.serv.cmds ++ if order.answer.isSome then [.ship h (some x.1) order] else [] } }
      ∧ ∃ g, (s.reqShip i h order).flow (Config.shipFlow x.1) = some g ∧ g.peer = order.peer ∧ g.dclass = 0 := by
  intro x
  have hsent := (x.2.modTicket x.1 fun y => { y with object := (Config.shipFlow x.1).toNat }).exceptLinks_sendShipment q
    (Config.shipFlow x.1) order
  have htold : x.2.exceptLinks = s.exceptLinks := State.exceptLinks_told ..
  rw [State.reqShip, hq]
  dsimp only
  rw [if_neg (not_not_intro hp), State.issue_ticket hfull]
  split
  · exact ⟨congrArg (State.addCmd · (.ship h (some x.1) order)) (hsent.trans htold), State.flow_sendShipment ..⟩
  · rw [List.append_nil]
    exact ⟨hsent.trans htold, State.flow_sendShipment ..⟩

end

/-! ## The next entry of a request ring (R328, R402, R403, R406) -/

theorem fetchStatus_ne_badArg (e : FetchEnd) : fetchStatus e ≠ stBadArg := by
  cases e <;> decide

theorem State.submitVerdict_badArg (s : State) (f : FnId) (e : BitVec 256) (r : BitVec 1024) (prompt : FetchEnd) :
    s.submitVerdict f e r prompt = stBadArg ↔ entryMalformed e = true ∨ s.recordVerdict f r = stBadArg := by
  unfold State.submitVerdict
  by_cases he : entryMalformed e = true
  · simp [he]
  · by_cases hr : s.recordVerdict f r = stDone
    · simp [he, hr, fetchStatus_ne_badArg, show stDone ≠ stBadArg by decide]
    · simp [he, hr]

/-- The entry at the front of a ring: the copy that the ring's read brought, or the one at hand. -/
def Ring.front (g : Ring) (entry : BitVec 256) : BitVec 256 := (assoc? g.next.toNat g.fetched).getD entry

theorem State.submit_outOfTurn {s : State} {f : FnId} {r : RingId}
    (h : s.hm.state ≠ 1 ∨ s.hasEntry f r = false ∨ s.turnOf f r = false) (entry : BitVec 256) (x : Option (BitVec 1024))
    (prompt : FetchEnd) : s.submit f r entry x prompt = s := by
  refine if_pos ?_
  rcases h with h | h | h
  · exact .inl h
  · exact .inr (.inl (by rw [h]; rfl))
  · exact .inr (.inr (by rw [h]; rfl))

section
variable {s : State} {f : FnId} {r : RingId} (entry : BitVec 256) (prompt : FetchEnd)

/-- What becomes of the entry whose turn it is: its record is not read; it names no ring that takes records; it becomes an offer; or
it is refused, and has its end record. -/
theorem State.submit_inTurn (hst : s.hm.state = 1) (hent : s.hasEntry f r = true) (hturn : s.turnOf f r = true) :
    let ix := (s.ring f r).next
    let s0 := s.passTurn f r
    s.submit f r entry none prompt = ((s0.takeEntry f r ix).leave f r ix).readTries (.fn f) .hostError
      ∧ ∀ q, let c := cringOf q
        let st := s.submitVerdict f ((s.ring f r).front entry) q prompt
        let s1 := if st = stHostError then s0.readTries (.fn f) prompt else s0
        (s.cringOk f q = false → s.submit f r entry (some q) prompt
            = ((s0.takeEntry f r ix).leave f r ix).modFn f fun x => x.flag errHost)
          ∧ (s.cringOk f q = true → st = stDone → s.submit f r entry (some q) prompt
            = { s0.takeEntry f r ix with serv := { s0.serv with
                offers := s0.serv.offers ++ [⟨s.rank, f, (s.fn f).tenant, r, ix, q⟩] } })
          ∧ (s.cringOk f q = true → st ≠ stDone → s.ringHeld f c < (s.ring f c).room → (s.ring f c).kept = [] →
            s.submit f r entry (some q) prompt = ((s1.takeEntry f r ix).complete f c (s.refusalRecord q st)).leave f r ix) := by
  have hgo : ¬(s.hm.state ≠ 1 ∨ (!s.hasEntry f r) = true ∨ (!s.turnOf f r) = true) := by simp [hst, hent, hturn]
  refine ⟨?_, fun q => ⟨fun hc => ?_, fun hc hdone => ?_, fun hc hst' hheld hkept => ?_⟩⟩
  · rw [State.submit, if_neg hgo]
  · rw [State.submit, if_neg hgo]
    simp only [hc, Bool.not_false, if_true]
  · have hne : stDone ≠ stHostError := by decide
    have hdone' := hdone
    rw [Ring.front] at hdone'
    rw [State.submit, if_neg hgo]
    simp only [hc, hdone', hne, Bool.not_true, Bool.false_eq_true, if_false, if_true]
    rfl
  · have hroom : ¬((s.ring f (cringOf q)).room ≤ s.ringHeld f (cringOf q) ∨ (s.ring f (cringOf q)).kept ≠ []) := by
      simp only [hkept, ne_eq, not_true_eq_false, or_false]
      omega
    rw [Ring.front] at hst'
    rw [State.submit, if_neg hgo]
    simp only [hc, hst', hroom, Bool.not_true, Bool.false_eq_true, if_false]
    rfl

theorem Ring.serves_kind {g : Ring} {k : Nat} (h : g.serves k = true) : g.kind = k := by
  simp only [Ring.serves, Bool.and_eq_true, beq_iff_eq] at h
  exact h.1.1.2

/-- A ring that takes records is no request ring. -/
theorem cringOf_ne {q : BitVec 1024} (hent : s.hasEntry f r = true) (hc : s.cringOk f q = true) : cringOf q ≠ r := by
  simp only [State.hasEntry, Bool.and_eq_true] at hent
  simp only [State.cringOk, Bool.and_eq_true] at hc
  intro he
  have h1 := Ring.serves_kind hent.1.2
  have h2 := Ring.serves_kind hc.2
  rw [he, h1] at h2
  exact absurd h2 (by decide)

end

theorem State.mastering_modFn (s : State) (f : FnId) {g : Func → Func} (hg : ∀ x, (g x).bme = x.bme) :
    (s.modFn f g).mastering f = s.mastering f := by
  rw [State.mastering, State.fn_modFn, hg]; rfl

/-- Tries of a read that fail change neither whether a function may be written to nor its rings. -/
theorem State.readTries_keeps (s : State) (f : FnId) (e : FetchEnd) :
    (s.readTries (.fn f) e).mastering f = s.mastering f ∧ ∀ q, (s.readTries (.fn f) e).ring f q = s.ring f q := by
  cases e with
  | hostError =>
    refine ⟨s.mastering_modFn f ?_, fun q => s.ring_modFn f ?_ q⟩ <;> exact fun _ => rfl
  | ok | timeout | underWay => exact ⟨rfl, fun _ => rfl⟩

theorem State.exceptLinks_ite_readTries (s : State) (p : Prop) [Decidable p] (f : FnId) (e : FetchEnd) :
    let t := if p then s.readTries (.fn f) e else s
    t.exceptLinks = s.exceptLinks ∧ t.mastering f = s.mastering f ∧ ∀ q, t.ring f q = s.ring f q := by
  intro t
  unfold t
  split
  · exact ⟨State.exceptLinks_readTries .., s.readTries_keeps f e⟩
  · exact ⟨rfl, rfl, fun _ => rfl⟩

theorem State.mastering_takeEntry (s : State) (f : FnId) (r : RingId) (ix : W32) :
    (s.takeEntry f r ix).mastering f = s.mastering f :=
  State.mastering_modFn { s with host := { s.host with
    reads := s.host.reads.filter fun x => !(x.f == f && x.ring == r && x.ix == ix) } } f fun _ => rfl

/-- R402, R403: an entry that is taken and leaves its ring while its function notes an error: of the function only that and the ring
change, and the next entry is due. -/
theorem State.entryGone (s : State) (f : FnId) (r : RingId) {g : Func → Func} (hg : ∀ x, (g x).rings = x.rings) :
    let ix := (s.ring f r).next
    let t := ((s.takeEntry f r ix).leave f r ix).modFn f g
    t.exceptLinks = s.exceptLinks ∧ t.host.out = s.host.out ∧ (t.ring f r).next = ix + 1
      ∧ ∃ rings, t.fn f = g { s.fn f with rings := rings } := by
  intro ix t
  refine ⟨by simp [t], by simp [t], ?_, _, (State.fn_modFn ..).trans (congrArg g (s.fn_leave_takeEntry f r ix))⟩
  rw [State.ring_modFn _ _ hg, State.next_leave, State.ring_takeEntry]

/-- R328, R404: a refused request, its function's rings untouched before: its end record goes out, and its entry leaves its ring. -/
theorem State.entryRefused {s u : State} {f : FnId} {r c : RingId} (hne : c ≠ r) (hu : u.exceptLinks = s.exceptLinks)
    (hring : ∀ q, u.ring f q = s.ring f q) (hbm : u.mastering f = true) (hserves : (s.ring f c).serves 2 = true)
    (hkept : (s.ring f c).kept = []) (hroom : 0 < (s.ring f c).room) (x : BitVec 256) :
    let ix := (s.ring f r).next
    let t := ((u.takeEntry f r ix).complete f c x).leave f r ix
    t.exceptLinks = s.exceptLinks ∧ (t.ring f r).next = ix + 1 ∧ (t.ring f c).prod = (s.ring f c).prod + 1
      ∧ .write f ((s.ring f c).slotAt (s.ring f c).prod) (leBytes 32 x.toNat) ∈ t.host.out := by
  intro ix t
  have hc : (u.takeEntry f r ix).ring f c = s.ring f c := (u.ring_takeEntry_other f hne ix).trans (hring c)
  obtain ⟨hout, hprod, hother, hlinks⟩ := State.complete_taken (s := u.takeEntry f r ix) x (hc ▸ hserves)
    ((u.mastering_takeEntry f r ix).trans hbm) (hc ▸ hkept) (hc ▸ hroom)
  rw [hc] at hout hprod
  refine ⟨(State.exceptLinks_leave ..).trans (hlinks.trans ((State.exceptLinks_takeEntry ..).trans hu)), ?_, ?_, hout⟩
  · rw [State.next_leave, hother r hne.symm, State.ring_takeEntry]
  · rw [State.ring_leave_other _ _ hne, hprod]

end Sys2Proof.Machine

open Sys2Proof Sys2Proof.Machine

/-- Settles O37: each command by what it does to a request that its issuer may name; the ring's next entry by its four outcomes. -/
theorem requestCommands : Obligations.RequestCommands := by
  refine ⟨fun i f h ttl q s hfull hq => ?_, fun f r entry q prompt s => ?_⟩
  · refine ⟨fun name hi hbit hname ht => ?_, fun ht => State.next_command ht (State.reqPause_visible hfull hq ttl),
      fun ht => State.next_command ht (State.reqResume_visible hfull hq),
      fun ht hp order => State.next_command ht (State.reqShip_busy hq hp order), fun ht hp order => ?_,
      fun ht => State.next_command ht (State.reqStatus_visible hq), leBytes_length .., fun g hg => ?_⟩
    · subst hi hname
      exact State.next_command ht (State.reqCancel_handle hfull f hbit hq)
    · obtain ⟨hlinks, hflow⟩ := State.reqShip_prefilled hfull hq hp order
      exact ⟨_, State.next_command ht rfl, (State.mem_of_exceptLinks hlinks).trans rfl, (State.cores_of_exceptLinks hlinks).trans rfl,
        State.serv_of_exceptLinks hlinks, hflow⟩
    · obtain ⟨hstatus, hresume, hship⟩ := State.request_notFound hg
      exact ⟨fun ht => State.next_command ht hstatus, fun ht => State.next_command ht hresume,
        fun ht order => State.next_command ht (hship order)⟩
  · intro g e st c turned
    refine ⟨fun h x => next_congr (State.submit_outOfTurn h entry x prompt), fun hst hent hturn => ?_,
      State.submitVerdict_badArg ..⟩
    obtain ⟨hnone, hsome⟩ := State.submit_inTurn entry prompt hst hent hturn
    obtain ⟨hnoRing, hoffer, hrefuse⟩ := hsome q
    refine ⟨fun hc hdone => ⟨_, next_congr (hoffer hc hdone), rfl, State.ring_takeEntry .., rfl, rfl⟩,
      fun hc hst' hheld hkept => ⟨_, next_congr (hrefuse hc hst' hheld hkept), ?_⟩,
      fun hc => ⟨_, next_congr (hnoRing hc), ?_⟩, _, next_congr hnone, ?_⟩
    · obtain ⟨htried, hbm, hring⟩ := (s.passTurn f r).exceptLinks_ite_readTries (st = stHostError) f prompt
      have hserves : c.serves 2 = true := (Bool.and_eq_true _ _ ▸ hc).2
      have hmaster : s.mastering f = true := by
        simp only [State.hasEntry, Bool.and_eq_true] at hent
        exact hent.1.1
      obtain ⟨hlinks, hnext, hprod, hmem⟩ := State.entryRefused (cringOf_ne hent hc) htried hring (hbm.trans hmaster) hserves hkept
        (Nat.zero_lt_of_lt hheld) (s.refusalRecord q st)
      exact ⟨State.serv_of_exceptLinks hlinks, hnext, hprod, hmem⟩
    · obtain ⟨hlinks, hout, hnext, rings, hfn⟩ := (s.passTurn f r).entryGone f r (g := fun x => x.flag errHost) fun _ => rfl
      exact ⟨State.serv_of_exceptLinks hlinks, congrArg Func.err hfn, hnext, hout⟩
    · obtain ⟨hlinks, -, hnext, rings, hfn⟩ := (s.passTurn f r).entryGone f r
        (g := fun x => { x.flag errHost with hosterrs := bumpBy 3 x.hosterrs }) fun _ => rfl
      exact ⟨State.serv_of_exceptLinks hlinks, hnext, congrArg Func.err hfn, congrArg Func.hosterrs hfn⟩

end

section
/-! PROOF. What work on berths leaves alone: writes of device memory, regions that a tenant's berths need, berths that are opened,
freed and moved between the tiers. -/

namespace Sys2Proof.Machine

/-! ## Device memory -/

@[simp] theorem State.exceptMem_storeWord (s : State) (addr k : Nat) (w : MWord) :
    (s.storeWord addr k w).exceptMem = s.exceptMem := by
  unfold State.storeWord
  dsimp only
  split
  · exact s.exceptMem_wrWords k [w]
  · exact s.exceptMem_wrWords k [w]

@[simp] theorem State.exceptMem_devWrite (s : State) (addr : Nat) (ws : List MWord) :
    (s.devWrite addr ws).exceptMem = s.exceptMem := by
  induction ws generalizing s addr with
  | nil => rfl
  | cons w r ih =>
    refine (ih _ _).trans ?_
    split
    · exact State.exceptMem_storeWord ..
    · rfl

/-! ## Berths (R186, R196 to R198, R208, R441) -/

/-- The state with memory and what the memory system holds of berths blanked: free counts, regions, reports of tiles. -/
def State.exceptBerths (s : State) : State :=
  { s.exceptMem with ms := { s.ms with prots := [], bpFree := 0, apFree := 0, reports := [] } }

theorem State.exceptBerths_of_exceptMem {s t : State} (h : t.exceptMem = s.exceptMem) : t.exceptBerths = s.exceptBerths :=
  congrArg (fun x => { x with ms := { x.ms with prots := [], bpFree := 0, apFree := 0, reports := [] } }) h

theorem State.serv_of_exceptBerths {s t : State} (h : t.exceptBerths = s.exceptBerths) : t.serv = s.serv :=
  (congrArg State.serv h : t.exceptBerths.serv = s.exceptBerths.serv)

theorem State.host_of_exceptBerths {s t : State} (h : t.exceptBerths = s.exceptBerths) : t.host = s.host :=
  (congrArg State.host h : t.exceptBerths.host = s.exceptBerths.host)

theorem State.cores_of_exceptBerths {s t : State} (h : t.exceptBerths = s.exceptBerths) : t.cores = s.cores :=
  (congrArg State.cores h : t.exceptBerths.cores = s.exceptBerths.cores)

theorem State.hm_of_exceptBerths {s t : State} (h : t.exceptBerths = s.exceptBerths) : t.hm = s.hm :=
  (congrArg State.hm h : t.exceptBerths.hm = s.exceptBerths.hm)

theorem State.bbx_of_exceptBerths {s t : State} (h : t.exceptBerths = s.exceptBerths) : t.bbx = s.bbx :=
  (congrArg State.bbx h : t.exceptBerths.bbx = s.exceptBerths.bbx)

theorem State.bexpire_of_exceptBerths {s t : State} (h : t.exceptBerths = s.exceptBerths) : t.ms.bexpire = s.ms.bexpire :=
  (congrArg (fun x => x.ms.bexpire) h : t.exceptBerths.ms.bexpire = s.exceptBerths.ms.bexpire)

@[simp] theorem State.exceptBerths_devWrite (s : State) (addr : Nat) (ws : List MWord) :
    (s.devWrite addr ws).exceptBerths = s.exceptBerths := State.exceptBerths_of_exceptMem (s.exceptMem_devWrite addr ws)

@[simp] theorem State.exceptBerths_countFree (s : State) (anc up : Bool) : (s.countFree anc up).exceptBerths = s.exceptBerths := by
  cases anc <;> rfl

@[simp] theorem State.exceptBerths_report (s : State) (c : CoreId) (header : Nat) (berth : Bool) :
    (s.report c header berth).exceptBerths = s.exceptBerths := rfl

theorem State.exceptBerths_prots (s : State) (ps : List (Nat × (W64 × W64))) :
    State.exceptBerths { s with ms := { s.ms with prots := ps } } = s.exceptBerths := rfl

@[simp] theorem State.exceptBerths_makeRegion (s : State) (r base size : Nat) (t : TenantId) (slot : Nat) :
    (s.makeRegion r base size t slot).exceptBerths = s.exceptBerths := by
  rw [State.makeRegion, State.exceptBerths_devWrite, State.exceptBerths_prots]

@[simp] theorem State.exceptBerths_protectMore (s : State) (anc : Bool) (t : TenantId) (slot : Nat) :
    (s.protectMore anc t slot).exceptBerths = s.exceptBerths := by
  unfold State.protectMore
  dsimp only
  split
  · exact State.exceptBerths_makeRegion ..
  · rfl

theorem exceptBerths_protectUpTo (anc : Bool) (t : TenantId) (n k : Nat) (s : State) :
    (protectUpTo anc t n k s).exceptBerths = s.exceptBerths := by
  induction k generalizing s with
  | zero => rfl
  | succ k ih =>
    unfold protectUpTo
    split
    · rfl
    · split
      · rfl
      · exact (ih _).trans (State.exceptBerths_protectMore ..)

@[simp] theorem State.exceptBerths_protect (s : State) (anc : Bool) (t : TenantId) (n : Nat) :
    (s.protect anc t n).exceptBerths = s.exceptBerths := exceptBerths_protectUpTo ..

theorem State.exceptBerths_pickHandle {s t : State} {anc : Bool} {n : TenantId} {h : Nat} (hp : s.pickHandle anc n = some (h, t)) :
    t.exceptBerths = s.exceptBerths := by
  unfold State.pickHandle at hp
  dsimp only at hp
  split at hp
  · cases hp
  · cases hp
    exact s.exceptBerths_protect anc n 1

/-- R186: the handles that are picked are as many as were asked for. -/
theorem State.pickHandles_some {s t : State} {anc : Bool} {n : TenantId} {k : Nat} {hs : List Nat}
    (hp : s.pickHandles anc n k = some (hs, t)) : hs.length = k ∧ t.exceptBerths = s.exceptBerths := by
  unfold State.pickHandles at hp
  dsimp only at hp
  split at hp
  · cases hp
  · rename_i hfree
    cases hp
    refine ⟨?_, s.exceptBerths_protect anc n k⟩
    simp only [List.length_take, List.length_append, List.length_drop]
    omega

@[simp] theorem State.exceptBerths_settleTiles (s : State) (addr : Nat) (old new : List Byte) :
    (s.settleTiles addr old new).exceptBerths = s.exceptBerths := by
  unfold State.settleTiles
  split
  · rfl
  · exact State.exceptBerths_devWrite ..

@[simp] theorem State.exceptBerths_putPage (s : State) (anc : Bool) (h : Nat) (p : List Byte) :
    (s.putPage anc h p).exceptBerths = s.exceptBerths := by
  rw [State.putPage, State.exceptBerths_settleTiles, State.exceptBerths_devWrite]

@[simp] theorem State.exceptBerths_modHdr (s : State) (anc : Bool) (h : Nat) (f : BHdr → BHdr) :
    (s.modHdr anc h f).exceptBerths = s.exceptBerths := State.exceptBerths_putPage ..

@[simp] theorem State.exceptBerths_dropRef (s : State) (anc : Bool) (h : Nat) : (s.dropRef anc h).exceptBerths = s.exceptBerths := by
  unfold State.dropRef
  dsimp only
  split
  · rfl
  · split <;> simp

@[simp] theorem State.exceptBerths_openBerth (s : State) (anc : Bool) (h : Nat) (p : List Byte) :
    (s.openBerth anc h p).exceptBerths = s.exceptBerths := by
  simp [State.openBerth]

@[simp] theorem State.exceptBerths_copyPage (s : State) (toAnc : Bool) (old h : Nat) (bad : List Nat) :
    (s.copyPage toAnc old h bad).exceptBerths = s.exceptBerths := by
  unfold State.copyPage
  dsimp only
  split
  · simp
  · split <;> simp

theorem State.exceptBerths_moveBerth (s : State) (t : TenantId) (toAnc : Bool) (b : QBerth) :
    (s.moveBerth t toAnc b).2.exceptBerths = s.exceptBerths := by
  unfold State.moveBerth
  split
  · rfl
  · split
    · rfl
    · rename_i hp
      refine (foldl_keeps State.exceptBerths (fun _ _ => State.exceptBerths_report ..) _ _).trans ?_
      simpa using State.exceptBerths_pickHandle hp

theorem State.exceptBerths_moveBerths (s : State) (t : TenantId) (toAnc : Bool) (bs : List QBerth) :
    (s.moveBerths t toAnc bs).2.exceptBerths = s.exceptBerths :=
  foldl_keeps (fun q : List QBerth × State => q.2.exceptBerths) (fun _ _ => State.exceptBerths_moveBerth ..) bs ([], s)

/-! ## Quays (R184, R208, R210) -/

@[simp] theorem State.exceptBerths_putQuay (s : State) (k : QuayId) (x : Quay) : (s.putQuay k x).exceptBerths = s.exceptBerths :=
  State.exceptBerths_devWrite ..

@[simp] theorem State.exceptBerths_putBerths (s : State) (k : QuayId) (x : Quay) (bs : List QBerth) :
    (s.putBerths k x bs).exceptBerths = s.exceptBerths := by
  refine (State.exceptBerths_putQuay ..).trans (foldl_keeps State.exceptBerths (fun _ _ => ?_) _ _)
  simp

@[simp] theorem State.exceptBerths_putTail (s : State) (k : QuayId) (ws : List W64) :
    (s.putTail k ws).exceptBerths = s.exceptBerths := by
  unfold State.putTail
  dsimp only
  split <;> rfl

theorem State.exceptBerths_unmoorQuay (t : TenantId) (slot : Nat) (s : State) (m : MoorQuay) :
    (State.unmoorQuay t slot s m).exceptBerths = s.exceptBerths := by
  unfold State.unmoorQuay
  dsimp only
  rw [State.exceptBerths_putTail, State.exceptBerths_putBerths, State.exceptBerths_moveBerths]

/-! ## Mooring records (R208, R210) -/

/-- The state with other mooring records. -/
def State.withMoorings (s : State) (ms : List Mooring) : State := { s with serv := { s.serv with moorings := ms } }

theorem State.exceptBerths_withMoorings {s t : State} (h : t.exceptBerths = s.exceptBerths) (f : List Mooring → List Mooring) :
    (t.withMoorings (f t.serv.moorings)).exceptBerths = (s.withMoorings (f s.serv.moorings)).exceptBerths :=
  congrArg (fun x => x.withMoorings (f x.serv.moorings)) h

/-- R208: a request that moves out leaves its mooring record. -/
theorem State.exceptBerths_moor {s u : State} (h : u.exceptBerths = s.exceptBerths) (q : Request) :
    ∃ m, m.handle = q.handle ∧ (u.moor q).exceptBerths = (s.withMoorings (s.serv.moorings ++ [m])).exceptBerths := by
  have hmoved (k : List MoorQuay × State) (x : QuayId) :
      (k.1 ++ [(k.2.moorQuay q.tenant x).1], (k.2.moorQuay q.tenant x).2).2.exceptBerths = k.2.exceptBerths :=
    State.exceptBerths_moveBerths ..
  exact ⟨_, rfl, State.exceptBerths_withMoorings
    ((foldl_keeps (fun k : List MoorQuay × State => k.2.exceptBerths) hmoved _ _).trans h) fun l => l ++ [_]⟩

/-- R198: of a request whose references are dropped the mooring record goes too. -/
theorem State.exceptBerths_dropBerths (s : State) (q : Request) : (s.dropBerths q).exceptBerths
    = (s.withMoorings (s.serv.moorings.filter fun m => m.handle != q.handle)).exceptBerths :=
  State.exceptBerths_withMoorings (foldl_keeps State.exceptBerths (fun _ _ => State.exceptBerths_dropRef ..) _ _)
    (List.filter fun m => m.handle != q.handle)

/-- R210: a request that moves back in changes of what serving holds at most the mooring records. -/
theorem State.exceptBerths_unmoor (s : State) (q : Request) : ∃ l, (s.unmoor q).exceptBerths = (s.withMoorings l).exceptBerths := by
  unfold State.unmoor
  split
  · exact ⟨s.serv.moorings, rfl⟩
  · exact ⟨_, State.exceptBerths_withMoorings (foldl_keeps State.exceptBerths
      (fun _ _ => State.exceptBerths_unmoorQuay ..) _ _) (List.filter fun x => x.handle != q.handle)⟩

end Sys2Proof.Machine

end

section
/-! PROOF. Requests that are moored, expire and come back; token records; shipments that arrive; the placer's copies. -/

namespace Sys2Proof.Machine

/-! ## Moorings (R208 to R211) -/

theorem State.ticketOf_congr {s t : State} (h : t.host = s.host) (k : W32) : t.ticketOf k = s.ticketOf k := by
  rw [State.ticketOf, h]; rfl

theorem State.req_congr {s t : State} (h : t.serv.reqs = s.serv.reqs) (k : W32) : t.req k = s.req k := by
  rw [State.req, h]; rfl

/-- The ticket of a move, if there is one, ends with its `n` berths moved. -/
def State.moveDone (s : State) (k : Option W32) (n : Nat) : State :=
  match k with
  | some k => (s.progressTo k n).finish k stDone 0
  | none => s

@[simp] theorem State.serv_moveDone (s : State) (k : Option W32) (n : Nat) : (s.moveDone k n).serv = s.serv := by
  cases k <;> rfl

theorem State.moveDone_ended {s u : State} (hu : u.host = s.host) {k : W32} {x : Ticket} (hx : s.ticketOf k = some x)
    (hr : x.st = .running) (n : Nat) : (u.moveDone (some k) n).ended k stDone 0 :=
  State.ended_finish_progressTo ((State.ticketOf_congr hu k).trans hx) hr n stDone 0

/-- R208, R209: a request moored at a time. -/
def Request.mooredAt (q : Request) (time : W64) : Request := { q with phase := .moored, since := time, ticket := none }

/-- R210: a request whose last berth is back. -/
def Request.broughtBack (q : Request) : Request := { q with reserve := [], back := true, ticket := none }

section
variable {s : State} {h : W32} {q : Request} (hq : s.req h = some q)
include hq

theorem State.mooringComplete_idle (hp : q.phase ≠ .movingOut) : s.mooringComplete h = s := by
  rw [State.mooringComplete, hq]
  exact if_pos hp

/-- R208, R209: with room in the anchorage the request is moored as of now. -/
theorem State.mooringComplete_moors (hp : q.phase = .movingOut) (hroom : s.aloneBerths q
      ≤ ((s.protect true q.tenant (s.aloneBerths q)).freeHandles true q.tenant).length) :
    s.mooringComplete h = (((s.protect true q.tenant (s.aloneBerths q)).moor q).modReq h fun q =>
      q.mooredAt s.hm.timeNs).moveDone q.ticket (s.aloneBerths q) := by
  have htime := State.hm_of_exceptBerths (s.exceptBerths_protect true q.tenant (s.aloneBerths q))
  rw [State.mooringComplete, hq]
  dsimp only
  rw [if_neg (not_not_intro hp), if_neg (Nat.not_lt.mpr hroom), htime]
  rfl

/-- R208, R209: what a mooring leaves: the request moored, its mooring record, its ticket ended. -/
theorem mooringComplete_moored (hp : q.phase = .movingOut) (hroom : s.aloneBerths q
      ≤ ((s.protect true q.tenant (s.aloneBerths q)).freeHandles true q.tenant).length) :
    let t := s.mooringComplete h
    t.req h = some (q.mooredAt s.hm.timeNs)
      ∧ (∃ m, t.serv.moorings = s.serv.moorings ++ [m] ∧ m.handle = h)
      ∧ ∀ k x, q.ticket = some k → s.ticketOf k = some x → x.st = .running → t.ended k stDone 0 := by
  obtain ⟨m, hm, hmoor⟩ := State.exceptBerths_moor (s.exceptBerths_protect true q.tenant (s.aloneBerths q)) q
  intro t
  have ht : t = _ := State.mooringComplete_moors hq hp hroom
  rw [ht]
  generalize (s.protect true q.tenant (s.aloneBerths q)).moor q = u at hmoor
  have hserv := State.serv_of_exceptBerths hmoor
  have hreqs : u.serv.reqs = s.serv.reqs := (congrArg Serving.reqs hserv).trans rfl
  refine ⟨?_, ⟨m, ?_, hm.trans (State.req_handle hq)⟩, fun k x hk hx hr => ?_⟩
  · rw [State.req_congr (congrArg Serving.reqs (State.serv_moveDone ..))]
    exact State.req_modReq ((State.req_congr hreqs h).trans hq) fun _ => rfl
  · rw [State.serv_moveDone]
    exact congrArg Serving.moorings hserv
  · rw [hk]
    exact State.moveDone_ended (State.host_of_exceptBerths hmoor) hx hr _

theorem State.resumeMoved_idle (hp : q.phase ≠ .movingIn ∨ q.back = true) : s.resumeMoved h = s := by
  rw [State.resumeMoved, hq]
  exact if_pos hp

/-- R210: what the last berth's return leaves: the request back, its ticket ended. -/
theorem State.resumeMoved_back (hp : q.phase = .movingIn) (hback : q.back = false) :
    let t := s.resumeMoved h
    t.req h = some q.broughtBack
      ∧ ∀ k x, q.ticket = some k → s.ticketOf k = some x → x.st = .running → t.ended k stDone 0 := by
  obtain ⟨l, hin⟩ := (s.modReq h Request.broughtBack).exceptBerths_unmoor q
  intro t
  have ht : t = (((s.modReq h Request.broughtBack).unmoor q).moveDone q.ticket (s.anchored q)) := by
    unfold t
    rw [State.resumeMoved, hq]
    dsimp only
    rw [if_neg (by simp [hp, hback])]
    rfl
  rw [ht]
  generalize State.unmoor _ q = u at hin
  have hserv := State.serv_of_exceptBerths hin
  have hreqs : u.serv.reqs = (s.modReq h Request.broughtBack).serv.reqs := (congrArg Serving.reqs hserv).trans rfl
  refine ⟨?_, fun k x hk hx hr => ?_⟩
  · rw [State.req_congr (congrArg Serving.reqs (State.serv_moveDone ..)), State.req_congr hreqs]
    exact State.req_modReq hq fun _ => rfl
  · rw [hk]
    exact State.moveDone_ended (State.host_of_exceptBerths hin) hx hr _

theorem State.mooringExpiry_eq : s.mooringExpiry h
    = if q.phase = .moored ∧ s.ttlLeft q = 0 ∧ s.resuming h = false then (s.expire q).addCmd (.expire h) else s := by
  rw [State.mooringExpiry, hq]
  simp only [Bool.not_eq_true']

end

/-- R209: an expired request is gone with its mooring record; it is counted and recorded. -/
theorem State.expire_frame (s : State) (q : Request) : ∃ e, (s.expire q).serv = { s.serv with
        reqs := dropFirst (fun r => r.handle == q.handle) s.serv.reqs
        moorings := s.serv.moorings.filter fun m => m.handle != q.handle }
      ∧ (s.expire q).ms.bexpire = bump s.ms.bexpire ∧ (s.expire q).bbx.waiting = s.bbx.waiting ++ [e] ∧ e.code = 0x0711#16
      ∧ e.handle = q.handle := by
  have hdrop := s.exceptBerths_dropBerths q
  have hserv := State.serv_of_exceptBerths hdrop
  have hcount := State.bexpire_of_exceptBerths hdrop
  have hbbx := State.bbx_of_exceptBerths hdrop
  exact ⟨_, congrArg (fun v : Serving => { v with reqs := dropFirst (fun r => r.handle == q.handle) v.reqs }) hserv,
    congrArg bump hcount, congrArg (fun b : Bbx => b.waiting ++ [_]) hbbx, rfl, rfl⟩

/-! ## Token records (R334) -/

theorem State.tokenRecord_elsewhere {s : State} {h : W32} {q : Request} (hq : s.req h = some q) (hhome : s.homeOf q = false)
    (k : Kept) : s.tokenRecord h k = s := by
  rw [State.tokenRecord, hq]
  dsimp only
  rw [hhome]; rfl

/-- R335: the record of a kept token. -/
def State.tokenBits (s : State) (h : W32) (q : Request) (k : Kept) : BitVec 256 :=
  CompRec.bits ⟨qTag q.record, h, k.position, k.token, k.logit, s.hm.step, stDone, 0, if k.draft then 2 else 0, q.seq⟩

/-- A request for which the record of a kept token has been written. -/
def Request.recorded (k : Kept) (q : Request) : Request := { q with seq := q.seq + 1, top := some k.position }

/-- R334: the home writes the record of a token that has none, and counts it. -/
theorem State.tokenRecord_home {s : State} {h : W32} {q : Request} (hq : s.req h = some q) (hhome : s.homeOf q = true) {k : Kept}
    (hfresh : q.fresh k = true) (hserves : (s.ring q.f (cringOf q.record)).serves 2 = true) (hbm : s.mastering q.f = true)
    (hkept : (s.ring q.f (cringOf q.record)).kept = []) (hroom : 0 < (s.ring q.f (cringOf q.record)).room) :
    let c := s.ring q.f (cringOf q.record)
    let t := s.tokenRecord h k
    t.req h = some (q.recorded k) ∧ .write q.f (c.slotAt c.prod) (leBytes 32 (s.tokenBits h q k).toNat) ∈ t.host.out
      ∧ (t.ring q.f (cringOf q.record)).prod = c.prod + 1 ∧ t.mem = s.mem := by
  intro c t
  have ht : t = (s.modReq h (Request.recorded k)).complete q.f (cringOf q.record) (s.tokenBits h q k) := by
    unfold t
    rw [State.tokenRecord, hq]
    dsimp only
    rw [if_neg (by simp [hhome, hfresh])]
    rfl
  obtain ⟨hout, hprod, -, hlinks⟩ := State.complete_taken (s := s.modReq h (Request.recorded k)) (s.tokenBits h q k) hserves hbm
    hkept hroom
  rw [ht]
  refine ⟨?_, hout, hprod, (State.mem_of_exceptLinks hlinks).trans rfl⟩
  rw [State.req_congr (congrArg Serving.reqs (State.serv_of_exceptLinks hlinks))]
  exact State.req_modReq hq fun _ => rfl

section
variable {s : State} {h : W32} {q : Request} (hq : s.req h = some q) (position : W32) (r : RowResult) {step : W32}
include hq

theorem State.completionRecord_notSampling (hno : q.phase ≠ .running ∨ q.rows = 0 ∨ s.serv.aborting = true ∨ s.fab.aborted = true
      ∨ step ≠ s.hm.step.extractLsb' 0 32) : s.completionRecord h position r step = s := by
  rw [State.completionRecord, hq]
  exact if_pos hno

/-- R334: in the step that samples, the first kept token without a record gets one if it stands at the position named. -/
theorem State.completionRecord_sampling (hp : q.phase = .running) (hrows : q.rows ≠ 0) (haborting : s.serv.aborting = false)
    (haborted : s.fab.aborted = false) (hstep : step = s.hm.step.extractLsb' 0 32) :
    ((s.advance q r).kept.find? q.fresh = none → s.completionRecord h position r step = s)
      ∧ ∀ k, (s.advance q r).kept.find? q.fresh = some k → s.completionRecord h position r step
          = if k.position = position.toNat then s.tokenRecord h k else s := by
  have hgo : ¬(q.phase ≠ .running ∨ q.rows = 0 ∨ s.serv.aborting = true ∨ s.fab.aborted = true
      ∨ step ≠ s.hm.step.extractLsb' 0 32) := by
    simp [hp, hrows, haborting, haborted, hstep]
  refine ⟨fun hk => ?_, fun k hk => ?_⟩ <;> rw [State.completionRecord, hq] <;> dsimp only <;> rw [if_neg hgo, hk]

end

/-! ## Shipments (R213, R214) -/

theorem State.exceptLinks_answerShip (s : State) (flow : W32) (status : W16) (h : W32) :
    (s.answerShip flow status h).exceptLinks = s.exceptLinks := by
  unfold State.answerShip
  split
  · exact State.exceptLinks_runFlow ..
  · rfl

theorem State.answerShip_noFlow {s : State} {flow : W32} (hf : s.flow flow = none) (status : W16) (h : W32) :
    s.answerShip flow status h = s := by
  rw [State.answerShip, hf]

/-- R213: a shipment that is freed is gone, and the cores are untouched. -/
theorem State.freeShip_frame (s : State) (x : Ship) :
    (s.freeShip x).serv = { s.serv with ships := s.serv.ships.filter fun y => y.num != x.num }
      ∧ (s.freeShip x).cores = s.cores := by
  have hdrop : (x.handles.foldl (fun s h => s.dropRef false h) s).exceptBerths = s.exceptBerths :=
    foldl_keeps State.exceptBerths (fun _ _ => State.exceptBerths_dropRef ..) _ _
  exact ⟨congrArg (fun v : Serving => { v with ships := v.ships.filter fun y => y.num != x.num })
    (State.serv_of_exceptBerths hdrop), (State.cores_of_exceptBerths hdrop).trans rfl⟩

theorem State.refuseShip_some (s : State) (x : Ship) (flow : W32) (status : W16) :
    (s.refuseShip (some x) flow status).serv = { s.serv with ships := s.serv.ships.filter fun y => y.num != x.num }
      ∧ (s.refuseShip (some x) flow status).cores = s.cores := by
  have hanswer := (s.freeShip x).exceptLinks_answerShip flow status 0
  obtain ⟨hserv, hcores⟩ := s.freeShip_frame x
  exact ⟨(State.serv_of_exceptLinks hanswer).trans hserv, (State.cores_of_exceptLinks hanswer).trans hcores⟩

/-- Images land at their handles. -/
def State.landImages (s : State) (ps : List (Nat × ShipImage)) : State := ps.foldl (fun s p => s.landImage p.1 p.2) s

theorem State.exceptBerths_landImages (s : State) (ps : List (Nat × ShipImage)) :
    (s.landImages ps).exceptBerths = s.exceptBerths :=
  foldl_keeps State.exceptBerths (fun _ _ => State.exceptBerths_openBerth ..) _ _

/-- A shipment is listed under the next number. -/
def Serving.listShip (v : Serving) (y : Nat → Ship) : Serving :=
  { v with ships := v.ships ++ [y v.nextShip], nextShip := v.nextShip + 1 }

section
variable {s : State} {r : BitVec 1024} {f : FnId} {st : ShipState} {xs : List ShipImage} (committed : W32) (complete : Bool)

theorem State.shipmentReceive_refused (hv : s.shipVerdict (s.fn f).tenant st xs ≠ stDone) :
    s.shipmentReceive r f committed st xs complete
      = s.refuseShip (s.serv.ships.find? fun y => y.record == r && y.f == f && !y.complete) st.flow
          (s.shipVerdict (s.fn f).tenant st xs) := if_pos hv

theorem State.shipmentReceive_waits (hv : s.shipVerdict (s.fn f).tenant st xs = stDone)
    (hp : s.pickHandles false (s.fn f).tenant xs.length = none) : s.shipmentReceive r f committed st xs complete = s := by
  unfold State.shipmentReceive
  dsimp only [State.tenantOfFn]
  rw [if_neg (not_not_intro hv), hp]

/-- R213: a new shipment whose images find handles: they land, and it is listed under the next number. -/
theorem State.shipmentReceive_new {hs : List Nat} {s1 : State}
    (hnew : s.serv.ships.find? (fun y => y.record == r && y.f == f && !y.complete) = none)
    (hv : s.shipVerdict (s.fn f).tenant st xs = stDone) (hp : s.pickHandles false (s.fn f).tenant xs.length = some (hs, s1)) :
    s.shipmentReceive r f committed st xs complete = { s1.landImages (hs.zip xs) with
      serv := (s1.landImages (hs.zip xs)).serv.listShip fun n =>
        ⟨n, f, r, committed.toNat, st, xs, hs, complete, s.hm.timeNs⟩ } := by
  unfold State.shipmentReceive
  dsimp only [State.tenantOfFn]
  rw [if_neg (not_not_intro hv), hp]
  dsimp only
  rw [hnew]
  rfl

theorem State.shipmentReceive_lands {hs : List Nat} {s1 : State}
    (hnew : s.serv.ships.find? (fun y => y.record == r && y.f == f && !y.complete) = none)
    (hv : s.shipVerdict (s.fn f).tenant st xs = stDone) (hp : s.pickHandles false (s.fn f).tenant xs.length = some (hs, s1)) :
    let t := s.shipmentReceive r f committed st xs complete
    hs.length = xs.length
      ∧ t.serv = s.serv.listShip (fun n => ⟨n, f, r, committed.toNat, st, xs, hs, complete, s.hm.timeNs⟩)
      ∧ t.cores = s.cores ∧ t.host = s.host := by
  obtain ⟨hlen, hpick⟩ := State.pickHandles_some hp
  have hland := (s1.exceptBerths_landImages (hs.zip xs)).trans hpick
  intro t
  have ht : t = _ := State.shipmentReceive_new committed complete hnew hv hp
  rw [ht]
  exact ⟨hlen, congrArg (fun v : Serving => v.listShip fun n =>
      ⟨n, f, r, committed.toNat, st, xs, hs, complete, s.hm.timeNs⟩) (State.serv_of_exceptBerths hland),
    (State.cores_of_exceptBerths hland).trans rfl, (State.host_of_exceptBerths hland).trans rfl⟩

end

/-- R214: an incomplete shipment is refused once its time is over. -/
theorem State.shipmentTimeout_open {s : State} {n : Nat} {y : Ship}
    (hy : s.serv.ships.find? (fun y => y.num == n && !y.complete) = some y) :
    y.num = n ∧ s.shipmentTimeout n
      = if s.shipTimeoutNs ≤ (s.hm.timeNs - y.since).toNat then s.refuseShip (some y) y.st.flow stTimeout else s := by
  have hnum := List.find?_some hy
  simp only [Bool.and_eq_true, beq_iff_eq] at hnum
  refine ⟨hnum.1, ?_⟩
  rw [State.shipmentTimeout, hy]

theorem State.shipmentTimeout_none {s : State} {n : Nat}
    (hy : s.serv.ships.find? (fun y => y.num == n && !y.complete) = none) : s.shipmentTimeout n = s := by
  rw [State.shipmentTimeout, hy]

/-! ## The placer's copies (R364 to R366) -/

@[simp] theorem State.plc_spLand (s : State) (c : CoreId) (off : Nat) (ws : List MWord) : (s.spLand c off ws).plc = s.plc :=
  (congrArg State.plc (s.exceptMem_wrWords (spKey c off) ws) : _)

@[simp] theorem State.plc_landSlice (s : State) (m : Manifest) (e : MoeSpec) (gang slot expert i : Nat) (only : Option Nat) :
    (s.landSlice m e gang slot expert i only).plc = s.plc := by
  unfold State.landSlice
  split
  · refine foldl_keeps State.plc (fun s p => ?_) _ _
    split
    · split
      · exact State.plc_spLand ..
      · rfl
    · rfl
  · rfl

/-- R366: a copy whose tile failed is given up; no memory changes, and one report at most is made. -/
theorem State.sliceFailed_frame (s : State) (m : Manifest) (e : MoeSpec) (c : Copy) (i : Nat) :
    (s.sliceFailed m e c i).mem = s.mem ∧ (s.sliceFailed m e c i).plc = (s.dropCopy c.layer c.expert).plc
      ∧ (s.sliceFailed m e c i).ms.reports.length ≤ s.ms.reports.length + 1 := by
  unfold State.sliceFailed
  dsimp only
  split
  · exact ⟨rfl, rfl, Nat.le_of_eq List.length_append⟩
  · exact ⟨rfl, rfl, Nat.le_succ _⟩

theorem State.spent_landCopy (s : State) (m : Manifest) (e : MoeSpec) (c : Copy) (is : List Nat) :
    (s.landCopy m e c is).plc.spent = s.plc.spent := by
  induction is generalizing s with
  | nil => rfl
  | cons i r ih =>
    unfold State.landCopy
    split
    · rw [ih, State.plc_landSlice]
    · rw [(s.sliceFailed_frame m e c i).2.1]; rfl

theorem State.placerCopy_none {s : State} {layer expert : Nat} (hc : s.plc.copies.find? (isCopy layer expert) = none) (bytes : Nat)
    (failed : Bool) : s.placerCopy layer expert bytes failed = s := by
  rw [State.placerCopy, hc]
  split
  · rename_i h; cases h
  · rfl

/-- Bytes of a copy that a command moves: no more than are asked for, than are left, and than the step's budget leaves. -/
def State.copyStep (s : State) (m : Manifest) (c : Copy) (bytes : Nat) : Nat := min bytes (min c.left (budgetOf m - s.plc.spent))

/-- The state in which `k` bytes of a copy have moved. -/
def State.copied (s : State) (layer expert k : Nat) : State :=
  { s with plc := { s.plc with
    copies := updFirst (isCopy layer expert) (fun c => { c with left := c.left - k }) s.plc.copies, spent := s.plc.spent + k } }

/-- The whole tiles among the first `b` bytes of an expert's slice. -/
def wholeTiles (e : MoeSpec) (b : Nat) : Nat := if b = e.sliceBytes then sliceTileCount e else b / 4096

/-- Bytes that complete no tile of a slice. -/
theorem noTiles {e : MoeSpec} {had k : Nat} (hk : had + k ≠ e.sliceBytes) (hhad : had ≠ e.sliceBytes)
    (hsame : (had + k) / 4096 = had / 4096) : (List.range (wholeTiles e (had + k))).drop (wholeTiles e had) = [] := by
  rw [wholeTiles, wholeTiles, if_neg hk, if_neg hhad, hsame]
  exact List.drop_eq_nil_of_le (Nat.le_of_eq List.length_range)

section
variable {s : State} {layer expert : Nat} {m : Manifest} {e : MoeSpec} {c : Copy} (hm : s.hm.man = some m)
  (he : s.moe layer = some e) (hc : s.plc.copies.find? (isCopy layer expert) = some c) (bytes : Nat)
include hm he hc

theorem State.placerCopy_failed :
    s.placerCopy layer expert bytes true = s.sliceFailed m e c ((e.sliceBytes - c.left) / 4096) := by
  rw [State.placerCopy, hm, he, hc]; rfl

theorem State.placerCopy_moves : s.placerCopy layer expert bytes false
    = (s.copied layer expert (s.copyStep m c bytes)).landCopy m e c
        ((List.range (wholeTiles e (e.sliceBytes - c.left + s.copyStep m c bytes))).drop (wholeTiles e (e.sliceBytes - c.left))) := by
  rw [State.placerCopy, hm, he, hc]; rfl

theorem State.placerCopy_noTile (hk : e.sliceBytes - c.left + s.copyStep m c bytes ≠ e.sliceBytes)
    (hhad : e.sliceBytes - c.left ≠ e.sliceBytes)
    (hsame : (e.sliceBytes - c.left + s.copyStep m c bytes) / 4096 = (e.sliceBytes - c.left) / 4096) :
    s.placerCopy layer expert bytes false = s.copied layer expert (s.copyStep m c bytes) := by
  rw [State.placerCopy_moves hm he hc, noTiles hk hhad hsame]; rfl

end

theorem isCopy_names {layer expert : Nat} {c : Copy} (h : isCopy layer expert c = true) : c.layer = layer ∧ c.expert = expert := by
  simp only [isCopy, Bool.and_eq_true, beq_iff_eq] at h
  exact h.1

end Sys2Proof.Machine

open Sys2Proof Sys2Proof.Machine

/-- Settles O39: moorings by what work on berths leaves alone, token records by what a completion ring does with a record, shipments
and copies by their outcomes. -/
theorem requestsAndShipmentsMove : Obligations.RequestsAndShipmentsMove := by
  refine ⟨fun h position step samples drafts q s hq => ⟨fun hp => ?_, fun hp => next_congr (State.mooringComplete_idle hq hp),
      fun hp httl hres => ?_, fun hno => ?_, fun hp hback => ?_, fun hp => next_congr (State.resumeMoved_idle hq hp), ?_,
      fun hno => next_congr (State.completionRecord_notSampling hq position _ hno)⟩,
    fun r f committed st xs complete n layer expert bytes s => ?_⟩
  · intro p hroom
    obtain ⟨hreq, hrec, hticket⟩ := mooringComplete_moored hq hp hroom
    exact ⟨_, _, rfl, hreq, rfl, rfl, rfl, rfl, rfl, hrec, hticket⟩
  · obtain ⟨e, hserv, hcount, hbbx, hcode, hhandle⟩ := s.expire_frame q
    rw [State.req_handle hq] at hserv hhandle
    exact ⟨_, e, next_congr ((State.mooringExpiry_eq hq).trans (if_pos ⟨hp, httl, hres⟩)), congrArg Serving.reqs hserv, hcount,
      congrArg (fun v : Serving => v.cmds ++ [.expire h]) hserv, hbbx, hcode, hhandle⟩
  · refine next_congr ((State.mooringExpiry_eq hq).trans (if_neg ?_))
    rintro ⟨hp, httl, hres⟩
    rcases hno with hno | hno | hno
    · exact hno hp
    · exact hno httl
    · exact Bool.false_ne_true (hres.symm.trans hno)
  · obtain ⟨hreq, hticket⟩ := State.resumeMoved_back hq hp hback
    exact ⟨_, _, rfl, hreq, hp, rfl, rfl, rfl, rfl, hticket⟩
  · intro c i hp hrows haborting haborted hstep
    obtain ⟨hnone, hsome⟩ := State.completionRecord_sampling hq position ⟨h, samples, drafts⟩ hp hrows haborting haborted hstep
    refine ⟨fun hk => next_congr (hnone hk), fun k hk => ⟨fun hno => next_congr ((hsome k hk).trans ?_),
      fun hpos hhome hserves hbm hkept hroom => ?_⟩⟩
    · rcases hno with hpos | hhome
      · exact if_neg hpos
      · rw [State.tokenRecord_elsewhere hq hhome, ite_self]
    · obtain ⟨hreq, hout, hprod, hmem⟩ := State.tokenRecord_home hq hhome (List.find?_some hk) hserves hbm hkept hroom
      exact ⟨_, next_congr ((hsome k hk).trans (if_pos hpos)), hreq, hout, hprod, hmem⟩
  · intro old verdict receive
    refine ⟨fun hold hv => ?_, fun y hold hv => ?_, fun hs s1 hold hv hp => ?_,
      fun hv hp => next_congr (State.shipmentReceive_waits committed complete hv hp), fun y hy htime => ?_, fun y hy htime => ?_,
      fun hy => next_congr (State.shipmentTimeout_none hy), fun hc x => next_congr (State.placerCopy_none hc bytes x),
      fun c m e hc hm he => ⟨?_, ?_⟩⟩
    · have hrefused := State.shipmentReceive_refused (r := r) committed complete hv
      rw [show s.serv.ships.find? _ = none from hold] at hrefused
      have hlinks := s.exceptLinks_answerShip st.flow verdict 0
      exact ⟨_, next_congr hrefused, State.serv_of_exceptLinks hlinks, State.mem_of_exceptLinks hlinks,
        State.cores_of_exceptLinks hlinks, fun hflow => State.answerShip_noFlow hflow _ _⟩
    · have hrefused := State.shipmentReceive_refused (r := r) committed complete hv
      rw [show s.serv.ships.find? _ = some y from hold] at hrefused
      exact ⟨_, next_congr hrefused, (s.refuseShip_some y st.flow verdict).1⟩
    · exact ⟨_, rfl, State.shipmentReceive_lands committed complete hold hv hp⟩
    · obtain ⟨hnum, hout⟩ := State.shipmentTimeout_open hy
      obtain ⟨hserv, hcores⟩ := s.refuseShip_some y y.st.flow stTimeout
      exact ⟨_, next_congr (hout.trans (if_pos htime)), hnum ▸ hserv, hcores⟩
    · exact next_congr ((State.shipmentTimeout_open hy).2.trans (if_neg (Nat.not_le.mpr htime)))
    · obtain ⟨hmem, hplc, hreports⟩ := s.sliceFailed_frame m e c ((e.sliceBytes - c.left) / 4096)
      obtain ⟨hlayer, hexpert⟩ := isCopy_names (List.find?_some hc)
      rw [hlayer, hexpert] at hplc
      exact ⟨_, next_congr (State.placerCopy_failed hm he hc bytes), hmem, hplc, hreports⟩
    · exact ⟨⟨_, next_congr (State.placerCopy_moves hm he hc bytes), State.spent_landCopy ..⟩,
        fun hk hhad hsame => next_congr (State.placerCopy_noTile hm he hc bytes hk hhad hsame)⟩

end

section
/-! PROOF. The control slot (R252): how a bundle with one control instruction issues, and its scalar result. -/

namespace Sys2Proof.Machine

open Decode

/-! ## A bundle whose slots hold one plan -/

/-- The row of a control instruction: the bundle that holds it and no-ops in the other slots. -/
abbrev issueCtl (c : CoreId) (i : CtlInstr) (s : State) : Host.Outcome State Fault Refusal :=
  .next (issueBundle c { Slots.nops with ctl := i } s)

theorem State.core_found_point (s : State) (c : CoreId) : (s.found c).core (s.point c).c = s.front c := s.core_found c

section Issue

variable {c : CoreId} {s : State} {b : Slots} {p : Plan} (h : canIssue c s)
variable (hps : plans (s.found c) (s.point c) b = oneOf 0 p)
include h hps

/-- A plan that neither waits nor faults acts on the core with its ranges taken, and control goes where it says. -/
theorem issueBundle_acts {rs : List SbEntry} {f : Flow} {act : State → State} (hp : p = ⟨none, 0, rs, f, act, []⟩)
    (hr : (s.front c).takes rs) :
    ∃ s1, s.onlyCore s1 c ((s.front c).place rs) ∧ issueBundle c b s = (act s1).modCore c fun k => s.issued c k f := by
  subst hp
  exact ⟨_, State.onlyCore_set (s.onlyCore_setCore c _) _, issueBundle_one 0 _ h hps rfl rfl rfl hr f rfl⟩

/-- A plan that only sends control on. -/
theorem issueBundle_flow {f : Flow} (hp : p = ⟨none, 0, [], f, id, []⟩) :
    ∃ t, (.next (issueBundle c b s) : Host.Outcome State Fault Refusal) = .next t
      ∧ s.onlyCore t c (s.issued c (s.front c) f) := by
  obtain ⟨s1, hs1, hb⟩ := issueBundle_acts h hps hp (s.front c).takes_nil
  rw [Core.place_nil] at hs1
  exact ⟨_, congrArg _ hb, State.onlyCore_modCore hs1 _⟩

/-- A plan that changes its core by `g` and sends control on. -/
theorem issueBundle_changes {f : Flow} {g : Core → Core} (hp : p = ⟨none, 0, [], f, fun s1 => s1.modCore c g, []⟩) :
    ∃ t, (.next (issueBundle c b s) : Host.Outcome State Fault Refusal) = .next t
      ∧ s.onlyCore t c (s.issued c (g (s.front c)) f) := by
  obtain ⟨s1, hs1, hb⟩ := issueBundle_acts h hps hp (s.front c).takes_nil
  rw [Core.place_nil] at hs1
  exact ⟨_, congrArg _ hb, State.onlyCore_modCore (State.onlyCore_modCore hs1 g) _⟩

end Issue

/-! ## Scalar results (R252) -/

section Result

variable {c : CoreId} {s : State} {i : CtlInstr} {lat : Nat} {rd : RegIx} {v : W64} (h : canIssue c s)
include h

theorem issueCtl_result (hplan : ctlPlan (s.found c) (s.point c) i = ctlResult (s.point c) lat rd fun _ => v) :
    ∃ t, issueCtl c i s = .next t ∧ s.onlyCore t c (s.issued c ((s.front c).putS (s.point c) 0 lat rd v) .seq) :=
  issueBundle_changes (b := { Slots.nops with ctl := i }) (g := fun k => k.putS (s.point c) 0 lat rd v) h
    (congrArg (oneOf 0) hplan) rfl

theorem issueCtl_alu (op : AluOp) (rd ra rb : RegIx) :
    ∃ t, issueCtl c (.alu op rd ra rb) s = .next t ∧ s.onlyCore t c
      (s.issued c ((s.front c).putS (s.point c) 0 1 rd (aluVal op ((s.front c).sreg ra) ((s.front c).sreg rb))) .seq) :=
  issueCtl_result h (by rw [← s.core_found_point c]; rfl)

theorem issueCtl_aluImm (op : AluImmOp) (rd ra : RegIx) (imm : W32) (hok : aluImmOk op imm = true) :
    ∃ t, issueCtl c (.aluImm op rd ra imm) s = .next t ∧ s.onlyCore t c
      (s.issued c ((s.front c).putS (s.point c) 0 1 rd (aluImmVal op ((s.front c).sreg ra) imm)) .seq) :=
  issueCtl_result h (by rw [← s.core_found_point c]; exact if_pos hok)

end Result

/-! ## Values of the operations (R252) -/

theorem aluVal_slt (a b : W64) : aluVal .slt a b = if a.toInt < b.toInt then 1 else 0 := by
  simp only [aluVal, flag64, BitVec.slt, decide_eq_true_eq]

theorem aluVal_sltu (a b : W64) : aluVal .sltu a b = if a.toNat < b.toNat then 1 else 0 := by
  simp only [aluVal, flag64, BitVec.ult, decide_eq_true_eq]

theorem aluVal_seq (a b : W64) : aluVal .seq a b = if a = b then 1 else 0 := by
  simp only [aluVal, flag64, beq_iff_eq]

/-- Of two equal numbers either is the lesser and the greater. -/
theorem ite_slt_eq_ite_le {a b x y : W64} (hxy : a = b → x = y) :
    (if a.slt b then x else y) = if a.toInt ≤ b.toInt then x else y := by
  simp only [BitVec.slt, decide_eq_true_eq]
  rcases Int.lt_trichotomy a.toInt b.toInt with hlt | heq | hgt
  · rw [if_pos hlt, if_pos (Int.le_of_lt hlt)]
  · rw [hxy (BitVec.toInt_inj.mp heq), ite_self, ite_self]
  · rw [if_neg (Int.not_lt.mpr (Int.le_of_lt hgt)), if_neg (Int.not_le.mpr hgt)]

theorem aluVal_min (a b : W64) : aluVal .min a b = if a.toInt ≤ b.toInt then a else b := ite_slt_eq_ite_le id

theorem aluVal_max (a b : W64) : aluVal .max a b = if a.toInt ≤ b.toInt then b else a := ite_slt_eq_ite_le Eq.symm

theorem toNat_setWidth_shift (sh : BitVec 6) : (sh.setWidth 32).toNat = sh.toNat := by
  rw [BitVec.toNat_setWidth]; omega

theorem aluImmOk_shift {op : AluImmOp} (sh : BitVec 6) (hop : op = .shli ∨ op = .shri ∨ op = .srai) :
    aluImmOk op (sh.setWidth 32) = true := by
  have hlt : (sh.setWidth 32).toNat < 64 := by rw [toNat_setWidth_shift]; omega
  rcases hop with rfl | rfl | rfl <;> exact decide_eq_true hlt

theorem getLsbD_lowMask (i : Nat) : (0xFFFFFFFF#64).getLsbD i = decide (i < 32) :=
  (show (0xFFFFFFFF#64).getLsbD i = (2 ^ 32 - 1).testBit i from rfl).trans (Nat.testBit_two_pow_sub_one 32 i)

/-- R252: LIH keeps the low half of its register. -/
theorem append_low_half (imm : W32) (v : W64) :
    imm ++ v.extractLsb' 0 32 = imm.setWidth 64 <<< 32 ||| (v &&& 0xFFFFFFFF#64) := by
  apply BitVec.eq_of_getLsbD_eq
  intro i hi
  simp only [BitVec.getLsbD_append, BitVec.getLsbD_or, BitVec.getLsbD_and, getLsbD_lowMask, BitVec.getLsbD_shiftLeft,
    BitVec.getLsbD_setWidth, BitVec.getLsbD_extractLsb']
  by_cases hlow : i < 32
  · simp [hlow]
  · simp [hlow, hi]
    omega

end Sys2Proof.Machine

open Sys2Proof Sys2Proof.Machine

/-- Settles O1: each row issues a bundle whose one result is the operation's value on the operands of the issue cc. -/
theorem scalarResults : Obligations.ScalarResults := by
  refine ⟨fun c rd ra rb s h => ?_, fun c rd ra imm sh s h => ?_, fun c rd imm s h => ?_⟩
  · have row (op : AluOp) := issueCtl_alu h op rd ra rb
    simp only [List.forall_mem_cons, ← aluVal_slt, ← aluVal_sltu, ← aluVal_seq, ← aluVal_min, ← aluVal_max]
    exact ⟨row .add, row .sub, row .and, row .or, row .xor, row .shl, row .shr, row .sra, row .slt, row .sltu, row .seq, row .min,
      row .max, fun _ hp => absurd hp List.not_mem_nil⟩
  · have row (op : AluImmOp) (hok : aluImmOk op imm = true) := issueCtl_aluImm h op rd ra imm hok
    have shift (op : AluImmOp) (hop : op = .shli ∨ op = .shri ∨ op = .srai) :=
      issueCtl_aluImm h op rd ra (sh.setWidth 32) (aluImmOk_shift sh hop)
    simp only [aluImmVal, toNat_setWidth_shift, Nat.mod_eq_of_lt sh.isLt] at shift
    simp only [List.forall_mem_cons, ← append_low_half]
    exact ⟨row .addi rfl, row .andi rfl, row .ori rfl, shift .shli (.inl rfl), shift .shri (.inr (.inl rfl)),
      shift .srai (.inr (.inr rfl)), issueCtl_result (i := .lih rd imm) h (by rw [← s.core_found_point c]; rfl),
      fun _ hp => absurd hp List.not_mem_nil⟩
  · exact issueCtl_result (i := .rdcr rd imm) h (by rw [← s.core_found_point c]; rfl)

end

section
/-! PROOF. Bundles without a result (R246 to R248): those that only move the sequencer on, and those that must wait. -/

namespace Sys2Proof.Machine

open Decode

/-! ## Bundles that only move the sequencer on -/

section Flow

variable {c : CoreId} {s : State} (h : canIssue c s)
include h

theorem issueBundle_nops :
    ∃ t, (.next (issueBundle c Slots.nops s) : Host.Outcome State Fault Refusal) = .next t
      ∧ s.onlyCore t c (s.issued c (s.front c) .seq) :=
  issueBundle_flow (p := Plan.nop) h rfl rfl

/-- R248: SBDRAIN with no scoreboard entry in use. -/
theorem issueCtl_sbdrain (hsb : (s.front c).sb.toList.all (·.isNone) = true) :
    ∃ t, issueCtl c .sbdrain s = .next t ∧ s.onlyCore t c (s.issued c (s.front c) .seq) := by
  have hplan : ctlPlan (s.found c) (s.point c) .sbdrain = ⟨none, 0, [], .seq, id, []⟩ := by
    have hany : (s.front c).sb.toList.any Option.isSome = false := by
      refine List.any_eq_false.mpr fun o ho => ?_
      rw [Option.isNone_iff_eq_none.mp (List.all_eq_true.mp hsb o ho)]
      exact Bool.false_ne_true
    rw [ctlPlan, s.core_found_point, hany]
    rfl
  exact issueBundle_flow (b := { Slots.nops with ctl := .sbdrain }) h (congrArg (oneOf 0) hplan) rfl

/-- R248: DFENCE with no transfer and no put under way. -/
theorem issueBundle_dfence (ht : (s.front c).dqu.transfers = []) (hp : (s.front c).dqu.puts = []) :
    ∃ t, (.next (issueBundle c { Slots.nops with mov := .dfence } s) : Host.Outcome State Fault Refusal) = .next t
      ∧ s.onlyCore t c (s.issued c (s.front c) .seq) := by
  have hplan : movPlan (s.found c) (s.point c) .dfence = Plan.nop := by
    rw [movPlan, dfencePlan, s.core_found_point, ht, hp]
    rfl
  exact issueBundle_flow (p := Plan.nop) (b := { Slots.nops with mov := .dfence }) h (congrArg (oneOf 3) hplan) rfl

/-- R246: END stops issue. -/
theorem issueCtl_endTask :
    ∃ t, issueCtl c .endTask s = .next t ∧ s.onlyCore t c (s.issued c (s.front c) .stop) :=
  issueBundle_flow (b := { Slots.nops with ctl := .endTask }) (f := .stop) h rfl rfl

end Flow

/-- R246: a task that issues its END has ended issue. -/
theorem Core.ended_afterIssue_stop {k : Core} (pc : Nat) (hk : k.seq.state ≠ .faulted) :
    (k.afterIssue pc .stop).seq.ended = true := by
  unfold Core.afterIssue
  simp only
  rw [if_neg hk]
  split <;> rfl

theorem canIssue_not_faulted {c : CoreId} {s : State} (h : canIssue c s) : (s.core c).seq.state ≠ .faulted := by
  obtain ⟨hmay, _⟩ := h
  intro hf
  simp [Core.mayIssue, hf] at hmay

/-! ## Bundles that wait -/

theorem stallWord_oneOf (k : Core) (i : Nat) {p : Plan} (hr : p.ranges = []) : k.stallWord (oneOf i p) = p.stall := by
  have hfold : (oneOf i p).foldl (fun n p => n ||| p.stall) 0 = p.stall := by unfold oneOf; split <;> simp [Plan.nop]
  unfold Core.stallWord
  simp only [oneOf_ranges, hr, hfold, Core.blockMask_nil]
  simp [stallIf, Core.freshWait]

/-- R248, R259, R268: the bundle does nothing, one cc passes, and SEQ_STALL holds the bits of what it waits for. -/
theorem issueBundle_waits {c : CoreId} {s : State} {b : Slots} {i bits : Nat} {p : Plan} (h : canIssue c s)
    (hps : plans (s.found c) (s.point c) b = oneOf i p) (hr : p.ranges = []) (hbits : p.stall = bits) (hne : bits ≠ 0) :
    let k := s.front c
    ∃ t, (.next (issueBundle c b s) : Host.Outcome State Fault Refusal) = .next t
      ∧ t = { s with cores := t.cores } ∧ (∀ d, d ≠ c → t.core d = s.core d)
      ∧ (t.core c).seq = { k.seq with state := .stalled, stall := BitVec.ofNat 64 bits, cc := k.seq.cc + 1 }
      ∧ (t.core c).ca = { k.ca with seqStallcc := bump k.ca.seqStallcc }
      ∧ (t.core c).s = k.s ∧ (t.core c).v = k.v ∧ (t.core c).m = k.m ∧ (t.core c).sb = k.sb ∧ (t.core c).pend = k.pend := by
  intro k
  have hpoint : ((s.found c).core c).point c = s.point c := by
    rw [s.core_found, State.point, Core.point, Core.point, State.front_seq]
  have hword : ((s.found c).core c).stallWord (oneOf i p) = bits := (stallWord_oneOf _ i hr).trans hbits
  have hstall := issueAt_stall (b := b) (oneOf i p) (by rw [hpoint]; exact hps) (by rw [hword]; exact hne)
  obtain ⟨hframe, hcore, hother⟩ := State.onlyCore_set (s.onlyCore_setCore c (s.front c))
    (((s.found c).core c).stalled b (oneOf i p) (((s.found c).core c).stallWord (oneOf i p)))
  refine ⟨_, congrArg _ ((issueBundle_eq h).trans hstall), hframe, hother, ?_⟩
  rw [hcore, hword, s.core_found]
  exact ⟨rfl, rfl, rfl, rfl, rfl, rfl, rfl⟩

theorem mem_allEngines (e : EngineId) : e ∈ allEngines := by revert e; decide

theorem pfence_any {k : Core} {m : BitVec 4} {b : Bool}
    (hw : (∃ e : EngineId, m.getLsbD e.val = true ∧ k.engines[e].queue ≠ []) ∨ (b = true ∧ k.builds ≠ [])) :
    ((allEngines.any fun e => inMask m e && k.engines[e].queue != []) || (b && k.builds != [])) = true := by
  rw [Bool.or_eq_true]
  rcases hw with ⟨e, hm, hq⟩ | ⟨hb, hk⟩
  · exact .inl (List.any_eq_true.mpr ⟨e, mem_allEngines e, by simpa [inMask, hm] using hq⟩)
  · exact .inr (by simpa [hb] using hk)

end Sys2Proof.Machine

open Sys2Proof Sys2Proof.Machine Sys2Proof.Decode

/-- Settles O2: the sequencer moves on, and nothing else of the core changes. -/
theorem bundlesWithoutAResult : Obligations.BundlesWithoutAResult := by
  intro c s h k
  refine ⟨fun i hi => ?_, issueCtl_sbdrain h, issueBundle_dfence h, ?_⟩
  · simp only [List.mem_cons, List.not_mem_nil, or_false] at hi
    rcases hi with rfl | rfl | rfl | rfl <;> exact issueBundle_nops h
  · obtain ⟨t, hb, ht⟩ := issueCtl_endTask h
    refine ⟨t, hb, ht, ?_⟩
    rw [State.core_of_onlyCore ht]
    exact Core.ended_afterIssue_stop _ (by rw [State.front_seq]; exact canIssue_not_faulted h)

/-- Settles O3: each of the three waits for what it names and stalls for one cc. -/
theorem waitingBundlesStall : Obligations.WaitingBundlesStall := by
  intro c s h k waits
  refine ⟨fun hsb => ?_, fun hw => ?_, fun m b hw => ?_⟩
  · refine issueBundle_waits (i := 0) (b := { Slots.nops with ctl := .sbdrain }) h rfl rfl ?_ (by unfold stallDrain; omega)
    rw [ctlPlan, s.core_found_point]
    exact if_pos hsb
  · refine issueBundle_waits (i := 3) (b := { Slots.nops with mov := .dfence }) h rfl rfl ?_ (by decide)
    rw [movPlan, dfencePlan, s.core_found_point]
    exact if_pos (by simpa only [Bool.or_eq_true, bne_iff_ne] using hw)
  · refine issueBundle_waits (i := 1) (b := { Slots.nops with pun := .pfence m b }) h rfl rfl ?_ (by decide)
    rw [punPlan, pfencePlan, s.core_found_point]
    exact if_pos (pfence_any hw)

end

section
/-! PROOF. Branches and loops (R252 to R254): which control instructions issue, and where each sends control. -/

namespace Sys2Proof.Machine

open Decode

/-- A loop opens where the nest has room and its body lies in the body that is open. -/
theorem loopPlan_opens {k : Core} {pc : BitVec 20} {count : Nat} {body : BitVec 12} (hcount : count < 2 ^ 32)
    (hdepth : k.seq.loops.length < 4)
    (hnest : ∀ f ∈ k.seq.loops.head?, pc.toNat + 32 * (body.toNat + 1) ≤ f.last ∧ f.last ≠ pc.toNat) :
    loopPlan k pc count body = ⟨none, 0, [], .loop count (body.toNat + 1), id, []⟩ := by
  unfold loopPlan
  refine if_neg ?_
  rintro (hbig | hdeep | hbad)
  · omega
  · omega
  · cases hloops : k.seq.loops with
    | nil => simp [hloops] at hbad
    | cons f r =>
      obtain ⟨hlast, hne⟩ := hnest f (by rw [hloops]; rfl)
      simp only [hloops, Bool.or_eq_true, decide_eq_true_eq, beq_iff_eq] at hbad
      omega

section Branches

variable {c : CoreId} {s : State} {i : CtlInstr} (h : canIssue c s)
include h

/-- R254: a taken branch whose target lies in the innermost open body. -/
theorem issueCtl_jump {t : Int} (hplan : ctlPlan (s.found c) (s.point c) i = takenPlan (s.front c) t id)
    (hin : (s.front c).inBody t = true) :
    ∃ u, issueCtl c i s = .next u ∧ s.onlyCore u c (s.issued c (s.front c) (.jump t)) :=
  issueBundle_flow (b := { Slots.nops with ctl := i }) h (congrArg (oneOf 0) (hplan.trans (if_pos hin))) rfl

/-- A branch that is not taken goes on. -/
theorem issueCtl_seq (hplan : ctlPlan (s.found c) (s.point c) i = Plan.nop) :
    ∃ u, issueCtl c i s = .next u ∧ s.onlyCore u c (s.issued c (s.front c) .seq) :=
  issueBundle_flow (b := { Slots.nops with ctl := i }) h (congrArg (oneOf 0) hplan) rfl

theorem issueCtl_jal (rd : RegIx) (imm : BitVec 24) (hin : (s.front c).inBody (branchTo (s.point c).pc imm) = true) :
    ∃ u, issueCtl c (.jal rd imm) s = .next u ∧ s.onlyCore u c
      (s.issued c ((s.front c).putS (s.point c) 0 1 rd (BitVec.ofNat 64 ((s.point c).pc.toNat + 32)))
        (.jump (branchTo (s.point c).pc imm))) := by
  have hplan : ctlPlan (s.found c) (s.point c) (.jal rd imm) = _ :=
    if_pos (c := _ = true) (by rw [s.core_found_point]; exact hin)
  exact issueBundle_changes (b := { Slots.nops with ctl := .jal rd imm })
    (g := fun k => k.putS (s.point c) 0 1 rd (BitVec.ofNat 64 ((s.point c).pc.toNat + 32))) h (congrArg (oneOf 0) hplan) rfl

/-- R252: JR goes to an offset of a bundle. -/
theorem issueCtl_jr {ra : RegIx} {t : Nat} (ht : t = ((s.front c).sreg ra).toNat % 2 ^ 20) (h32 : t % 32 = 0)
    (hin : (s.front c).inBody t = true) :
    ∃ u, issueCtl c (.jr ra) s = .next u ∧ s.onlyCore u c (s.issued c (s.front c) (.jump t)) := by
  subst ht
  refine issueCtl_jump h ?_ hin
  rw [ctlPlan, s.core_found_point]
  exact if_pos h32

theorem issueCtl_loop {count : Nat} {body : BitVec 12}
    (hplan : ctlPlan (s.found c) (s.point c) i = loopPlan (s.front c) (s.point c).pc count body) (hcount : count < 2 ^ 32)
    (hdepth : (s.front c).seq.loops.length < 4)
    (hnest : ∀ f ∈ (s.front c).seq.loops.head?,
      (s.core c).seq.pc.toNat + 32 * (body.toNat + 1) ≤ f.last ∧ f.last ≠ (s.core c).seq.pc.toNat) :
    ∃ u, issueCtl c i s = .next u ∧ s.onlyCore u c (s.issued c (s.front c) (.loop count (body.toNat + 1))) :=
  issueBundle_flow (b := { Slots.nops with ctl := i }) h
    (congrArg (oneOf 0) (hplan.trans (loopPlan_opens hcount hdepth hnest))) rfl

end Branches

end Sys2Proof.Machine

open Sys2Proof Sys2Proof.Machine

/-- Settles O4: a taken branch and a loop send control on where the nest of open bodies allows it. -/
theorem branchesAndLoopsIssue : Obligations.BranchesAndLoopsIssue := by
  refine ⟨fun c rd ra imm s h => ?_, fun c ra count body s h => ?_⟩
  · intro k x t1 t2
    refine ⟨fun hin => ⟨?_, fun hz => ?_, fun hz => ?_, issueCtl_jal h rd imm hin⟩, fun hz => ?_, fun hz => ?_,
      fun h32 hin => issueCtl_jr h rfl h32 hin⟩
    · exact issueCtl_jump (i := .jmp imm) h (by rw [ctlPlan, s.core_found_point]; rfl) hin
    · exact issueCtl_jump (i := .bz ra imm) h (by rw [ctlPlan, s.core_found_point]; exact if_pos hz) hin
    · exact issueCtl_jump (i := .bnz ra imm) h (by rw [ctlPlan, s.core_found_point]; exact if_neg hz) hin
    · exact issueCtl_seq (i := .bz ra imm) h (by rw [ctlPlan, s.core_found_point]; exact if_neg hz)
    · exact issueCtl_seq (i := .bnz ra imm) h (by rw [ctlPlan, s.core_found_point]; exact if_pos hz)
  · intro k pc hdepth hnest
    refine ⟨issueCtl_loop (i := .loopi count body) h ?_ (by omega) hdepth hnest, fun hcount =>
      issueCtl_loop (i := .loop ra body) h ?_ hcount hdepth hnest⟩
    · rw [ctlPlan, s.core_found_point]
    · rw [ctlPlan, s.core_found_point]

end

section
/-! PROOF. Where control goes after a bundle (R253, R254): sequential issue, branches, loops and their ends. -/

namespace Sys2Proof.Machine

/-! ## The sequencer on its way to its next bundle -/

/-- R253: the sequencer once the bundle at `pc` has sent it to offset `t`, with these bodies open, `cost` cc later. -/
def Seq.toward (q : Seq) (pc : Nat) (frames : List LoopFrame) (t cost : Nat) : Seq :=
  { q with
    ibuf := fetched q.ibuf pc, loops := frames, pc := BitVec.ofNat 20 t, cc := q.cc + 1, fetchAt := q.cc + cost }

theorem toNat_offset {t : Nat} (ht : t < 2 ^ 20) : (BitVec.ofNat 20 t).toNat = t :=
  (BitVec.toNat_ofNat ..).trans (Nat.mod_eq_of_lt ht)

theorem not_outside_window {t : Nat} (ht : t < 2 ^ 20) : ¬((t : Int) < 0 ∨ (Config.windowBytes : Int) ≤ t) := by
  simp only [Config.windowBytes]
  omega

section Flow

variable {k : Core} {pc : Nat}

theorem Core.flow_seq {frames : List LoopFrame} {t cost : Nat} (hend : loopEnd pc k.seq.loops = (frames, t, cost))
    (hwin : t < 2 ^ 20) : (k.flow pc .seq).seq = k.seq.toward pc frames t cost := by
  simp only [Core.flow, hend]
  exact congrArg Core.seq (if_neg (not_outside_window hwin))

theorem Core.flow_jump {t : Nat} (hwin : t < 2 ^ 20) :
    (k.flow pc (.jump t)).seq = k.seq.toward pc k.seq.loops t (if t / 128 ∈ fetched k.seq.ibuf pc then 2 else 8) := by
  simp only [Core.flow, Int.toNat_natCast, List.contains_iff_mem]
  exact congrArg Core.seq (if_neg (not_outside_window hwin))

theorem Core.flow_loop {n : Nat} (body : Nat) (hn : 0 < n) (hwin : pc + 32 < 2 ^ 20) :
    (k.flow pc (.loop n body)).seq
      = k.seq.toward pc (⟨pc + 32, pc + 32 * body, n - 1⟩ :: k.seq.loops) (pc + 32) 1 :=
  congrArg Core.seq ((if_neg (Nat.ne_of_gt hn)).trans (if_neg (not_outside_window hwin)))

/-- R254: a count of zero goes behind the body. -/
theorem Core.flow_loop_zero {body t cost : Nat} {frames : List LoopFrame}
    (hend : loopEnd (pc + 32 * body) k.seq.loops = (frames, t, cost)) (hwin : t < 2 ^ 20) :
    (k.flow pc (.loop 0 body)).seq = k.seq.toward pc frames t 2 := by
  simp only [Core.flow, hend]
  exact congrArg Core.seq (if_neg (not_outside_window hwin))

end Flow

/-- R248: the core whose bundle issues, before control goes on. -/
def Core.issuing (k : Core) : Core :=
  { k with
    seq := { k.seq with stall := 0, wdogCount := 0, issues := k.seq.issues + 1, state := .running }
    dqu := { k.dqu with takeWait := false, fenceWait := false }
    ca := { k.ca with seqBundles := bump k.ca.seqBundles } }

theorem Core.afterIssue_seq {k : Core} {pc : Nat} {f : Flow} {q : Seq} (hk : k.seq.state ≠ .faulted)
    (hstep : k.seq.stepOnce = false) (hq : (k.issuing.flow pc f).seq = q) :
    (k.afterIssue pc f).seq = { q with stepOnce := false, passBreak := false } := by
  subst hq
  exact congrArg Core.seq ((if_neg hk).trans (if_neg fun hstop => by simp [hstep] at hstop))

/-! ## Ends of loop bodies (R254) -/

theorem loopEnd_again {f : LoopFrame} (r : List LoopFrame) (hleft : 0 < f.left) : loopEnd f.last (f :: r)
    = ({ f with left := f.left - 1 } :: r, f.first, if f.last + 32 - f.first ≤ 64 * 32 then 1 else 8) := by
  rw [loopEnd, if_neg fun hne => hne rfl, if_neg (by omega)]

theorem loopEnd_inside {pc : Nat} {l : List LoopFrame} (hl : ∀ g ∈ l.head?, g.last ≠ pc) : loopEnd pc l = (l, pc + 32, 1) := by
  cases l with
  | nil => rfl
  | cons g r => exact if_pos (hl g rfl)

/-- The last pass of a body goes on behind it, unless an outer body ends there too. -/
theorem loopEnd_over {f : LoopFrame} {r : List LoopFrame} (hleft : f.left = 0) (hr : ∀ g ∈ r, g.last ≠ f.last) :
    loopEnd f.last (f :: r) = (r, f.last + 32, 1) := by
  rw [loopEnd, if_neg fun hne => hne rfl, if_pos hleft]
  exact loopEnd_inside fun g hg => hr g (List.mem_of_head? hg)

end Sys2Proof.Machine

open Sys2Proof Sys2Proof.Machine

/-- Settles O5: control goes to where the flow and the open bodies send it, that lying in the window. -/
theorem whereControlGoes : Obligations.WhereControlGoes := by
  refine ⟨fun k pc hk hloops hstep => ⟨fun hwin => ?_, fun t hwin => ?_, fun n body hn hwin => ?_, fun body hwin => ?_⟩,
    fun k f r hk hloops hstep hfirst hlast => ⟨fun hleft => ?_, fun hleft hr => ?_, fun pc hpc hwin => ?_⟩⟩
  · have hend : loopEnd pc k.issuing.seq.loops = ([], pc + 32, 1) := by rw [Core.issuing, hloops]; rfl
    rw [Core.afterIssue_seq hk hstep (Core.flow_seq hend hwin)]
    exact ⟨toNat_offset hwin, rfl, rfl, rfl⟩
  · rw [Core.afterIssue_seq hk hstep (Core.flow_jump hwin)]
    exact ⟨toNat_offset hwin, rfl, rfl, rfl⟩
  · rw [Core.afterIssue_seq hk hstep (Core.flow_loop body hn hwin)]
    exact ⟨congrArg _ hloops, toNat_offset hwin, rfl⟩
  · have hend : loopEnd (pc + 32 * body) k.issuing.seq.loops = ([], pc + 32 * body + 32, 1) := by rw [Core.issuing, hloops]; rfl
    rw [Core.afterIssue_seq hk hstep (Core.flow_loop_zero hend hwin)]
    exact ⟨toNat_offset hwin, rfl⟩
  · have hend := (congrArg (loopEnd f.last) hloops).trans (loopEnd_again r hleft)
    rw [Core.afterIssue_seq hk hstep (Core.flow_seq hend hfirst)]
    exact ⟨toNat_offset hfirst, rfl⟩
  · have hend := (congrArg (loopEnd f.last) hloops).trans (loopEnd_over hleft hr)
    rw [Core.afterIssue_seq hk hstep (Core.flow_seq hend hlast)]
    exact ⟨toNat_offset hlast, rfl⟩
  · have hend := (congrArg (loopEnd pc) hloops).trans (loopEnd_inside (l := f :: r) fun g hg => by
      obtain rfl := Option.mem_some.mp hg
      exact hpc.symm)
    rw [Core.afterIssue_seq hk hstep (Core.flow_seq hend hwin)]
    exact ⟨toNat_offset hwin, rfl⟩

end

section
/-! PROOF. SLD and SST (R252): 8 aligned bytes of the core's own scratchpad. -/

namespace Sys2Proof.Machine

open Decode

section Scratchpad

variable {c : CoreId} {s : State} {ra : RegIx} {imm : BitVec 20} {a : Nat} {rs : List SbEntry} (h : canIssue c s)
variable (ha : a = (s.front c).addr ra imm) (h8 : a % 8 = 0) (hwin : a + 8 ≤ 2 ^ 20) (hr : (s.front c).takes rs)
include h ha h8 hwin hr

theorem issueCtl_sld (rd : RegIx) (hrs : rs = [spRange .read a 8 (.atCc ((s.point c).now + 2))]) (hs : s.calm c = true)
    (hp : s.spPoison? c a 8 = none) :
    ∃ t, issueCtl c (.sld rd ra imm) s = .next t ∧ s.onlyCore t c (s.issued c
      (((s.front c).place rs).putS (s.point c) 0 4 rd (BitVec.ofNat 64 (s.spRd c a 8))) .seq) := by
  subst ha
  have hplan : ctlPlan (s.found c) (s.point c) (.sld rd ra imm)
      = ⟨none, 0, rs, .seq, readOr (s.point c) 0 .seq ((s.front c).addr ra imm) 8 fun t => t.modCore c fun k =>
          k.putS (s.point c) 0 4 rd (BitVec.ofNat 64 (t.spRd c ((s.front c).addr ra imm) 8)), []⟩ := by
    rw [ctlPlan, s.core_found_point, hrs]
    exact if_pos ⟨h8, decide_eq_true hwin⟩
  obtain ⟨s1, hs1, hb⟩ := issueBundle_acts (b := { Slots.nops with ctl := .sld rd ra imm }) h (congrArg (oneOf 0) hplan) rfl hr
  have hcalm := State.calm_onlyCore hs hs1 ((Core.place_upsets ..).trans (s.front_upsets c))
  rw [readOr_reads (s.point c) 0 .seq _ 8 _ hcalm hwin ((State.spPoison?_onlyCore hs1 c _ 8).trans hp)] at hb
  rw [← State.spRd_onlyCore hs1 c]
  exact ⟨_, congrArg Host.Outcome.next hb, State.onlyCore_modCore (State.onlyCore_modCore hs1 _) fun k => s.issued c k .seq⟩

theorem issueCtl_sst (rb : RegIx) (hrs : rs = [spRange .write a 8 (.atCc ((s.point c).now + 2))]) :
    ∃ t, issueCtl c (.sst ra rb imm) s = .next t ∧ s.coreAndBytes t c (s.issued c ((s.front c).place rs) .seq) (spKey c a)
      (leBytes 8 ((s.front c).sreg rb).toNat) := by
  subst ha
  have hplan : ctlPlan (s.found c) (s.point c) (.sst ra rb imm)
      = ⟨none, 0, rs, .seq, fun t => t.spWr c ((s.front c).addr ra imm) 8 ((s.front c).sreg rb).toNat, []⟩ := by
    rw [ctlPlan, s.core_found_point, hrs]
    exact if_pos ⟨h8, decide_eq_true hwin⟩
  obtain ⟨s1, hs1, hb⟩ := issueBundle_acts (b := { Slots.nops with ctl := .sst ra rb imm }) h (congrArg (oneOf 0) hplan) rfl hr
  have hwrite := s1.coreAndBytes_wrBytes c (spKey c ((s.front c).addr ra imm)) (leBytes 8 ((s.front c).sreg rb).toNat)
  rw [State.core_of_onlyCore hs1] at hwrite
  exact ⟨_, congrArg Host.Outcome.next hb,
    State.coreAndBytes_modCore (State.coreAndBytes_after_onlyCore hs1 hwrite) fun k => s.issued c k .seq⟩

end Scratchpad

end Sys2Proof.Machine

open Sys2Proof Sys2Proof.Machine

/-- Settles O7: both take their range and reach the 8 bytes at the address. -/
theorem scalarLoadsAndStores : Obligations.ScalarLoadsAndStores := by
  intro c rd ra rb imm s h k x a h8 hwin
  exact ⟨fun hs hr hp => issueCtl_sld h rfl h8 hwin hr rd rfl hs hp, fun hr => issueCtl_sst h rfl h8 hwin hr rb rfl⟩

end

section
/-! PROOF. The stored bundle (R248, R263): what BUNDLE_ISSUE does once the bundle at the program counter has been read. -/

namespace Sys2Proof.Machine

variable {c : CoreId} {s : State} (h : canIssue c s)
include h

/-- A core that may issue is found as its next bundle finds it, and goes on. -/
theorem beforeIssue_eq (go : State → State) : beforeIssue c s go = go (s.found c) := by
  obtain ⟨hmay, hstate, hfetch, hbreak, hlo, hhi⟩ := h
  have h3 : (s.hm.state == 3) = false := beq_false_of_ne hstate
  unfold beforeIssue
  simp only [hmay, h3, hbreak]
  rw [if_neg (by decide), if_neg (by omega), if_neg (by decide), if_neg (by omega)]
  rfl

variable (hs : s.calm c = true) {pc : BitVec 20} (hpc : pc = (s.core c).seq.pc) (hwin : pc.toNat + 32 ≤ 2 ^ 20)
include hs hpc hwin

/-- R263: where no bit error lies, reading the bundle finds what stands there. -/
theorem issueNext_eq : issueNext c s = (s.spPoison? c pc.toNat 32).elim
    (issueBundle c (Decode.bundle (s.spRd c pc.toNat 32)) s) fun o => (s.found c).raiseFetch c 0x0906 o := by
  have hfound : ((s.found c).core c).seq.pc = pc := by rw [s.core_found, State.front_seq, hpc]
  have hread : (s.found c).senseSp c pc.toNat 32 = s.found c := State.senseSp_calm (State.calm_front hs) _ _ hwin
  have hpoison := State.spPoison?_onlyCore (s.onlyCore_setCore c (s.front c)) c pc.toNat 32
  rw [issueNext, beforeIssue_eq h, issueBundle_eq h]
  simp only [hfound, hread, hpoison]
  cases s.spPoison? c pc.toNat 32 <;> rfl

theorem issueNext_clean (hp : s.spPoison? c pc.toNat 32 = none) :
    issueNext c s = issueBundle c (Decode.bundle (s.spRd c pc.toNat 32)) s := by
  rw [issueNext_eq h hs hpc hwin, hp, Option.elim_none]

theorem issueNext_poisoned {o : Nat} (hp : s.spPoison? c pc.toNat 32 = some o) :
    s.onlyCore (issueNext c s) c
      (Core.raise { s.front c with seq := { (s.front c).seq with stall := 0 } } ⟨0x0906, 0, 0, pc, o, .seq⟩) := by
  have hfront : (s.front c).seq.pc = pc := by rw [State.front_seq, hpc]
  rw [issueNext_eq h hs hpc hwin, hp, Option.elim_some, ← hfront]
  exact State.onlyCore_modCore (s.onlyCore_setCore c (s.front c)) _

end Sys2Proof.Machine

open Sys2Proof Sys2Proof.Machine

/-- Settles O21: the words at the program counter are read; a poisoned one faults, and else they issue. -/
theorem storedBundlesIssue : Obligations.StoredBundlesIssue := by
  intro c s h hs hwin pc k
  exact ⟨fun hp => ⟨_, rfl, issueNext_clean h hs rfl hwin hp⟩, fun o hp => ⟨_, rfl, issueNext_poisoned h hs rfl hwin hp⟩⟩

end

section
/-! PROOF. Registers of a core beside its bundles: scoreboard entries that free, the watchdog (R255, R259, R265), bank power
(R261) and the idle scrubber (R264). -/

namespace Sys2Proof.Machine

theorem State.onlyCore_modSeq {s t : State} {c : CoreId} {k : Core} (h : s.onlyCore t c k) (f : Seq → Seq) :
    s.onlyCore (t.modSeq c f) c { k with seq := f k.seq } := State.onlyCore_modCore h _

/-! ## Scoreboard entries that free (R255) -/

theorem Core.sweep_free {k : Core} {n now : Nat} {e : SbEntry} (hn : n < 32) (he : k.sb[n]! = some e)
    (hover : e.live now = false) : (k.sweep now).sb[n]! = none := by
  rw [getElem!_pos k.sb n hn] at he
  rw [Core.sweep, getElem!_pos _ n hn, Vector.getElem_map, he]
  simp [hover]

/-- R255: the core's clock moves past the entry's last cc, and every entry that is over by then is free. -/
theorem State.freeRange_atCc {s : State} {c : CoreId} {n t0 : Nat} {e : SbEntry} (he : (s.core c).sb[n]! = some e)
    (hfree : e.free = .atCc t0) : ∃ a, s.onlyCore (s.freeRange c n) c (Core.sweep { s.core c with
      seq := { (s.core c).seq with cc := max (s.core c).seq.cc (t0 + 1) }, ca := a } (max (s.core c).seq.cc (t0 + 1))) := by
  unfold State.freeRange
  simp only [he, hfree]
  exact ⟨_, s.onlyCore_setCore c _⟩

theorem SbEntry.live_atCc {e : SbEntry} {t0 now : Nat} (hfree : e.free = .atCc t0) (h : t0 < now) : e.live now = false := by
  rw [SbEntry.live, hfree]
  exact decide_eq_false (Nat.not_le.mpr h)

/-! ## The watchdog (R259) -/

/-- R259, R264: the core as its watchdog fires: the count at its limit, the scoreboard kept as it stands. -/
def Core.watched (k : Core) : Core :=
  { k with seq := { k.seq with wdogCount := k.seq.wdogLimit.toNat, frozen := some (k.sweep k.seq.cc).sb } }

theorem State.watchdogFire_stalls {s : State} {c : CoreId}
    (h : ((s.core c).seq.state = .stalled ∧ (s.core c).seq.fetchAt ≤ (s.core c).seq.cc) ∨ (s.core c).seq.state = .ending) :
    s.onlyCore (s.watchdogFire c) c
      ((s.core c).watched.raise ⟨0x0908, 0, 0, (s.core c).seq.pc, (s.core c).seq.wdogLimit.toNat, .seq⟩) := by
  rw [show s.watchdogFire c = _ from if_pos h]
  exact s.onlyCore_setCore c _

theorem Core.raise_frozen (k : Core) (f : FaultReq) : (k.raise f).seq.frozen = k.seq.frozen := by
  unfold Core.raise
  split <;> rfl

theorem wdogLimit_clamp (v : W64) :
    (BitVec.ofNat 28 (min (max (fld v.toNat 0 28) 250) 250000000) : BitVec 28)
      = if v.toNat % 2 ^ 28 < 250 then 250#28
        else if 250000000 < v.toNat % 2 ^ 28 then 250000000#28 else BitVec.ofNat 28 (v.toNat % 2 ^ 28) := by
  rw [fld, Nat.pow_zero, Nat.div_one]
  generalize v.toNat % 2 ^ 28 = n
  split
  · rw [show min (max n 250) 250000000 = 250 by omega]
  · split
    · rw [show min (max n 250) 250000000 = 250000000 by omega]
    · rw [show min (max n 250) 250000000 = n by omega]

/-! ## Bank power (R261) -/

theorem Sparse.get_filter_key {α : Type} (d : α) (l : List (Nat × α)) (p : Nat → Bool) (i : Nat) :
    Sparse.get d (l.filter fun q => p q.1) i = if p i then Sparse.get d l i else d := by
  induction l with
  | nil => exact (ite_self d).symm
  | cons q r ih =>
    by_cases hi : i = q.1
    · subst hi
      by_cases hp : p q.1 = true
      · simp [Sparse.get, hp]
      · simp [hp, ih]
    · by_cases hp : p q.1 = true
      · simp [Sparse.get, hp, hi, ih]
      · simp [Sparse.get, hp, hi, ih]

/-- R261: whether a byte lies in bank `b` of a core's scratchpad. -/
def inBank (c : CoreId) (b key : Nat) : Bool :=
  decide (spKey c (b * 0x10000) ≤ key) && decide (key < spKey c (b * 0x10000) + 0x10000)

theorem inBank_spKey (c : CoreId) (b o : Nat) : inBank c b (spKey c o) = decide (b = o / 2 ^ 16) := by
  rw [inBank, ← Bool.decide_and]
  simp only [spKey]
  congr 1
  exact propext (by omega)

theorem inBank_outside {c : CoreId} {b key : Nat} (hb : b < 16) (h : key < spKey c 0 ∨ spKey c 0 + 2 ^ 20 ≤ key) :
    inBank c b key = false := by
  rw [inBank, ← Bool.decide_and, decide_eq_false_iff_not]
  simp only [spKey] at h ⊢
  omega

theorem State.byte_zeroBank (s : State) (c : CoreId) (b key : Nat) :
    (s.zeroBank c b).byte key = if inBank c b key then 0 else s.byte key := by
  have hfilter := Sparse.get_filter_key memDefault s.mem (fun i => !inBank c b i) key
  refine hfilter.trans ?_
  cases inBank c b key <;> rfl

/-- The powered banks of a list are zeroed, one after another. -/
theorem State.byte_zeroEach (s : State) (c : CoreId) (on : W16) (key : Nat) (l : List Nat) :
    (l.foldl (fun s b => if on.getLsbD b then s.zeroBank c b else s) s).byte key
      = if l.any fun b => on.getLsbD b && inBank c b key then 0 else s.byte key := by
  induction l generalizing s with
  | nil => rfl
  | cons b r ih =>
    rw [List.foldl_cons, ih, List.any_cons]
    cases on.getLsbD b
    · rfl
    · rw [if_pos rfl, State.byte_zeroBank]
      cases inBank c b key
      · rfl
      · exact ite_self 0

theorem State.byte_zeroBanks_in (s : State) (c : CoreId) (on : W16) {o : Nat} (ho : o < 2 ^ 20) :
    (s.zeroBanks c on).byte (spKey c o) = if on.getLsbD (o / 2 ^ 16) then 0 else s.byte (spKey c o) := by
  have hany : ((List.range 16).any fun b => on.getLsbD b && inBank c b (spKey c o)) = on.getLsbD (o / 2 ^ 16) := by
    rw [Bool.eq_iff_iff, List.any_eq_true]
    simp only [inBank_spKey, Bool.and_eq_true, decide_eq_true_eq, List.mem_range]
    refine ⟨?_, fun h => ⟨_, by omega, h, rfl⟩⟩
    rintro ⟨b, _, h, rfl⟩
    exact h
  rw [State.zeroBanks, State.byte_zeroEach, hany]

theorem State.byte_zeroBanks_out (s : State) (c : CoreId) (on : W16) {key : Nat}
    (h : key < spKey c 0 ∨ spKey c 0 + 2 ^ 20 ≤ key) : (s.zeroBanks c on).byte key = s.byte key := by
  have hany : ((List.range 16).any fun b => on.getLsbD b && inBank c b key) = false := by
    refine List.any_eq_false.mpr fun b hb => ?_
    rw [inBank_outside (List.mem_range.mp hb) h, Bool.and_false]
    exact Bool.false_ne_true
  rw [State.zeroBanks, State.byte_zeroEach, hany]
  rfl

theorem State.cores_zeroBanks (s : State) (c : CoreId) (on : W16) : (s.zeroBanks c on).cores = s.cores :=
  foldl_keeps State.cores (fun s b => by split <;> rfl) (List.range 16) s

theorem State.core_zeroBanks (s : State) (c : CoreId) (on : W16) (d : CoreId) : (s.zeroBanks c on).core d = s.core d :=
  State.core_congr (s.cores_zeroBanks c on) d

theorem getLsbD_up {b : Nat} (on was : W16) (hb : b < 16) : (on &&& ~~~was).getLsbD b = (on.getLsbD b && !was.getLsbD b) := by
  rw [BitVec.getLsbD_and, BitVec.getLsbD_not, decide_eq_true hb, Bool.true_and]

/-- R261: some bank powers up. -/
theorem up_ne_zero_iff (on was : W16) :
    (on &&& ~~~was != 0) = true ↔ ∃ b < 16, on.getLsbD b = true ∧ was.getLsbD b = false := by
  rw [bne_iff_ne]
  constructor
  · intro hne
    refine Classical.byContradiction fun hnone => hne (BitVec.eq_of_getLsbD_eq fun b hb => ?_)
    refine (getLsbD_up on was hb).trans (Eq.trans ?_ BitVec.getLsbD_zero.symm)
    exact Bool.eq_false_iff.mpr fun hbit => hnone ⟨b, hb, by simpa using hbit⟩
  · rintro ⟨b, hb, hon, hwas⟩ hzero
    have hbit := getLsbD_up on was hb
    rw [hzero, hon, hwas, BitVec.ofNat_eq_ofNat, BitVec.getLsbD_zero] at hbit
    exact Bool.false_ne_true hbit

/-- R261: the write to an idle core's bank power. -/
theorem State.bankpwrWrite_idle {s : State} {c : CoreId} (hu : s.usable c = true) (hi : (s.core c).seq.state = .idle) (on : W16) :
    s.bankpwrWrite c on = (s.zeroBanks c (on &&& ~~~(s.core c).seq.bankOn)).modSeq c fun q =>
      { q with bankOn := on, filling := q.filling || on &&& ~~~(s.core c).seq.bankOn != 0 } :=
  if_neg (by simp [hu, hi])

/-! ## The idle scrubber (R264) -/

/-- The words of a scrubber access lie in the scratchpad. -/
theorem Core.scrubAt_inWindow {k : Core} {p first : Nat} (h : k.scrubAt p = (.scratchpad, first)) : 8 * first + 64 ≤ 2 ^ 20 := by
  unfold Core.scrubAt at h
  simp only at h
  split at h
  next hp =>
    obtain ⟨_, rfl⟩ := Prod.mk.inj h
    have hlt : p / 1024 < k.banks.length := by omega
    have hbank : k.banks.getD (p / 1024) 0 < 16 := by
      rw [List.getD_eq_getElem?_getD, List.getElem?_eq_getElem hlt, Option.getD_some]
      exact List.mem_range.mp (List.mem_filter.mp (List.getElem_mem hlt)).1
    omega
  next => split at h <;> cases h

theorem State.onlyCore_senseCore {s : State} {c : CoreId} (h : s.calm c = true) (hit : ScrubFind → Bool) :
    s.onlyCore (s.senseCore c hit) c (s.core c) := by
  rw [State.senseCore_calm h]
  exact s.onlyCore_setCore c _

/-- Where no bit error lies, a scrubber access finds nothing. -/
theorem State.onlyCore_senseWords {s : State} {c : CoreId} (h : s.calm c = true) (p : Nat) :
    s.onlyCore (s.senseWords c ((s.core c).scrubAt p).1 ((s.core c).scrubAt p).2) c (s.core c) := by
  rcases hat : (s.core c).scrubAt p with ⟨mem, first⟩
  cases mem with
  | scratchpad =>
    rw [show s.senseWords c .scratchpad first = s from State.senseSp_calm h _ _ (Core.scrubAt_inWindow hat)]
    exact s.onlyCore_refl c
  | punnet => exact State.onlyCore_senseCore h _
  | accumulator => exact State.onlyCore_senseCore h _

/-- An access that nothing has struck before, and that finds nothing: the pass moves on, and at its end it counts. -/
theorem State.scrubAccess_calm {s : State} {c : CoreId} (hu : s.usable c = true) (hs : s.calm c = true) :
    s.onlyCore (s.scrubAccess c []) c
      (if (s.core c).seq.scrubPos + 1 < (s.core c).passLength then
        { s.core c with seq := { (s.core c).seq with scrubPos := (s.core c).seq.scrubPos + 1 } }
      else { s.core c with
        seq := { (s.core c).seq with scrubPos := 0 }
        ca := { (s.core c).ca with spdPasses := bump (s.core c).ca.spdPasses } }) := by
  have hsense := State.onlyCore_senseWords hs (s.core c).seq.scrubPos
  rw [show s.scrubAccess c [] = _ from if_neg (by simp [hu])]
  simp only
  split
  · exact State.onlyCore_modSeq hsense _
  · exact State.onlyCore_modCore (State.onlyCore_modSeq hsense _) _

end Sys2Proof.Machine

open Sys2Proof Sys2Proof.Machine

/-- Settles O24: each command of a core's registers and scoreboard does what its rule says of that core. -/
theorem coreRegistersAndScoreboard : Obligations.CoreRegistersAndScoreboard := by
  refine ⟨fun c s => ⟨fun n e t0 he hfree => ?_, fun hstate hfault => ?_⟩,
    fun c on v s => ⟨?_, fun hu hi => ?_, fun hf => ?_, fun hu hs => ⟨fun hlt => ?_, fun hge => ?_⟩⟩⟩
  · obtain ⟨a, hframe, hcore, hother⟩ := State.freeRange_atCc he hfree
    refine ⟨_, rfl, hframe, hother, ?_⟩
    rw [hcore]
    exact ⟨Core.sweep_free n.isLt he (SbEntry.live_atCc hfree (by omega)), rfl, rfl, rfl, rfl, rfl, rfl⟩
  · obtain ⟨hframe, hcore, hother⟩ := State.watchdogFire_stalls hstate
    obtain ⟨f, hrec, hfaulted, hcause, hbundle, hdetail, hstall, hs, hv, hacc, hdqu, hsb⟩ :=
      (s.core c).watched.raise_first ⟨0x0908, 0, 0, (s.core c).seq.pc, (s.core c).seq.wdogLimit.toNat, .seq⟩ hfault
    refine ⟨_, f, rfl, hframe, hother, ?_⟩
    rw [hcore]
    exact ⟨hfaulted, hrec, hcause, hbundle, hdetail, hstall, Core.raise_frozen _ _, hsb, hs, hv, hacc, hdqu⟩
  · rw [← wdogLimit_clamp]
    exact ⟨_, rfl, State.onlyCore_modSeq (s.onlyCore_refl c) _⟩
  · refine ⟨_, congrArg Host.Outcome.next (State.bankpwrWrite_idle hu hi on), ?_, ?_, fun o ho => ?_, fun key hkey => ?_,
      fun d hd => ?_⟩
    · rw [State.modSeq, State.core_modCore]
    · rw [State.modSeq, State.core_modCore, Bool.or_eq_true, up_ne_zero_iff, State.core_zeroBanks]
    · rw [← getLsbD_up on _ (by omega)]
      exact s.byte_zeroBanks_in c _ ho
    · exact s.byte_zeroBanks_out c _ hkey
    · exact (State.core_modCore_other _ _ _ _ hd).trans (s.core_zeroBanks c _ d)
  · exact ⟨_, congrArg Host.Outcome.next (if_pos hf), State.onlyCore_modSeq (s.onlyCore_refl c) _⟩
  · have haccess := State.scrubAccess_calm hu hs
    rw [if_pos hlt] at haccess
    exact ⟨_, rfl, haccess⟩
  · have haccess := State.scrubAccess_calm hu hs
    rw [if_neg (Nat.not_lt.mpr hge)] at haccess
    exact ⟨_, rfl, haccess⟩

end

section
/-! PROOF. Inbound accesses (R257, R258, R263, R277, R278, R514): what words that land leave in memory and of their core, and what
each of the outcomes of an inbound write does with its message. -/

namespace Sys2Proof.Machine

/-! ## Words that are written with their marks (R263) -/

theorem NSet.mem_add {i j : Nat} {l : List Nat} : j ∈ NSet.add i l ↔ j = i ∨ j ∈ l := by
  induction l with
  | nil => exact List.mem_singleton.trans (or_iff_left List.not_mem_nil).symm
  | cons k r ih =>
    unfold NSet.add
    split
    · exact List.mem_cons
    · split
      next hik => rw [hik, List.mem_cons, ← or_assoc, or_self]
      next => rw [List.mem_cons, List.mem_cons, ih, or_left_comm]

/-- One word with its mark. -/
def State.wrWord (s : State) (key : Nat) (w : MWord) : State :=
  if w.poison then
    { s.wr key 8 w.data.toNat with poison := NSet.add (key / 8) (s.wr key 8 w.data.toNat).poison }
  else s.wr key 8 w.data.toNat

theorem State.wrWords_cons (s : State) (key : Nat) (w : MWord) (r : List MWord) :
    (s.wrWords key (w :: r)).1 = ((s.wrWord key w).wrWords (key + 8) r).1 := rfl

theorem State.wrWord_frame (s : State) (key : Nat) (w : MWord) : s.wrWord key w
    = { s with mem := (s.wrWord key w).mem, poison := (s.wrWord key w).poison, flips := (s.wrWord key w).flips } := by
  unfold State.wrWord
  split <;> rfl

theorem State.wrWord_mem (s : State) (key : Nat) (w : MWord) : (s.wrWord key w).mem = (s.wr key 8 w.data.toNat).mem := by
  unfold State.wrWord
  split <;> rfl

theorem State.byte_wrWord_in (s : State) (key : Nat) (w : MWord) {j : Nat} (hj : j < 8) :
    (s.wrWord key w).byte (key + j) = w.data.extractLsb' (8 * j) 8 := by
  have hwrite := s.byte_wrBytes_in key j (leBytes 8 w.data.toNat) (by rwa [leBytes_length])
  rw [leBytes_getD _ _ _ hj, ofNat_toNat_div] at hwrite
  rw [State.byte, State.wrWord_mem]
  exact hwrite

theorem State.byte_wrWord_out (s : State) {key a : Nat} (w : MWord) (h : a < key ∨ key + 8 ≤ a) :
    (s.wrWord key w).byte a = s.byte a := by
  rw [State.byte, State.wrWord_mem]
  exact s.byte_wrBytes_out key a (leBytes 8 w.data.toNat) (by rwa [leBytes_length])

/-- A whole word takes the mark that is written with it, and no other word's mark changes. -/
theorem State.poison_wrWord (s : State) {key : Nat} (w : MWord) (h8 : key % 8 = 0) (i : Nat) :
    i ∈ (s.wrWord key w).poison ↔ if i = key / 8 then w.poison = true else i ∈ s.poison := by
  have hwrite : i ∈ (s.wr key 8 w.data.toNat).poison ↔ i ∈ s.poison ∧ i ≠ key / 8 := by
    rw [State.wr, State.poison_wrBytes, leBytes_length]
    exact and_congr_right fun _ => by omega
  unfold State.wrWord
  rcases Decidable.em (i = key / 8) with rfl | hi
  · cases w.poison <;> simp [NSet.mem_add, hwrite]
  · cases w.poison <;> simp [NSet.mem_add, hwrite, hi]

theorem State.wrWords_frame (s : State) (key : Nat) (ws : List MWord) : (s.wrWords key ws).1
    = { s with mem := (s.wrWords key ws).1.mem, poison := (s.wrWords key ws).1.poison, flips := (s.wrWords key ws).1.flips } := by
  induction ws generalizing s key with
  | nil => rfl
  | cons w r ih => rw [State.wrWords_cons, ih, s.wrWord_frame key w]

theorem State.byte_wrWords_out (s : State) {key a : Nat} (ws : List MWord) (h : a < key ∨ key + 8 * ws.length ≤ a) :
    (s.wrWords key ws).1.byte a = s.byte a := by
  induction ws generalizing s key with
  | nil => rfl
  | cons w r ih =>
    rw [List.length_cons] at h
    rw [State.wrWords_cons, ih _ (by omega), State.byte_wrWord_out _ _ (by omega)]

theorem State.byte_wrWords_in (s : State) (key : Nat) (ws : List MWord) (n : Nat) (hn : n < ws.length) {j : Nat} (hj : j < 8) :
    (s.wrWords key ws).1.byte (key + 8 * n + j) = (ws[n].data).extractLsb' (8 * j) 8 := by
  induction ws generalizing s key n with
  | nil => exact absurd hn (Nat.not_lt_zero n)
  | cons w r ih =>
    rw [State.wrWords_cons]
    cases n with
    | zero => rw [State.byte_wrWords_out _ _ (by omega), Nat.mul_zero, Nat.add_zero, State.byte_wrWord_in _ _ _ hj]; rfl
    | succ n =>
      rw [show key + 8 * (n + 1) + j = key + 8 + 8 * n + j by omega]
      exact ih _ _ n (by simpa using hn)

theorem State.poison_wrWords_out (s : State) {key i : Nat} (ws : List MWord) (h8 : key % 8 = 0)
    (h : i < key / 8 ∨ key / 8 + ws.length ≤ i) : i ∈ (s.wrWords key ws).1.poison ↔ i ∈ s.poison := by
  induction ws generalizing s key with
  | nil => exact Iff.rfl
  | cons w r ih =>
    rw [List.length_cons] at h
    rw [State.wrWords_cons, ih _ (by omega) (by omega), State.poison_wrWord _ _ h8, if_neg (by omega)]

theorem State.poison_wrWords_in (s : State) {key : Nat} (ws : List MWord) (h8 : key % 8 = 0) (n : Nat) (hn : n < ws.length) :
    key / 8 + n ∈ (s.wrWords key ws).1.poison ↔ ws[n].poison = true := by
  induction ws generalizing s key n with
  | nil => exact absurd hn (Nat.not_lt_zero n)
  | cons w r ih =>
    rw [State.wrWords_cons]
    cases n with
    | zero => rw [State.poison_wrWords_out _ _ (by omega) (by omega), State.poison_wrWord _ _ h8, if_pos (Nat.add_zero _)]; rfl
    | succ n =>
      rw [show key / 8 + (n + 1) = (key + 8) / 8 + n by omega]
      exact ih _ (by omega) n (by simpa using hn)

/-! ## Words that land in a scratchpad (R257, R258) -/

/-- R257, R258, R263: the words have landed from offset `off` on, each with its mark, and the awaits that they lie in have counted
them; beside memory, cores and the mesh nothing of the block has changed. -/
def State.landed (s t : State) (c : CoreId) (off : Nat) (ws : List MWord) : Prop :=
  t = { s with cores := t.cores, mem := t.mem, poison := t.poison, flips := t.flips, mesh := t.mesh }
    ∧ (∀ n (_ : n < ws.length), ∀ j < 8, t.byte (spKey c off + 8 * n + j) = (ws[n].data).extractLsb' (8 * j) 8)
    ∧ (∀ key, (key < spKey c off ∨ spKey c off + 8 * ws.length ≤ key) → t.byte key = s.byte key)
    ∧ (∀ n (_ : n < ws.length), (spKey c off / 8 + n ∈ t.poison ↔ ws[n].poison = true))
    ∧ (∀ w, (w < spKey c off / 8 ∨ spKey c off / 8 + ws.length ≤ w) → (w ∈ t.poison ↔ w ∈ s.poison))
    ∧ (t.core c).sb = ((s.core c).countAwaits off (8 * ws.length)).sb ∧ (t.core c).s = (s.core c).s
    ∧ (t.core c).seq = (s.core c).seq

theorem State.core_wrWords (s : State) (key : Nat) (ws : List MWord) (c : CoreId) : (s.wrWords key ws).1.core c = s.core c :=
  State.core_congr (congrArg State.cores (s.wrWords_frame key ws)) c

theorem State.onlyCore_modCa {s t : State} {c : CoreId} {k : Core} (h : s.onlyCore t c k) (f : CtrsA → CtrsA) :
    s.onlyCore (t.modCa c f) c { k with ca := f k.ca } := State.onlyCore_modCore h _

/-- Of the cores the landing changes the target alone: its awaits, and counters. -/
theorem State.onlyCore_landWords (s : State) (c : CoreId) (off : Nat) (ws : List MWord) :
    ∃ a b, (s.wrWords (spKey c off) ws).1.onlyCore (s.landWords c off ws) c
      { (s.core c).countAwaits off (8 * ws.length) with ca := a, cb := b } := by
  have hspd := State.onlyCore_modCa (State.onlyCore_refl (s.wrWords (spKey c off) ws).1 c) fun a =>
    { a with spdPoisoned := bumpBy (s.wrWords (spKey c off) ws).2 a.spdPoisoned }
  rw [State.core_wrWords] at hspd
  exact ⟨_, _, State.onlyCore_modCore hspd fun k => { k.countAwaits off (8 * ws.length) with
    cb := { k.cb with mshPoisoned := bumpBy (ws.filter (·.poison)).length k.cb.mshPoisoned } }⟩

theorem State.mesh_landWords (s : State) (c : CoreId) (off : Nat) (ws : List MWord) : (s.landWords c off ws).mesh = s.mesh := by
  obtain ⟨a, b, hframe, _⟩ := s.onlyCore_landWords c off ws
  rw [hframe, s.wrWords_frame (spKey c off) ws]

theorem State.core_landWords_other (s : State) {c d : CoreId} (off : Nat) (ws : List MWord) (hd : d ≠ c) :
    (s.landWords c off ws).core d = s.core d := by
  obtain ⟨a, b, _, _, hother⟩ := s.onlyCore_landWords c off ws
  exact (hother d hd).trans (s.core_wrWords _ ws d)

theorem State.dqu_landWords (s : State) (c d : CoreId) (off : Nat) (ws : List MWord) :
    ((s.landWords c off ws).core d).dqu = (s.core d).dqu := by
  by_cases hd : d = c
  · obtain ⟨a, b, _, hcore, _⟩ := s.onlyCore_landWords c off ws
    rw [hd, hcore]
    rfl
  · rw [s.core_landWords_other off ws hd]

theorem State.landed_landWords (s : State) (c : CoreId) {off : Nat} (ws : List MWord) (h8 : off % 8 = 0) :
    s.landed (s.landWords c off ws) c off ws := by
  have hkey : spKey c off % 8 = 0 := by
    unfold spKey Config.scratchBase Config.windowBytes
    omega
  obtain ⟨a, b, hframe, hcore, _⟩ := s.onlyCore_landWords c off ws
  have hbyte (key : Nat) : (s.landWords c off ws).byte key = (s.wrWords (spKey c off) ws).1.byte key := by
    rw [hframe]; rfl
  have hpoison : (s.landWords c off ws).poison = (s.wrWords (spKey c off) ws).1.poison := by
    rw [hframe]
  refine ⟨?_, fun n hn j hj => ?_, fun key hk => ?_, fun n hn => ?_, fun w hw => ?_, ?_⟩
  · rw [hframe, s.wrWords_frame (spKey c off) ws]
  · rw [hbyte, s.byte_wrWords_in _ ws n hn hj]
  · rw [hbyte, s.byte_wrWords_out ws hk]
  · rw [hpoison, s.poison_wrWords_in ws hkey n hn]
  · rw [hpoison, s.poison_wrWords_out ws hkey hw]
  · rw [hcore]
    exact ⟨rfl, rfl, rfl⟩

section Landed

variable {s t : State} {c : CoreId} {off : Nat} {ws : List MWord}

/-- Where words land does not depend on the messages under way. -/
theorem State.landed_of_mesh {m : Mesh} (h : ({ s with mesh := m } : State).landed t c off ws) : s.landed t c off ws := h

theorem State.landed_setMesh (h : s.landed t c off ws) (m : Mesh) : s.landed { t with mesh := m } c off ws := by
  obtain ⟨hframe, hrest⟩ := h
  refine ⟨?_, hrest⟩
  rw [hframe]

theorem State.landed_modDqu (h : s.landed t c off ws) (d : CoreId) (f : Dqu → Dqu) : s.landed (t.modDqu d f) c off ws := by
  have hcore : ∃ q, (t.modDqu d f).core c = { t.core c with dqu := q } := by
    by_cases hd : c = d
    · subst hd
      exact ⟨_, State.core_modCore ..⟩
    · exact ⟨_, State.core_modCore_other _ _ _ _ hd⟩
  obtain ⟨q, hcore⟩ := hcore
  obtain ⟨hframe, hin, hout, hpoison, hother, hsb, hs, hseq⟩ := h
  refine ⟨?_, hin, hout, hpoison, hother, ?_⟩
  · rw [hframe]; rfl
  · rw [hcore]
    exact ⟨hsb, hs, hseq⟩

theorem State.landed_modXfer (h : s.landed t c off ws) (d : CoreId) (id : Nat) (f : Transfer → Transfer) :
    s.landed (t.modXfer d id f) c off ws :=
  State.landed_modDqu h d fun q => { q with transfers := updFirst (fun t => t.id == id) f q.transfers }

end Landed

end Sys2Proof.Machine

end

section
/-! PROOF. Inbound writes, read data and reads as their messages come (R257, R270, R277, R278, R514). -/

namespace Sys2Proof.Machine

/-! ## Which message is next (R257) -/

section Next

variable {s : State} {c : CoreId} {src : Node} {m : Msg} (hlanding : (s.core c).dqu.landing.find? (fun m => m.src == src) = none)
include hlanding

/-- A write that is the first on VC0: the row of a held one, or of a fresh one, takes it. -/
theorem exec_inbound_write (hhead : s.head0 src (.core c) = some m) (hwrite : m.body.isWrite = true) :
    exec (if m.held then .heldInboundWriteLand c src else .inboundWrite c src) s = .next (s.inboundStep c src m .vc0) := by
  have hfresh : s.freshInbound c src = some (m, .vc0) := by
    simp only [State.freshInbound, hhead, Option.filter_some, hwrite, if_true]
  cases hheld : m.held with
  | true =>
    have hfirst : s.heldInbound c src = some (m, .vc0) := by
      simp only [State.heldInbound, hhead, Option.filter_some, hwrite, hheld, Bool.and_self, if_true]
    exact congrArg Host.Outcome.next (show s.heldLand c src = _ by rw [State.heldLand, hfirst])
  | false =>
    have hnone : s.heldInbound c src = none := by
      simp only [State.heldInbound, hhead, Option.filter_some, hwrite, hheld, Bool.and_false, Bool.false_eq_true, if_false,
        hlanding, Option.map_none]
    exact congrArg Host.Outcome.next (show s.inboundWrite c src = _ by rw [State.inboundWrite, hnone, hfresh])

/-- Read data that are the first on VC1, no write being the first on VC0. -/
theorem exec_inbound_data (hhead0 : (s.head0 src (.core c)).filter (·.body.isWrite) = none)
    (hhead1 : s.head1 src (.core c) = some m) (hdata : m.body.isData = true) :
    exec (.inboundWrite c src) s = .next (s.inboundStep c src m .vc1) := by
  have hheld : (s.head0 src (.core c)).filter (fun m => m.body.isWrite && m.held) = none := by
    rw [Option.filter_eq_none_iff] at hhead0 ⊢
    intro m hm hboth
    exact hhead0 m hm (Bool.and_eq_true_iff.mp hboth).1
  have hnone : s.heldInbound c src = none := by
    simp only [State.heldInbound, hheld, hlanding, Option.map_none]
  have hfresh : s.freshInbound c src = some (m, .vc1) := by
    simp only [State.freshInbound, hhead0, hhead1, Option.filter_some, hdata, if_true, Option.map_some]
  exact congrArg Host.Outcome.next (show s.inboundWrite c src = _ by rw [State.inboundWrite, hnone, hfresh])

end Next

theorem State.inboundStep_write {m : Msg} {off : Nat} {ws : List MWord} {ref : XferRef} (s : State) (c : CoreId) (src : Node)
    (spot : InSpot) (hbody : m.body = .write off ws ref) : s.inboundStep c src m spot
      = s.takeInbound c off ws m.held (·.drop0 src (.core c)) (·.hold0 src (.core c)) fun st s => s.answer (.core c) ref st := by
  rw [State.inboundStep, hbody]

theorem State.inboundStep_data {m : Msg} {off : Nat} {ws : List MWord} {ref : XferRef} (s : State) (c : CoreId) (src : Node)
    (hbody : m.body = .data off ws ref) : s.inboundStep c src m .vc1
      = s.takeInbound c off ws m.held (·.drop1 src (.core c)) (·.parkData c src m) fun st s => s.partDone ref st := by
  rw [State.inboundStep, hbody]
  rfl

/-! ## What becomes of it (R257, R514) -/

section Outcomes

variable {s : State} {c : CoreId} {off : Nat} {ws : List MWord} {held : Bool} {drop hold : State → State}
  {done : Nat → State → State}

theorem State.takeInbound_land (h : s.inbound c off (8 * ws.length) = .land) :
    s.takeInbound c off ws held drop hold done = done (deliveredStatus ws) ((drop s).landWords c off ws) := by
  rw [State.takeInbound, h]

theorem State.takeInbound_holds (h : s.inbound c off (8 * ws.length) = .hold) (hheld : held = false) :
    s.takeInbound c off ws held drop hold done = (hold s).modCa c fun a => { a with spdHeld := bump a.spdHeld } := by
  rw [State.takeInbound, h, hheld]
  rfl

theorem State.takeInbound_waits (h : s.inbound c off (8 * ws.length) = .hold) (hheld : held = true) :
    s.takeInbound c off ws held drop hold done = s := by
  rw [State.takeInbound, h, hheld]
  rfl

theorem State.takeInbound_refuse (h : s.inbound c off (8 * ws.length) = .refuse) :
    s.takeInbound c off ws held drop hold done = done 1 (drop s) := by
  rw [State.takeInbound, h]

theorem State.takeInbound_fault {cause o : Nat} (h : s.inbound c off (8 * ws.length) = .refuseFault cause o) :
    s.takeInbound c off ws held drop hold done = done 1 ((drop s).raiseInbound c cause o) := by
  rw [State.takeInbound, h]

end Outcomes

/-- R277: the sender is told, unless nothing waits for the answer. -/
theorem State.answer_told (s : State) (src : Node) {ref : XferRef} (st : Nat) (href : ref ≠ .none) : s.answer src ref st
    = { s with mesh := ⟨s.mesh.vc0, s.mesh.vc1 ++ [⟨src, ref.home, false, .ack ref st⟩]⟩ } := by
  cases ref with
  | none => exact absurd rfl href
  | _ => rfl

theorem State.onlyCore_raise (s : State) (c : CoreId) (f : FaultReq) : s.onlyCore (s.raise c f) c ((s.core c).raise f) :=
  State.onlyCore_modCore (s.onlyCore_refl c) _

/-- R265: an inbound access that faults does so at the target alone. -/
theorem State.raiseInbound_first {s : State} {c : CoreId} (cause o : Nat) (hfault : (s.core c).seq.fault = none) :
    ∃ k f, s.onlyCore (s.raiseInbound c cause o) c k ∧ k.seq.state = .faulted ∧ k.seq.fault = some f
      ∧ f.cause = BitVec.ofNat 16 cause ∧ f.detail = BitVec.ofNat 64 o ∧ k.s = (s.core c).s := by
  obtain ⟨f, hrec, hstate, hcause, _, hdetail, _, hs, _⟩ := (s.core c).raise_first
    ⟨cause, 0, 0, Config.faultNoBundle cause (s.core c).seq.pc (s.core c).seq.cc, o, if cause = 0x0A03 then .hq else .seq⟩ hfault
  exact ⟨_, f, s.onlyCore_raise c _, hstate, hrec, hcause, hdetail, hs⟩

/-- R257: the write that is held stays the first of its source. -/
theorem State.head0_hold0 {s : State} {src dst : Node} {m : Msg} (hhead : s.head0 src dst = some m) :
    (s.hold0 src dst).head0 src dst = some { m with held := true } := by
  have hfind := find?_updFirst (Msg.between src dst) (fun m => { m with held := true }) s.mesh.vc0 fun _ hx => hx
  rw [State.head0] at hhead
  rw [hhead] at hfind
  exact hfind

/-- R257, R270: read data that are parked leave VC1 and wait in the DMA unit. -/
theorem State.onlyCore_parkData (s : State) (c : CoreId) (src : Node) (m : Msg) :
    (s.drop1 src (.core c)).onlyCore (s.parkData c src m) c { s.core c with
      dqu := { (s.core c).dqu with landing := (s.core c).dqu.landing ++ [{ m with held := true }] } } :=
  State.onlyCore_modCore (State.onlyCore_refl (s.drop1 src (.core c)) c) fun k =>
    { k with dqu := { k.dqu with landing := k.dqu.landing ++ [{ m with held := true }] } }

theorem State.transfers_modXfer (s : State) (d : CoreId) (id : Nat) (f : Transfer → Transfer) :
    ((s.modXfer d id f).core d).dqu.transfers = updFirst (fun t => t.id == id) f (s.core d).dqu.transfers := by
  rw [State.modXfer, State.modDqu, State.core_modCore]

/-! ## Inbound writes (R257, R277, R514) -/

/-- The mesh once a write has been taken off VC0 and its sender is told `st`. -/
abbrev State.meshTold (s : State) (c : CoreId) (src : Node) (ref : XferRef) (st : Nat) : Mesh :=
  ⟨dropFirst (Msg.between src (.core c)) s.mesh.vc0, s.mesh.vc1 ++ [⟨.core c, ref.home, false, .ack ref st⟩]⟩

section Write

variable {s : State} {c : CoreId} {src : Node} {m : Msg} {off : Nat} {ws : List MWord} {ref : XferRef}
variable (hlanding : (s.core c).dqu.landing.find? (fun m => m.src == src) = none)
variable (hhead : s.head0 src (.core c) = some m) (hbody : m.body = .write off ws ref)
include hlanding hhead hbody

theorem exec_write : exec (if m.held then .heldInboundWriteLand c src else .inboundWrite c src) s = .next
    (s.takeInbound c off ws m.held (·.drop0 src (.core c)) (·.hold0 src (.core c)) fun st s => s.answer (.core c) ref st) :=
  (exec_inbound_write hlanding hhead (by rw [hbody]; rfl)).trans
    (congrArg Host.Outcome.next (s.inboundStep_write c src .vc0 hbody))

theorem exec_write_lands (h8 : off % 8 = 0) (href : ref ≠ .none) (hland : s.inbound c off (8 * ws.length) = .land) :
    ∃ t, exec (if m.held then .heldInboundWriteLand c src else .inboundWrite c src) s = .next t ∧ s.landed t c off ws
      ∧ t.mesh = s.meshTold c src ref (deliveredStatus ws) ∧ ∀ d, d ≠ c → t.core d = s.core d := by
  have hexec := exec_write hlanding hhead hbody
  rw [State.takeInbound_land hland, State.answer_told _ _ _ href] at hexec
  have hlanded := State.landed_landWords (s.drop0 src (.core c)) c ws h8
  have hmesh := State.mesh_landWords (s.drop0 src (.core c)) c off ws
  have hother (d : CoreId) (hd : d ≠ c) := State.core_landWords_other (s.drop0 src (.core c)) off ws hd
  generalize (s.drop0 src (.core c)).landWords c off ws = u at hexec hlanded hmesh hother
  rw [hmesh] at hexec
  exact ⟨_, hexec, State.landed_setMesh (State.landed_of_mesh hlanded) _, rfl, hother⟩

/-- R257: a write that an entry blocks is held, and counted once. -/
theorem exec_write_holds (hhold : s.inbound c off (8 * ws.length) = .hold) (hfresh : m.held = false) :
    ∃ t, exec (if m.held then .heldInboundWriteLand c src else .inboundWrite c src) s = .next t
      ∧ t.mesh.vc1 = s.mesh.vc1 ∧ t.head0 src (.core c) = some { m with held := true }
      ∧ s.onlyCore { t with mesh := s.mesh } c { s.core c with ca :=
          { (s.core c).ca with spdHeld := bump (s.core c).ca.spdHeld } } := by
  have hexec := exec_write hlanding hhead hbody
  rw [State.takeInbound_holds hhold hfresh] at hexec
  exact ⟨_, hexec, rfl, State.head0_hold0 hhead,
    State.onlyCore_modCa (s.onlyCore_refl c) fun a => { a with spdHeld := bump a.spdHeld }⟩

theorem exec_write_waits (hhold : s.inbound c off (8 * ws.length) = .hold) (hheld : m.held = true) :
    exec (if m.held then .heldInboundWriteLand c src else .inboundWrite c src) s = .next s := by
  rw [exec_write hlanding hhead hbody, State.takeInbound_waits hhold hheld]

theorem exec_write_refused (href : ref ≠ .none) (hrefuse : s.inbound c off (8 * ws.length) = .refuse) :
    exec (if m.held then .heldInboundWriteLand c src else .inboundWrite c src) s
      = .next { s with mesh := s.meshTold c src ref 1 } := by
  rw [exec_write hlanding hhead hbody, State.takeInbound_refuse hrefuse, State.answer_told _ _ _ href]
  rfl

theorem exec_write_faults (href : ref ≠ .none) {cause o : Nat}
    (hfault : s.inbound c off (8 * ws.length) = .refuseFault cause o) (hnone : (s.core c).seq.fault = none) :
    ∃ t f, exec (if m.held then .heldInboundWriteLand c src else .inboundWrite c src) s = .next t
      ∧ t = { s with cores := t.cores, mesh := s.meshTold c src ref 1 } ∧ (∀ d, d ≠ c → t.core d = s.core d)
      ∧ (t.core c).seq.state = .faulted ∧ (t.core c).seq.fault = some f ∧ f.cause = BitVec.ofNat 16 cause
      ∧ f.detail = BitVec.ofNat 64 o ∧ (t.core c).s = (s.core c).s := by
  have hexec := exec_write hlanding hhead hbody
  rw [State.takeInbound_fault hfault, State.answer_told _ _ _ href] at hexec
  obtain ⟨k, f, ⟨hframe, hcore, hother⟩, hstate, hrec, hcause, hdetail, hregs⟩ :=
    State.raiseInbound_first (s := s.drop0 src (.core c)) (c := c) cause o hnone
  subst hcore
  refine ⟨_, f, hexec, ?_, hother, hstate, hrec, hcause, hdetail, hregs⟩
  rw [hframe]
  rfl

end Write

/-! ## Read data (R257, R270, R277) -/

section Data

variable {s : State} {c d : CoreId} {src : Node} {m : Msg} {off id : Nat} {ws : List MWord}
variable (hlanding : (s.core c).dqu.landing.find? (fun m => m.src == src) = none)
variable (hhead0 : (s.head0 src (.core c)).filter (·.body.isWrite) = none) (hhead1 : s.head1 src (.core c) = some m)
variable (hbody : m.body = .data off ws (.dma d id))
include hlanding hhead0 hhead1 hbody

theorem exec_data : exec (.inboundWrite c src) s = .next
    (s.takeInbound c off ws m.held (·.drop1 src (.core c)) (·.parkData c src m) fun st s => s.partDone (.dma d id) st) :=
  (exec_inbound_data hlanding hhead0 hhead1 (by rw [hbody]; rfl)).trans
    (congrArg Host.Outcome.next (s.inboundStep_data c src hbody))

theorem exec_data_lands (h8 : off % 8 = 0) (hland : s.inbound c off (8 * ws.length) = .land) :
    ∃ t, exec (.inboundWrite c src) s = .next t ∧ s.landed t c off ws
      ∧ t.mesh = ⟨s.mesh.vc0, dropFirst (Msg.between src (.core c)) s.mesh.vc1⟩
      ∧ (t.core d).dqu.transfers
        = updFirst (fun x => x.id == id) (fun x => x.part (deliveredStatus ws)) (s.core d).dqu.transfers := by
  have hexec := exec_data hlanding hhead0 hhead1 hbody
  rw [State.takeInbound_land hland] at hexec
  have hlanded := State.landed_landWords (s.drop1 src (.core c)) c ws h8
  have hmesh := State.mesh_landWords (s.drop1 src (.core c)) c off ws
  have hdqu := State.dqu_landWords (s.drop1 src (.core c)) c d off ws
  generalize (s.drop1 src (.core c)).landWords c off ws = u at hexec hlanded hmesh hdqu
  exact ⟨_, hexec, State.landed_modXfer (State.landed_of_mesh hlanded) d id _, hmesh,
    (u.transfers_modXfer d id _).trans (congrArg (updFirst _ _) (congrArg Dqu.transfers hdqu))⟩

theorem exec_data_parks (hhold : s.inbound c off (8 * ws.length) = .hold) (hfresh : m.held = false) :
    ∃ t, exec (.inboundWrite c src) s = .next t
      ∧ t.mesh = ⟨s.mesh.vc0, dropFirst (Msg.between src (.core c)) s.mesh.vc1⟩ ∧ t.mem = s.mem
      ∧ (t.core c).dqu.landing = (s.core c).dqu.landing ++ [{ m with held := true }]
      ∧ (t.core c).ca.spdHeld = bump (s.core c).ca.spdHeld ∧ (t.core c).sb = (s.core c).sb := by
  have hexec := exec_data hlanding hhead0 hhead1 hbody
  rw [State.takeInbound_holds hhold hfresh] at hexec
  obtain ⟨_, hcore, _⟩ := State.onlyCore_modCa (s.onlyCore_parkData c src m) fun a =>
    { a with spdHeld := bump a.spdHeld }
  refine ⟨_, hexec, rfl, rfl, ?_⟩
  rw [hcore]
  exact ⟨rfl, rfl, rfl⟩

end Data

/-! ## Inbound reads (R278) -/

theorem State.rdWords_mesh (s : State) (m : Mesh) (key n : Nat) :
    ({ s with mesh := m } : State).rdWords key n = s.rdWords key n := by
  induction n generalizing key with
  | zero => rfl
  | succ n ih => simp only [State.rdWords, ih]; rfl

section Read

variable {s : State} {c : CoreId} {src : Node} {m : Msg} {off n dst : Nat} {ref : XferRef}
variable (hhead : s.head0 src (.core c) = some m) (hbody : m.body = .read off n dst ref)
include hhead hbody

theorem exec_inboundRead_shut (hshut : s.shut c = true) : exec (.inboundRead c src) s
    = .next ((s.drop0 src (.core c)).push1 [⟨.core c, src, false, .ack ref 1⟩]) := by
  refine congrArg Host.Outcome.next ?_
  rw [State.inboundRead, hhead]
  simp only [hbody]
  rw [if_pos hshut]

theorem exec_inboundRead_down {o : Nat} (hshut : s.shut c = false)
    (hdown : (s.core c).downByte off (off + 8 * n - 1) = some o) (hruns : (s.core c).taskRuns = false) :
    exec (.inboundRead c src) s = .next ((s.drop0 src (.core c)).push1 [⟨.core c, src, false, .ack ref 1⟩]) := by
  refine congrArg Host.Outcome.next ?_
  rw [State.inboundRead, hhead]
  simp only [hbody, hshut, hdown, hruns]
  rfl

theorem exec_inboundRead_answer (hshut : s.shut c = false) (hdown : (s.core c).downByte off (off + 8 * n - 1) = none)
    (hs : s.calm c = true) (hwin : off + 8 * n ≤ 2 ^ 20) : exec (.inboundRead c src) s
      = .next ((s.drop0 src (.core c)).push1 [⟨.core c, src, false, .data dst (s.rdWords (spKey c off) n) ref⟩]) := by
  have hcalm : (s.drop0 src (.core c)).calm c = true := State.calm_of_same hs rfl rfl
  refine congrArg Host.Outcome.next ?_
  rw [State.inboundRead, hhead]
  simp only [hbody, hshut, hdown, State.senseSp_calm hcalm off (8 * n) hwin, Bool.false_eq_true, if_false]
  rw [State.drop0, State.rdWords_mesh]

end Read

end Sys2Proof.Machine

open Sys2Proof Sys2Proof.Machine

/-- Settles O25: the message that is next lands, is held, is refused or faults, as the target's state has it; a read is answered
at once. -/
theorem inboundAccesses : Obligations.InboundAccesses := by
  refine ⟨fun c src m off ws ref s h8 hlanding => ⟨fun hhead hbody href => ?_, fun hhead0 hhead1 d id href hbody => ?_⟩,
    fun c src m off n dst ref s hhead hbody => ?_⟩
  · exact ⟨exec_write_lands hlanding hhead hbody h8 href, exec_write_holds hlanding hhead hbody,
      exec_write_waits hlanding hhead hbody, exec_write_refused hlanding hhead hbody href,
      fun cause o => exec_write_faults hlanding hhead hbody href⟩
  · subst href
    exact ⟨exec_data_lands hlanding hhead0 hhead1 hbody h8, exec_data_parks hlanding hhead0 hhead1 hbody⟩
  · exact ⟨exec_inboundRead_shut hhead hbody, fun hshut o => exec_inboundRead_down hhead hbody hshut,
      exec_inboundRead_answer hhead hbody⟩

end

section
/-! PROOF. What every command keeps (O56, O59): the writes of memory, cores, host records, the journal and the error-correcting codes. -/

namespace Sys2Proof.Machine

section
/-- What every command keeps: the queue, the canonical forms, and a formation within R382's table. The lemmas `State.Keeps.f`
below say of each function of the model that it carries this on; a command is a chain of them. -/
def State.Keeps (s t : State) : Prop :=
  t.pending = s.pending ∧ (s.canonical = true → t.canonical = true) ∧ (s.formingOk = true → t.formingOk = true)

variable {s₀ s t : State}

theorem State.Keeps.refl (s : State) : s.Keeps s := ⟨rfl, id, id⟩

theorem State.Keeps.updateFab {free : Nat} {flips : List (Nat × Bool)} {mesh : Mesh} {ms : MemSys} {fab : Fabric} {bbx : Bbx}
    {ident : Ident} {flash : Flash} {hm : Hm} {host : HostIf} {sec : Sec} {pwr : Pwr} {dbg : Dbg} {serv : Serving} {plc : Placer}
    (h : s₀.Keeps s) (hf : fab.forming = s.fab.forming) :
    s₀.Keeps ⟨s.pending, free, s.cores, s.mem, s.poison, flips, mesh, ms, fab, bbx, ident, flash, hm, host, sec, pwr, dbg, serv,
      plc⟩ := by
  refine ⟨h.1, h.2.1, fun hs => ?_⟩
  rw [State.formingOk, hf]
  exact h.2.2 hs

theorem State.Keeps.update {free : Nat} {flips : List (Nat × Bool)} {mesh : Mesh} {ms : MemSys} {bbx : Bbx} {ident : Ident}
    {flash : Flash} {hm : Hm} {host : HostIf} {sec : Sec} {pwr : Pwr} {dbg : Dbg} {serv : Serving} {plc : Placer} (h : s₀.Keeps s) :
    s₀.Keeps ⟨s.pending, free, s.cores, s.mem, s.poison, flips, mesh, ms, s.fab, bbx, ident, flash, hm, host, sec, pwr, dbg, serv,
      plc⟩ :=
  h.updateFab rfl

theorem State.Keeps.ite {p : Prop} [Decidable p] (h : s₀.Keeps s) (h' : s₀.Keeps t) : s₀.Keeps (if p then s else t) := by
  split
  · exact h
  · exact h'

theorem State.Keeps.foldl {α : Type} {f : State → α → State} {xs : List α} (h : s₀.Keeps s)
    (hf : ∀ u x, s₀.Keeps u → s₀.Keeps (f u x)) : s₀.Keeps (xs.foldl f s) := by
  induction xs generalizing s with
  | nil => exact h
  | cons x xs ih => exact ih (hf s x h)

theorem State.Keeps.setCore {c : CoreId} {k : Core} (h : s₀.Keeps s) : s₀.Keeps (s.setCore c k) :=
  ⟨h.1, fun hc => State.canonical_setCore (h.2.1 hc) c k, h.2.2⟩

theorem State.Keeps.wrBytes {key : Nat} {bs : List Byte} (h : s₀.Keeps s) : s₀.Keeps (s.wrBytes key bs) :=
  ⟨h.1, fun hc => State.canonical_wrBytes (h.2.1 hc) key bs, h.2.2⟩

theorem State.Keeps.mark {w : Nat} (h : s₀.Keeps s) : s₀.Keeps { s with poison := NSet.add w s.poison } :=
  ⟨h.1, fun hc => State.canonical_mark (h.2.1 hc) w, h.2.2⟩

theorem State.Keeps.modCore {c : CoreId} {f : Core → Core} (h : s₀.Keeps s) : s₀.Keeps (s.modCore c f) :=
  h.setCore

theorem State.Keeps.modCa {c : CoreId} {f : CtrsA → CtrsA} (h : s₀.Keeps s) : s₀.Keeps (s.modCa c f) :=
  h.modCore

theorem State.Keeps.modCb {c : CoreId} {f : CtrsB → CtrsB} (h : s₀.Keeps s) : s₀.Keeps (s.modCb c f) :=
  h.modCore

theorem State.Keeps.modSeq {c : CoreId} {f : Seq → Seq} (h : s₀.Keeps s) : s₀.Keeps (s.modSeq c f) :=
  h.modCore

theorem State.Keeps.modDqu {c : CoreId} {f : Dqu → Dqu} (h : s₀.Keeps s) : s₀.Keeps (s.modDqu c f) :=
  h.modCore

theorem State.Keeps.wr {key n x : Nat} (h : s₀.Keeps s) : s₀.Keeps (s.wr key n x) :=
  h.wrBytes

theorem State.Keeps.spWr {c : CoreId} {off n x : Nat} (h : s₀.Keeps s) : s₀.Keeps (s.spWr c off n x) :=
  h.wr

theorem State.Keeps.note {code cls skind sidx : Nat} {handle : W32} {tenant : Nat} {payload : List W64} (h : s₀.Keeps s) :
    s₀.Keeps (s.note code cls skind sidx handle tenant payload) :=
  .update h

theorem State.Keeps.noteRetry {skind sidx : Nat} {payload : List W64} (h : s₀.Keeps s) :
    s₀.Keeps (s.noteRetry skind sidx payload) :=
  .ite h (.note (.update h))

theorem State.Keeps.health {site cause : Nat} {baseline measured : W32} (h : s₀.Keeps s) :
    s₀.Keeps (s.health site cause baseline measured) :=
  .ite h (.note (.update h))

theorem State.Keeps.raise {c : CoreId} {f : FaultReq} (h : s₀.Keeps s) : s₀.Keeps (s.raise c f) :=
  h.modCore

theorem State.Keeps.raiseLoose {c : CoreId} {cause detail : Nat} {u : FUnit} (h : s₀.Keeps s) :
    s₀.Keeps (s.raiseLoose c cause detail u) :=
  h.raise

theorem State.Keeps.setFn {f : FnId} {x : Func} (h : s₀.Keeps s) : s₀.Keeps (s.setFn f x) :=
  .update h

theorem State.Keeps.modFn {f : FnId} {g : Func → Func} (h : s₀.Keeps s) : s₀.Keeps (s.modFn f g) :=
  h.setFn

theorem State.Keeps.send {p : Posted} (h : s₀.Keeps s) : s₀.Keeps (s.send p) :=
  .update h

theorem State.Keeps.readTries {i : Issuer} {e : FetchEnd} (h : s₀.Keeps s) : s₀.Keeps (s.readTries i e) := by
  unfold State.readTries
  split
  · exact h.modFn
  · exact h

theorem State.Keeps.modRing {f : FnId} {r : RingId} {g : Ring → Ring} (h : s₀.Keeps s) : s₀.Keeps (s.modRing f r g) :=
  h.modFn

theorem State.Keeps.interrupt {f : FnId} {v : Nat} (h : s₀.Keeps s) : s₀.Keeps (s.interrupt f v) :=
  .ite h.modFn h.send

theorem State.Keeps.moderate {f : FnId} {r : RingId} {n : Nat} (h : s₀.Keeps s) : s₀.Keeps (s.moderate f r n) :=
  .ite h.modRing.interrupt h.modRing

theorem State.Keeps.pushRecs {f : FnId} {r : RingId} {xs : List (BitVec 256)} (h : s₀.Keeps s) :
    s₀.Keeps (s.pushRecs f r xs) :=
  (((h.foldl fun _ _ hu => hu.send).modRing).send).moderate

theorem State.Keeps.complete {f : FnId} {r : RingId} {x : BitVec 256} (h : s₀.Keeps s) : s₀.Keeps (s.complete f r x) :=
  .ite h.pushRecs h.modRing

theorem State.Keeps.flushKept {f : FnId} {r : RingId} (h : s₀.Keeps s) : s₀.Keeps (s.flushKept f r) :=
  .ite (.ite h h.modRing.pushRecs) h

theorem State.Keeps.postEvent {f : FnId} {x : BitVec 256} (h : s₀.Keeps s) : s₀.Keeps (s.postEvent f x) :=
  .ite h.pushRecs h.modFn

theorem State.Keeps.tellSlice {m : HmMsg} (h : s₀.Keeps s) : s₀.Keeps (s.tellSlice m) :=
  .updateFab h rfl

theorem State.Keeps.postRec {seq : W32} {r : JRec} (h : s₀.Keeps s) : s₀.Keeps (s.postRec seq r) :=
  .ite h (.postEvent (.ite h.tellSlice h))

theorem State.Keeps.putSlot {seq : W32} {x : BitVec 2048} (h : s₀.Keeps s) : s₀.Keeps (s.putSlot seq x) :=
  .update h

theorem State.Keeps.commitAs {seq : W32} {r : JRec} (h : s₀.Keeps s) : s₀.Keeps (s.commitAs seq r) :=
  .postRec (.update h.putSlot)

theorem State.Keeps.breakJournal {r : JRec} (h : s₀.Keeps s) : s₀.Keeps (s.breakJournal r) :=
  .postEvent (.postRec (.update h))

theorem State.Keeps.journalCommit {firstOk retryOk : Bool} (h : s₀.Keeps s) :
    s₀.Keeps (s.journalCommit firstOk retryOk) := by
  unfold State.journalCommit
  split
  · exact h
  · extract_lets bbx s₁ seq
    have h₁ : s₀.Keeps s₁ := .update h
    clear_value s₁
    exact .ite (.postRec (.update h₁)) (.ite h₁.commitAs (.ite h₁.putSlot.commitAs h₁.putSlot.putSlot.breakJournal))

theorem State.Keeps.powerLoss {code : Nat} (h : s₀.Keeps s) : s₀.Keeps (s.powerLoss code) :=
  .journalCommit (.update (.note (.update h.journalCommit)))

theorem State.Keeps.fatal {cause : Nat} {snapshot : List W64} (h : s₀.Keeps s) : s₀.Keeps (s.fatal cause snapshot) :=
  .note (.update h)

theorem State.Keeps.corrected {c : CoreId} (h : s₀.Keeps s) : s₀.Keeps (s.corrected c) :=
  .ite h.modSeq.note h.modSeq

protected theorem State.Keeps.punEcc {c : CoreId} {e : EngineId} {ln slot word : Nat} {ecc : Ecc} (h : s₀.Keeps s) :
    s₀.Keeps (punEcc c e ln slot word ecc s) := by
  unfold punEcc
  split
  · exact h
  · exact h.modCa.corrected
  · exact h.modCore

protected theorem State.Keeps.accEcc {c : CoreId} {i : Nat} {tag : Bool} {ecc : Ecc} (h : s₀.Keeps s) :
    s₀.Keeps (accEcc c i tag ecc s) := by
  unfold accEcc
  split
  · exact h
  · exact h.modCa.corrected
  · exact h.modCore

theorem State.Keeps.strike {c : CoreId} {f : ScrubFind} (h : s₀.Keeps s) : s₀.Keeps (s.strike c f) := by
  unfold State.strike
  split
  · exact h
  · split
    · exact .update h
    · exact h.modCore

theorem State.Keeps.wrWords {key : Nat} {ws : List MWord} (h : s₀.Keeps s) : s₀.Keeps (s.wrWords key ws).1 := by
  induction ws generalizing s key with
  | nil => exact h
  | cons w r ih => exact ih (.ite h.wr.mark h.wr)

theorem State.Keeps.spLand {c : CoreId} {off : Nat} {ws : List MWord} (h : s₀.Keeps s) : s₀.Keeps (s.spLand c off ws) :=
  h.wrWords.modCa

theorem State.Keeps.writeMem {key : Nat} {bs : List Byte} (h : s₀.Keeps s) :
    s₀.Keeps { s with mem := memWrite s.mem key bs } := by
  refine ⟨h.1, fun hc => ?_, h.2.2⟩
  have hs := (State.canonical_iff s).mp (h.2.1 hc)
  exact (State.canonical_iff _).mpr ⟨memWrite_wf _ _ _ hs.1, hs.2⟩

theorem State.Keeps.storeWord {addr k : Nat} {w : MWord} (h : s₀.Keeps s) : s₀.Keeps (s.storeWord addr k w) := by
  unfold State.storeWord
  dsimp only
  split
  · exact h.wrWords.writeMem
  · exact h.wrWords

theorem State.Keeps.devWrite {addr : Nat} {ws : List MWord} (h : s₀.Keeps s) : s₀.Keeps (s.devWrite addr ws) := by
  induction ws generalizing s addr with
  | nil => exact h
  | cons w r ih =>
    refine ih ?_
    split
    · exact h.storeWord
    · exact h

protected theorem State.Keeps.spEcc {c : CoreId} {w : Nat} {double : Bool} (h : s₀.Keeps s) :
    s₀.Keeps (spEcc c w double s) :=
  .ite (.ite h (.modCa h.mark)) h.modCa.corrected


theorem State.Keeps.makeRegion {r base size : Nat} {t : TenantId} {slot : Nat} (h : s₀.Keeps s) :
    s₀.Keeps (s.makeRegion r base size t slot) := by
  unfold State.makeRegion
  dsimp only
  exact .devWrite (.update h)

theorem State.Keeps.senseSp {c : CoreId} {off n : Nat} (h : s₀.Keeps s) : s₀.Keeps (s.senseSp c off n) :=
  .foldl (.update h) fun _ _ hu => hu.spEcc

theorem State.Keeps.markStale {addr : Nat} (h : s₀.Keeps s) : s₀.Keeps (s.markStale addr) := by
  unfold State.markStale
  split
  · exact h
  · exact h.devWrite

protected theorem State.Keeps.coreEcc {c : CoreId} {f : ScrubFind} (h : s₀.Keeps s) : s₀.Keeps (coreEcc c f s) := by
  unfold coreEcc
  dsimp only
  split
  · exact h.spEcc
  · exact h.punEcc
  · exact h.accEcc

theorem State.Keeps.senseCore {c : CoreId} {hit : ScrubFind → Bool} (h : s₀.Keeps s) : s₀.Keeps (s.senseCore c hit) :=
  h.modCore.foldl fun _ _ hu => hu.coreEcc

theorem State.Keeps.senseAcc {c : CoreId} {i : Nat} (h : s₀.Keeps s) : s₀.Keeps (s.senseAcc c i) :=
  h.senseCore

theorem State.Keeps.sensePun {c : CoreId} {key word : Nat} (h : s₀.Keeps s) : s₀.Keeps (s.sensePun c key word) :=
  h.senseCore

end

end Sys2Proof.Machine
end

section
/-! PROOF. The reads of operands, the accumulators and the punnet engines keep the canonical forms. -/

namespace Sys2Proof.Machine

section
variable {s₀ s t : State}

protected theorem State.Keeps.readOr {x : At} {slot : Nat} {by_ : FUnit} {off len : Nat} {f : State → State} (h : s₀.Keeps s)
    (hf : ∀ u, s₀.Keeps u → s₀.Keeps (f u)) :
    s₀.Keeps (readOr x slot by_ off len f s) := by
  unfold readOr
  dsimp only
  split
  · exact h.senseSp.raise
  · exact hf _ h.senseSp

protected theorem State.Keeps.amrgOne {x : At} {ta tb i : Nat} (h : s₀.Keeps s) : s₀.Keeps (amrgOne x ta tb i s) :=
  .ite h.senseAcc.senseAcc.raise h.senseAcc.senseAcc.modCore

protected theorem State.Keeps.astpOne {x : At} {i a j : Nat} (h : s₀.Keeps s) : s₀.Keeps (astpOne x i a j s) :=
  .ite h.senseAcc.raise h.senseAcc.spWr

protected theorem State.Keeps.eachEntry {f : Nat → State → State} {i n : Nat} (h : s₀.Keeps s)
    (hf : ∀ j u, s₀.Keeps u → s₀.Keeps (f j u)) : s₀.Keeps (eachEntry f i n s) := by
  induction n generalizing s i with
  | zero => exact h
  | succ n ih => exact ih (hf _ _ h)

protected theorem State.Keeps.stopPlook {c : CoreId} {e : EngineId} {f : FaultReq} (h : s₀.Keeps s) :
    s₀.Keeps (stopPlook s c e f) :=
  h.modCore.raise

protected theorem State.Keeps.buildStep {c : CoreId} (h : s₀.Keeps s) : s₀.Keeps (buildStep c s) := by
  unfold buildStep
  dsimp only
  split
  · exact h
  · split
    · exact h.modCore
    · split
      · exact h.modCore
      · split
        · exact h.senseSp.modCore.raise
        · exact .modCore (.ite h.senseSp.health h.senseSp)

protected theorem State.Keeps.fetchStep {c : CoreId} {e : EngineId} (h : s₀.Keeps s) : s₀.Keeps (fetchStep c e s) := by
  unfold fetchStep
  dsimp only
  split
  · exact h
  · split
    · exact h
    · split
      · exact h.modCore
      · split
        · exact h.modCore
        · split
          · exact (h.foldl fun _ _ hu => hu.senseSp).stopPlook
          · exact .ite ((h.foldl fun _ _ hu => hu.senseSp).modCore) ((h.foldl fun _ _ hu => hu.senseSp).modCore)

protected theorem State.Keeps.lookupStep {c : CoreId} {e : EngineId} {ln : Nat} {ecc : Ecc} (h : s₀.Keeps s) :
    s₀.Keeps (lookupStep c e ln ecc s) := by
  unfold lookupStep
  dsimp only
  split
  · split
    · exact h
    · split
      · exact h.stopPlook
      · exact h.modCa
      · exact .ite h.modCa.modCore (.ite h.sensePun.punEcc.stopPlook h.sensePun.punEcc.modCa.modCore)
  · exact h

protected theorem State.Keeps.handOffStep {c : CoreId} {e : EngineId} (h : s₀.Keeps s) : s₀.Keeps (handOffStep c e s) := by
  unfold handOffStep
  dsimp only
  split
  · exact .ite h (.ite h.stopPlook (.ite h (.ite h.stopPlook h.modCore)))
  · exact h

protected theorem State.Keeps.deliveryStep {c : CoreId} {e : EngineId} {ecc : Ecc} (h : s₀.Keeps s) :
    s₀.Keeps (deliveryStep c e ecc s) := by
  unfold deliveryStep
  dsimp only
  split
  · exact .ite h (.ite h.senseAcc.accEcc.modCore.raise (.ite h.senseAcc.accEcc.modCore.raise h.senseAcc.accEcc.modCore))
  · exact h

protected theorem State.Keeps.verdictStep {c : CoreId} {e : EngineId} (h : s₀.Keeps s) : s₀.Keeps (verdictStep c e s) := by
  unfold verdictStep
  extract_lets g
  split
  · exact h
  · split
    · exact h
    · extract_lets slot bytes s₁ cs valid s₂ k ok s₃
      refine .ite h ?_
      have h₁ : s₀.Keeps s₁ := h.foldl fun _ _ hu => hu.senseSp
      split
      · exact h₁.stopPlook
      · have h₂ : s₀.Keeps s₂ := h₁.foldl fun _ _ hu => hu.sensePun
        refine .ite h₂.stopPlook ?_
        have h₃ : s₀.Keeps s₃ := h₂.modCa
        exact .ite (.modCore (.ite h₃.noteRetry h₃)) (.ite h₃.stopPlook h₃.modCore)

end

end Sys2Proof.Machine
end

section
/-! PROOF. Links, queues and transfers keep the canonical forms. -/

namespace Sys2Proof.Machine

section
variable {s₀ s t : State}

theorem State.Keeps.setPort {p : PortId} {f : FPort} (h : s₀.Keeps s) : s₀.Keeps (s.setPort p f) :=
  .updateFab h rfl

theorem State.Keeps.modPort {p : PortId} {f : FPort → FPort} (h : s₀.Keeps s) : s₀.Keeps (s.modPort p f) :=
  h.setPort

theorem State.Keeps.train {p : PortId} (h : s₀.Keeps s) : s₀.Keeps (s.train p) :=
  h.modPort

theorem State.Keeps.queueFrames {p : PortId} {v : Nat} {xs : List Frame} (h : s₀.Keeps s) :
    s₀.Keeps (s.queueFrames p v xs) :=
  h.modPort

theorem State.Keeps.sendRead {c : CoreId} {id : Nat} {dest : Coord} {p : PortId} {dst addr len : Nat} (h : s₀.Keeps s) :
    s₀.Keeps (s.sendRead c id dest p dst addr len) :=
  .queueFrames (.updateFab h rfl)

theorem State.Keeps.answer {src : Node} {x : XferRef} {status : Nat} (h : s₀.Keeps s) :
    s₀.Keeps (s.answer src x status) := by
  unfold State.answer
  split
  · exact h
  · exact .update h

theorem State.Keeps.setQ {c : CoreId} {q : Nat} {h : HQueue} (hs : s₀.Keeps s) : s₀.Keeps (s.setQ c q h) :=
  hs.modCore

theorem State.Keeps.resetQueue {c : CoreId} {q : Nat} (h : s₀.Keeps s) : s₀.Keeps (s.resetQueue c q) :=
  h.setQ.modCb.foldl fun _ _ hu => hu.answer

theorem State.Keeps.senseQueue {c : CoreId} {q : Nat} (h : s₀.Keeps s) : s₀.Keeps (s.senseQueue c q) := by
  unfold State.senseQueue
  dsimp only
  split
  · exact h.senseSp
  · exact h

protected theorem State.Keeps.queuePoison {x : At} {q : Nat} (h : s₀.Keeps s) : s₀.Keeps (queuePoison x s q) := by
  unfold queuePoison
  split
  · exact h.raise
  · exact h

theorem State.Keeps.rewind {c : CoreId} {q : Nat} {x : XferRef} (h : s₀.Keeps s) : s₀.Keeps (s.rewind c q x) :=
  h.setQ.modCb.answer

theorem State.Keeps.commit {c : CoreId} {q : Nat} (h : s₀.Keeps s) : s₀.Keeps (s.commit c q) := by
  unfold State.commit
  dsimp only
  split
  · exact h
  · exact h.spLand.setQ.modCb.answer

theorem State.Keeps.ptrMismatch {c : CoreId} {q : Nat} (h : s₀.Keeps s) : s₀.Keeps (s.ptrMismatch c q) :=
  h.resetQueue.setQ.modCb.raiseLoose

theorem State.Keeps.push0 {ms : List Msg} (h : s₀.Keeps s) : s₀.Keeps (s.push0 ms) :=
  .update h

theorem State.Keeps.push1 {ms : List Msg} (h : s₀.Keeps s) : s₀.Keeps (s.push1 ms) :=
  .update h

theorem State.Keeps.dataFrames {p : PortId} {ftype vc : Nat} {dest : Coord} {num : W16} {addr : Nat} {prot : Bool}
    {ws : List W64}
    (h : s₀.Keeps s) : s₀.Keeps (s.dataFrames p ftype vc dest num addr prot ws).1 :=
  h.modPort

theorem State.Keeps.openXfer {ref : XferRef} {dest : Coord} {read : Bool} {next left : Nat} (h : s₀.Keeps s) :
    s₀.Keeps (s.openXfer ref dest read next left).2 :=
  .updateFab h rfl

theorem State.Keeps.sendWrite {c : CoreId} {id : Nat} {dest : Coord} {p : PortId} {src addr : Nat} {ws : List W64}
    (h : s₀.Keeps s) :
    s₀.Keeps (s.sendWrite c id dest p src addr ws) :=
  h.openXfer.dataFrames.queueFrames

theorem State.Keeps.readQueue {c : CoreId} {q : Nat} (h : s₀.Keeps s) : s₀.Keeps (s.readQueue c q).2 := by
  unfold State.readQueue
  dsimp only
  split
  · dsimp only
    exact h.senseQueue.setQ
  · dsimp only
    exact h.senseQueue.setQ.modCb
  · exact h.senseQueue

protected theorem State.Keeps.moveWords {x : At} {q off n : Nat} (h : s₀.Keeps s) : s₀.Keeps (moveWords x q off n s) := by
  induction n generalizing s off with
  | zero => exact h
  | succ n ih =>
    have hq : s₀.Keeps (s.readQueue x.c q).2 := h.readQueue
    rw [moveWords]
    split
    · rename_i heq
      rw [heq] at hq
      exact ih hq.spWr
    · rename_i heq
      rw [heq] at hq
      exact hq.queuePoison

protected theorem State.Keeps.writeRingWords {c : CoreId} {x : HQueue} {pos : Nat} {ws : List MWord} (h : s₀.Keeps s) :
    s₀.Keeps (Machine.writeRing c x pos ws s) := by
  induction ws generalizing s pos with
  | nil => exact h
  | cons w r ih => exact ih h.spLand

theorem State.Keeps.reserve {c : CoreId} {q : Nat} {src : BitVec 12} {kind : BitVec 4} {ws : List MWord} {x : XferRef}
    (h : s₀.Keeps s) :
    s₀.Keeps (s.reserve c q src kind ws x) :=
  .ite h.setQ.modCb.rewind h.setQ.writeRingWords

theorem State.Keeps.startXfer {x : At} {d : DmaDesc} (h : s₀.Keeps s) : s₀.Keeps (s.startXfer x d) := by
  unfold State.startXfer
  dsimp only
  split
  · exact .update h.modDqu
  · split
    · split
      · exact h.modDqu.sendWrite
      · exact h.modDqu.sendRead
      · exact h.modDqu
    · exact h.modDqu.push0

theorem State.Keeps.scatterXfer {x : At} {d : DmaDesc} (h : s₀.Keeps s) : s₀.Keeps (s.scatterXfer x d) := by
  unfold State.scatterXfer
  split
  · exact h.modCore.raise
  · exact h.startXfer

theorem State.Keeps.drop0 {src dst : Node} (h : s₀.Keeps s) : s₀.Keeps (s.drop0 src dst) :=
  .update h

theorem State.Keeps.hold0 {src dst : Node} (h : s₀.Keeps s) : s₀.Keeps (s.hold0 src dst) :=
  .update h

theorem State.Keeps.drop1 {src dst : Node} (h : s₀.Keeps s) : s₀.Keeps (s.drop1 src dst) :=
  .update h

theorem State.Keeps.landWords {c : CoreId} {off : Nat} {ws : List MWord} (h : s₀.Keeps s) :
    s₀.Keeps (s.landWords c off ws) :=
  h.spLand.modCore

theorem State.Keeps.raiseInbound {c : CoreId} {cause off : Nat} (h : s₀.Keeps s) : s₀.Keeps (s.raiseInbound c cause off) :=
  h.raiseLoose

theorem State.Keeps.modXfer {c : CoreId} {id : Nat} {f : Transfer → Transfer} (h : s₀.Keeps s) :
    s₀.Keeps (s.modXfer c id f) :=
  h.modDqu

theorem State.Keeps.partDone {ref : XferRef} {st : Nat} (h : s₀.Keeps s) : s₀.Keeps (s.partDone ref st) := by
  unfold State.partDone
  split
  · exact h.modXfer
  · exact h

theorem State.Keeps.takeInbound {c : CoreId} {off : Nat} {ws : List MWord} {held : Bool} {drop hold : State → State}
    {done : Nat → State → State} (h : s₀.Keeps s) (hdrop : ∀ u, s₀.Keeps u → s₀.Keeps (drop u))
    (hhold : ∀ u, s₀.Keeps u → s₀.Keeps (hold u)) (hdone : ∀ x0 u, s₀.Keeps u → s₀.Keeps (done x0 u)) :
    s₀.Keeps (s.takeInbound c off ws held drop hold done) := by
  unfold State.takeInbound
  split
  · exact hdone _ _ (hdrop _ h)
  · exact hdone _ _ ((hdrop _ h).raiseInbound)
  · exact .ite h ((hhold _ h).modCa)
  · exact hdone _ _ ((hdrop _ h).landWords)

theorem State.Keeps.parkData {c : CoreId} {src : Node} {m : Msg} (h : s₀.Keeps s) : s₀.Keeps (s.parkData c src m) :=
  h.drop1.modDqu

theorem State.Keeps.unpark {c : CoreId} {src : Node} (h : s₀.Keeps s) : s₀.Keeps (s.unpark c src) :=
  h.modDqu

theorem State.Keeps.inboundStep {c : CoreId} {src : Node} {m : Msg} {spot : InSpot} (h : s₀.Keeps s) :
    s₀.Keeps (s.inboundStep c src m spot) := by
  unfold State.inboundStep
  split
  · exact h.takeInbound (fun _ hu => hu.drop0) (fun _ hu => hu.hold0) (fun _ _ hu => hu.answer)
  · exact h.takeInbound (fun _ hu => .ite hu.unpark hu.drop1) (fun _ hu => hu.parkData) (fun _ _ hu => hu.partDone)
  · exact h

theorem State.Keeps.inboundWrite {c : CoreId} {src : Node} (h : s₀.Keeps s) : s₀.Keeps (s.inboundWrite c src) := by
  unfold State.inboundWrite
  split
  · split
    · exact h.parkData
    · exact h
  · split
    · exact h.inboundStep
    · exact h

theorem State.Keeps.heldLand {c : CoreId} {src : Node} (h : s₀.Keeps s) : s₀.Keeps (s.heldLand c src) := by
  unfold State.heldLand
  split
  · exact h.inboundStep
  · exact h

theorem State.Keeps.inboundRead {c : CoreId} {src : Node} (h : s₀.Keeps s) : s₀.Keeps (s.inboundRead c src) := by
  unfold State.inboundRead
  split
  · split
    · split
      · exact h.drop0.push1
      · split
        · exact .push1 (.ite h.drop0.raiseInbound h.drop0)
        · exact h.drop0.senseSp.push1
    · exact h
  · exact h

theorem State.Keeps.targetError {c : CoreId} {bundle : BitVec 20} {st : Nat} (h : s₀.Keeps s) :
    s₀.Keeps (s.targetError c bundle st) :=
  h.raise

theorem State.Keeps.putDone {c : CoreId} {id st : Nat} (h : s₀.Keeps s) : s₀.Keeps (s.putDone c id st) := by
  unfold State.putDone
  split
  · exact h
  · exact .ite h.modDqu h.modDqu.modCb.targetError

theorem State.Keeps.coreAck {c : CoreId} {src : Node} (h : s₀.Keeps s) : s₀.Keeps (s.coreAck c src) := by
  unfold State.coreAck
  split
  · split
    · exact h.drop1.partDone
    · exact h.drop1.putDone
    · exact h.drop1
  · exact h

theorem State.Keeps.packetArrive {c : CoreId} {src : Node} (h : s₀.Keeps s) : s₀.Keeps (s.packetArrive c src) := by
  unfold State.packetArrive
  dsimp only
  split
  · split
    · split
      · exact h.drop0.answer
      · exact h.drop0.rewind
      · exact h.hold0
      · exact h.drop0.reserve
    · exact h
  · exact h

theorem State.Keeps.modChan {k : Ctrl} {f : ChanCtr → ChanCtr} (h : s₀.Keeps s) : s₀.Keeps (s.modChan k f) :=
  .update h

theorem State.Keeps.burst {addr : Nat} {sev : Severity} (h : s₀.Keeps s) : s₀.Keeps (s.burst addr sev) := by
  unfold State.burst
  split
  · exact h.modChan
  · exact h.modChan.note
  · exact h

theorem State.Keeps.bursts {addr n : Nat} {sevs : List (Nat × Severity)} (h : s₀.Keeps s) :
    s₀.Keeps (s.bursts addr n sevs) :=
  h.foldl fun _ _ hu => hu.burst

theorem State.Keeps.channelRead {k : Ctrl} {src : Node} {sevs : List (Nat × Severity)} (h : s₀.Keeps s) :
    s₀.Keeps (s.channelRead k src sevs) := by
  unfold State.channelRead
  split
  · split
    · exact h.drop0.modChan.bursts.push1
    · split
      · exact h.drop0.modChan.bursts.modXfer.push0
      · exact h.drop0.modChan.bursts.push0
    · exact h
  · exact h

theorem State.Keeps.channelWrite {k : Ctrl} {src : Node} (h : s₀.Keeps s) : s₀.Keeps (s.channelWrite k src) := by
  unfold State.channelWrite
  split
  · split
    · split
      · exact h.drop0.modChan.devWrite.markStale.answer
      · exact h.drop0.modChan.answer
    · exact h
  · exact h

theorem State.Keeps.msgLink {r : CoreId} {i word : Nat} {ecc : Ecc} (h : s₀.Keeps s) :
    s₀.Keeps (s.msgLink r i word ecc) := by
  unfold State.msgLink
  split
  · exact h
  · split
    · exact h
    · split
      · exact h
      · exact h.modCb
      · exact .update h

end

end Sys2Proof.Machine
end

section
/-! PROOF. Tiles, faults and frames that arrive keep the canonical forms. -/

namespace Sys2Proof.Machine

section
variable {s₀ s t : State}

theorem State.Keeps.countRead {addr len : Nat} (h : s₀.Keeps s) : s₀.Keeps (s.countRead addr len) := by
  unfold State.countRead
  refine .foldl h ?_
  intro _ _ hu
  split
  · exact hu.modChan
  · exact hu

protected theorem State.Keeps.tileOver {c : CoreId} {id st : Nat} (h : s₀.Keeps s) : s₀.Keeps (tileOver c id st s) :=
  h.modXfer

theorem State.Keeps.landTile {c : CoreId} {t : Transfer} {ws : List MWord} {st : Nat} {after : State → State}
    (h : s₀.Keeps s) (hafter : ∀ u, s₀.Keeps u → s₀.Keeps (after u)) :
    s₀.Keeps (s.landTile c t ws st after) :=
  h.takeInbound (fun _ hu2 => hu2) (fun _ hu2 => hu2.modXfer) (fun _ _ hu2 => (hafter _ hu2).tileOver)

theorem State.Keeps.report {c : CoreId} {header : Nat} {berth : Bool} (h : s₀.Keeps s) :
    s₀.Keeps (s.report c header berth) :=
  .update h

theorem State.Keeps.failed {c : CoreId} {header : Nat} {berth codec : Bool} (h : s₀.Keeps s) :
    s₀.Keeps (s.failed c header berth codec) :=
  h.modCb.report

theorem State.Keeps.noteFetched {c : CoreId} {addr : Nat} {berth : Bool} (h : s₀.Keeps s) :
    s₀.Keeps (s.noteFetched c addr berth) :=
  h.modDqu

theorem State.Keeps.retried {c : CoreId} {again : Bool} (h : s₀.Keeps s) : s₀.Keeps (s.retried c again) :=
  .ite h.noteRetry h

theorem State.Keeps.countFetch {addr n : Nat} {f : TileFetch} (h : s₀.Keeps s) : s₀.Keeps (s.countFetch addr n f) :=
  h.countRead.bursts

theorem State.Keeps.berthTileCheck {c : CoreId} {id : Nat} {tries : TileTries} (h : s₀.Keeps s) :
    s₀.Keeps (s.berthTileCheck c id tries) := by
  unfold State.berthTileCheck
  split
  · exact h
  · refine .ite ?_ (.ite ?_ ?_)
    · exact h.landTile fun _ hu => .modCb (.retried (.ite hu.noteFetched.countFetch.countFetch hu.noteFetched.countFetch))
    · exact h.landTile fun _ hu => .modCb (.retried (.ite hu.noteFetched.countFetch.countFetch hu.noteFetched.countFetch))
    · exact h.landTile fun _ hu => hu.noteFetched.countFetch.countFetch.failed

theorem State.Keeps.tileLink {r c : CoreId} {id word : Nat} {ecc : Ecc} (h : s₀.Keeps s) :
    s₀.Keeps (s.tileLink r c id word ecc) := by
  unfold State.tileLink
  dsimp only
  split
  · exact h
  · split
    · split
      · exact h
      · split
        · exact h
        · exact h.modCb
        · exact h.modXfer
    · exact h

theorem State.Keeps.linkWord {r : CoreId} {load : LinkLoad} {word : Nat} {ecc : Ecc} (h : s₀.Keeps s) :
    s₀.Keeps (s.linkWord r load word ecc) := by
  unfold State.linkWord
  split
  · exact h.msgLink
  · exact h.tileLink

theorem State.Keeps.setDamaged {header : Nat} (h : s₀.Keeps s) : s₀.Keeps (s.setDamaged header) :=
  h.devWrite

theorem State.Keeps.tileReverify {header : Nat} (h : s₀.Keeps s) : s₀.Keeps (s.tileReverify header) := by
  unfold State.tileReverify
  split
  · exact h
  · exact .ite (.update (.update h)) (.note (.ite (.update h) (.setDamaged (.update h))))

/-- R450: the requests and jobs that a fault of core `c` falls on are marked: that of the quay which it names, else what the manifest
assigns the core to, else all with rows. -/
def State.blamed (s : State) (c : CoreId) : State :=
  match (s.core c).faultQuay, (s.logicalOf c).bind (·.owner) with
  | some h, _ => { s with serv := { s.serv with attributed := s.serv.attributed ++ [h] } }
  | none, some (false, n) =>
    let hit := s.serv.reqs.filter fun q => q.handle.toNat % 4096 == n
    { s with serv := { s.serv with attributed := s.serv.attributed ++ hit.map (·.handle) } }
  | none, some (true, n) =>
    { s with serv := { s.serv with jobs := s.serv.jobs.map fun j => if j.num = n then { j with faulted := true } else j } }
  | none, none =>
    let rows := s.serv.rowsOf
    let hit := s.serv.reqs.filter fun q => rows.any fun r => r.1 == 0 && r.2.1 == q.handle.toNat
    { s with serv := { s.serv with
      attributed := s.serv.attributed ++ hit.map (·.handle)
      jobs := s.serv.jobs.map fun j => if rows.any fun r => r.1 == 1 && r.2.1 == j.num then { j with faulted := true } else j } }

theorem State.Keeps.blamed {c : CoreId} (h : s₀.Keeps s) : s₀.Keeps (s.blamed c) := by
  unfold State.blamed
  split
  · exact .update h
  · exact .update h
  · exact .update h
  · exact .update h

theorem State.Keeps.dropCopies {c : CoreId} (h : s₀.Keeps s) : s₀.Keeps (s.dropCopies c) :=
  .update h

theorem State.Keeps.reverify {c : CoreId} {cause : Nat} (h : s₀.Keeps s) : s₀.Keeps (s.reverify c cause) :=
  .ite (h.foldl fun _ _ hu => hu.report) h

theorem State.Keeps.spi {x : Option (List Byte)} (h : s₀.Keeps s) : s₀.Keeps (s.spi x) :=
  .update h

theorem State.Keeps.lostPort {p : PortId} (h : s₀.Keeps s) : s₀.Keeps (s.lostPort p) :=
  .ite (.updateFab h rfl) h

theorem State.Keeps.portEvent {code p : Nat} (h : s₀.Keeps s) : s₀.Keeps (s.portEvent code p) :=
  h.note

theorem State.Keeps.fence {p : PortId} (h : s₀.Keeps s) : s₀.Keeps (s.fence p) :=
  h.modPort.portEvent.lostPort

theorem State.Keeps.violation {p : PortId} (h : s₀.Keeps s) : s₀.Keeps (s.violation p) :=
  .ite h.setPort.fence h.setPort

theorem State.Keeps.retrain {p : PortId} (h : s₀.Keeps s) : s₀.Keeps (s.retrain p) :=
  .ite h.setPort.train.fence h.setPort.train

theorem State.Keeps.sendNak {p : PortId} (h : s₀.Keeps s) : s₀.Keeps (s.sendNak p) :=
  h.setPort

theorem State.Keeps.owe {p : PortId} {x : Frame} (h : s₀.Keeps s) : s₀.Keeps (s.owe p x) :=
  h.modPort

theorem State.Keeps.pumpPort {p : PortId} (h : s₀.Keeps s) : s₀.Keeps (s.pumpPort p) :=
  h.setPort

theorem State.Keeps.modIn {src : Coord} {num : W16} {f : InXfer → InXfer} (h : s₀.Keeps s) : s₀.Keeps (s.modIn src num f) :=
  .updateFab h rfl

theorem State.Keeps.addIn {x : InXfer} (h : s₀.Keeps s) : s₀.Keeps (s.addIn x) :=
  .updateFab h rfl

theorem State.Keeps.dropIn {src : Coord} {num : W16} (h : s₀.Keeps s) : s₀.Keeps (s.dropIn src num) :=
  .updateFab h rfl

theorem State.Keeps.modOut {num : W16} {f : OutXfer → OutXfer} (h : s₀.Keeps s) : s₀.Keeps (s.modOut num f) :=
  .updateFab h rfl

theorem State.Keeps.dropOut {num : W16} (h : s₀.Keeps s) : s₀.Keeps (s.dropOut num) :=
  .updateFab h rfl

theorem State.Keeps.respHere {p : PortId} {fr : Frame} {ws : List W64} (h : s₀.Keeps s) : s₀.Keeps (s.respHere p fr ws) := by
  unfold State.respHere
  split
  · exact h.violation
  · split
    · exact h.violation
    · split
      · exact .ite h.push1.modXfer.dropOut h.push1.modXfer.modOut
      · exact h.dropOut

theorem State.Keeps.ackHere {p : PortId} {fr : Frame} (h : s₀.Keeps s) : s₀.Keeps (s.ackHere p fr) := by
  unfold State.ackHere
  split
  · exact h.violation
  · exact h.partDone.dropOut

theorem State.Keeps.refusalHere {p : PortId} {fr : Frame} (h : s₀.Keeps s) : s₀.Keeps (s.refusalHere p fr) := by
  unfold State.refusalHere
  split
  · exact h.violation
  · exact h.partDone.dropOut

theorem State.Keeps.abortCollectives (h : s₀.Keeps s) : s₀.Keeps (s.abortCollectives) :=
  .updateFab (h.foldl fun _ _ hu => .ite hu.raiseLoose hu) rfl

theorem State.Keeps.holdFrame {p : PortId} {fr : Frame} {count : Bool} (h : s₀.Keeps s) :
    s₀.Keeps (s.holdFrame p fr count) :=
  .ite (.updateFab h.modPort rfl) h.modPort

theorem State.Keeps.addMessage {fr : Frame} (h : s₀.Keeps s) : s₀.Keeps (s.addMessage fr) :=
  .updateFab h rfl

theorem State.Keeps.idleIn {p : PortId} {fr : Frame} (h : s₀.Keeps s) : s₀.Keeps (s.idleIn p fr) :=
  .ite h.sendNak (.modPort (.ite h.modPort.violation h.modPort))

theorem State.Keeps.nakIn {p : PortId} {fr : Frame} (h : s₀.Keeps s) : s₀.Keeps (s.nakIn p fr) := by
  unfold State.nakIn
  dsimp only
  split
  · exact h.sendNak
  · split
    · exact h.modPort.violation
    · split
      · exact h.modPort
      · exact .ite h.modPort.setPort.noteRetry.retrain h.modPort.setPort.noteRetry

theorem State.Keeps.identity {p : PortId} {serial : BitVec 48} {port : BitVec 3} {set : Bool} {c : Coord} (h : s₀.Keeps s) :
    s₀.Keeps (s.identity p serial port set c) := by
  unfold State.identity
  split
  · exact .ite h.modPort.modPort.portEvent.fence h.modPort
  · exact h.violation
  · exact h.violation
  · exact h

theorem State.Keeps.enablePort {p : PortId} (h : s₀.Keeps s) : s₀.Keeps (s.enablePort p) :=
  .ite h h.modPort.train

theorem State.Keeps.trained {p : PortId} {low high : Bool} (h : s₀.Keeps s) : s₀.Keeps (s.trained p low high) :=
  .ite h (.ite h.setPort.modPort (.ite h.setPort.modPort.portEvent (.ite h.setPort h.setPort.portEvent.lostPort)))

theorem State.Keeps.retryPort {p : PortId} (h : s₀.Keeps s) : s₀.Keeps (s.retryPort p) :=
  .ite h.setPort.train h

theorem State.Keeps.portDown {p : PortId} (h : s₀.Keeps s) : s₀.Keeps (s.portDown p) :=
  .ite h.modPort.portEvent.lostPort h

theorem State.Keeps.unfence {p : PortId} (h : s₀.Keeps s) : s₀.Keeps (s.unfence p) :=
  .ite h.setPort.train h

theorem State.Keeps.disablePort {p : PortId} (h : s₀.Keeps s) : s₀.Keeps (s.disablePort p) :=
  .ite h.modPort.lostPort h.modPort

/-- What an operation that may wait leaves, if it does not wait. -/
def State.KeepsSome (s : State) (o : Option State) : Prop := ∀ t, o = some t → s.Keeps t

protected theorem State.Keeps.some (h : s₀.Keeps s) : s₀.KeepsSome (some s) := fun _ e => Option.some.inj e ▸ h

protected theorem State.KeepsSome.none : s₀.KeepsSome none := fun _ e => nomatch e

protected theorem State.KeepsSome.map {o : Option State} {f : State → State} (ho : s₀.KeepsSome o)
    (hf : ∀ u, s₀.Keeps u → s₀.Keeps (f u)) :
    s₀.KeepsSome (o.map f) := by
  intro t ht
  obtain ⟨u, hu, rfl⟩ := Option.map_eq_some_iff.mp ht
  exact hf u (ho u hu)

protected theorem State.KeepsSome.getD {o : Option State} (ho : s₀.KeepsSome o) (h : s₀.Keeps s) : s₀.Keeps (o.getD s) := by
  cases o with
  | none => exact h
  | some u => exact ho u rfl

theorem State.Keeps.postCompletion {c : CoreId} {q : QueueId} {w : W64} (h : s₀.Keeps s) :
    s₀.KeepsSome (s.postCompletion c q w) := by
  unfold State.postCompletion
  split
  · exact .none
  · exact h.some
  · exact h.rewind.some
  · exact State.Keeps.some (.ite h.reserve h.reserve.commit)

theorem State.Keeps.tryPost {c : CoreId} (h : s₀.Keeps s) : s₀.Keeps (s.tryPost c) := by
  unfold State.tryPost
  split
  · exact h
  · exact (h.postCompletion.map fun _ hu => hu.modDqu).getD h

theorem Sparse.okFrom_map {α : Type} [DecidableEq α] {d : α} {f : Nat → α → α} (hf : ∀ i x, x ≠ d → f i x ≠ d)
    {l : List (Nat × α)} {lo : Nat} (h : Sparse.okFrom d lo l = true) :
    Sparse.okFrom d lo (l.map fun p => (p.1, f p.1 p.2)) = true := by
  induction l generalizing lo with
  | nil => rfl
  | cons p r ih =>
    simp only [Sparse.okFrom, Bool.and_eq_true, decide_eq_true_eq] at h
    obtain ⟨⟨hlo, hx⟩, hr⟩ := h
    simp only [List.map_cons, Sparse.okFrom, Bool.and_eq_true, decide_eq_true_eq]
    exact ⟨⟨hlo, hf _ _ hx⟩, ih hr⟩

/-- R450: a core whose task is ended is due for its scrub, and so not as after reset. -/
theorem Core.scrubbing_ne_reset {k : Core} (h : k.seq.state = .scrubbing) : k ≠ Core.reset := by
  intro e
  rw [e] at h
  exact absurd h (by decide)

theorem State.Keeps.endTasks (h : s₀.Keeps s) : s₀.Keeps s.endTasks := by
  refine ⟨h.1, fun hc => ?_, h.2.2⟩
  obtain ⟨hmem, hpoison, hcores⟩ := (State.canonical_iff s).mp (h.2.1 hc)
  refine (State.canonical_iff _).mpr ⟨hmem, hpoison, Sparse.okFrom_map (f := fun i (k : Core) =>
    if s.stepCore i && k.inTask then { k with seq := { k.seq with state := .scrubbing, stall := 0, wdogCount := 0 } } else k)
    (fun i k hk => ?_) hcores⟩
  split
  · exact Core.scrubbing_ne_reset rfl
  · exact hk

theorem State.Keeps.answerFrames {dest : Coord} {num : W16} {mk : PortId → State → State × List Frame} (h : s₀.Keeps s)
    (hmk : ∀ p u, s₀.Keeps u → s₀.Keeps (mk p u).1) : s₀.Keeps (s.answerFrames dest num mk) := by
  unfold State.answerFrames
  split
  · exact (hmk _ _ h).queueFrames
  · exact h

theorem State.Keeps.sendRefusal {dest : Coord} {num : W16} {st : Nat} (h : s₀.Keeps s) :
    s₀.Keeps (s.sendRefusal dest num st) :=
  h.answerFrames fun _ _ hu => hu

theorem State.Keeps.sendAck {dest : Coord} {num : W16} (h : s₀.Keeps s) : s₀.Keeps (s.sendAck dest num) :=
  h.answerFrames fun _ _ hu => hu

theorem State.Keeps.sendData {x : InXfer} (h : s₀.Keeps s) : s₀.Keeps (s.sendData x) :=
  .ite h.sendRefusal (h.answerFrames fun _ _ hu => hu.dataFrames)

theorem State.Keeps.dmaComplete {c : CoreId} {id : Nat} (h : s₀.Keeps s) : s₀.Keeps (s.dmaComplete c id) := by
  unfold State.dmaComplete
  split
  · exact .ite h.tryPost h
  · exact .ite h (.ite (.ite h.modDqu.modCb.modDqu.tryPost h.modDqu.modCb.modDqu) (.ite h.modDqu.modCb h.modDqu.modCb.targetError))

theorem State.Keeps.stepAborted {step : W32} (h : s₀.Keeps s) : s₀.Keeps (s.stepAborted step) :=
  .ite (.update h.endTasks) h

theorem State.Keeps.settleIn {src : Coord} {num : W16} (h : s₀.Keeps s) : s₀.Keeps (s.settleIn src num) := by
  unfold State.settleIn
  split
  · exact h
  · exact .ite h (.ite h.dropIn (.ite h.dropIn.sendRefusal (.ite h.dropIn.sendData h.dropIn.sendAck)))

theorem State.Keeps.refuseIn {p : PortId} {fr : Frame} {st : Nat} (h : s₀.Keeps s) : s₀.Keeps (s.refuseIn p fr st) := by
  unfold State.refuseIn
  refine .settleIn ?_
  refine .sendRefusal ?_
  split
  · exact h.modIn
  · exact h.addIn

theorem State.Keeps.landFrame {p : PortId} {fr : Frame} {ws : List W64} (h : s₀.Keeps s) :
    s₀.Keeps (s.landFrame p fr ws) := by
  unfold State.landFrame
  refine .settleIn ?_
  refine .push0 ?_
  split
  · exact h.modIn
  · exact h.addIn

theorem State.Keeps.writeHere {p : PortId} {fr : Frame} {ws : List W64} (h : s₀.Keeps s) :
    s₀.Keeps (s.writeHere p fr ws) := by
  unfold State.writeHere
  split
  · exact .ite h.modIn.settleIn h
  · split
    · exact h.landFrame
    · exact h.refuseIn

theorem State.Keeps.readHere {p : PortId} {fr : Frame} (h : s₀.Keeps s) : s₀.Keeps (s.readHere p fr) := by
  unfold State.readHere
  dsimp only
  split
  · exact h.addIn.push0.settleIn
  · exact h.sendRefusal

theorem State.Keeps.portAck {p : PortId} {src : Node} (h : s₀.Keeps s) : s₀.Keeps (s.portAck p src) := by
  unfold State.portAck
  split
  · exact h
  · split
    · exact h.drop1.modIn.settleIn
    · exact h.drop1.modIn.settleIn
    · exact h.drop1

theorem State.Keeps.mismatched {p : PortId} {fr : Frame} {hdr loc : List W64} {h : ContHdr} {field : Nat} (hs : s₀.Keeps s) :
    s₀.Keeps (s.mismatched p fr hdr loc h field) :=
  .tellSlice (.abortCollectives (.note (.updateFab hs.refuseIn rfl)))

theorem State.Keeps.codecRefused {p : PortId} {fr : Frame} (h : s₀.Keeps s) : s₀.Keeps (s.codecRefused p fr) := by
  unfold State.codecRefused
  split
  · split
    · exact h.partDone.dropOut
    · exact h.violation
  · exact h.refuseIn

theorem State.Keeps.tileVerdict {c : CoreId} {id : Nat} {tries : TileTries} (h : s₀.Keeps s) :
    s₀.Keeps (s.tileVerdict c id tries) := by
  unfold State.tileVerdict
  dsimp only
  split
  · exact h
  · split
    · exact h.landTile fun _ hu => hu.countRead
    · split
      · exact .update h.modXfer
      · exact h.landTile fun _ hu => .failed (.ite hu.countRead.noteFetched.countFetch.countFetch hu.countRead)
      · split
        · exact h.landTile fun _ hu =>
            .modCb (.retried (.ite hu.countRead.noteFetched.countFetch.countFetch hu.countRead.noteFetched.countFetch))
        · split
          · exact h.landTile fun _ hu =>
              .modCb (.retried (.ite hu.countRead.noteFetched.countFetch.countFetch hu.countRead.noteFetched.countFetch))
          · exact h.landTile fun _ hu => hu.countRead.noteFetched.countFetch.countFetch.failed

theorem State.Keeps.setHalting {serv : Serving} {b : Bool} (h : s₀.Keeps s) :
    s₀.Keeps { s with serv := serv, fab := { s.fab with halting := b } } :=
  .updateFab h rfl

theorem State.Keeps.containedFault {c : CoreId} (h : s₀.Keeps s) : s₀.Keeps (s.containedFault c) := by
  unfold State.containedFault
  dsimp only
  split
  · exact h
  · split
    · exact h
    · split
      · exact h.reverify.modSeq.note
      · split
        · exact h.reverify.modSeq.note.dropCopies
        · split
          · exact .tellSlice (.setHalting h.reverify.modSeq.note.endTasks.tellSlice.blamed.dropCopies)
          · exact .update h.reverify.modSeq.note.endTasks.tellSlice.blamed.dropCopies

theorem State.Keeps.contribute {p : PortId} {fr : Frame} (h : s₀.Keeps s) : s₀.KeepsSome (s.contribute p fr) := by
  unfold State.contribute
  dsimp only
  split
  · exact State.Keeps.some (.ite (.ite h.modIn.settleIn h) h.landFrame)
  · split
    · exact h.refuseIn.some
    · split
      · exact .none
      · exact h.mismatched.some
      · exact State.Keeps.some (.ite h.refuseIn h.landFrame)

theorem State.Keeps.vc2Frame {p : PortId} {fr : Frame} (h : s₀.Keeps s) : s₀.KeepsSome (s.vc2Frame p fr) := by
  unfold State.vc2Frame
  split
  · exact h.queueFrames.some
  · exact h.contribute

theorem State.Keeps.deliverFrame {p : PortId} {fr : Frame} (h : s₀.Keeps s) : s₀.Keeps (s.deliverFrame p fr) := by
  unfold State.deliverFrame
  dsimp only
  split
  · split
    · exact h.holdFrame
    · split
      · rename_i heq
        exact (h.vc2Frame _ heq).owe
      · exact h.holdFrame
  · split
    · exact h.owe.queueFrames
    · split
      · exact h.owe.codecRefused
      · split
        · exact h.owe.writeHere
        · exact h.owe.readHere
        · exact h.owe.respHere
        · exact h.owe.ackHere
        · exact h.owe.refusalHere
        · exact h.owe.addMessage

theorem State.Keeps.acceptFrame {p : PortId} {fr : Frame} {withinCredits : Bool} (h : s₀.Keeps s) :
    s₀.Keeps (s.acceptFrame p fr withinCredits) := by
  unfold State.acceptFrame
  refine .pumpPort ?_
  split
  · exact h.modPort.violation.owe
  · split
    · exact h.modPort.violation
    · exact .ite h.modPort.violation.owe h.modPort.deliverFrame

theorem State.Keeps.sequenced {p : PortId} {fr : Frame} {withinCredits : Bool} (h : s₀.Keeps s) :
    s₀.Keeps (s.sequenced p fr withinCredits) := by
  unfold State.sequenced
  split
  · exact h.sendNak
  · exact .ite h.modPort.sendNak h.acceptFrame

theorem State.Keeps.receiveFrame {p : PortId} {fr : Frame} {withinCredits : Bool} (h : s₀.Keeps s) :
    s₀.Keeps (s.receiveFrame p fr withinCredits) := by
  unfold State.receiveFrame
  split
  · exact h
  · split
    · exact h.idleIn
    · split
      · exact h.nakIn
      · split
        · exact .ite h.violation h.sendNak
        · exact h.sequenced

theorem State.Keeps.typedFrame {t : Nat} {p : PortId} {fr : Frame} (h : s₀.Keeps s) : s₀.Keeps (s.typedFrame t p fr) :=
  .ite h.receiveFrame h

theorem State.Keeps.recheck {n : Nat} {p : PortId} (h : s₀.Keeps s) : s₀.Keeps (State.recheck n p s) := by
  induction n generalizing s with
  | zero => exact h
  | succ n ih =>
    rw [State.recheck]
    split
    · exact h
    · split
      · exact h
      · rename_i heq
        exact ih (h.vc2Frame _ heq).modPort.owe

end

end Sys2Proof.Machine
end

section
/-! PROOF. Mailboxes, slices, uplinks, power and the stages of a start keep the canonical forms. -/

namespace Sys2Proof.Machine

section
variable {s₀ s t : State}

theorem State.Keeps.modMbx {i : Issuer} {g : Mbx → Mbx} (h : s₀.Keeps s) : s₀.Keeps (s.modMbx i g) := by
  unfold State.modMbx
  split
  · exact h.modFn
  · exact .update h

theorem State.Keeps.answerMbx {i : Issuer} {status : W16} {ticket : W32} {result : List Byte} (h : s₀.Keeps s) :
    s₀.Keeps (s.answerMbx i status ticket result) := by
  unfold State.answerMbx
  split
  · exact .ite h.modMbx.interrupt h.modMbx
  · exact h.modMbx

theorem State.Keeps.reply {i : Issuer} {status : W16} {result : List Byte} (h : s₀.Keeps s) :
    s₀.Keeps (s.reply i status result) :=
  h.answerMbx

theorem State.Keeps.command {i : Issuer} {op : W16} {f : State → State} (h : s₀.Keeps s)
    (hf : ∀ u, s₀.Keeps u → s₀.Keeps (f u)) :
    s₀.Keeps (s.command i op f) :=
  .ite (hf _ h) h

theorem State.Keeps.take {i : Issuer} {seq : W32} {ien : Bool} {op : W16} {arglen : Nat} (h : s₀.Keeps s) :
    s₀.Keeps (s.take i seq ien op arglen) := by
  unfold State.take
  split
  · exact h.modMbx.reply
  · exact h.modMbx

theorem State.Keeps.doorbell {f : FnId} {v : W64} (h : s₀.Keeps s) : s₀.Keeps (s.doorbell f v) :=
  .ite h.modFn h.take

theorem State.Keeps.windowWrite {f : FnId} {off : BitVec 12} {v : W64} (h : s₀.Keeps s) :
    s₀.Keeps (s.windowWrite f off v) := by
  unfold State.windowWrite
  dsimp only
  split
  · exact h.modFn
  · split
    · exact h.doorbell
    · split
      · exact h.modFn
      · split
        · exact .ite h.modFn h.modFn
        · exact h.modFn

theorem State.Keeps.modTicket {t : W32} {g : Ticket → Ticket} (h : s₀.Keeps s) : s₀.Keeps (s.modTicket t g) :=
  .update h

theorem State.Keeps.issue {i : Issuer} {op : W16} {unit : Byte} {total object : Nat} {go : W32 → State → State}
    (h : s₀.Keeps s) (hgo : ∀ x0 u, s₀.Keeps u → s₀.Keeps (go x0 u)) :
    s₀.Keeps (s.issue i op unit total object go) :=
  .ite h.reply (hgo _ _ (.answerMbx (.update h)))

theorem State.Keeps.finish {t : W32} {status : W16} {result : W64} (h : s₀.Keeps s) : s₀.Keeps (s.finish t status result) :=
  h.modTicket

theorem State.Keeps.finish? {t : Option W32} {status : W16} {result : W64} (h : s₀.Keeps s) :
    s₀.Keeps (s.finish? t status result) := by
  unfold State.finish?
  split
  · exact h.finish
  · exact h

theorem State.Keeps.progressTo {t : W32} {n : Nat} (h : s₀.Keeps s) : s₀.Keeps (s.progressTo t n) :=
  h.modTicket

theorem State.Keeps.haltIn {step : W32} (h : s₀.Keeps s) : s₀.Keeps (s.haltIn step) := by
  unfold State.haltIn
  dsimp only
  split
  · exact h
  · split
    · exact .abortCollectives (.ite h h.note)
    · exact .updateFab (.ite h h.note) rfl

theorem State.Keeps.modUp {u : UplinkId} {f : UPort → UPort} (h : s₀.Keeps s) : s₀.Keeps (s.modUp u f) :=
  .updateFab h rfl

theorem State.Keeps.setFlow {g : UFlow} (h : s₀.Keeps s) : s₀.Keeps (s.setFlow g) :=
  .updateFab h rfl

theorem State.Keeps.dropFlow {id : W32} (h : s₀.Keeps s) : s₀.Keeps (s.dropFlow id) :=
  .updateFab h rfl

theorem State.Keeps.sendDatagram {typ : Byte} {d : Datagram} (h : s₀.Keeps s) : s₀.Keeps (s.sendDatagram typ d) := by
  unfold State.sendDatagram
  split
  · exact h
  · exact h.modUp.send

theorem State.Keeps.sendAckOf {g : UFlow} (h : s₀.Keeps s) : s₀.Keeps (s.sendAckOf g) :=
  h.setFlow.sendDatagram

theorem State.Keeps.setPeer {g : UFlow} (h : s₀.Keeps s) : s₀.Keeps (s.setPeer g) :=
  .updateFab h rfl

theorem State.Keeps.uplinkViol {u : UplinkId} (h : s₀.Keeps s) : s₀.Keeps (s.uplinkViol u) :=
  h.modUp

theorem State.Keeps.datagramIn {u : UplinkId} {d : Datagram} {f : State → State} (h : s₀.Keeps s)
    (hf : ∀ u, s₀.Keeps u → s₀.Keeps (f u)) :
    s₀.Keeps (s.datagramIn u d f) := by
  unfold State.datagramIn
  split
  · exact h
  · exact .ite h.modUp.uplinkViol (hf _ h.modUp)

theorem State.Keeps.uplinkOpen {u : UplinkId} {d : Datagram} (h : s₀.Keeps s) : s₀.Keeps (s.uplinkOpen u d) :=
  h.datagramIn fun _ hu => .updateFab hu.dropFlow rfl

theorem State.Keeps.uplinkClose {u : UplinkId} {d : Datagram} (h : s₀.Keeps s) : s₀.Keeps (s.uplinkClose u d) := by
  unfold State.uplinkClose
  refine .datagramIn h ?_
  intro _ hu
  split
  · exact hu.uplinkViol
  · exact hu.sendAckOf.dropFlow

theorem State.Keeps.uplinkReset {u : UplinkId} {d : Datagram} (h : s₀.Keeps s) : s₀.Keeps (s.uplinkReset u d) := by
  unfold State.uplinkReset
  refine .datagramIn h ?_
  intro _ hu
  split
  · exact hu.uplinkViol
  · exact hu.setFlow

theorem State.Keeps.uplinkAckTimer {id : W32} (h : s₀.Keeps s) : s₀.Keeps (s.uplinkAckTimer id) := by
  unfold State.uplinkAckTimer
  split
  · exact .ite h h.sendAckOf
  · exact h

theorem State.Keeps.uplinkRetransmit {id : W32} (h : s₀.Keeps s) : s₀.Keeps (s.uplinkRetransmit id) := by
  unfold State.uplinkRetransmit
  split
  · exact ((h.foldl fun _ _ hu => hu.sendDatagram).modUp).noteRetry
  · exact h

theorem State.Keeps.uplinkFlowTimeout {id : W32} (h : s₀.Keeps s) : s₀.Keeps (s.uplinkFlowTimeout id) := by
  unfold State.uplinkFlowTimeout
  split
  · exact h
  · exact h.dropFlow.foldl fun _ _ hu => hu.finish

theorem State.Keeps.onPort {p : BitVec 3} {torus : PortId → State} {uplink : UplinkId → State} (h : s₀.Keeps s)
    (htorus : ∀ x0, s₀.Keeps (torus x0)) (huplink : ∀ x0, s₀.Keeps (uplink x0)) :
    s₀.Keeps (s.onPort p torus uplink) := by
  unfold State.onPort
  split
  · exact h
  · exact .ite (htorus _) (huplink _)

theorem State.Keeps.enableAny {p : BitVec 3} (h : s₀.Keeps s) : s₀.Keeps (s.enableAny p) :=
  h.onPort (fun _ => h.enablePort) (fun _ => h.modUp)

theorem State.Keeps.fatalOnce {cause : Nat} {snapshot : List W64} (h : s₀.Keeps s) : s₀.Keeps (s.fatalOnce cause snapshot) :=
  .ite h h.fatal

theorem State.Keeps.modPwr {f : Pwr → Pwr} (h : s₀.Keeps s) : s₀.Keeps (s.modPwr f) :=
  .update h

theorem State.Keeps.pwrEvent {code : Nat} {payload : List W64} (h : s₀.Keeps s) : s₀.Keeps (s.pwrEvent code payload) :=
  h.note

theorem State.Keeps.sampleStack {i : Fin 16} {t : ℤ} (h : s₀.Keeps s) : s₀.Keeps (s.sampleStack i t) :=
  .ite (.update h) (.note (.update h))

theorem State.Keeps.hourOver (h : s₀.Keeps s) : s₀.Keeps (s.hourOver) :=
  .ite (h.foldl fun _ _ hu => hu.modSeq) h

theorem State.Keeps.thermalSample {r : Sensors} (h : s₀.Keeps s) : s₀.Keeps (s.thermalSample r) := by
  unfold State.thermalSample
  extract_lets hm s₁ p q s₂ s₃ s₄ s₅
  have h₁ : s₀.Keeps s₁ := .update h
  refine .ite h₁ ?_
  have h₂ : s₀.Keeps s₂ := .foldl (.update h₁) fun _ _ hu => hu.sampleStack
  have h₃ : s₀.Keeps s₃ := .ite h₂.pwrEvent (.ite h₂.pwrEvent h₂)
  have h₄ : s₀.Keeps s₄ := .ite h₃.pwrEvent h₃
  have h₅ : s₀.Keeps s₅ := h₄.hourOver
  exact .ite h₅.modPwr.fatalOnce h₅

theorem State.Keeps.startRetry (h : s₀.Keeps s) : s₀.Keeps (s.startRetry) :=
  .ite (.update h) h

theorem State.Keeps.afterStage {n : Nat} {f : State → State} (h : s₀.Keeps s) (hf : ∀ u, s₀.Keeps u → s₀.Keeps (f u)) :
    s₀.Keeps (s.afterStage n f) :=
  .ite h (hf _ h)

theorem State.Keeps.stageDone {n : Nat} (h : s₀.Keeps s) : s₀.Keeps (s.stageDone n) :=
  h.modPwr

theorem State.Keeps.drawPpm (h : s₀.Keeps s) : s₀.Keeps (s.drawPpm) :=
  .update h

theorem State.Keeps.bootRom {sramOk : Bool} {straps : BitVec 7} (h : s₀.Keeps s) : s₀.Keeps (s.bootRom sramOk straps) := by
  unfold State.bootRom
  refine .afterStage h ?_
  intro _ hu
  split
  · exact .fatalOnce (.update hu)
  · refine .stageDone ?_
    split
    · exact .pwrEvent (.update (.update hu))
    · exact .update hu

theorem State.Keeps.sigFailed (h : s₀.Keeps s) : s₀.Keeps (s.sigFailed) :=
  .update h

theorem State.Keeps.startImage {b : Bool} {img : FwImage} {fallback : Bool} (h : s₀.Keeps s) :
    s₀.Keeps (s.startImage b img fallback) :=
  .stageDone (.ite (.note (.update h)) (.update h))

theorem State.Keeps.portStage (h : s₀.Keeps s) : s₀.Keeps (s.portStage) :=
  h.afterStage fun _ hu => (hu.foldl fun _ _ hu2 => hu2.enableAny).stageDone

theorem State.Keeps.identityCheck {crossOk : Bool} (h : s₀.Keeps s) : s₀.Keeps (s.identityCheck crossOk) :=
  h.afterStage fun _ hu => .ite hu.stageDone hu.fatalOnce

theorem State.Keeps.raiseFuses (h : s₀.Keeps s) : s₀.Keeps (s.raiseFuses) :=
  .ite (.note (.update h)) h

theorem State.Keeps.moduleReady {ms : W32} (h : s₀.Keeps s) : s₀.Keeps (s.moduleReady ms) :=
  h.afterStage fun _ hu => .raiseFuses (.pwrEvent (.update hu.modPwr.stageDone))

theorem State.Keeps.addCmd {c : BCmd} (h : s₀.Keeps s) : s₀.Keeps (s.addCmd c) :=
  .update h

theorem State.Keeps.leave {f : FnId} {r : RingId} {ix : W32} (h : s₀.Keeps s) : s₀.Keeps (s.leave f r ix) :=
  h.modRing

theorem State.Keeps.addRead {f : FnId} {r : RingId} {ix : W32} {tries : Nat} (h : s₀.Keeps s) :
    s₀.Keeps (s.addRead f r ix tries) :=
  .ite h (.update h)

theorem State.Keeps.openReads {f : FnId} {r : RingId} (h : s₀.Keeps s) : s₀.Keeps (s.openReads f r) := by
  unfold State.openReads
  dsimp only
  split
  · exact h
  · exact h.foldl fun _ _ hu => .ite hu hu.addRead

theorem State.Keeps.dropRead {f : FnId} {tag : Nat} (h : s₀.Keeps s) : s₀.Keeps (s.dropRead f tag) :=
  .update h

theorem State.Keeps.readFailed {x : HostRead} (h : s₀.Keeps s) : s₀.Keeps (s.readFailed x) :=
  .ite h.dropRead.modFn.addRead h.dropRead.modFn.modFn.leave.modRing

theorem State.Keeps.nextReads (h : s₀.Keeps s) : s₀.Keeps (s.nextReads) :=
  h.foldl fun _ _ hu => hu.foldl fun _ _ hu2 => hu2.openReads

theorem State.Keeps.readDone {f : FnId} {tag : Nat} {ok poisoned : Bool} {data : List W64} (h : s₀.Keeps s) :
    s₀.Keeps (s.readDone f tag ok poisoned data) := by
  unfold State.readDone
  split
  · exact h
  · exact .ite h.dropRead.modRing.nextReads h.readFailed.nextReads

theorem State.Keeps.refuseBell {f : FnId} {r : RingId} (h : s₀.Keeps s) : s₀.Keeps (s.refuseBell f r) :=
  h.modRing.modFn

theorem State.Keeps.bell {f : FnId} {r : RingId} {v : W32} (h : s₀.Keeps s) : s₀.Keeps (s.bell f r v) := by
  unfold State.bell
  dsimp only
  split
  · exact h.refuseBell
  · split
    · exact .ite h.modRing.openReads h.refuseBell
    · split
      · exact .ite h.modRing.flushKept h.refuseBell
      · exact h.refuseBell

theorem State.Keeps.enableRing {f : FnId} {r : RingId} {cfg : W64} (h : s₀.Keeps s) : s₀.Keeps (s.enableRing f r cfg) := by
  unfold State.enableRing
  dsimp only
  split
  · exact h.modRing.flushKept
  · exact .ite h.modRing.modRing.addCmd h.modRing

theorem State.Keeps.disableRing {f : FnId} {r : RingId} {cfg : W64} (h : s₀.Keeps s) : s₀.Keeps (s.disableRing f r cfg) :=
  .ite (.addCmd (.update h.modRing)) h.modRing

theorem State.Keeps.writeRcfg {f : FnId} {r : RingId} {v : W64} (h : s₀.Keeps s) : s₀.Keeps (s.writeRcfg f r v) := by
  unfold State.writeRcfg
  dsimp only
  split
  · exact h.enableRing
  · exact .ite h.disableRing h.modRing

theorem State.Keeps.ringMismatch {f : FnId} {r : RingId} (h : s₀.Keeps s) : s₀.Keeps (s.ringMismatch f r) :=
  .ite (.addCmd (.modFn (.update h.modRing))) h

theorem State.Keeps.sendPending {f : FnId} {v : Nat} (h : s₀.Keeps s) : s₀.Keeps (s.sendPending f v) :=
  .ite h.modFn.interrupt h

theorem State.Keeps.resumeFn {f : FnId} (h : s₀.Keeps s) : s₀.Keeps (s.resumeFn f) :=
  (h.foldl fun _ _ hu => hu.flushKept.openReads).foldl fun _ _ hu => hu.sendPending

theorem State.Keeps.busMaster {f : FnId} {on : Bool} (h : s₀.Keeps s) : s₀.Keeps (s.busMaster f on) :=
  .ite h.modFn.resumeFn h.modFn

theorem State.Keeps.resetFn {f : FnId} (h : s₀.Keeps s) : s₀.Keeps (s.resetFn f) :=
  .update (.addCmd (.setFn (.ite h.addCmd h)))

theorem State.Keeps.flr {f : FnId} (h : s₀.Keeps s) : s₀.Keeps (s.flr f) :=
  .ite (h.foldl fun _ _ hu => hu.resetFn) h.resetFn

theorem State.Keeps.ideFail {fns : List FnId} (h : s₀.Keeps s) : s₀.Keeps (s.ideFail fns) :=
  .ite (.update h) h

theorem State.Keeps.ideKm {stream : Nat} {fns : List FnId} {sess : Nat} (h : s₀.Keeps s) :
    s₀.Keeps (s.ideKm stream fns sess) :=
  .ite (.foldl (.update h) fun _ _ hu => hu.resumeFn) h

theorem State.Keeps.hostProtocol {f : FnId} {k : HostViolation} (h : s₀.Keeps s) : s₀.Keeps (s.hostProtocol f k) := by
  unfold State.hostProtocol
  split
  · exact h.modFn
  · exact h.modFn
  · exact h.modFn.modFn.send
  · exact h.modFn.modFn.send
  · exact h.send

theorem State.Keeps.unmask {f : FnId} {v : BitVec 5} (h : s₀.Keeps s) : s₀.Keeps (s.unmask f v) :=
  h.modFn.sendPending

theorem State.Keeps.lostWrite {f : FnId} (h : s₀.Keeps s) : s₀.Keeps (s.lostWrite f) :=
  h.modFn

theorem State.Keeps.writeMsix {f : FnId} {off : Nat} {v : W64} (h : s₀.Keeps s) : s₀.Keeps (s.writeMsix f off v) := by
  unfold State.writeMsix
  split
  · exact h.modFn
  · exact .ite h.modFn h.modFn.unmask

protected theorem State.Keeps.outReport {c : CoreId} {d : OutDesc} {units : List UnitOut} {long : Bool} (h : s₀.Keeps s) :
    s₀.Keeps (outReport c d units long s) := by
  unfold outReport
  split
  · exact .ite h.modCb.health.modCore.health h.modCb.health
  · exact .ite h.modCb.modCore.health h.modCb

protected theorem State.Keeps.outAct {x : At} {a : OqntArgs} {d : OutDesc} (h : s₀.Keeps s) : s₀.Keeps (outAct x a d s) :=
  .outReport (.ite h.wrBytes.spWr h.wrBytes)

protected theorem State.Keeps.outPart {x : At} {a : OqntArgs} {d : OutDesc} {k : Nat} (h : s₀.Keeps s) :
    s₀.Keeps (outPart x a d k s) :=
  h.wrBytes.outReport

protected theorem State.Keeps.outFaulted {x : At} {a : OqntArgs} {d : OutDesc} (h : s₀.Keeps s) :
    s₀.Keeps (outFaulted x a d s) := by
  unfold outFaulted
  split
  · exact h.outPart.raise
  · exact h.outPart.raise

protected theorem State.Keeps.outSense {c : CoreId} {a : OqntArgs} {d : OutDesc} (h : s₀.Keeps s) :
    s₀.Keeps (outSense c a d s) :=
  (h.foldl fun _ _ hu => hu.senseSp).foldl fun _ _ hu => hu.senseAcc

/-! ## Formation of a slice (R382, R383) -/

/-- What becomes of the ports and of the formation, where the formation keeps to R382's table. -/
theorem State.Keeps.putFab {fab : Fabric} {hm : Hm} (h : s₀.Keeps s)
    (hf : s.formingOk = true → (fab.forming.all fun f => isPow f.n && decide (f.origin < 8)) = true) :
    s₀.Keeps { s with fab := fab, hm := hm } :=
  ⟨h.1, h.2.1, fun hs => hf (h.2.2 hs)⟩

theorem State.Keeps.setFormed {f : Forming} {step : W64} (h : s₀.Keeps s) : s₀.Keeps (s.setFormed f step) :=
  h.putFab fun _ => rfl

theorem State.Keeps.notFormed {f : Forming} {status : W16} {es : List (Nat × Nat × Nat)} (h : s₀.Keeps s) :
    s₀.Keeps (s.notFormed f status es) := by
  unfold State.notFormed
  dsimp only
  exact .finish (.note (.putFab h fun _ => rfl))

theorem State.Keeps.decideMuster {f : Forming} (h : s₀.Keeps s) : s₀.Keeps (s.decideMuster f) := by
  unfold State.decideMuster
  dsimp only
  split
  · exact .finish (.setFormed (.updateFab h rfl))
  · exact .notFormed (.updateFab h rfl)

/-- R382: the size and the origin of a shape of the table. -/
theorem State.formingShape {n d sq origin : Nat} (h : s.shapeOk n d sq origin = true) :
    (isPow n && decide (origin < 8)) = true := by
  simp only [State.shapeOk, Bool.and_eq_true] at h ⊢
  obtain ⟨⟨⟨⟨⟨⟨⟨hn, _⟩, _⟩, _⟩, _⟩, ho⟩, _⟩, _⟩ := h
  exact ⟨hn, ho⟩

theorem State.Keeps.sliceForm {i : Issuer} {n d sq origin : Nat} (h : s₀.Keeps s) :
    s₀.Keeps (s.sliceForm i n d sq origin) := by
  unfold State.sliceForm
  dsimp only
  split
  · exact h.reply
  · rename_i hshape
    have hok := State.formingShape (by simpa using hshape)
    refine h.issue fun t u hu => ?_
    cases u.fab.forming with
    | none => exact .ite (.ite (.decideMuster (.putFab hu fun _ => hok)) (.putFab hu fun _ => hok)) (.putFab hu fun _ => hok)
    | some f =>
      exact .ite (.ite (.decideMuster (.putFab hu.finish fun _ => hok)) (.putFab hu.finish fun _ => hok))
        (.putFab hu.finish fun _ => hok)

theorem State.Keeps.musterRecord {m : Muster} (h : s₀.Keeps s) : s₀.Keeps (s.musterRecord m) := by
  unfold State.musterRecord
  split
  · exact h
  · rename_i f hforming
    have hadded : s₀.Keeps { s with fab := { s.fab with forming := some { f with records := f.records ++ [m] } } } := by
      refine .putFab h fun hs => ?_
      rw [State.formingOk, hforming] at hs
      exact hs
    dsimp only
    split
    · exact h
    · split
      · exact hadded.decideMuster
      · exact hadded

theorem State.Keeps.pumpFlow {n : Nat} {id : W32} (h : s₀.Keeps s) : s₀.Keeps (s.pumpFlow n id) := by
  induction n generalizing s with
  | zero => exact h
  | succ n ih =>
    rw [State.pumpFlow]
    split
    · exact h
    · dsimp only
      split
      · exact h
      · exact ih h.setFlow.sendDatagram

/-! ## Off and on (R469, R484) -/

theorem State.Keeps.powerOff (h : s₀.Keeps s) : s₀.Keeps s.powerOff :=
  ⟨h.1, fun _ => State.reset_canonical, fun _ => State.reset_formingOk⟩

theorem State.Keeps.warmStart (h : s₀.Keeps s) : s₀.Keeps s.warmStart := by
  refine ⟨h.1, fun hc => ?_, fun _ => State.reset_formingOk⟩
  obtain ⟨hmem, hpoison, _⟩ := (State.canonical_iff s).mp (h.2.1 hc)
  exact (State.canonical_iff _).mpr ⟨hmem, hpoison, rfl⟩

theorem State.Keeps.zeroMemory (h : s₀.Keeps s) : s₀.Keeps s.zeroMemory :=
  ⟨h.1, fun hc => (State.canonical_iff _).mpr ⟨rfl, rfl, ((State.canonical_iff s).mp (h.2.1 hc)).2.2⟩, h.2.2⟩

theorem State.Keeps.verifySlot {b : Bool} {sig : Option SigBlock} (h : s₀.Keeps s) : s₀.Keeps (s.verifySlot b sig).1 := by
  unfold State.verifySlot
  split
  · split
    · exact h.sigFailed
    · exact h
  · exact h

theorem State.Keeps.firmware {a b : Option SigBlock} (h : s₀.Keeps s) : s₀.Keeps (s.firmware a b) := by
  refine h.afterStage fun u hu => ?_
  dsimp only
  have hfirst := hu.verifySlot (b := u.flash.activeB) (sig := if u.flash.activeB then b else a)
  split
  · rename_i heq
    rw [heq] at hfirst
    exact hfirst.startImage
  · rename_i s1 heq
    rw [heq] at hfirst
    have hother := hfirst.verifySlot (b := !u.flash.activeB) (sig := if u.flash.activeB then a else b)
    split
    · rename_i heq2
      rw [heq2] at hother
      exact hother.startImage
    · rename_i heq2
      rw [heq2] at hother
      exact .update hother

theorem State.Keeps.musterTimeout (h : s₀.Keeps s) : s₀.Keeps (s.musterTimeout) := by
  unfold State.musterTimeout
  split
  · exact h
  · exact .ite h.decideMuster h.notFormed

theorem State.Keeps.musterReplied {f : Forming} {ok : Bool} {step : W32} (h : s₀.Keeps s) :
    s₀.Keeps (s.musterReplied f ok step) :=
  .ite h.setFormed.finish h.notFormed

theorem State.Keeps.messageIn {p : PortId} {fr : Frame} (h : s₀.Keeps s) : s₀.Keeps (s.messageIn p fr) := by
  unfold State.messageIn
  dsimp only
  split
  · exact .ite h.typedFrame h.typedFrame.musterReplied
  · exact h.typedFrame

theorem State.Keeps.runFlow {id : W32} (h : s₀.Keeps s) : s₀.Keeps (s.runFlow id) := by
  unfold State.runFlow
  split
  · exact h.pumpFlow
  · exact h

theorem State.Keeps.runPeer {id : W32} (h : s₀.Keeps s) : s₀.Keeps (s.runPeer id) := by
  unfold State.runPeer
  split
  · exact h.foldl fun _ _ hu => hu.runFlow
  · exact h

theorem State.Keeps.uplinkData {u : UplinkId} {d : Datagram} (h : s₀.Keeps s) : s₀.Keeps (s.uplinkData u d) := by
  unfold State.uplinkData
  refine .datagramIn h ?_
  intro _ hu
  split
  · exact hu.uplinkViol
  · split
    · exact hu.uplinkViol
    · split
      · exact hu
      · exact .runPeer (.ite hu.setPeer.sendAckOf hu.setPeer)

theorem State.Keeps.uplinkAck {u : UplinkId} {d : Datagram} (h : s₀.Keeps s) : s₀.Keeps (s.uplinkAck u d) := by
  unfold State.uplinkAck
  refine .datagramIn h ?_
  intro _ hu
  split
  · exact hu.uplinkViol
  · exact hu.setPeer.runPeer

theorem State.Keeps.inputLost {code : Nat} (h : s₀.Keeps s) : s₀.Keeps (s.inputLost code) :=
  h.powerLoss.powerOff

theorem State.Keeps.latchOff {stage cause : Nat} (h : s₀.Keeps s) : s₀.Keeps (s.latchOff stage cause) :=
  .update h.powerOff

theorem State.Keeps.startFailed {stage cause : Nat} (h : s₀.Keeps s) : s₀.Keeps (s.startFailed stage cause) :=
  .update h.latchOff

theorem State.Keeps.railOut {rail : Fin 11} (h : s₀.Keeps s) : s₀.Keeps (s.railOut rail) := by
  unfold State.railOut
  split
  · exact h.startFailed
  · split
    · exact h
    · exact .ite h.latchOff h.modPwr.fatalOnce

theorem State.Keeps.coldStart (h : s₀.Keeps s) : s₀.Keeps (s.coldStart) :=
  .ite h (.update h.powerOff)

theorem State.Keeps.rails {failed : Option (Fin 11)} (h : s₀.Keeps s) : s₀.Keeps (s.rails failed) := by
  unfold State.rails
  refine .afterStage h ?_
  intro _ hu
  split
  · exact hu.modPwr.stageDone
  · exact hu.startFailed

theorem State.Keeps.pllLock {ok pcieUp : Bool} (h : s₀.Keeps s) : s₀.Keeps (s.pllLock ok pcieUp) :=
  h.afterStage fun _ hu => .ite hu.drawPpm.modPwr.stageDone hu.startFailed

theorem State.Keeps.memTraining {failed : Option Ctrl} (h : s₀.Keeps s) : s₀.Keeps (s.memTraining failed) := by
  unfold State.memTraining
  refine .afterStage h ?_
  intro _ hu
  split
  · exact hu.zeroMemory.stageDone
  · exact hu.fatalOnce

theorem State.Keeps.memSelfTest {failed : Option ChannelId} (h : s₀.Keeps s) : s₀.Keeps (s.memSelfTest failed) := by
  unfold State.memSelfTest
  refine .afterStage h ?_
  intro _ hu
  split
  · exact hu
  · split
    · exact hu.zeroMemory.modPwr.stageDone
    · exact hu.modPwr.fatalOnce

theorem State.Keeps.writeRing {f : FnId} {off : Nat} {v : W64} (h : s₀.Keeps s) : s₀.Keeps (s.writeRing f off v) := by
  unfold State.writeRing
  split
  · exact .ite h h.modRing
  · exact h.writeRcfg
  · exact .ite h h.modRing
  · exact h.lostWrite

theorem State.Keeps.barWrite {f : FnId} {off : Nat} {v : W64} (h : s₀.Keeps s) : s₀.Keeps (s.barWrite f off v) := by
  unfold State.barWrite
  split
  · exact h.lostWrite
  · split
    · exact h.modFn
    · split
      · exact h.modFn
      · split
        · exact h.doorbell
        · split
          · exact h.windowWrite
          · split
            · exact h.bell
            · split
              · exact h.writeRing
              · exact .ite h.writeMsix h.lostWrite

end

end Sys2Proof.Machine
end

section
/-! PROOF. The router, issue, tasks, channel tests and control space keep the canonical forms. -/

namespace Sys2Proof.Machine

section
variable {s₀ s t : State}

theorem State.Keeps.modBank {c : CoreId} {i : Nat} {f : RtBank → RtBank} (h : s₀.Keeps s) : s₀.Keeps (s.modBank c i f) :=
  h.modDqu

theorem State.Keeps.rtWrite {c : CoreId} {off n x : Nat} (h : s₀.Keeps s) : s₀.Keeps (s.rtWrite c off n x) :=
  h.spWr.modCore

protected theorem State.Keeps.countRow {c : CoreId} {base j : Nat} (h : s₀.Keeps s) : s₀.Keeps (countRow c base j s) :=
  .ite h.rtWrite h.rtWrite

protected theorem State.Keeps.appendRow {c : CoreId} {base bMax row j : Nat} {s0 : State} (h : s₀.Keeps s0) :
    s₀.Keeps (appendRow c base bMax row j s0) := by
  unfold appendRow
  dsimp only
  split
  · exact h.senseSp.raiseLoose
  · exact h.senseSp.rtWrite.countRow

protected theorem State.Keeps.appendEntry {c : CoreId} {base bMax : Nat} {e : W64} (h : s₀.Keeps s) :
    s₀.Keeps (appendEntry c base bMax e s) :=
  h.foldl fun _ _ hu => hu.appendRow

theorem State.Keeps.routeMismatch {c : CoreId} (h : s₀.Keeps s) : s₀.Keeps (s.routeMismatch c) :=
  h.raiseLoose

theorem State.Keeps.stepCounts {c : CoreId} {layer gang base slots : Nat} (h : s₀.Keeps s) :
    s₀.Keeps (s.stepCounts c layer gang base slots) :=
  .update h

theorem State.Keeps.contributionRecord {c : CoreId} {src : Node} {layer : Option W16} (h : s₀.Keeps s) :
    s₀.Keeps (s.contributionRecord c src layer) := by
  unfold State.contributionRecord
  split
  · split
    · exact .ite h.inboundStep.routeMismatch h.inboundStep
    · exact h
  · exact h

theorem State.Keeps.digestPacket {c : CoreId} {src : Node} {layer : W16} (h : s₀.Keeps s) :
    s₀.Keeps (s.digestPacket c src layer) := by
  unfold State.digestPacket
  split
  · split
    · exact .ite h.inboundStep.modDqu h.inboundStep
    · exact h
  · exact h

protected theorem State.Keeps.vecOut {x : At} {lat : Nat} {vd : RegIx} {view : NanView} {val : BitVec 1024} (h : s₀.Keeps s)
    :
    s₀.Keeps (vecOut x lat vd view val s) :=
  h.modCore

/-! ## Plans of slot instructions (R248) -/

/-- An instruction whose effect keeps the canonical forms and the queue. -/
def Plan.Keeps (p : Plan) : Prop := ∀ ⦃s t : State⦄, s.Keeps t → s.Keeps (p.act t)

protected theorem Plan.Keeps.ite {c : Prop} [Decidable c] {p q : Plan} (hp : p.Keeps) (hq : q.Keeps) :
    (if c then p else q).Keeps := by
  split
  · exact hp
  · exact hq

theorem Plan.Keeps.same {p q : Plan} (hq : q.Keeps) (h : p.act = q.act) : p.Keeps := by
  intro s t ht
  rw [h]
  exact hq ht

protected theorem Plan.Keeps.nop : (Plan.nop).Keeps :=
  fun _ _ hu => hu

protected theorem Plan.Keeps.bad {cause detail : Nat} : (Plan.bad cause detail).Keeps :=
  fun _ _ hu => hu

protected theorem Plan.Keeps.after {bits : Nat} {p : Plan} (hp : p.Keeps) : (Plan.after bits p).Keeps :=
  .same hp rfl

protected theorem Plan.Keeps.badAcc : (badAcc).Keeps :=
  .bad

protected theorem Plan.Keeps.accIssue {x : At} {stall : Nat} {ranges : List SbEntry} {act : State → State}
    (hact : ∀ ⦃s u : State⦄, s.Keeps u → s.Keeps (act u)) :
    (accIssue x stall ranges act).Keeps :=
  fun _ _ hu => hact hu.modCb

protected theorem Plan.Keeps.aclrPlan {x : At} {tile : BitVec 6} {entry nm1 : BitVec 8} :
    (aclrPlan x tile entry nm1).Keeps := by
  unfold aclrPlan
  dsimp only
  split
  · exact .badAcc
  · exact .accIssue (fun _ _ hu => hu.eachEntry fun _ _ hu => hu.modCore)

protected theorem Plan.Keeps.amrgPlan {x : At} {ta tb : BitVec 6} {entry nm1 : BitVec 8} :
    (amrgPlan x ta tb entry nm1).Keeps := by
  unfold amrgPlan
  dsimp only
  split
  · exact .badAcc
  · exact .accIssue (fun _ _ hu => hu.eachEntry fun _ _ hu => hu.amrgOne)

protected theorem Plan.Keeps.aldpPlan {s : State} {x : At} {tile : BitVec 6} {entry nm1 : BitVec 8} {sAddr : RegIx} :
    (aldpPlan s x tile entry nm1 sAddr).Keeps := by
  unfold aldpPlan
  dsimp only
  split
  · exact .badAcc
  · exact .accIssue (fun _ _ hu => hu.readOr fun _ hu => hu.eachEntry fun _ _ hu2 => hu2.modCore)

protected theorem Plan.Keeps.astpPlan {s : State} {x : At} {tile : BitVec 6} {entry nm1 : BitVec 8} {sAddr : RegIx} :
    (astpPlan s x tile entry nm1 sAddr).Keeps := by
  unfold astpPlan
  dsimp only
  split
  · exact .badAcc
  · exact .accIssue (fun _ _ hu => hu.eachEntry fun _ _ hu => hu.astpOne)

protected theorem Plan.Keeps.badPun : (badPun).Keeps :=
  .bad

protected theorem Plan.Keeps.pbldPlan {s : State} {x : At} {a : PbldArgs} : (pbldPlan s x a).Keeps := by
  unfold pbldPlan
  dsimp only
  split
  · exact .after .badPun
  · split
    · exact .after .bad
    · exact fun _ _ hu => hu.modCore

protected theorem Plan.Keeps.plookIssue {p : Plook} {extra : List SbEntry} {act : State → State}
    (hact : ∀ ⦃s u : State⦄, s.Keeps u → s.Keeps (act u)) :
    (plookIssue p extra act).Keeps := by
  unfold plookIssue
  split
  · exact .badPun
  · split
    · exact .bad
    · exact hact

protected theorem Plan.Keeps.pfencePlan {k : Core} {emask : BitVec 4} {bld : Bool} : (pfencePlan k emask bld).Keeps :=
  .same .nop rfl

protected theorem Plan.Keeps.pinvPlan {x : At} {emask : BitVec 4} : (pinvPlan x emask).Keeps :=
  fun _ _ hu => hu.modCore

protected theorem Plan.Keeps.onQueue {k : Core} {q : Nat} {p : Plan} (hp : p.Keeps) : (onQueue k q p).Keeps := by
  unfold onQueue
  split
  · exact .bad
  · exact hp

protected theorem Plan.Keeps.badMove : (badMove).Keeps :=
  .bad

protected theorem Plan.Keeps.qmvPlan {k : Core} {x : At} {q : BitVec 7} {sAddr : RegIx} {nm1 : BitVec 9} :
    (qmvPlan k x q sAddr nm1).Keeps := by
  unfold qmvPlan
  dsimp only
  split
  · exact .badMove
  · exact .onQueue (fun _ _ hu => hu.moveWords)

protected theorem Plan.Keeps.qcntPlan {k : Core} {x : At} {rd : RegIx} {q : BitVec 7} : (qcntPlan k x rd q).Keeps :=
  .onQueue (fun _ _ hu => hu.modCore)

protected theorem Plan.Keeps.qrstPlan {k : Core} {x : At} {q : BitVec 7} : (qrstPlan k x q).Keeps :=
  .onQueue (fun _ _ hu => hu.resetQueue)

protected theorem Plan.Keeps.badDma {off : Nat} : (badDma off).Keeps :=
  .bad

protected theorem Plan.Keeps.qputPlan {k : Core} {x : At} {sDst sFirst : RegIx} {nm1 : BitVec 2} :
    (qputPlan k x sDst sFirst nm1).Keeps := by
  unfold qputPlan
  dsimp only
  split
  · exact .after .badMove
  · exact fun _ _ hu => hu.modDqu.push0

protected theorem Plan.Keeps.dfencePlan {k : Core} : (dfencePlan k).Keeps :=
  .same .nop rfl

protected theorem Plan.Keeps.awaitPlan {k : Core} {sAddr sLen sCnt : RegIx} : (awaitPlan k sAddr sLen sCnt).Keeps := by
  unfold awaitPlan
  dsimp only
  split
  · exact .nop
  · split
    · exact .bad
    · exact .same .nop rfl

protected theorem Plan.Keeps.badCtl : (badCtl).Keeps :=
  .bad

protected theorem Plan.Keeps.ctlResult {x : At} {lat : Nat} {rd : RegIx} {val : State → W64} :
    (ctlResult x lat rd val).Keeps :=
  fun _ _ hu => hu.modCore

protected theorem Plan.Keeps.takenPlan {k : Core} {t : ℤ} {act : State → State}
    (hact : ∀ ⦃s u : State⦄, s.Keeps u → s.Keeps (act u)) :
    (takenPlan k t act).Keeps := by
  unfold takenPlan
  split
  · exact hact
  · exact .badCtl

protected theorem Plan.Keeps.loopPlan {k : Core} {pc : BitVec 20} {count : Nat} {body : BitVec 12} :
    (loopPlan k pc count body).Keeps := by
  unfold loopPlan
  dsimp only
  split
  · split
    · exact .badCtl
    · exact .same .nop rfl
  · split
    · exact .badCtl
    · exact .same .nop rfl

protected theorem Plan.Keeps.ctlPlan {s : State} {x : At} {i : CtlInstr} : (ctlPlan s x i).Keeps := by
  unfold ctlPlan
  dsimp only
  split
  · exact .nop
  · exact .ctlResult
  · split
    · exact .ctlResult
    · exact .badCtl
  · exact .ctlResult
  · split
    · exact fun _ _ hu => hu.readOr fun _ hu => hu.modCore
    · exact .badCtl
  · split
    · exact fun _ _ hu => hu.spWr
    · exact .badCtl
  · exact .ctlResult
  · exact .same .nop rfl
  · exact .takenPlan (fun _ _ hu => hu)
  · split
    · exact .takenPlan (fun _ _ hu => hu)
    · exact .nop
  · split
    · exact .nop
    · exact .takenPlan (fun _ _ hu => hu)
  · exact .takenPlan (fun _ _ hu => hu.modCore)
  · split
    · exact .takenPlan (fun _ _ hu => hu)
    · exact .badCtl
  · exact .loopPlan
  · exact .loopPlan
  · exact .same .nop rfl
  · exact .badCtl

protected theorem Plan.Keeps.withDesc {s : State} {x : At} {off len bits : Nat} {p : Plan} (hp : p.Keeps) :
    (withDesc s x off len bits p).Keeps := by
  unfold withDesc
  dsimp only
  split
  · exact .nop
  · split
    · exact .after .bad
    · intro u t ht
      dsimp only [Plan.after]
      split
      · exact ht
      · exact hp ht

protected theorem Plan.Keeps.qrdPlan {k : Core} {x : At} {rd : RegIx} {q : BitVec 7} : (qrdPlan k x rd q).Keeps := by
  refine .onQueue fun _ t ht => ?_
  have hread := ht.readQueue (c := x.c) (q := q.toNat)
  dsimp only
  split
  · rename_i heq
    rw [heq] at hread
    exact hread.modCore
  · rename_i heq
    rw [heq] at hread
    exact hread.queuePoison

protected theorem Plan.Keeps.acfgPlan {s : State} {x : At} {tile : BitVec 6} {sCd : RegIx} {en : Bool} :
    (acfgPlan s x tile sCd en).Keeps := by
  unfold acfgPlan
  dsimp only
  split
  · split
    · refine .withDesc ?_
      split
      · exact .badAcc
      · exact .accIssue (fun _ _ hu => hu.modCore)
    · exact .after .badAcc
  · exact .accIssue (fun _ _ hu => hu.modCore)

protected theorem Plan.Keeps.plookPlan {s : State} {x : At} {a : PlookArgs} : (plookPlan s x a).Keeps := by
  unfold plookPlan
  dsimp only
  split
  · exact .after .badPun
  · split
    · split
      · exact .after .badPun
      · refine .withDesc ?_
        split
        · exact .bad
        · split
          · exact .badPun
          · exact .plookIssue (fun _ _ hu => hu.readOr fun _ hu => hu.modCore)
    · exact .after (.plookIssue (fun _ _ hu => hu.modCore))

protected theorem Plan.Keeps.punPlan {s : State} {x : At} {i : PunInstr} : (punPlan s x i).Keeps := by
  unfold punPlan
  split
  · exact .nop
  · exact .pbldPlan
  · exact .plookPlan
  · exact .pfencePlan
  · exact .pinvPlan
  · exact .badPun

protected theorem Plan.Keeps.dstartPlan {s : State} {x : At} {sDesc : RegIx} : (dstartPlan s x sDesc).Keeps := by
  unfold dstartPlan
  dsimp only
  split
  · exact .after .badDma
  · refine .withDesc ?_
    split
    · split
      · exact .badDma
      · split
        · exact .bad
        · split
          · exact fun _ _ hu => hu.readOr fun _ hu => hu.modDqu.scatterXfer
          · exact fun _ _ hu => hu.scatterXfer
    · split
      · exact .badDma
      · split
        · exact .bad
        · split
          · exact fun _ _ hu => hu.readOr fun _ hu => hu.modDqu.scatterXfer
          · exact fun _ _ hu => hu.scatterXfer

protected theorem Plan.Keeps.oqntPlan {s : State} {x : At} {a : OqntArgs} : (oqntPlan s x a).Keeps := by
  unfold oqntPlan
  dsimp only
  split
  · exact .after .bad
  · refine .withDesc ?_
    split
    · exact .bad
    · exact fun _ _ hu => .ite hu.modCore.outSense.outFaulted hu.modCore.outSense.outAct

protected theorem State.Keeps.drainBank {c : CoreId} {i base bMax fuel : Nat} (h : s₀.Keeps s) :
    s₀.Keeps (drainBank c i base bMax fuel s) := by
  induction fuel generalizing s with
  | zero => exact h
  | succ n ih =>
    rw [drainBank]
    split
    · exact h
    · exact ih (.modCb (.modBank (.foldl h fun _ _ hu => hu.appendEntry)))

theorem State.Keeps.acceptRoute {c : CoreId} {i layer rcore gang : Nat} {step : W32} {es : List W64} (h : s₀.Keeps s) :
    s₀.Keeps (s.acceptRoute c i layer rcore gang step es) := by
  unfold State.acceptRoute
  refine .modCb ?_
  refine .modBank ?_
  split
  · exact .stepCounts (.drainBank (.modBank (.ite h.rtWrite h)))
  · exact .drainBank (.modBank (.ite h.rtWrite h))

theorem State.Keeps.routePacket {c : CoreId} {src : Node} (h : s₀.Keeps s) : s₀.Keeps (s.routePacket c src) := by
  unfold State.routePacket
  dsimp only
  split
  · split
    · split
      · exact h.drop0.answer
      · split
        · exact .ite h h.hold0.modCb
        · split
          · exact h.drop0.modCb.routeMismatch.answer
          · split
            · exact h.drop0.answer
            · exact h.drop0.raiseInbound.answer
            · exact .ite h h.hold0.modCa
            · exact h.drop0.modCb.acceptRoute.answer
    · exact h
  · exact h

protected theorem Plan.Keeps.badRouter : (badRouter).Keeps :=
  .bad

protected theorem Plan.Keeps.rtakePlan {s : State} {x : At} {sb : RegIx} {nsm1 : BitVec 4} {bank : Bool} :
    (rtakePlan s x sb nsm1 bank).Keeps := by
  unfold rtakePlan
  split
  · exact .after .badRouter
  · exact fun _ _ hu => hu.modBank.readOr fun _ hu => hu.foldl fun _ _ hu2 => hu2.modCore

protected theorem Plan.Keeps.badVec : (badVec).Keeps :=
  .bad

protected theorem Plan.Keeps.onPipe {k : Core} {x : At} {p interval lat : Nat} {ranges : List SbEntry} {act : State → State}
    (hact : ∀ ⦃s u : State⦄, s.Keeps u → s.Keeps (act u)) :
    (onPipe k x p interval lat ranges act).Keeps :=
  fun _ _ hu => hact hu.modCore

protected theorem Plan.Keeps.arith {k : Core} {x : At} {lat : Nat} {vd : RegIx} {view : NanView} {val : BitVec 1024} :
    (arith k x lat vd view val).Keeps :=
  .onPipe (fun _ _ hu => hu.vecOut)

protected theorem Plan.Keeps.vecStore {k : Core} {x : At} {a size align lat iv : Nat} {bytes : List Byte} :
    (vecStore k x a size align lat iv bytes).Keeps := by
  unfold vecStore
  split
  · exact .onPipe (fun _ _ hu => hu.wrBytes)
  · exact .after .badVec

protected theorem Plan.Keeps.feedPlan {k : Core} {x : At} {va : RegIx} {cx : BitVec 2} {nm1 : BitVec 5} {ixs : Option RegIx}
    :
    (feedPlan k x va cx nm1 ixs).Keeps := by
  unfold feedPlan
  dsimp only
  split
  · exact .after .bad
  · split
    · exact .after .bad
    · exact .onPipe (fun _ _ hu => hu.modCore)

protected theorem Plan.Keeps.rgetPlan {k : Core} {x : At} {vd : RegIx} {cx : BitVec 2} {part : BitVec 3} :
    (rgetPlan k x vd cx part).Keeps := by
  unfold rgetPlan
  dsimp only
  split
  · exact .after .badVec
  · split
    · exact .after .bad
    · split
      · exact .after .badVec
      · exact .onPipe (fun _ _ hu => hu.vecOut)

protected theorem Plan.Keeps.movPlan {s : State} {x : At} {i : MovInstr} : (movPlan s x i).Keeps := by
  unfold movPlan
  split
  · exact .nop
  · exact .dstartPlan
  · exact .qputPlan
  · exact .qrdPlan
  · exact .qmvPlan
  · exact .qcntPlan
  · exact .qrstPlan
  · exact .dfencePlan
  · exact .awaitPlan
  · exact .rtakePlan
  · exact .oqntPlan
  · exact .badMove
  · exact .bad
  · exact .badRouter
  · exact .bad

protected theorem State.Keeps.readDescs {c : CoreId} {ps : List Plan} (h : s₀.Keeps s) : s₀.Keeps (readDescs c ps s) :=
  h.foldl fun _ _ hu => hu.senseSp

theorem State.Keeps.raiseFetch {c : CoreId} {cause detail : Nat} (h : s₀.Keeps s) : s₀.Keeps (s.raiseFetch c cause detail) :=
  h.modCore

protected theorem State.Keeps.beforeIssue {c : CoreId} {go : State → State} (h : s₀.Keeps s)
    (hgo : ∀ u, s₀.Keeps u → s₀.Keeps (go u)) :
    s₀.Keeps (beforeIssue c s go) := by
  unfold beforeIssue
  dsimp only
  split
  · exact h
  · split
    · exact h.setCore
    · split
      · exact h.setCore
      · exact .ite h.raiseFetch (hgo _ h.setCore)

theorem State.Keeps.startTask {c : CoreId} (h : s₀.Keeps s) : s₀.Keeps (s.startTask c) := by
  unfold State.startTask
  dsimp only
  split
  · exact h
  · exact .ite h.setCore.raise h.setCore

theorem State.Keeps.freeRange {c : CoreId} {n : Nat} (h : s₀.Keeps s) : s₀.Keeps (s.freeRange c n) := by
  unfold State.freeRange
  dsimp only
  split
  · split
    · exact h.setCore
    · exact h
  · exact h

theorem State.Keeps.taskEnd {c : CoreId} (h : s₀.Keeps s) : s₀.Keeps (s.taskEnd c) :=
  .ite h.setCore h

theorem State.Keeps.watchdogFire {c : CoreId} (h : s₀.Keeps s) : s₀.Keeps (s.watchdogFire c) :=
  .ite h.setCore h

theorem State.Keeps.wdogWrite {c : CoreId} {v : W64} (h : s₀.Keeps s) : s₀.Keeps (s.wdogWrite c v) :=
  h.modSeq

theorem State.Keeps.clearQueues {c : CoreId} (h : s₀.Keeps s) : s₀.Keeps (s.clearQueues c) :=
  h.foldl fun _ _ hu => hu.resetQueue.setQ

theorem State.Keeps.refuseHeld {c : CoreId} (h : s₀.Keeps s) : s₀.Keeps (s.refuseHeld c) := by
  unfold State.refuseHeld
  refine .foldl (.modDqu (.update h)) ?_
  intro _ _ hu
  split
  · exact hu.answer
  · exact hu.partDone
  · exact hu

theorem State.Keeps.scrubDone {c : CoreId} (h : s₀.Keeps s) : s₀.Keeps (s.scrubDone c) :=
  .ite h.modSeq h

theorem State.Keeps.fillDone {c : CoreId} (h : s₀.Keeps s) : s₀.Keeps (s.fillDone c) :=
  .ite h.modSeq h

theorem State.Keeps.senseWords {c : CoreId} {mem : ScrubMem} {first : Nat} (h : s₀.Keeps s) :
    s₀.Keeps (s.senseWords c mem first) := by
  unfold State.senseWords
  split
  · exact h.senseSp
  · exact h.senseCore

theorem State.Keeps.scrubAccess {c : CoreId} {struck : List ScrubFind} (h : s₀.Keeps s) :
    s₀.Keeps (s.scrubAccess c struck) := by
  unfold State.scrubAccess
  split
  · exact h
  · exact .ite (((h.foldl fun _ _ hu => hu.strike).senseWords).modSeq)
      ((((h.foldl fun _ _ hu => hu.strike).senseWords).modSeq).modCa)

theorem State.Keeps.setTgc {ch : ChannelId} {g : Tgc} (h : s₀.Keeps s) : s₀.Keeps (s.setTgc ch g) :=
  .update h

theorem State.Keeps.tgcGo {ch : ChannelId} (h : s₀.Keeps s) : s₀.Keeps (s.tgcGo ch) := by
  unfold State.tgcGo
  dsimp only
  split
  · exact h
  · exact .ite h.setTgc h.setTgc

theorem State.Keeps.tgcStop {ch : ChannelId} (h : s₀.Keeps s) : s₀.Keeps (s.tgcStop ch) :=
  .ite h.setTgc h

theorem State.Keeps.tgcTicket {ch : ChannelId} {result : W64} (h : s₀.Keeps s) : s₀.Keeps (s.tgcTicket ch result) := by
  unfold State.tgcTicket
  split
  · exact h.finish
  · exact h

theorem State.Keeps.chsvcWrite {i : BitVec 2} {v : W64} (h : s₀.Keeps s) : s₀.Keeps (s.chsvcWrite i v) := by
  unfold State.chsvcWrite
  refine .foldl h ?_
  intro _ _ hu
  split
  · exact .ite hu.setTgc (.update hu)
  · exact .update (.ite hu.setTgc hu)

theorem State.Keeps.poolCount {anch : Bool} {v : W32} (h : s₀.Keeps s) : s₀.Keeps (s.poolCount anch v) := by
  unfold State.poolCount
  split
  · exact h
  · exact .ite (.update h) (.update h)

theorem State.Keeps.tgcCommand {i : Issuer} {ch : ChannelId} {ctrl range seed fixed loops : W64} (h : s₀.Keeps s) :
    s₀.Keeps (s.tgcCommand i ch ctrl range seed fixed loops) := by
  unfold State.tgcCommand
  dsimp only
  split
  · exact h.reply
  · exact h.issue fun _ _ hu => .ite hu.setTgc.tgcGo.tgcTicket hu.setTgc.tgcGo

theorem State.Keeps.writeQstat {c : CoreId} {q v : Nat} (h : s₀.Keeps s) : s₀.Keeps (s.writeQstat c q v) :=
  .ite h.modCore.resetQueue h.modCore

theorem State.Keeps.checkRegions {written : Nat} (h : s₀.Keeps s) : s₀.Keeps (s.checkRegions written) :=
  .ite h (.update h)

theorem State.Keeps.writeChlist {i : Nat} {v : W64} (h : s₀.Keeps s) : s₀.Keeps (s.writeChlist i v) :=
  h.foldl fun _ _ hu => .update hu

theorem State.Keeps.writeMemReg {o : Nat} {v : W64} (h : s₀.Keeps s) : s₀.Keeps (s.writeMemReg o v) := by
  unfold State.writeMemReg
  split
  · exact h
  · split
    · exact h.chsvcWrite
    · split
      · exact .update h
      · split
        · exact h.writeChlist
        · split
          · exact .checkRegions (.update h)
          · split
            · exact h
            · split
              · exact .update h
              · exact h.poolCount
              · exact .update h
              · exact h

theorem State.Keeps.writeTgc {ch : ChannelId} {o : Nat} {v : W64} (h : s₀.Keeps s) : s₀.Keeps (s.writeTgc ch o v) := by
  unfold State.writeTgc
  dsimp only
  split
  · split
    · exact .tgcGo (.ite h.setTgc.tgcStop h.setTgc)
    · exact .ite h.setTgc.tgcStop h.setTgc
  · exact h.setTgc
  · exact h.setTgc
  · exact h.setTgc
  · exact h.setTgc
  · exact h

theorem State.Keeps.writeAnc {o : Nat} {v : W64} (h : s₀.Keeps s) : s₀.Keeps (s.writeAnc o v) := by
  unfold State.writeAnc
  split
  · exact h
  · split
    · exact .update h
    · exact h.poolCount
    · exact .update h
    · exact h

theorem State.Keeps.writeFabric {o : Nat} {v : W64} (h : s₀.Keeps s) : s₀.Keeps (s.writeFabric o v) := by
  unfold State.writeFabric
  split
  · exact h
  · split
    · exact .updateFab h rfl
    · split
      · exact .updateFab h rfl
      · exact .updateFab h rfl
      · exact .ite (.updateFab h rfl) h
      · exact h

theorem State.Keeps.writePort {p : PortId} {o : Nat} {v : W64} (h : s₀.Keeps s) : s₀.Keeps (s.writePort p o v) := by
  unfold State.writePort
  dsimp only
  split
  · exact h
  · split
    · exact .enablePort (.ite h.modPort.unfence h.modPort)
    · exact .disablePort (.ite h.modPort.unfence h.modPort)

theorem State.Keeps.writeUplink {u : UplinkId} {o : Nat} {v : W64} (h : s₀.Keeps s) : s₀.Keeps (s.writeUplink u o v) := by
  unfold State.writeUplink
  split
  · exact h.modUp
  · exact h.modUp
  · exact h.modUp
  · exact h.modUp
  · exact h

theorem State.Keeps.writeSec {o : Nat} {v : W64} (h : s₀.Keeps s) : s₀.Keeps (s.writeSec o v) :=
  .ite (.update h) h

/-! ## Writes of the traffic generators and of the scrub (R262, R324) -/

/-- A part of a canonical list is canonical. -/
theorem Sparse.okFrom_filter {α : Type} [DecidableEq α] {d : α} {l : List (Nat × α)} {p : Nat × α → Bool} {lo : Nat}
    (h : Sparse.okFrom d lo l = true) : Sparse.okFrom d lo (l.filter p) = true := by
  induction l generalizing lo with
  | nil => rfl
  | cons x r ih =>
    simp only [Sparse.okFrom, Bool.and_eq_true, decide_eq_true_eq] at h
    obtain ⟨⟨hlo, hx⟩, hr⟩ := h
    simp only [List.filter_cons]
    split
    · simp only [Sparse.okFrom, Bool.and_eq_true, decide_eq_true_eq]
      exact ⟨⟨hlo, hx⟩, ih hr⟩
    · exact ih (Sparse.okFrom_mono d r _ _ (by omega) hr)

/-- Memory and marks that are dropped in part. -/
theorem State.Keeps.dropMem {p : Host.Cell → Bool} {q : Nat → Bool} {flips : List (Nat × Bool)} (h : s₀.Keeps s) :
    s₀.Keeps { s with mem := s.mem.filter p, poison := s.poison.filter q, flips := flips } := by
  refine ⟨h.1, fun hc => ?_, h.2.2⟩
  obtain ⟨hmem, hpoison, hcores⟩ := (State.canonical_iff s).mp (h.2.1 hc)
  exact (State.canonical_iff _).mpr ⟨Sparse.okFrom_filter hmem, NSet.wf_filter _ _ hpoison, hcores⟩

theorem State.Keeps.zeroBank {c : CoreId} {b : Nat} (h : s₀.Keeps s) : s₀.Keeps (s.zeroBank c b) :=
  h.dropMem

theorem State.Keeps.visit {ch : ChannelId} {n : Nat} {v : Nat × Visit} {g : Tgc} (h : s₀.Keeps s) :
    s₀.Keeps (s.visit ch n v g).1 := by
  unfold State.visit
  dsimp only
  split
  · exact h.wrWords
  · exact h
  · exact h

theorem State.Keeps.runVisits {ch : ChannelId} {vs : List (Nat × Visit)} {q : State × Tgc} (h : s₀.Keeps q.1) :
    s₀.Keeps (Machine.runVisits ch vs q).1 := by
  induction vs generalizing q with
  | nil => exact h
  | cons v r ih =>
    rw [Machine.runVisits]
    split
    · exact h
    · exact ih h.visit

theorem State.Keeps.runPasses {ch : ChannelId} {vs : List (Nat × Visit)} {n : Nat} {q : State × Tgc} (h : s₀.Keeps q.1) :
    s₀.Keeps (Machine.runPasses ch vs n q).1 := by
  induction n generalizing q with
  | zero => exact h
  | succ n ih =>
    rw [Machine.runPasses]
    split
    · exact h
    · refine ih ?_
      split
      · exact h.runVisits
      · exact h.runVisits

theorem State.Keeps.runBursts {ch : ChannelId} {vs : List (Nat × Visit)} {k : Nat} {q : State × Tgc} (h : s₀.Keeps q.1) :
    s₀.Keeps (Machine.runBursts ch vs k q).1 := by
  unfold Machine.runBursts
  dsimp only
  split
  · split
    · exact h.runVisits
    · exact h.runVisits.visit
  · exact h.runVisits

theorem State.Keeps.tgcRun {ch : ChannelId} {g : Tgc} (h : s₀.Keeps s) : s₀.Keeps (s.tgcRun ch g).1 := by
  unfold State.tgcRun
  dsimp only
  split
  · exact (State.Keeps.update h).runPasses.runBursts
  · exact h.runPasses

/-! ## Issue (R248) -/

protected theorem Plan.Keeps.vecLoad {k : Core} {x : At} {a size align lat iv : Nat} {act : State → State}
    (hact : ∀ ⦃s u : State⦄, s.Keeps u → s.Keeps (act u)) : (vecLoad k x a size align lat iv act).Keeps := by
  unfold vecLoad
  split
  · exact .onPipe fun _ _ hu => hu.readOr fun _ hv => hact hv
  · exact .after .badVec

protected theorem Plan.Keeps.vecPlan {s : State} {x : At} {i : VecInstr} : (vecPlan s x i).Keeps := by
  unfold vecPlan
  split
  · exact .nop
  · split
    · split
      · exact .arith
      · exact .arith
    · exact .after .badVec
  · split
    · exact .arith
    · exact .after .badVec
  · split
    · exact .onPipe (fun _ _ hu => hu.vecOut)
    · exact .onPipe (fun _ _ hu => hu.vecOut)
  · exact .arith
  · exact .arith
  · exact .arith
  · exact .arith
  · exact .arith
  · exact .onPipe (fun _ _ hu => hu.modCore)
  · exact .arith
  · exact .arith
  · split
    · exact .vecLoad (fun _ _ hu => hu.vecOut)
    · exact .vecLoad (fun _ _ hu => hu.vecOut)
  · split
    · exact .vecStore
    · exact .vecStore
  · exact .vecLoad (fun _ _ hu => hu.modCore)
  · exact .vecStore
  · exact .onPipe (fun _ _ hu => hu.modCore)
  · split
    · exact .onPipe (fun _ _ hu => hu.vecOut)
    · exact .after .badVec
  · split
    · exact .onPipe (fun _ _ hu => hu.modCore)
    · exact .after .badVec
  · split
    · exact .onPipe (fun _ _ hu => hu.modCore)
    · exact .after .badVec
  · exact .feedPlan
  · exact .feedPlan
  · exact .rgetPlan
  · exact .onPipe (fun _ _ hu => hu.vecOut)
  · exact .badVec

theorem State.Keeps.zeroBanks {c : CoreId} {on : W16} (h : s₀.Keeps s) : s₀.Keeps (s.zeroBanks c on) :=
  h.foldl fun _ _ hu => .ite hu.zeroBank hu

theorem State.Keeps.scrub {c : CoreId} (h : s₀.Keeps s) : s₀.Keeps (s.scrub c) :=
  .ite h.zeroBanks.modCore.clearQueues.refuseHeld h

theorem State.Keeps.bankpwrWrite {c : CoreId} {on : W16} (h : s₀.Keeps s) : s₀.Keeps (s.bankpwrWrite c on) :=
  .ite h h.zeroBanks.modSeq

theorem State.Keeps.tgcRunEnd {ch : ChannelId} {memcc : Nat} (h : s₀.Keeps s) : s₀.Keeps (s.tgcRunEnd ch memcc) := by
  unfold State.tgcRunEnd
  dsimp only
  split
  · exact h
  · split
    · exact h
    · exact .ite (.update h.tgcRun.setTgc.tgcTicket) h.tgcRun.setTgc.tgcTicket

theorem State.Keeps.writeCore {c : CoreId} {o : Nat} {v : W64} (h : s₀.Keeps s) : s₀.Keeps (s.writeCore c o v) := by
  unfold State.writeCore
  dsimp only
  split
  · exact h
  · split
    · exact h.modDqu
    · split
      · exact h.modCore
      · split
        · exact h.writeQstat
        · split
          · exact .ite h.startTask h
          · exact h.modSeq
          · exact h.wdogWrite
          · exact h.bankpwrWrite
          · exact h.modCore
          · exact h.modCore
          · exact h.modCore
          · exact h.modDqu
          · exact h.modDqu
          · exact h.modDqu
          · exact h

theorem State.Keeps.ctlWrite {debug : Bool} {addr : Nat} {v : W64} (h : s₀.Keeps s) :
    s₀.Keeps (s.ctlWrite debug addr v) := by
  unfold State.ctlWrite
  split
  · exact h
  · split
    · exact h.writeCore
    · exact h.writeMemReg
    · exact h.writeTgc
    · exact h.writeAnc
    · exact h.writeFabric
    · exact h.writePort
    · exact h.writeUplink
    · exact .ite h h.writeSec
    · exact h
    · exact h
    · exact h
    · exact h
    · exact h
    · exact h

theorem State.Keeps.regWrite {addr v : W64} {src : Node} (h : s₀.Keeps s) : s₀.Keeps (s.regWrite addr v src) := by
  unfold State.regWrite
  split
  · exact h.ctlWrite
  · exact h.ctlWrite
  · exact .ite h.barWrite h
  · exact h

protected theorem Plan.Keeps.vecSlot {s : State} {x : At} {i : VecInstr} : (vecSlot s x i).Keeps := by
  have hvec : (vecPlan s x i).Keeps := .vecPlan
  cases i
  case acfg => exact .acfgPlan
  case aclr => exact .aclrPlan
  case amrg => exact .amrgPlan
  case aldp => exact .aldpPlan
  case astp => exact .astpPlan
  case undefinedAcc => exact .badAcc
  all_goals exact hvec

theorem plans_keep {s : State} {x : At} {b : Decode.Slots} : ∀ p ∈ plans s x b, p.Keeps := by
  intro p hp
  rw [plans] at hp
  simp only [List.mem_cons, List.not_mem_nil, or_false] at hp
  rcases hp with rfl | rfl | rfl | rfl
  · exact .ctlPlan
  · exact .punPlan
  · exact .vecSlot
  · exact .movPlan

/-- The effects of a bundle's slots, in slot order. -/
theorem State.Keeps.runPlans {ps : List Plan} (h : s₀.Keeps s) (hps : ∀ p ∈ ps, p.Keeps) :
    s₀.Keeps (ps.foldl (fun s p => p.act s) s) := by
  induction ps generalizing s with
  | nil => exact h
  | cons p ps ih => exact ih (hps p (List.mem_cons_self ..) h) fun q hq => hps q (List.mem_cons_of_mem _ hq)

protected theorem State.Keeps.issueNow {x : At} {b : Decode.Slots} (h : s₀.Keeps s) : s₀.Keeps (issueNow x b s) := by
  unfold issueNow
  dsimp only
  split
  · exact .modCore (.runPlans (.setCore h) plans_keep)
  · exact h.modCore

protected theorem State.Keeps.issueAt {c : CoreId} {b : Decode.Slots} (h : s₀.Keeps s) : s₀.Keeps (issueAt c b s) :=
  .ite h.setCore h.readDescs.issueNow

protected theorem State.Keeps.issueBundle {c : CoreId} {b : Decode.Slots} (h : s₀.Keeps s) : s₀.Keeps (issueBundle c b s) :=
  h.beforeIssue fun _ hu => hu.issueAt

protected theorem State.Keeps.issueNext {c : CoreId} (h : s₀.Keeps s) : s₀.Keeps (issueNext c s) := by
  unfold issueNext
  dsimp only
  refine .beforeIssue h ?_
  intro _ hu
  split
  · exact hu.senseSp.raiseFetch
  · exact hu.senseSp.issueAt

end

end Sys2Proof.Machine
end

section
/-! PROOF. Identity, bindings and serving keep the canonical forms. -/

namespace Sys2Proof.Machine

section
variable {s₀ s t : State}

theorem State.Keeps.hostCommand {i : Issuer} {op : W16} {f : State → State} (h : s₀.Keeps s)
    (hf : ∀ u, s₀.Keeps u → s₀.Keeps (f u)) :
    s₀.Keeps (s.hostCommand i op f) := by
  unfold State.hostCommand
  refine .command h ?_
  intro _ hu2
  split
  · exact .ite (hf _ hu2) hu2
  · exact hf _ hu2

protected theorem State.Keeps.afterFetch {e : FetchEnd} {ends : State → State} (h : s₀.Keeps s)
    (hends : ∀ u, s₀.Keeps u → s₀.Keeps (ends u)) :
    s₀.Keeps (afterFetch e s ends) :=
  .ite h (hends _ h)

theorem State.Keeps.putBuffer {i : Issuer} {op : W16} {bs : List Byte} (h : s₀.Keeps s) :
    s₀.Keeps (s.putBuffer i op bs) := by
  unfold State.putBuffer
  dsimp only
  split
  · exact h.send
  · split
    · exact h.setFlow.runFlow
    · exact h

theorem State.Keeps.attest {i : Issuer} {nonce : BitVec 256} {fetch : FetchEnd} (h : s₀.Keeps s) :
    s₀.Keeps (s.attest i nonce fetch) :=
  h.issue fun _ _ hu => .ite hu.putBuffer.finish hu.readTries.finish

theorem State.Keeps.setImage {b : Bool} {x : Option FwImage} (h : s₀.Keeps s) : s₀.Keeps (s.setImage b x) :=
  .update h

theorem State.Keeps.fwUpdate {i : Issuer} {src : FwSource} {sig : SigBlock} (h : s₀.Keeps s) :
    s₀.Keeps (s.fwUpdate i src sig) := by
  unfold State.fwUpdate
  dsimp only
  split
  · split
    · exact h.reply
    · refine .issue h ?_
      intro _ _ hu
      split
      · exact .ite (.warmStart (.update hu.readTries.setImage.setImage.finish)) hu.readTries.setImage.setImage.finish
      · exact .finish (.ite hu.readTries.setImage.sigFailed hu.readTries.setImage)
  · split
    · exact h.reply
    · refine .issue h ?_
      intro _ _ hu
      split
      · exact .ite (.warmStart (.update hu.readTries.setImage.setImage.finish)) hu.readTries.setImage.setImage.finish
      · exact .finish (.ite hu.readTries.setImage.sigFailed hu.readTries.setImage)

theorem State.Keeps.fwActivate {i : Issuer} {b : Bool} (h : s₀.Keeps s) : s₀.Keeps (s.fwActivate i b) :=
  .ite (.reply (.update h)) h.reply

theorem State.Keeps.setKeySlot {k : Nat} {x : KeyS} (h : s₀.Keeps s) : s₀.Keeps (s.setKeySlot k x) :=
  .update h

theorem State.Keeps.checkZeroTile {addr : Nat} (h : s₀.Keeps s) : s₀.Keeps (s.checkZeroTile addr) := by
  unfold State.checkZeroTile
  split
  · exact h
  · exact h.devWrite.devWrite

theorem State.Keeps.dropRegions {base : Nat} (h : s₀.Keeps s) : s₀.Keeps (s.dropRegions base) :=
  .update h

theorem State.Keeps.assignFn {i : Issuer} {t : TenantId} {f : FnId} (h : s₀.Keeps s) : s₀.Keeps (s.assignFn i t f) := by
  unfold State.assignFn
  split
  · exact h.reply
  · exact .ite h.reply h.modFn.reply

theorem State.Keeps.giveSlot {i : Issuer} {t : TenantId} {k : KeySlot} (h : s₀.Keeps s) : s₀.Keeps (s.giveSlot i t k) :=
  .ite h.reply h.setKeySlot.reply

theorem State.Keeps.clearSlotCmd {i : Issuer} {k : KeySlot} (h : s₀.Keeps s) : s₀.Keeps (s.clearSlotCmd i k) := by
  unfold State.clearSlotCmd
  split
  · exact h.addCmd.reply
  · exact h.reply

theorem State.Keeps.releaseTenant {i : Issuer} {t : TenantId} (h : s₀.Keeps s) : s₀.Keeps (s.releaseTenant i t) :=
  .ite h.addCmd.reply h.reply

theorem State.Keeps.bbxRead {i : Issuer} {first : W32} {count : Nat} {fetch : FetchEnd} (h : s₀.Keeps s) :
    s₀.Keeps (s.bbxRead i first count fetch) := by
  unfold State.bbxRead
  dsimp only
  split
  · exact h.reply
  · exact h.issue fun _ _ hu => hu.afterFetch fun _ hu2 => .ite hu2.putBuffer.progressTo.finish hu2.readTries.finish

theorem State.Keeps.putTable {places : List (Nat × Nat)} {bs : List Byte} (h : s₀.Keeps s) :
    s₀.Keeps (s.putTable places bs) := by
  unfold State.putTable
  refine .foldl h ?_
  intro _ _ hu
  split
  · exact hu.wrBytes
  · exact hu

theorem State.Keeps.putAddr {m : Manifest} {c : CoreId} {x : AddrSpot} (h : s₀.Keeps s) : s₀.Keeps (s.putAddr m c x) :=
  h.spLand

theorem State.Keeps.landSlice {m : Manifest} {e : MoeSpec} {gang slot expert i : Nat} {only : Option Nat} (h : s₀.Keeps s) :
    s₀.Keeps (s.landSlice m e gang slot expert i only) := by
  unfold State.landSlice
  split
  · refine .foldl h ?_
    intro _ _ hu
    split
    · split
      · exact hu.spLand
      · exact hu
    · exact hu
  · exact h

theorem State.Keeps.landResidents {m : Manifest} {only : Option Nat} (h : s₀.Keeps s) :
    s₀.Keeps (s.landResidents m only) := by
  unfold State.landResidents
  refine .foldl h ?_
  intro _ _ hu
  split
  · exact hu
  · exact hu.foldl fun _ _ hu2 => hu2.foldl fun _ _ hu3 => hu3.landSlice

theorem State.Keeps.landCore {m : Manifest} {l : LogicalCore} {c : CoreId} (h : s₀.Keeps s) : s₀.Keeps (s.landCore m l c) :=
  (h.spLand.foldl fun _ _ hu => hu.spLand).foldl fun _ _ hu => hu.putAddr

theorem State.Keeps.setCoreRegs {m : Manifest} {l : LogicalCore} {c : CoreId} (h : s₀.Keeps s) :
    s₀.Keeps (s.setCoreRegs m l c) :=
  h.zeroBanks.modCore

theorem State.Keeps.bindCore {m : Manifest} {l : LogicalCore} {c : CoreId} (h : s₀.Keeps s) : s₀.Keeps (s.bindCore m l c) :=
  h.setCoreRegs.landCore.foldl fun _ _ hu => hu.writeCore

theorem State.Keeps.idleCore {c : CoreId} (h : s₀.Keeps s) : s₀.Keeps (s.idleCore c) :=
  h.modSeq

theorem State.Keeps.putTiles {base table : Nat} {ts : List TileSpec} (h : s₀.Keeps s) :
    s₀.Keeps (s.putTiles base table ts) :=
  h.foldl fun _ _ hu => hu.devWrite.devWrite

theorem State.Keeps.bindTensor {m : Manifest} {j : Nat} {t : TensorSpec} (h : s₀.Keeps s) : s₀.Keeps (s.bindTensor m j t) :=
  .putTiles (.update h)

theorem State.Keeps.bindGroup {g : Nat} {members : List Nat} (h : s₀.Keeps s) : s₀.Keeps (s.bindGroup g members) :=
  h.foldl fun _ _ hu => hu.modDqu

theorem State.Keeps.emptyPool {base count : Nat} (h : s₀.Keeps s) : s₀.Keeps (s.emptyPool base count) :=
  h.foldl fun _ _ hu => .ite hu hu.devWrite.markStale

theorem State.Keeps.bindPools {m : Manifest} (h : s₀.Keeps s) : s₀.Keeps (s.bindPools m) :=
  .ite (.emptyPool (.update h)) (.emptyPool (.update (.emptyPool (.update h))))

theorem State.Keeps.bindSlips {m : Manifest} (h : s₀.Keeps s) : s₀.Keeps (s.bindSlips m) :=
  .updateFab h rfl

theorem State.Keeps.writeTables {digest : BitVec 384} {layer : Nat} {e : MoeSpec} (h : s₀.Keeps s) :
    s₀.Keeps (s.writeTables digest layer e) :=
  (h.foldl fun _ _ hu => hu.putTable).foldl fun _ _ hu => hu.putTable

theorem State.Keeps.writePlacement (h : s₀.Keeps s) : s₀.Keeps (s.writePlacement) := by
  unfold State.writePlacement
  split
  · refine .foldl h ?_
    intro _ _ hu
    split
    · exact hu.writeTables
    · exact hu
  · exact h

theorem State.Keeps.landAddrs {m : Manifest} (h : s₀.Keeps s) : s₀.Keeps (s.landAddrs m) := by
  unfold State.landAddrs
  refine .foldl h ?_
  intro _ _ hu
  split
  · exact hu.foldl fun _ _ hu2 => hu2.putAddr
  · exact hu

theorem State.Keeps.bindModel {m : Manifest} {signer : BitVec 384} {staged : Option (BitVec 384)} (h : s₀.Keeps s) :
    s₀.Keeps (s.bindModel m signer staged) := by
  unfold State.bindModel
  refine .writePlacement ?_
  refine .landAddrs ?_
  refine .landResidents ?_
  refine .update ?_
  refine .bindSlips ?_
  refine .bindPools ?_
  refine .foldl ?_ (fun _ _ hu => hu.bindGroup)
  refine .foldl ?_ (fun _ _ hu => hu.bindTensor)
  refine .update ?_
  refine .foldl ?_ (fun _ _ hu => hu.idleCore)
  refine .foldl (.update h) ?_
  intro _ _ hu
  split
  · exact hu.bindCore
  · exact hu

theorem State.Keeps.scrubNow {c : CoreId} (h : s₀.Keeps s) : s₀.Keeps (s.scrubNow c) :=
  h.zeroBanks.modCore.clearQueues.refuseHeld

theorem State.Keeps.raiseFloor {b : SigBlock} (h : s₀.Keeps s) : s₀.Keeps (s.raiseFloor b) :=
  .ite (.update h) h

theorem State.Keeps.modelUnload {i : Issuer} {digest : W64} (h : s₀.Keeps s) : s₀.Keeps (s.modelUnload i digest) := by
  unfold State.modelUnload
  split
  · exact h.reply
  · exact .ite h.reply (h.issue fun _ _ hu => hu.addCmd)

theorem State.Keeps.bindingQuery {i : Issuer} {first count : Nat} (h : s₀.Keeps s) :
    s₀.Keeps (s.bindingQuery i first count) := by
  unfold State.bindingQuery
  split
  · exact h.reply
  · exact .ite h.reply h.reply

theorem State.Keeps.expertStats {i : Issuer} {layer first count : Nat} (h : s₀.Keeps s) :
    s₀.Keeps (s.expertStats i layer first count) := by
  unfold State.expertStats
  split
  · exact h.reply
  · exact .ite h.reply h.reply

theorem State.Keeps.retire {page : Nat} (h : s₀.Keeps s) : s₀.Keeps (s.retire page) := by
  unfold State.retire
  split
  · exact h
  · exact .ite (.update h) h.note

theorem State.Keeps.tileWrite {i : Issuer} {header : Nat} {content : List W64} {fetch : FetchEnd} (h : s₀.Keeps s) :
    s₀.Keeps (s.tileWrite i header content fetch) := by
  unfold State.tileWrite
  split
  · exact h.reply
  · split
    · exact h
    · refine .issue h ?_
      intro _ _ hu
      split
      · exact hu.readTries.finish
      · exact .finish (.note (.ite (.retire (.devWrite (.devWrite (.update hu)))) (.devWrite (.devWrite (.update hu)))))

theorem State.Keeps.cancelWork {x : Ticket} (h : s₀.Keeps s) : s₀.Keeps (s.cancelWork x) := by
  unfold State.cancelWork
  split
  · exact h.tgcStop
  · split
    · split
      · exact h.addCmd
      · exact h
    · exact h.finish

theorem State.Keeps.ticketCancel {i : Issuer} {t : W32} (h : s₀.Keeps s) : s₀.Keeps (s.ticketCancel i t) := by
  unfold State.ticketCancel
  split
  · exact h.reply
  · split
    · exact h.reply
    · exact .ite h.reply h.modTicket.reply.cancelWork

theorem State.Keeps.zeroRegion {base size : Nat} (h : s₀.Keeps s) : s₀.Keeps (s.zeroRegion base size) := by
  unfold State.zeroRegion
  exact .foldl h.dropMem fun _ _ hu => hu.checkZeroTile

theorem State.Keeps.zeroSlot {k : Nat} (h : s₀.Keeps s) : s₀.Keeps (s.zeroSlot k) := by
  unfold State.zeroSlot
  exact .foldl (.setKeySlot (.foldl h fun _ _ hu => .update hu)) fun _ _ hu => hu.zeroRegion

theorem State.Keeps.closeRegions (h : s₀.Keeps s) : s₀.Keeps s.closeRegions :=
  h.foldl fun _ _ hu => .ite hu.dropRegions.zeroRegion hu

theorem State.Keeps.unbind (h : s₀.Keeps s) : s₀.Keeps s.unbind := by
  unfold State.unbind
  extract_lets s1 moored s2
  have hclosed : s₀.Keeps s1 := .closeRegions (.foldl h fun _ _ hu => hu.scrubNow)
  have hboxes : s₀.Keeps s2 := .foldl hclosed fun _ _ hu => hu.modDqu
  clear_value s1 s2
  exact ⟨hboxes.1, hboxes.2.1, hclosed.2.2⟩

theorem State.Keeps.restoreTile {header : Nat} {content : List W64} (h : s₀.Keeps s) :
    s₀.Keeps (s.restoreTile header content).2.2 := by
  unfold State.restoreTile
  dsimp only
  exact .note (.ite (.retire (.devWrite (.devWrite (.update h)))) (.devWrite (.devWrite (.update h))))

theorem State.Keeps.unload (h : s₀.Keeps s) : s₀.Keeps (s.unload) :=
  h.unbind.foldl fun _ _ hu => hu.scrubNow

theorem State.Keeps.modelLoad {i : Issuer} {src : LoadSource} {expected : BitVec 384} {stage : Bool} {sig : SigBlock}
    {m : Manifest} {bad : List (Nat × Nat)} (h : s₀.Keeps s) :
    s₀.Keeps (s.modelLoad i src expected stage sig m bad) := by
  unfold State.modelLoad
  dsimp only
  split
  · exact h.reply
  · split
    · exact h.reply
    · refine .issue h ?_
      intro _ _ hu
      refine .afterFetch hu ?_
      intro _ hu2
      split
      · exact .finish (.ite hu2.readTries.sigFailed hu2.readTries)
      · split
        · exact hu2.readTries.bindModel.raiseFloor.finish
        · exact hu2.readTries.bindModel.unload.finish

theorem State.Keeps.modReq {h : W32} {f : Request → Request} (hs : s₀.Keeps s) : s₀.Keeps (s.modReq h f) :=
  .update hs

theorem State.Keeps.dropReq {h : W32} (hs : s₀.Keeps s) : s₀.Keeps (s.dropReq h) :=
  .update hs

theorem State.Keeps.takeEntry {f : FnId} {r : RingId} {ix : W32} (h : s₀.Keeps s) : s₀.Keeps (s.takeEntry f r ix) :=
  .modRing (.update h)

theorem State.Keeps.passTurn {f : FnId} {r : RingId} (h : s₀.Keeps s) : s₀.Keeps (s.passTurn f r) :=
  .update h

theorem State.Keeps.submit {f : FnId} {r : RingId} {entry : BitVec 256} {rec_ : Option (BitVec 1024)} {prompt : FetchEnd}
    (h : s₀.Keeps s) :
    s₀.Keeps (s.submit f r entry rec_ prompt) := by
  unfold State.submit
  dsimp only
  split
  · exact h
  · split
    · exact h.passTurn.takeEntry.leave.readTries
    · split
      · exact h.passTurn.takeEntry.leave.modFn
      · split
        · exact .update (.takeEntry (.ite h.passTurn.readTries h.passTurn))
        · split
          · exact .ite h.passTurn.readTries h.passTurn
          · exact .leave (.complete (.takeEntry (.ite h.passTurn.readTries h.passTurn)))

theorem State.Keeps.reqCancel {i : Issuer} {f : FnId} {name : W64} (h : s₀.Keeps s) : s₀.Keeps (s.reqCancel i f name) := by
  unfold State.reqCancel
  split
  · exact .ite (h.issue fun _ _ hu => hu.addCmd) h.reply
  · exact .ite (h.issue fun _ _ hu => hu.addCmd) h.reply

theorem State.Keeps.reqPause {i : Issuer} {h ttl : W32} (hs : s₀.Keeps s) : s₀.Keeps (s.reqPause i h ttl) := by
  unfold State.reqPause
  split
  · exact hs.reply
  · exact .ite hs.reply (hs.issue fun _ _ hu => hu.addCmd)

theorem State.Keeps.reqResume {i : Issuer} {h : W32} (hs : s₀.Keeps s) : s₀.Keeps (s.reqResume i h) := by
  unfold State.reqResume
  split
  · exact hs.reply
  · split
    · exact hs.reply
    · exact .ite hs.reply (hs.issue fun _ _ hu => hu.addCmd)

theorem State.Keeps.reqStatus {i : Issuer} {h : W32} (hs : s₀.Keeps s) : s₀.Keeps (s.reqStatus i h) := by
  unfold State.reqStatus
  split
  · exact hs.reply
  · exact hs.reply

theorem State.Keeps.adapterInstall {i : Issuer} {id : W16} {fs : List AdapterFactor} {fetch : FetchEnd} {fits : Bool}
    (h : s₀.Keeps s) :
    s₀.Keeps (s.adapterInstall i id fs fetch fits) := by
  unfold State.adapterInstall
  dsimp only
  split
  · exact h.reply
  · split
    · exact h.reply
    · exact h.issue fun _ _ hu => .ite hu.addCmd hu.readTries.finish

theorem State.Keeps.adapterRemove {i : Issuer} {id : W16} (h : s₀.Keeps s) : s₀.Keeps (s.adapterRemove i id) := by
  unfold State.adapterRemove
  split
  · exact h.reply
  · exact .ite h.reply (h.issue fun _ _ hu => hu.addCmd)

theorem State.Keeps.adapterExport {i : Issuer} {id : W16} {version : W32} {fetch : FetchEnd} (h : s₀.Keeps s) :
    s₀.Keeps (s.adapterExport i id version fetch) := by
  unfold State.adapterExport
  split
  · exact h.reply
  · exact h.issue fun _ _ hu => .ite hu.putBuffer.finish hu.readTries.finish

theorem State.Keeps.dataWrite {i : Issuer} {set : Byte} {data : List W64} {fetch : FetchEnd} {fits : Bool} (h : s₀.Keeps s) :
    s₀.Keeps (s.dataWrite i set data fetch fits) := by
  unfold State.dataWrite
  refine .issue h ?_
  intro _ _ hu
  refine .afterFetch hu ?_
  intro _ hu2
  split
  · exact hu2.readTries.finish
  · exact .ite hu2.finish (.finish (.update hu2))

theorem State.Keeps.tuneStart {i : Issuer} {a : TuneArgs} (h : s₀.Keeps s) : s₀.Keeps (s.tuneStart i a) := by
  unfold State.tuneStart
  dsimp only
  split
  · exact h.reply
  · split
    · exact h.reply
    · exact .ite h.reply (h.issue fun _ _ hu => hu.addCmd)

theorem State.Keeps.modTide {g : Tide → Tide} (h : s₀.Keeps s) : s₀.Keeps (s.modTide g) :=
  .update h

theorem State.Keeps.setPhase {p : BPhase} (h : s₀.Keeps s) : s₀.Keeps (s.setPhase p) :=
  .update h

theorem State.Keeps.begin_ {b : Began} {cut : Nat × Nat} (h : s₀.Keeps s) : s₀.Keeps (s.begin_ b cut) :=
  .ite h (.update h.modTide.setPhase)

theorem State.Keeps.stepWorkDone {e : Nat} (h : s₀.Keeps s) : s₀.Keeps (s.stepWorkDone e) := by
  unfold State.stepWorkDone
  dsimp only
  split
  · exact h
  · split
    · exact h.begin_
    · exact .ite h.begin_ h.setPhase

theorem State.Keeps.loseTide (h : s₀.Keeps s) : s₀.Keeps (s.loseTide) := by
  unfold State.loseTide
  split
  · exact h.modTide.note.begin_
  · exact h.modTide.note

theorem State.Keeps.acceptPulse {now : Nat} (h : s₀.Keeps s) : s₀.Keeps (s.acceptPulse now) := by
  unfold State.acceptPulse
  dsimp only
  split
  · exact h.modTide
  · split
    · exact h.modTide.modTide
    · exact .ite h.modTide.loseTide h.modTide

theorem State.Keeps.pulseStarts {now : Nat} (h : s₀.Keeps s) : s₀.Keeps (s.pulseStarts now) := by
  unfold State.pulseStarts
  split
  · exact .ite h.begin_ h
  · exact h

theorem State.Keeps.tidePulse {now highNs : Nat} (h : s₀.Keeps s) : s₀.Keeps (s.tidePulse now highNs) := by
  unfold State.tidePulse
  dsimp only
  split
  · exact h
  · exact .ite h.modTide h.acceptPulse.pulseStarts

theorem State.Keeps.tideMissing {now : Nat} (h : s₀.Keeps s) : s₀.Keeps (s.tideMissing now) := by
  unfold State.tideMissing
  dsimp only
  split
  · exact h
  · split
    · exact h
    · exact .ite h.loseTide.modTide h.modTide

theorem State.Keeps.shiftLimit {now : Nat} (h : s₀.Keeps s) : s₀.Keeps (s.shiftLimit now) := by
  unfold State.shiftLimit
  split
  · exact .ite h.begin_ h
  · exact h

end

end Sys2Proof.Machine
end

section
/-! PROOF. Berths, placement and the commits of a boundary keep the canonical forms. -/

namespace Sys2Proof.Machine

section
variable {s₀ s t : State}

theorem State.Keeps.settleTiles {addr : Nat} {old new : List Byte} (h : s₀.Keeps s) :
    s₀.Keeps (s.settleTiles addr old new) := by
  unfold State.settleTiles
  split
  · exact h
  · exact h.devWrite

theorem State.Keeps.putPage {anc : Bool} {h : Nat} {p : List Byte} (hs : s₀.Keeps s) : s₀.Keeps (s.putPage anc h p) := by
  unfold State.putPage
  exact hs.devWrite.settleTiles

theorem State.Keeps.modHdr {anc : Bool} {h : Nat} {f : BHdr → BHdr} (hs : s₀.Keeps s) : s₀.Keeps (s.modHdr anc h f) :=
  hs.putPage

theorem State.Keeps.countFree {anc up : Bool} (h : s₀.Keeps s) : s₀.Keeps (s.countFree anc up) :=
  .update h

theorem State.Keeps.dropRef {anc : Bool} {h : Nat} (hs : s₀.Keeps s) : s₀.Keeps (s.dropRef anc h) := by
  unfold State.dropRef
  split
  · exact hs
  · exact .ite hs.modHdr.countFree hs.modHdr

theorem State.Keeps.protectMore {anc : Bool} {t : TenantId} {slot : Nat} (h : s₀.Keeps s) :
    s₀.Keeps (s.protectMore anc t slot) := by
  unfold State.protectMore
  dsimp only
  split
  · exact .makeRegion (.update h)
  · exact h

theorem State.Keeps.openBerth {anc : Bool} {h : Nat} {p : List Byte} (hs : s₀.Keeps s) : s₀.Keeps (s.openBerth anc h p) :=
  hs.putPage.countFree

theorem State.Keeps.eachQuay {slot : Nat} {f : State → QuayId → State} (h : s₀.Keeps s)
    (hf : ∀ u x1, s₀.Keeps u → s₀.Keeps (f u x1)) :
    s₀.Keeps (s.eachQuay slot f) :=
  h.foldl hf

theorem State.Keeps.putQuay {q : QuayId} {x : Quay} (h : s₀.Keeps s) : s₀.Keeps (s.putQuay q x) :=
  h.devWrite

theorem State.Keeps.putBerths {q : QuayId} {x : Quay} {bs : List QBerth} (h : s₀.Keeps s) : s₀.Keeps (s.putBerths q x bs) :=
  (h.foldl fun _ _ hu => hu.devWrite.devWrite).putQuay

theorem State.Keeps.moveTail {q : QuayId} {from_ dest : Nat} (h : s₀.Keeps s) : s₀.Keeps (s.moveTail q from_ dest) := by
  unfold State.moveTail
  dsimp only
  split
  · exact h
  · exact h.wrBytes.wrBytes

theorem State.Keeps.putTail {q : QuayId} {ws : List W64} (h : s₀.Keeps s) : s₀.Keeps (s.putTail q ws) := by
  unfold State.putTail
  dsimp only
  split
  · exact h.wrBytes
  · exact h

theorem State.Keeps.countOpened {q : Request} {k : QuayId} (h : s₀.Keeps s) : s₀.Keeps (s.countOpened q k) :=
  h.foldl fun _ _ hu => .ite hu hu.countFree

theorem State.Keeps.settleCopy {q : Request} {k : QuayId} {bs : List QBerth} (h : s₀.Keeps s) :
    s₀.Keeps (s.settleCopy q k bs) := by
  unfold State.settleCopy
  split
  · exact h
  · exact .ite (.update h.dropRef) h

theorem State.Keeps.addMass {k : QuayId} {i : Nat} {inc : W32} (h : s₀.Keeps s) : s₀.Keeps (s.addMass k i inc) :=
  .ite h h.devWrite

theorem State.Keeps.copyBerth {e : BEntry} {h : Nat} (hs : s₀.Keeps s) : s₀.Keeps (s.copyBerth e h) :=
  .update hs.openBerth.dropRef

theorem State.Keeps.openQuay {k : QuayId} (h : s₀.Keeps s) : s₀.Keeps (s.openQuay k) :=
  h.putQuay

theorem State.Keeps.dropBerths {q : Request} (h : s₀.Keeps s) : s₀.Keeps (s.dropBerths q) :=
  .update (h.foldl fun _ _ hu => hu.dropRef)

theorem State.Keeps.copyPage {toAnc : Bool} {old h : Nat} {bad : List Nat} (hs : s₀.Keeps s) :
    s₀.Keeps (s.copyPage toAnc old h bad) := by
  unfold State.copyPage
  split
  · exact hs.devWrite.devWrite
  · exact .ite hs.devWrite.devWrite.modHdr.devWrite hs.devWrite.devWrite.modHdr

theorem State.Keeps.foldExpert {layer : Nat} {e : MoeSpec} {x : Nat} (h : s₀.Keeps s) : s₀.Keeps (s.foldExpert layer e x) :=
  .update h

theorem State.Keeps.foldCounts (h : s₀.Keeps s) : s₀.Keeps (s.foldCounts) :=
  .update (h.foldl fun _ _ hu => hu.foldl fun _ _ hu2 => hu2.foldExpert)

theorem State.Keeps.enterCopy {c : Copy} (h : s₀.Keeps s) : s₀.Keeps (s.enterCopy c) := by
  unfold State.enterCopy
  split
  · exact .update h
  · exact .update h

theorem State.Keeps.enterCopies (h : s₀.Keeps s) : s₀.Keeps (s.enterCopies) :=
  .foldl (.update h) fun _ _ hu => hu.enterCopy

theorem State.Keeps.dropCopy {layer expert : Nat} (h : s₀.Keeps s) : s₀.Keeps (s.dropCopy layer expert) :=
  .update h

theorem State.Keeps.sliceFailed {m : Manifest} {e : MoeSpec} {c : Copy} {i : Nat} (h : s₀.Keeps s) :
    s₀.Keeps (s.sliceFailed m e c i) := by
  unfold State.sliceFailed
  dsimp only
  split
  · exact h.dropCopy.failed
  · exact h.dropCopy

/-! ## Berths (R184 to R210) -/

/-- What an operation that may find no room leaves beside its result. -/
def State.KeepsOut {β : Type} (s : State) (o : Option (β × State)) : Prop := ∀ q, o = some q → s.Keeps q.2

protected theorem State.Keeps.out {β : Type} {b : β} (h : s₀.Keeps s) : s₀.KeepsOut (some (b, s)) :=
  fun _ e => Option.some.inj e ▸ h

protected theorem State.KeepsOut.none {β : Type} : s₀.KeepsOut (none : Option (β × State)) := fun _ e => nomatch e

protected theorem State.KeepsOut.map {β γ : Type} {o : Option (β × State)} {f : β × State → γ × State} (ho : s₀.KeepsOut o)
    (hf : ∀ q, s₀.Keeps q.2 → s₀.Keeps (f q).2) : s₀.KeepsOut (o.map f) := by
  intro q hq
  obtain ⟨r, hr, rfl⟩ := Option.map_eq_some_iff.mp hq
  exact hf r (ho r hr)

protected theorem State.KeepsOut.toSome {β : Type} {o : Option (β × State)} {f : β × State → State} (ho : s₀.KeepsOut o)
    (hf : ∀ q, s₀.Keeps q.2 → s₀.Keeps (f q)) : s₀.KeepsSome (o.map f) := by
  intro t ht
  obtain ⟨r, hr, rfl⟩ := Option.map_eq_some_iff.mp ht
  exact hf r (ho r hr)

protected theorem State.Keeps.protectUpTo {anc : Bool} {t : TenantId} {n k : Nat} (h : s₀.Keeps s) :
    s₀.Keeps (protectUpTo anc t n k s) := by
  induction k generalizing s with
  | zero => exact h
  | succ k ih =>
    rw [protectUpTo]
    split
    · exact h
    · split
      · exact h
      · exact ih h.protectMore

theorem State.Keeps.protect {anc : Bool} {t : TenantId} {n : Nat} (h : s₀.Keeps s) : s₀.Keeps (s.protect anc t n) :=
  h.protectUpTo

theorem State.Keeps.pickHandle {anc : Bool} {t : TenantId} (h : s₀.Keeps s) : s₀.KeepsOut (s.pickHandle anc t) := by
  unfold State.pickHandle
  dsimp only
  split
  · exact .none
  · exact State.Keeps.out (.update h.protect)

theorem State.Keeps.pickHandles {anc : Bool} {t : TenantId} {n : Nat} (h : s₀.Keeps s) :
    s₀.KeepsOut (s.pickHandles anc t n) := by
  unfold State.pickHandles
  dsimp only
  split
  · exact .none
  · exact State.Keeps.out (.update h.protect)

theorem State.Keeps.commitBerth {n dest : Nat} (h : s₀.Keeps s) : s₀.Keeps (s.commitBerth n dest).2.2 := by
  unfold State.commitBerth
  dsimp only
  exact h.putPage

protected theorem State.Keeps.commitOne {from_ dest : Nat} {q : State × List QBerth × Nat} {b : QBerth} (h : s₀.Keeps q.1) :
    s₀.Keeps (commitOne from_ dest q b).1 := by
  unfold commitOne
  dsimp only
  split
  · exact h
  · split
    · exact .countFree (.modHdr (.update h.commitBerth))
    · exact .update h.commitBerth

theorem State.Keeps.commitQuay {q : Request} {dest : Nat} {k : QuayId} (h : s₀.Keeps s) :
    s₀.Keeps (s.commitQuay q dest k) := by
  have hfold (bs : List QBerth) (r : State × List QBerth × Nat) (hr : s₀.Keeps r.1) :
      s₀.Keeps (bs.foldl (Machine.commitOne q.committed dest) r).1 := by
    induction bs generalizing r with
    | nil => exact hr
    | cons b bs ih => exact ih _ hr.commitOne
  exact .moveTail (.putBerths (hfold _ _ h.countOpened.settleCopy))

theorem State.Keeps.evictIn {t : TenantId} {b : QBerth} {pls : List Nat} (h : s₀.Keeps s) :
    s₀.KeepsOut (s.evictIn t b pls) := by
  unfold State.evictIn
  dsimp only
  split
  · exact h.out
  · split
    · exact h.modHdr.out
    · split
      · exact .none
      · rename_i heq
        exact (h.pickHandle _ heq).copyBerth.modHdr.out

protected theorem State.Keeps.evictAll {t : TenantId} {chosen : List Victim} {bs : List (QBerth × Nat)} (h : s₀.Keeps s) :
    s₀.KeepsOut (evictAll t chosen bs s) := by
  induction bs generalizing s with
  | nil => exact h.out
  | cons b r ih =>
    rw [evictAll]
    split
    · exact .none
    · rename_i heq
      exact (ih (h.evictIn _ heq)).map fun _ hq => hq

theorem State.Keeps.evictQuay {t : TenantId} {p : EvictPolicy} {k : QuayId} (h : s₀.Keeps s) :
    s₀.KeepsSome (s.evictQuay t p k) := by
  unfold State.evictQuay
  dsimp only
  split
  · exact h.some
  · exact h.evictAll.toSome fun _ hq => .update hq.putBerths

theorem State.Keeps.compactRun {t : TenantId} {layer pair reach : Nat} {run : List QBerth} (h : s₀.Keeps s) :
    s₀.KeepsOut (s.compactRun t layer pair reach run) := by
  unfold State.compactRun
  dsimp only
  split
  · exact .none
  · rename_i heq
    exact State.Keeps.out (.update (.foldl (.foldl (h.pickHandles _ heq) fun _ _ hu => hu.openBerth) fun _ _ hu => hu.dropRef))

protected theorem State.Keeps.compactAll {t : TenantId} {k : QuayId} {rs : List (Bool × List QBerth)} (h : s₀.Keeps s) :
    s₀.KeepsOut (compactAll t k rs s) := by
  induction rs generalizing s with
  | nil => exact h.out
  | cons x r ih =>
    rw [compactAll]
    split
    · exact .none
    · rename_i heq
      refine (ih ?_).map fun _ hq => hq
      split at heq
      · exact h.out _ heq
      · exact h.compactRun _ heq

theorem State.Keeps.compactQuay {t : TenantId} {p : EvictPolicy} {k : QuayId} (h : s₀.Keeps s) :
    s₀.KeepsSome (s.compactQuay t p k) :=
  h.compactAll.toSome fun _ hq => hq.putBerths

theorem State.Keeps.shareBerth {t : TenantId} {b : QBerth} (h : s₀.Keeps s) : s₀.KeepsOut (s.shareBerth t b) := by
  unfold State.shareBerth
  dsimp only
  split
  · exact h.modHdr.out
  · split
    · exact .none
    · rename_i heq
      exact (h.pickHandle _ heq).openBerth.out

protected theorem State.Keeps.shareAll {t : TenantId} {bs : List QBerth} (h : s₀.Keeps s) :
    s₀.KeepsOut (shareAll t bs s) := by
  induction bs generalizing s with
  | nil => exact h.out
  | cons b r ih =>
    rw [shareAll]
    split
    · exact .none
    · rename_i heq
      exact (ih (h.shareBerth _ heq)).map fun _ hq => hq

theorem State.Keeps.forkQuay {t : TenantId} {src k : QuayId} {f committed : Nat} (h : s₀.Keeps s) :
    s₀.KeepsSome (s.forkQuay t src k f committed) :=
  h.shareAll.toSome fun _ hq => .ite hq.putBerths.putTail hq.putBerths

protected theorem State.Keeps.forkAll {t : TenantId} {from_ slot f committed : Nat} {ks : List QuayId} (h : s₀.Keeps s) :
    s₀.KeepsSome (forkAll t from_ slot f committed ks s) := by
  induction ks generalizing s with
  | nil => exact h.some
  | cons k r ih =>
    rw [forkAll]
    split
    · exact .none
    · rename_i heq
      exact ih (h.forkQuay _ heq)

theorem State.Keeps.moveBerth {t : TenantId} {toAnc : Bool} {b : QBerth} (h : s₀.Keeps s) :
    s₀.Keeps (s.moveBerth t toAnc b).2 := by
  unfold State.moveBerth
  split
  · exact h
  · split
    · exact h
    · rename_i heq
      exact .foldl (h.pickHandle _ heq).copyPage.countFree.modHdr.countFree fun _ _ hu => hu.report

/-- A fold that carries a list beside the state. -/
theorem State.Keeps.foldlOut {α β : Type} {f : β × State → α → β × State} {xs : List α} {q : β × State} (h : s₀.Keeps q.2)
    (hf : ∀ r x, s₀.Keeps r.2 → s₀.Keeps (f r x).2) : s₀.Keeps (xs.foldl f q).2 := by
  induction xs generalizing q with
  | nil => exact h
  | cons x xs ih => exact ih (hf q x h)

theorem State.Keeps.moveBerths {t : TenantId} {toAnc : Bool} {bs : List QBerth} (h : s₀.Keeps s) :
    s₀.Keeps (s.moveBerths t toAnc bs).2 :=
  State.Keeps.foldlOut (q := ([], s)) h fun _ _ hr => hr.moveBerth

theorem State.Keeps.moorQuay {t : TenantId} {k : QuayId} (h : s₀.Keeps s) : s₀.Keeps (s.moorQuay t k).2 :=
  h.moveBerths

theorem State.Keeps.moor {q : Request} (h : s₀.Keeps s) : s₀.Keeps (s.moor q) := by
  have hquays : s₀.Keeps ((s.quays q.slot).foldl (fun (p : List MoorQuay × State) k =>
      (p.1 ++ [(p.2.moorQuay q.tenant k).1], (p.2.moorQuay q.tenant k).2)) ([], s)).2 :=
    State.Keeps.foldlOut h fun _ _ hr => hr.moorQuay
  exact .update hquays

theorem State.Keeps.unmoorQuay {t : TenantId} {slot : Nat} {m : MoorQuay} (h : s₀.Keeps s) :
    s₀.Keeps (State.unmoorQuay t slot s m) :=
  h.moveBerths.putBerths.putTail

theorem State.Keeps.unmoor {q : Request} (h : s₀.Keeps s) : s₀.Keeps (s.unmoor q) := by
  unfold State.unmoor
  split
  · exact h
  · exact .update (.foldl h fun _ _ hu => hu.unmoorQuay)

theorem State.Keeps.applyChange {layer : Nat} {e : MoeSpec} {c : Change} (h : s₀.Keeps s) :
    s₀.Keeps (s.applyChange layer e c) := by
  unfold State.applyChange
  split
  · exact .update h
  · exact .update h
  · exact .update h
  · exact .update h

theorem State.Keeps.place6 (h : s₀.Keeps s) : s₀.Keeps (s.place6) := by
  unfold State.place6
  dsimp only
  split
  · split
    · exact .update h.foldCounts
    · refine .foldl (.enterCopies (.update h.foldCounts)) ?_
      intro _ _ hu
      split
      · exact hu.applyChange
      · exact hu
  · split
    · exact .update h.foldCounts
    · refine .foldl (.enterCopies (.update h.foldCounts)) ?_
      intro _ _ hu
      split
      · exact hu.applyChange
      · exact hu

theorem State.Keeps.landCopy {m : Manifest} {e : MoeSpec} {c : Copy} {is : List Nat} (h : s₀.Keeps s) :
    s₀.Keeps (s.landCopy m e c is) := by
  induction is generalizing s with
  | nil => exact h
  | cons i r ih =>
    rw [State.landCopy]
    split
    · exact ih h.landSlice
    · exact h.sliceFailed

theorem State.Keeps.placerCopy {layer expert bytes : Nat} {tileFailed : Bool} (h : s₀.Keeps s) :
    s₀.Keeps (s.placerCopy layer expert bytes tileFailed) := by
  unfold State.placerCopy
  split
  · exact .ite h.sliceFailed (.landCopy (.update h))
  · exact h

theorem State.Keeps.tokenRecord {h : W32} {k : Kept} (hs : s₀.Keeps s) : s₀.Keeps (s.tokenRecord h k) := by
  unfold State.tokenRecord
  split
  · exact hs
  · exact .ite hs hs.modReq.complete

theorem State.Keeps.completionRecord {h position : W32} {r : RowResult} {step : W32} (hs : s₀.Keeps s) :
    s₀.Keeps (s.completionRecord h position r step) := by
  unfold State.completionRecord
  split
  · exact hs
  · split
    · exact hs
    · split
      · exact .ite hs.tokenRecord hs
      · exact hs

theorem State.Keeps.commitReq {b : BoundaryIn} {q : Request} (h : s₀.Keeps s) : s₀.Keeps (s.commitReq b q) :=
  .ite h (((h.eachQuay fun _ _ hu => hu.commitQuay).modReq).foldl fun _ _ hu => hu.tokenRecord)

theorem State.Keeps.action3 {b : BoundaryIn} (h : s₀.Keeps s) : s₀.Keeps (s.action3 b) :=
  h.foldl fun _ _ hu => hu.commitReq

theorem State.Keeps.addMasses {m : MassIn} (h : s₀.Keeps s) : s₀.Keeps (s.addMasses m) := by
  unfold State.addMasses
  split
  · exact h
  · exact .ite h (h.foldl fun _ _ hu => hu.addMass)

theorem State.Keeps.action4 (h : s₀.Keeps s) : s₀.Keeps (s.action4) :=
  h.foldl fun _ _ hu => hu.addMasses

theorem State.Keeps.zeroTallies (h : s₀.Keeps s) : s₀.Keeps (s.zeroTallies) := by
  unfold State.zeroTallies
  split
  · exact h
  · refine .foldl h ?_
    intro _ _ hu
    split
    · exact hu.spLand
    · exact hu

theorem State.Keeps.foldSite {b : BoundaryIn} {m : Manifest} {h : W32} {crossed : Bool} {site : Nat} (hs : s₀.Keeps s) :
    s₀.Keeps (s.foldSite b m h crossed site) := by
  unfold State.foldSite
  split
  · exact hs
  · split
    · exact hs
    · split
      · exact hs.modReq
      · exact .ite hs.modReq.modReq.health hs.modReq

theorem State.Keeps.foldTallies {b : BoundaryIn} {q : Request} (h : s₀.Keeps s) : s₀.Keeps (s.foldTallies b q) := by
  unfold State.foldTallies
  split
  · exact h
  · exact h.foldl fun _ _ hu => hu.foldSite

theorem State.Keeps.setMonitor {site : Nat} {m : Monitor} (h : s₀.Keeps s) : s₀.Keeps (s.setMonitor site m) :=
  .update h

theorem State.Keeps.judge {site : Nat} {x : SiteSpec} {m : Monitor} {b l : W32} (h : s₀.Keeps s) :
    s₀.Keeps (s.judge site x m b l) := by
  unfold State.judge
  dsimp only
  split
  · exact h.setMonitor
  · exact .ite h.health.setMonitor h.health.health.setMonitor

theorem State.Keeps.watchSite {m : Manifest} {site : Nat} {x : SiteSpec} (h : s₀.Keeps s) :
    s₀.Keeps (s.watchSite m site x) := by
  unfold State.watchSite
  dsimp only
  split
  · exact h
  · split
    · exact h.health
    · split
      · exact h.setMonitor
      · exact h.judge

theorem State.Keeps.watch (h : s₀.Keeps s) : s₀.Keeps (s.watch) := by
  unfold State.watch
  split
  · exact h
  · exact h.foldl fun _ _ hu => .ite hu.watchSite hu

theorem State.Keeps.action5 {b : BoundaryIn} (h : s₀.Keeps s) : s₀.Keeps (s.action5 b) := by
  unfold State.action5
  refine .zeroTallies ?_
  refine .watch ?_
  split
  · exact h
  · exact h.foldl fun _ _ hu => .ite hu.foldTallies hu

theorem State.Keeps.holdReq {h : W32} {pool : Bool} (hs : s₀.Keeps s) : s₀.Keeps (s.holdReq h pool) := by
  unfold State.holdReq
  split
  · exact hs
  · split
    · exact hs.modReq
    · exact .ite (.update hs.modReq) (.note (.update hs.modReq))

theorem State.Keeps.shortOf {q : Request} (h : s₀.Keeps s) : s₀.Keeps (s.shortOf q) :=
  h.modReq

theorem State.Keeps.sendShipment {q : Request} {flow : W32} {order : ShipOrder} (h : s₀.Keeps s) :
    s₀.Keeps (s.sendShipment q flow order) :=
  .runFlow (.sendDatagram (.updateFab h.dropFlow rfl))

theorem State.Keeps.reqShip {i : Issuer} {h : W32} {order : ShipOrder} (hs : s₀.Keeps s) :
    s₀.Keeps (s.reqShip i h order) := by
  unfold State.reqShip
  split
  · exact hs.reply
  · split
    · exact hs.reply
    · exact hs.issue fun _ _ hu => .ite hu.modTicket.sendShipment.addCmd hu.modTicket.sendShipment

theorem State.Keeps.landImage {h : Nat} {x : ShipImage} (hs : s₀.Keeps s) : s₀.Keeps (s.landImage h x) :=
  hs.openBerth

theorem State.Keeps.freeShip {x : Ship} (h : s₀.Keeps s) : s₀.Keeps (s.freeShip x) :=
  .update (h.foldl fun _ _ hu => hu.dropRef)

theorem State.Keeps.answerShip {flow : W32} {status : W16} {h : W32} (hs : s₀.Keeps s) :
    s₀.Keeps (s.answerShip flow status h) := by
  unfold State.answerShip
  split
  · exact hs.setFlow.runFlow
  · exact hs

theorem State.Keeps.refuseShip {old : Option Ship} {flow : W32} {status : W16} (h : s₀.Keeps s) :
    s₀.Keeps (s.refuseShip old flow status) := by
  unfold State.refuseShip
  refine .answerShip ?_
  split
  · exact h.freeShip
  · exact h

theorem State.Keeps.shipmentTimeout {n : Nat} (h : s₀.Keeps s) : s₀.Keeps (s.shipmentTimeout n) := by
  unfold State.shipmentTimeout
  split
  · exact .ite h.refuseShip h
  · exact h

theorem State.Keeps.endReq {q : Request} {status : W16} {reason : Byte} {quiet : Bool} (h : s₀.Keeps s) :
    s₀.Keeps (s.endReq q status reason quiet) :=
  .ite h.dropBerths.dropReq.complete h.dropBerths.dropReq

theorem State.Keeps.endOffer {o : Offer} {quiet : Bool} (h : s₀.Keeps s) : s₀.Keeps (s.endOffer o quiet) :=
  .leave (.ite (.update h) (.complete (.update h)))

theorem State.Keeps.expire {q : Request} (h : s₀.Keeps s) : s₀.Keeps (s.expire q) :=
  .note (.update h.dropBerths.dropReq)

theorem State.Keeps.endWhere {p : Request → Bool} {status : W16} {quiet : Bool} (h : s₀.Keeps s) :
    s₀.Keeps (s.endWhere p status quiet) :=
  h.foldl fun _ _ hu => hu.endReq

theorem State.Keeps.endOffers {p : Offer → Bool} {quiet : Bool} (h : s₀.Keeps s) : s₀.Keeps (s.endOffers p quiet) :=
  h.foldl fun _ _ hu => hu.endOffer

theorem State.Keeps.cancelJobs {p : Job → Bool} (h : s₀.Keeps s) : s₀.Keeps (s.cancelJobs p) :=
  .update h

theorem State.Keeps.refuseSealed {t : TenantId} (h : s₀.Keeps s) : s₀.Keeps (s.refuseSealed t) :=
  h.foldl fun _ _ hu => hu.refuseShip

theorem State.Keeps.cancelTenant {s0 : State} {t : TenantId} (h : s₀.Keeps s0) : s₀.Keeps (State.cancelTenant s0 t) :=
  (((h.refuseSealed.foldl fun _ _ hu => hu.expire).endWhere).endOffers).cancelJobs

theorem State.Keeps.zeroTenant {t : TenantId} (h : s₀.Keeps s) : s₀.Keeps (s.zeroTenant t) :=
  h.foldl fun _ _ hu => hu.zeroSlot

theorem State.Keeps.cancelCmd {ended : List W32} {h : W32} {t : Option W32} (hs : s₀.Keeps s) :
    s₀.Keeps (s.cancelCmd ended h t) := by
  unfold State.cancelCmd
  split
  · exact hs.endReq.finish?
  · exact hs.finish?

theorem State.Keeps.pauseCmd {s0 : State} {h : W32} {ttl : Nat} {t : Option W32} (hs : s₀.Keeps s0) :
    s₀.Keeps (State.pauseCmd s0 h ttl t) := by
  unfold State.pauseCmd
  dsimp only
  split
  · exact hs.finish?
  · split
    · exact hs.finish?
    · split
      · exact hs.protect.finish?
      · split
        · exact hs.protect.modReq.modTicket
        · exact hs.protect.modReq

theorem State.Keeps.shipCmd {h : W32} {t : Option W32} {order : ShipOrder} (hs : s₀.Keeps s) :
    s₀.Keeps (s.shipCmd h t order) := by
  unfold State.shipCmd
  dsimp only
  split
  · split
    · exact hs.finish?
    · split
      · exact .finish? (.endReq (.ite hs.sendShipment hs))
      · exact .finish? (.ite hs.sendShipment hs)
  · exact hs.finish?

theorem State.Keeps.mooringComplete {s0 : State} {h : W32} (hs : s₀.Keeps s0) : s₀.Keeps (State.mooringComplete s0 h) := by
  unfold State.mooringComplete
  dsimp only
  split
  · exact hs
  · split
    · exact hs
    · split
      · exact hs.protect
      · split
        · exact hs.protect.moor.modReq.progressTo.finish
        · exact hs.protect.moor.modReq

theorem State.Keeps.mooringExpiry {h : W32} (hs : s₀.Keeps s) : s₀.Keeps (s.mooringExpiry h) := by
  unfold State.mooringExpiry
  split
  · exact hs
  · exact .ite hs.expire.addCmd hs

theorem State.Keeps.resumeMoved {h : W32} (hs : s₀.Keeps s) : s₀.Keeps (s.resumeMoved h) := by
  unfold State.resumeMoved
  split
  · exact hs
  · split
    · exact hs
    · split
      · exact hs.modReq.unmoor.progressTo.finish
      · exact hs.modReq.unmoor

theorem State.Keeps.stepBoundary {e : StepEnd} (h : s₀.Keeps s) : s₀.Keeps (s.stepBoundary e) :=
  .ite h (.tellSlice (.update h))

theorem State.Keeps.protectRange {t : TenantId} {addr len : Nat} (h : s₀.Keeps s) :
    s₀.Keeps (s.protectRange t addr len) := by
  unfold State.protectRange
  split
  · exact .ite h.makeRegion h
  · exact h

theorem State.Keeps.storeFactor {s0 : State} {t : TenantId} {id : W16} {v : Nat} {x : AdapterFactor} (h : s₀.Keeps s0) :
    s₀.Keeps (State.storeFactor s0 t id v x) :=
  h.protectRange.protectRange.protectRange.putTiles.devWrite

theorem State.Keeps.installVersion {id : W16} {t : TenantId} {fs : List AdapterFactor} {current : Bool} (h : s₀.Keeps s) :
    s₀.Keeps (s.installVersion id t fs current) :=
  .update (h.foldl fun _ _ hu => hu.storeFactor)

theorem State.Keeps.putMasters {job i : Nat} {xs : List (W32 × W32)} (h : s₀.Keeps s) : s₀.Keeps (s.putMasters job i xs) :=
  h.devWrite

theorem State.Keeps.startJob {i : Issuer} {t : TenantId} {a : TuneArgs} {k : Option W32} (h : s₀.Keeps s) :
    s₀.Keeps (s.startJob i t a k) := by
  unfold State.startJob
  split
  · exact h.finish?
  · split
    · exact h.finish?
    · split
      · exact h.finish?
      · exact .foldl (.protectRange (.update h)) fun _ _ hu => hu.putMasters

theorem State.Keeps.settleJob {j : Job} (h : s₀.Keeps s) : s₀.Keeps (s.settleJob j) := by
  unfold State.settleJob
  split
  · exact .finish? (.update h)
  · split
    · exact .finish? (.update h)
    · split
      · exact .ite (.finish? (.update h)) (.finish? (.installVersion (.update h)))
      · split
        · exact h.progressTo
        · exact h

theorem State.Keeps.takeOffer {o : Offer} (h : s₀.Keeps s) : s₀.Keeps (s.takeOffer o) :=
  .ite (.leave (.update h)) (.update h)

theorem State.Keeps.refuseOffer {o : Offer} {status : W16} (h : s₀.Keeps s) : s₀.Keeps (s.refuseOffer o status) :=
  .ite h.takeOffer.complete h.takeOffer

theorem State.Keeps.admitIn {n a : Nat} {o : Offer} {aver : W32} {q0 : Request → Request} (h : s₀.Keeps s) :
    s₀.Keeps (s.admitIn n a o aver q0) :=
  .takeOffer (.update (.update h))

theorem State.Keeps.holdFork {o : Offer} (h : s₀.Keeps s) : s₀.Keeps (s.holdFork o) :=
  .ite (.update h) (.note (.update (.update h)))

theorem State.Keeps.prefill {q : Request} (h : s₀.Keeps s) : s₀.Keeps (s.prefill q) := by
  unfold State.prefill
  split
  · exact .ite h.modReq.complete h.modReq
  · exact h

theorem State.Keeps.freeVersions (h : s₀.Keeps s) : s₀.Keeps (s.freeVersions) :=
  .update h

theorem State.Keeps.unloadDue {cmds : List BCmd} (h : s₀.Keeps s) : s₀.Keeps (s.unloadDue cmds) := by
  unfold State.unloadDue
  refine .foldl h ?_
  intro _ _ hu
  split
  · exact .ite hu.unbind.finish? (.update hu)
  · exact hu

theorem State.Keeps.joinBack (h : s₀.Keeps s) : s₀.Keeps (s.joinBack) :=
  .update h

theorem State.Keeps.joinShip {x : Ship} (h : s₀.Keeps s) : s₀.Keeps (s.joinShip x) := by
  unfold State.joinShip
  split
  · exact .answerShip (.update (h.admitIn.eachQuay fun _ _ hu => hu.putBerths.putTail))
  · exact h

theorem State.Keeps.holdForRing {q : Request} (h : s₀.Keeps s) : s₀.Keeps (s.holdForRing q) :=
  h.holdReq.modFn

theorem State.Keeps.markShared (h : s₀.Keeps s) : s₀.Keeps (s.markShared) :=
  h.foldl fun _ _ hu => hu.eachQuay fun _ _ hu2 => hu2.putBerths

theorem State.Keeps.writeFormats {q : Request} (h : s₀.Keeps s) : s₀.Keeps (s.writeFormats q) := by
  unfold State.writeFormats
  split
  · exact h
  · exact h.foldl fun _ _ hu => hu.putTable

theorem State.Keeps.writeSampling {q : Request} (h : s₀.Keeps s) : s₀.Keeps (s.writeSampling q) :=
  h.putTable

theorem State.Keeps.writeStep {l : Nat} {c : CoreId} (h : s₀.Keeps s) : s₀.Keeps (s.writeStep l c) :=
  h.modCore

theorem State.Keeps.prepare {m : Manifest} {l : Nat} {x : LogicalCore} {c : CoreId} (h : s₀.Keeps s) :
    s₀.Keeps (s.prepare m l x c) :=
  h.bindCore.landResidents.modCore

theorem State.Keeps.startBound {c : CoreId} (h : s₀.Keeps s) : s₀.Keeps (s.startBound c) := by
  unfold State.startBound
  split
  · split
    · exact .ite h h.prepare.startTask
    · exact h
  · exact h

theorem State.Keeps.startStep (h : s₀.Keeps s) : s₀.Keeps (s.startStep) :=
  .ite h (.update (.writePlacement (.foldl (.foldl (.updateFab h rfl) fun _ _ hu => hu.writeStep) fun _ _ hu =>
    hu.writeFormats.writeSampling)))

theorem State.Keeps.haltSlice (h : s₀.Keeps s) : s₀.Keeps (s.haltSlice) :=
  .note (.updateFab h rfl)

theorem State.Keeps.holdExchange {peerHold : Bool} (h : s₀.Keeps s) : s₀.Keeps (s.holdExchange peerHold) := by
  unfold State.holdExchange
  split
  · exact h
  · exact .ite h.modPwr h.modPwr.startStep

protected theorem State.Keeps.eachEvicting {f : State → EvictPolicy → QuayId → Option State} {ks : List QuayId}
    (h : s₀.Keeps s)
    (hf : ∀ u p k, s₀.Keeps u → s₀.KeepsSome (f u p k)) : s₀.KeepsSome (eachEvicting f ks s) := by
  induction ks generalizing s with
  | nil => exact .some h
  | cons k r ih =>
    rw [Machine.eachEvicting]
    split
    · exact ih h
    · split
      · rename_i heq
        exact ih (hf _ _ _ h _ heq)
      · exact .none

theorem State.Keeps.evictReq {q : Request} (h : s₀.Keeps s) : s₀.Keeps (s.evictReq q) := by
  unfold State.evictReq
  refine .ite h ?_
  split
  · exact h.shortOf
  · rename_i heq
    refine State.Keeps.modReq (h.eachEvicting (fun u p k hu => ?_) _ heq)
    split
    · exact hu.evictQuay
    · exact .some hu

theorem State.Keeps.compactReq {q : Request} (h : s₀.Keeps s) : s₀.Keeps (s.compactReq q) := by
  unfold State.compactReq
  refine .ite h ?_
  split
  · exact h.shortOf
  · rename_i heq
    exact h.eachEvicting (fun _ _ _ hu => hu.compactQuay) _ heq

theorem State.Keeps.action7 (h : s₀.Keeps s) : s₀.Keeps s.action7 :=
  h.foldl fun _ _ hu => hu.evictReq

theorem State.Keeps.action8 (h : s₀.Keeps s) : s₀.Keeps s.action8 :=
  h.foldl fun _ _ hu => hu.compactReq

theorem State.Keeps.shipmentReceive {r : BitVec 1024} {f : FnId} {committed : W32} {st : ShipState} {xs : List ShipImage}
    {complete : Bool} (h : s₀.Keeps s) : s₀.Keeps (s.shipmentReceive r f committed st xs complete) := by
  unfold State.shipmentReceive
  dsimp only
  refine .ite h.refuseShip ?_
  split
  · exact h
  · rename_i heq
    have h1 := h.pickHandles _ heq
    split
    · exact .update (h1.foldl fun _ _ hu => hu.landImage)
    · exact .update (h1.foldl fun _ _ hu => hu.landImage)

theorem State.Keeps.roomBack {q : Request} {hs : List Nat} {a : Nat} (h : s₀.Keeps s) (e : s.roomBack q = some (hs, a, t)) :
    s₀.Keeps t := by
  unfold State.roomBack at e
  split at e
  · cases e
    exact h
  · split at e
    · rename_i heq _
      cases e
      exact h.pickHandles _ heq
    · cases e

theorem State.Keeps.resumeCmd {r : W32} {k : Option W32} (h : s₀.Keeps s) : s₀.Keeps (s.resumeCmd r k) := by
  unfold State.resumeCmd
  split
  · exact h.finish?
  · refine .ite h.finish? (.ite h.finish? ?_)
    split
    · exact h.finish?
    · rename_i heq
      have h1 := h.roomBack heq
      exact .modReq (.ite h1.finish? h1)

theorem State.Keeps.leaveCmd {ended : List W32} {c : BCmd} (h : s₀.Keeps s) : s₀.Keeps (s.leaveCmd ended c) := by
  unfold State.leaveCmd
  split
  · exact h.cancelCmd
  · split
    · exact h.endOffer.finish?
    · split
      · exact h.endReq.finish?
      · exact h.finish?
  · split
    · exact h.endReq
    · exact h
  · exact h.pauseCmd
  · exact h.resumeCmd
  · exact h.shipCmd
  · split
    · exact h.endReq
    · exact h
  · split
    · exact .ite h.expire h
    · exact h
  · exact h.endWhere.endOffers
  · exact h.endOffers
  · exact h.endWhere
  · exact .zeroSlot (.ite h.cancelTenant h)
  · exact h.cancelTenant.zeroTenant
  all_goals exact h

theorem State.Keeps.adapterCmd {c : BCmd} (h : s₀.Keeps s) : s₀.Keeps (s.adapterCmd c) := by
  unfold State.adapterCmd
  split
  · exact .ite h.finish? (.ite h.finish? h.installVersion.finish?)
  · exact .ite h.finish? (.finish? (.update h))
  · exact h.startJob
  · exact h.cancelJobs
  · exact h

theorem State.Keeps.stepColumn {j : Job} {invN : W32} {base : Nat} {c : FactorCol} (h : s₀.Keeps s) :
    s₀.Keeps (s.stepColumn j invN base c).2 :=
  h.putMasters

theorem State.Keeps.foldlOf {α β : Type} {f : β → α → β} {g : β → State} {xs : List α} {b : β} (h : s₀.Keeps (g b))
    (hf : ∀ b x, s₀.Keeps (g b) → s₀.Keeps (g (f b x))) : s₀.Keeps (g (xs.foldl f b)) := by
  induction xs generalizing b with
  | nil => exact h
  | cons x xs ih => exact ih (hf b x h)

theorem State.Keeps.stepJob {j : Job} (h : s₀.Keeps s) : s₀.Keeps (s.stepJob j) :=
  .update (.foldlOf (g := Prod.snd) (b := ([], s)) h fun _ _ hb => hb.stepColumn)

theorem State.Keeps.advanceJob {j : Job} (h : s₀.Keeps s) : s₀.Keeps (s.advanceJob j) :=
  .ite h (.ite (.stepJob (.update h)) (.update h))

theorem State.Keeps.action9 {b : BoundaryIn} {cmds : List BCmd} (h : s₀.Keeps s) : s₀.Keeps (s.action9 b cmds) :=
  .foldl (.foldl (.ite h (h.foldl fun _ _ hu => hu.advanceJob)) fun _ _ hu => hu.settleJob) fun _ _ hu => hu.adapterCmd

/-- What an offer that is dealt with leaves. -/
def State.KeepsDone (s : State) (a : Admitted) : Prop := ∀ t, a = .done t → s.Keeps t

protected theorem State.Keeps.done (h : s₀.Keeps s) : s₀.KeepsDone (.done s) := fun _ e => Admitted.done.inj e ▸ h

protected theorem State.KeepsDone.held : s₀.KeepsDone .held := fun _ e => nomatch e

protected theorem State.KeepsDone.waits : s₀.KeepsDone .waits := fun _ e => nomatch e

theorem State.Keeps.admitPlain {b : BoundaryIn} {o : Nat × Offer} (h : s₀.Keeps s) : s₀.KeepsDone (s.admitPlain b o) := by
  unfold State.admitPlain
  split
  · exact .waits
  · split
    · exact .done h.refuseOffer
    · split
      · exact .done (h.admitIn.eachQuay fun _ _ hu => hu.openQuay)
      · exact .waits

theorem State.Keeps.admitFork {b : BoundaryIn} {o : Nat × Offer} (h : s₀.Keeps s) : s₀.KeepsDone (s.admitFork b o) := by
  unfold State.admitFork
  split
  · exact .waits
  · split
    · exact .done h.refuseOffer
    · exact .done h.refuseOffer
    · dsimp only
      split
      · exact .done h.refuseOffer
      · split
        · exact .done h.refuseOffer
        · split
          · split
            · rename_i heq
              exact .done (h.admitIn.forkAll _ heq)
            · exact .held
          · exact .waits

protected theorem State.Keeps.admitForks {b : BoundaryIn} {os : List (Nat × Offer)} (h : s₀.Keeps s) :
    s₀.Keeps (admitForks b os s).1 := by
  induction os generalizing s with
  | nil => exact h
  | cons o r ih =>
    rw [Machine.admitForks]
    split
    · exact ih h
    · split
      · rename_i heq
        exact ih (h.admitFork _ heq)
      · exact ih h.holdFork
      · exact h

protected theorem State.Keeps.admitRest {b : BoundaryIn} {cmds : List BCmd} {stop : Option (Nat × Offer)}
    {os : List (Nat × Offer)}
    (h : s₀.Keeps s) : s₀.Keeps (admitRest b cmds stop os s) := by
  induction os generalizing s with
  | nil => exact h
  | cons o r ih =>
    rw [Machine.admitRest]
    split
    · exact h
    · split
      · exact ih h
      · split
        · rename_i heq
          exact ih (h.admitPlain _ heq)
        · exact h
        · exact h

theorem State.Keeps.action11 {cmds : List BCmd} (h : s₀.Keeps s) : s₀.Keeps (s.action11 cmds) :=
  .freeVersions (.foldl (.foldl (h.foldl fun _ _ hu => hu.endReq) fun _ _ hu => hu.prefill) fun _ _ hu => hu.leaveCmd)

theorem State.Keeps.action12 {b : BoundaryIn} {cmds : List BCmd} {offers : List (Nat × Offer)} {stop : Option (Nat × Offer)}
    (h : s₀.Keeps s) : s₀.Keeps (s.action12 b cmds offers stop) :=
  .admitRest (h.joinBack.foldl fun _ _ hu => hu.joinShip)

theorem State.Keeps.reserveQuay {q : Request} {n : Nat} {k : QuayId} (h : s₀.Keeps s) :
    s₀.KeepsSome (s.reserveQuay q n k) := by
  unfold State.reserveQuay
  dsimp only
  split
  · exact .none
  · rename_i heq
    exact .some (State.Keeps.modReq (h.pickHandles _ heq))

protected theorem State.Keeps.reserveAll {q : Request} {n : Nat} {ks : List QuayId} (h : s₀.Keeps s) :
    s₀.KeepsSome (reserveAll q n ks s) := by
  induction ks generalizing s with
  | nil => exact .some h
  | cons k r ih =>
    rw [Machine.reserveAll]
    split
    · rename_i heq
      exact ih (h.reserveQuay _ heq)
    · exact .none

theorem State.Keeps.grant {q : Request} {x : State × List ((FnId × RingId) × Nat)} (h : s₀.Keeps x.1) :
    s₀.Keeps (State.grant q x).1 := by
  unfold State.grant
  dsimp only
  split
  · exact h
  · split
    · exact h.holdReq
    · split
      · exact h.holdForRing
      · split
        · exact h.holdReq
        · rename_i heq
          exact State.Keeps.modReq (h.reserveAll _ heq)

theorem State.Keeps.action13 (h : s₀.Keeps s) : s₀.Keeps s.action13 :=
  .markShared (.foldlOf (g := Prod.fst) (b := (s, [])) h fun _ _ hb => hb.grant)

theorem State.Keeps.exchange {b : BoundaryIn} (h : s₀.Keeps s) : s₀.Keeps (s.exchange b) := by
  unfold State.exchange
  extract_lets apart hm s₁ s₂ cmds offers s₃ s₄ serv s₅ f s₆ s₇ serv' s₈
  refine .ite h ?_
  have h₁ : s₀.Keeps s₁ := .update h
  have h₂ : s₀.Keeps s₂ := .ite h₁.note h₁
  have h₃ : s₀.Keeps s₃ := h₂.action3.action4
  refine .ite h₃.haltSlice ?_
  have h₄ : s₀.Keeps s₄ := h₃.action5.place6.action7.action8
  have h₅ : s₀.Keeps s₅ := .action9 (.update h₄)
  have h₆ : s₀.Keeps s₆ := (State.Keeps.admitForks h₅).action11.unloadDue
  have h₇ : s₀.Keeps s₇ := h₆.action12
  have h₈ : s₀.Keeps s₈ := .action13 (.update h₇)
  exact .ite h₈.setPhase h₈.startStep

end

end Sys2Proof.Machine
end

section
/-! PROOF. SPDM, the rack and the debug port keep the canonical forms. -/

namespace Sys2Proof.Machine

section
variable {s₀ s t : State}

theorem State.Keeps.doe {f : FnId} {code : Nat} {data : List Byte} (h : s₀.Keeps s) : s₀.Keeps (s.doe f code data) :=
  h.send

theorem State.Keeps.doeError {f : FnId} {e : SpdmError} (h : s₀.Keeps s) : s₀.Keeps (s.doeError f e) :=
  h.doe

theorem State.Keeps.inPhase {f : FnId} {phase : Nat} {go : State → State} (h : s₀.Keeps s)
    (hgo : ∀ u, s₀.Keeps u → s₀.Keeps (go u)) :
    s₀.Keeps (s.inPhase f phase go) :=
  .ite (hgo _ h) h.doeError

theorem State.Keeps.getVersion {f : FnId} (h : s₀.Keeps s) : s₀.Keeps (s.getVersion f) :=
  h.modFn.doe

theorem State.Keeps.getCapabilities {f : FnId} (h : s₀.Keeps s) : s₀.Keeps (s.getCapabilities f) :=
  h.inPhase fun _ hu => hu.modFn.doe

theorem State.Keeps.negotiate {f : FnId} {ok : Bool} (h : s₀.Keeps s) : s₀.Keeps (s.negotiate f ok) :=
  h.inPhase fun _ hu => .ite hu.modFn.doe hu.doeError

theorem State.Keeps.getDigests {f : FnId} (h : s₀.Keeps s) : s₀.Keeps (s.getDigests f) :=
  h.inPhase fun _ hu => hu.doe

theorem State.Keeps.getCertificate {f : FnId} {slot : Byte} {off len : Nat} (h : s₀.Keeps s) :
    s₀.Keeps (s.getCertificate f slot off len) := by
  unfold State.getCertificate
  refine .inPhase h ?_
  intro _ hu
  split
  · exact hu.doeError
  · exact .ite hu.doe hu.doeError

theorem State.Keeps.challenge {f : FnId} {slot : Byte} {nonce : BitVec 256} (h : s₀.Keeps s) :
    s₀.Keeps (s.challenge f slot nonce) :=
  h.inPhase fun _ hu => .ite hu.doe hu.doeError

theorem State.Keeps.getMeasurements {f : FnId} {index : Byte} {nonce : BitVec 256} (h : s₀.Keeps s) :
    s₀.Keeps (s.getMeasurements f index nonce) := by
  unfold State.getMeasurements
  dsimp only
  refine .inPhase h ?_
  intro _ hu
  split
  · exact hu.doe
  · split
    · exact hu.doe
    · exact .ite hu.doe hu.doeError

theorem State.Keeps.keyExchange {f : FnId} (h : s₀.Keeps s) : s₀.Keeps (s.keyExchange f) := by
  unfold State.keyExchange
  dsimp only
  refine .inPhase h ?_
  intro _ hu
  split
  · exact hu.modFn.doe
  · exact hu.doeError

theorem State.Keeps.finishSession {f : FnId} {n : Nat} {verified : Bool} (h : s₀.Keeps s) :
    s₀.Keeps (s.finishSession f n verified) := by
  unfold State.finishSession
  split
  · exact .ite h.modFn.doe h.modFn.doeError
  · exact h.doeError

theorem State.Keeps.inSession {f : FnId} {n : Nat} {go : State → State} (h : s₀.Keeps s)
    (hgo : ∀ u, s₀.Keeps u → s₀.Keeps (go u)) :
    s₀.Keeps (s.inSession f n go) :=
  .ite (hgo _ h) h.doeError

theorem State.Keeps.loadKey {f : FnId} {n : Nat} {vendorOk : Bool} {slot : Byte} {key : BitVec 512} (h : s₀.Keeps s) :
    s₀.Keeps (s.loadKey f n vendorOk slot key) :=
  h.inSession fun _ hu => .ite hu.setKeySlot.doe hu.doeError

theorem State.Keeps.rackViol (h : s₀.Keeps s) : s₀.Keeps (s.rackViol) :=
  .update h

theorem State.Keeps.rackRefuse {seq st : W16} (h : s₀.Keeps s) : s₀.Keeps (s.rackRefuse seq st) :=
  h.rackViol.send

theorem State.Keeps.onRack {f : State → State} (h : s₀.Keeps s) (hf : ∀ u, s₀.Keeps u → s₀.Keeps (f u)) :
    s₀.Keeps (s.onRack f) :=
  .ite h.rackViol (hf _ h)

theorem State.Keeps.rackRequest {seq op : W16} {args : List Byte} (h : s₀.Keeps s) : s₀.Keeps (s.rackRequest seq op args) :=
  .ite h.rackRefuse h.modMbx.take.send

theorem State.Keeps.rackPoll {seq : W16} (h : s₀.Keeps s) : s₀.Keeps (s.rackPoll seq) :=
  h.send

theorem State.Keeps.rackCoord {seq : W16} {v : W64} (h : s₀.Keeps s) : s₀.Keeps (s.rackCoord seq v) :=
  .ite h.rackRefuse (.send (.updateFab h rfl))

theorem State.Keeps.rackStat {seq : W16} (h : s₀.Keeps s) : s₀.Keeps (s.rackStat seq) :=
  h.send

theorem State.Keeps.rackUndefined {dest : Byte} {crcOk : Bool} {len : Nat} {seq : W16} (h : s₀.Keeps s) :
    s₀.Keeps (s.rackUndefined dest crcOk len seq) := by
  unfold State.rackUndefined
  split
  · exact h
  · exact .ite h.rackViol h.rackRefuse

theorem State.Keeps.dbgAnswer {op : Nat} {tag : Byte} {code : Nat} {data : W64} (h : s₀.Keeps s) :
    s₀.Keeps (s.dbgAnswer op tag code data) :=
  .update h

theorem State.Keeps.updateDr {v : BitVec 128} (h : s₀.Keeps s) : s₀.Keeps (s.updateDr v) := by
  unfold State.updateDr
  split
  · exact .update h
  · exact .ite (.dbgAnswer (.update h)) (.update (.update h))

theorem State.Keeps.captureDr (h : s₀.Keeps s) : s₀.Keeps (s.captureDr) := by
  unfold State.captureDr
  split
  · exact .update h
  · exact .update h

theorem State.Keeps.dbgTrst (h : s₀.Keeps s) : s₀.Keeps (s.dbgTrst) :=
  .update h

theorem State.Keeps.debugged (h : s₀.Keeps s) : s₀.Keeps (s.debugged) :=
  .update (h.foldl fun _ _ hu => hu.addCmd.zeroSlot)

theorem State.Keeps.clearBreaks (h : s₀.Keeps s) : s₀.Keeps (s.clearBreaks) :=
  .update (h.foldl fun _ _ hu => hu.modSeq)

theorem State.Keeps.setHm {h : BitVec 2} {x : HmCore} (hs : s₀.Keeps s) : s₀.Keeps (s.setHm h x) :=
  .update hs

theorem State.Keeps.holdDebug {c : CoreId} (h : s₀.Keeps s) : s₀.Keeps (s.holdDebug c) :=
  .ite h (.update h.modCa)

theorem State.Keeps.memWrHeld {addr : Nat} (h : s₀.Keeps s) : s₀.Keeps (s.memWrHeld addr) := by
  unfold State.memWrHeld
  split
  · exact h.holdDebug
  · exact h

/-- What a debug operation gives keeps what `s` keeps. -/
def State.KeepsEnd (s : State) (o : Option DbgEnd) : Prop := ∀ e, o = some e → s.Keeps e.st

protected theorem State.Keeps.ended {e : DbgEnd} (h : s₀.Keeps e.st) :
    s₀.KeepsEnd (some e) := fun _ he => Option.some.inj he ▸ h

theorem State.Keeps.dbgServe {op : Nat} {scope : Option Nat} {tag : Byte} {arg : Nat} {data : W64} {used : Nat}
    {served : State → Option DbgEnd} (h : s₀.Keeps s) (hs : ∀ u, s₀.Keeps u → s₀.KeepsEnd (served u)) :
    s₀.Keeps (s.dbgServe op scope tag arg data used served) := by
  unfold State.dbgServe
  refine .ite h (.ite h.dbgAnswer ?_)
  split
  · rename_i heq
    exact State.Keeps.dbgAnswer (hs s h _ heq)
  · exact h

theorem State.Keeps.dbgOp {op : Nat} {scope : Option Nat} {tag : Byte} {arg : Nat} {go : State → DbgEnd}
    (h : s₀.Keeps s) (hgo : ∀ u, s₀.Keeps u → s₀.Keeps (go u).st) : s₀.Keeps (s.dbgOp op scope tag arg go) :=
  h.dbgServe fun u hu => .ended (hgo u hu)

protected theorem State.Keeps.iteEnd {p : Prop} [Decidable p] {a b : DbgEnd} (ha : s₀.Keeps a.st) (hb : s₀.Keeps b.st) :
    s₀.Keeps (if p then a else b).st := by
  split
  · exact ha
  · exact hb

theorem State.Keeps.dbgWord {w : MWord} (h : s₀.Keeps s) : s₀.Keeps (Machine.dbgWord s w).st :=
  .iteEnd h h

theorem State.Keeps.chal {scope : BitVec 3} (h : s₀.Keeps s) : s₀.Keeps (s.chal scope).st :=
  .iteEnd h (.iteEnd h (.update h))

theorem State.Keeps.unlock {sig : SigBlock} (h : s₀.Keeps s) : s₀.Keeps (s.unlock sig).st := by
  unfold State.unlock
  split
  · exact h
  · split
    · exact h
    · extract_lets d s₁ signed s₂ sec s₃
      have h₁ : s₀.Keeps s₁ := .update h
      have h₂ : s₀.Keeps s₂ := .ite h₁.debugged h₁
      have h₃ : s₀.Keeps s₃ := .ite h₁ h₁.sigFailed
      clear_value s₂ s₃
      split
      · exact .note (.update h₂)
      · exact .update h₃

theorem State.Keeps.lockPort (h : s₀.Keeps s) : s₀.Keeps s.lockPort.st :=
  .iteEnd h (.update h.clearBreaks)

theorem State.Keeps.hmStep {m : BitVec 2} (h : s₀.Keeps s) : s₀.Keeps (s.hmStep m).st :=
  .iteEnd h.setHm h

theorem State.Keeps.hmReg {m : BitVec 2} {r : BitVec 6} (h : s₀.Keeps s) : s₀.Keeps (s.hmReg m r).st := by
  unfold State.hmReg
  refine .iteEnd h ?_
  split
  · exact h
  · exact .setHm (.update h)

theorem State.Keeps.hmRegSet {m : BitVec 2} {r : BitVec 6} {v : W64} (h : s₀.Keeps s) : s₀.Keeps (s.hmRegSet m r v).st :=
  .iteEnd h.setHm h

theorem State.Keeps.onCore {c : BitVec 12} {go : CoreId → DbgEnd} (h : s₀.Keeps s) (hgo : ∀ c, s₀.Keeps (go c).st) :
    s₀.Keeps (s.onCore c go).st := by
  unfold State.onCore
  split
  · exact .iteEnd h (hgo _)
  · exact h

theorem State.Keeps.ccHalt {c : BitVec 12} {all : Bool} (h : s₀.Keeps s) : s₀.Keeps (s.ccHalt c all).st := by
  unfold State.ccHalt
  split
  · dsimp only
    exact h.foldl fun _ _ hu => hu.modCore
  · exact h.onCore fun _ => h.modCore

theorem State.Keeps.ccRun {c : BitVec 12} {all : Bool} (h : s₀.Keeps s) : s₀.Keeps (s.ccRun c all).st :=
  .iteEnd (h.foldl fun _ _ hu => hu.modCore) (h.onCore fun _ => h.modCore)

theorem State.Keeps.ccStep {c : BitVec 12} {all : Bool} (h : s₀.Keeps s) : s₀.Keeps (s.ccStep c all).st :=
  .iteEnd (h.foldl fun _ _ hu => hu.modCore) (h.onCore fun _ => .iteEnd h.modCore h)

theorem State.Keeps.ccBrk {c : BitVec 12} {slot : BitVec 2} {en : Bool} {d : W64} (h : s₀.Keeps s) :
    s₀.Keeps (s.ccBrk c slot en d).st :=
  h.onCore fun _ => .iteEnd h h.modSeq

theorem State.Keeps.ccRegR {c : BitVec 12} {cls : BitVec 2} {r : BitVec 5} {w : BitVec 7} (h : s₀.Keeps s) :
    s₀.Keeps (s.ccRegR c cls r w).st :=
  h.onCore fun _ => .iteEnd h (.iteEnd h h.setCore)

theorem State.Keeps.ccRegW {c : BitVec 12} {cls : BitVec 2} {r : BitVec 5} {w : BitVec 7} {d : W64} (h : s₀.Keeps s) :
    s₀.Keeps (s.ccRegW c cls r w d).st :=
  h.onCore fun _ => .iteEnd h (.iteEnd h h.setCore)

theorem State.Keeps.memRd {addr : Nat} (h : s₀.Keeps s) : s₀.Keeps (s.memRd addr).st := by
  unfold State.memRd
  refine .iteEnd h (.iteEnd ?_ ?_)
  · split
    · exact h
    · exact h
  · split
    · exact h.modChan.dbgWord
    · split
      · exact .ite h.raiseInbound h
      · exact .iteEnd h h.senseSp.dbgWord
    · exact h

theorem State.Keeps.memWrScratch {c : CoreId} {off : Nat} {d v : W64} (h : s₀.Keeps s) :
    s₀.KeepsEnd (s.memWrScratch c off d v) := by
  unfold State.memWrScratch
  split
  · exact .ended h.landWords
  · exact fun _ e => nomatch e
  · exact .ended h
  · exact .ended h.raiseInbound

theorem State.Keeps.memWr {addr : Nat} {d : W64} (h : s₀.Keeps s) : s₀.KeepsEnd (s.memWr addr d) := by
  unfold State.memWr
  split
  · exact .ended h
  · split
    · split
      · exact .ended h
      · split
        · exact .ended h
        · exact .ended h.ctlWrite
    · split
      · exact .ended h.modChan.devWrite.markStale
      · exact h.memWrScratch
      · exact .ended h

theorem State.Keeps.pnmRd {c : BitVec 12} {off : BitVec 18} (h : s₀.Keeps s) : s₀.Keeps (s.pnmRd c off).st :=
  h.onCore fun _ => .iteEnd h h.sensePun.dbgWord

theorem State.Keeps.ccBist {c : BitVec 12} {fail : Option Byte} (h : s₀.Keeps s) : s₀.Keeps (s.ccBist c fail).st := by
  unfold State.ccBist
  split
  · refine .iteEnd h (.iteEnd h ?_)
    split
    · exact h.modSeq.scrub.scrubDone
    · exact h.modSeq.scrub.scrubDone.note
  · exact h

end

end Sys2Proof.Machine
end

section
/-! PROOF. Every command completes, and keeps the queue and the canonical forms (O55, O56, O59). -/

namespace Sys2Proof.Machine

section
variable {s₀ s t : State}

/-- The command completes, and keeps what `s` keeps. -/
def State.Completes (s : State) (o : Host.Outcome State Fault Refusal) : Prop := ∃ t, o = .next t ∧ s.Keeps t

protected theorem State.Completes.next (h : s₀.Keeps s) : s₀.Completes (.next s) := ⟨s, rfl, h⟩

protected theorem State.Completes.live {f : State → State} (h : s₀.Keeps s) (hf : ∀ u, s₀.Keeps u → s₀.Keeps (f u)) :
    s₀.Completes (s.live f) :=
  .next (.ite h (hf s h))

theorem State.Keeps.ticketQuery {i : Issuer} {n : W32} (h : s₀.Keeps s) : s₀.Completes (execTicketQuery i n s) := by
  refine .next (h.command fun u hu => ?_)
  split
  · exact hu.reply
  · exact hu.reply

theorem State.Keeps.acknowledgement {at_ src : Node} (h : s₀.Keeps s) : s₀.Completes (execAcknowledgement at_ src s) := by
  refine .next ?_
  split
  · exact h.coreAck
  · exact h.portAck
  · exact .ite h.drop1 h

theorem State.Keeps.hostReadTimeout {f : FnId} {tag : Nat} (h : s₀.Keeps s) :
    s₀.Completes (execHostReadTimeout f tag s) := by
  refine .next ?_
  split
  · exact h.readFailed.nextReads
  · exact h

theorem State.Keeps.cancelName {i : Issuer} {name : W64} (h : s₀.Keeps s) : s₀.Completes (execReqCancel i name s) := by
  refine .next (h.command fun u hu => ?_)
  split
  · exact hu.reqCancel
  · exact hu

theorem State.Keeps.chalrd {tag : Byte} {i : BitVec 3} (h : s₀.Keeps s) : s₀.Completes (execChalrd tag i s) := by
  refine .live h fun u hu => hu.dbgOp fun v hv => ?_
  split
  · exact hv
  · exact hv

theorem State.Keeps.tokwr {tag : Byte} {i : BitVec 12} {d : W64} (h : s₀.Keeps s) : s₀.Completes (execTokwr tag i d s) := by
  refine .live h fun u hu => hu.dbgServe fun v hv => ?_
  split
  · exact .ended hv
  · exact .ended (.update hv)

/-- Every command completes and keeps the queue and the canonical forms; the commands not listed issue a bundle of one slot. -/
theorem State.completes_exec (i : Instr) (s : State) : s.Completes (exec i s) := by
  have h := State.Keeps.refl s
  unfold exec
  cases i with
  | bundleIssue => exact .next h.issueNext
  | buildPunnet => exact .next h.buildStep
  | fetchLine => exact .next h.fetchStep
  | laneLookup => exact .next h.lookupStep
  | blockIntegerHandOff => exact .next h.handOffStep
  | delivery => exact .next h.deliveryStep
  | slotVerdict => exact .next h.verdictStep
  | taskEnd => exact .next h.taskEnd
  | scoreboardRangeFree => exact .next h.freeRange
  | watchdog => exact .next h.watchdogFire
  | seqCtrlStart => exact .next h.startBound
  | endOfTaskScrub => exact .next h.scrub
  | endOfTaskScrubDone => exact .next h.scrubDone
  | spdBankpwrWrite => exact .next h.bankpwrWrite
  | bankFillDone => exact .next h.fillDone
  | seqWdogWrite => exact .next h.wdogWrite
  | scrubAccess => exact .next h.scrubAccess
  | inboundWrite => exact .next h.inboundWrite
  | heldInboundWriteLand => exact .next h.heldLand
  | inboundRead => exact .next h.inboundRead
  | meshLinkWord => exact .next h.linkWord
  | dmaComplete => exact .next h.dmaComplete
  | acknowledgement => exact h.acknowledgement
  | packetArrive => exact .next h.packetArrive
  | packetCommit => exact .next h.commit
  | queuePointerMismatch => exact .next h.ptrMismatch
  | hqQstatRst => exact .next h.resetQueue
  | routePacket => exact .next h.routePacket
  | contributionRecord => exact .next h.contributionRecord
  | digestPacket => exact .next h.digestPacket
  | channelRead => exact .next h.channelRead
  | channelWrite => exact .next h.channelWrite
  | tileVerdict => exact .next h.tileVerdict
  | berthTileCheck => exact .next h.berthTileCheck
  | tileReverify => exact .next h.tileReverify
  | tgcGo => exact .live h fun _ hu => hu.tgcGo
  | tgcStop => exact .next h.tgcStop
  | tgcRunEnd => exact .next h.tgcRunEnd
  | memChsvcWrite => exact .live h fun _ hu => hu.chsvcWrite
  | bpoolCountWrite => exact .live h fun _ hu => hu.poolCount
  | thermalSample => exact .live h fun _ hu => hu.thermalSample
  | thermalHoldExchange => exact .next h.holdExchange
  | anchorageTemperature => exact .live h fun _ hu => hu.note
  | stepWorkDone => exact .next h.stepWorkDone
  | stepBoundary => exact .next h.stepBoundary
  | tidePulse => exact .live h fun _ hu => hu.tidePulse
  | tideLost => exact .live h fun _ hu => hu.tideMissing
  | boundaryExchange => exact .next h.exchange
  | completionRecordWrite => exact .next h.completionRecord
  | mooringComplete => exact .next h.mooringComplete
  | mooringExpiry => exact .next h.mooringExpiry
  | resumeMoved => exact .next h.resumeMoved
  | shipmentReceive => exact .next h.shipmentReceive
  | shipmentTimeout => exact .next h.shipmentTimeout
  | placerCopy => exact .next h.placerCopy
  | containedFaultResponse => exact .next h.containedFault
  | fatalFault => exact .live h fun _ hu => .ite hu hu.fatal
  | hmWatchdog => exact .live h fun _ hu => .ite hu hu.fatal
  | hmSramError => exact .live h fun _ hu => .ite hu hu.fatal
  | journalCommit => exact .next h.journalCommit
  | mbxDoorbell => exact .live h fun _ hu => hu.doorbell
  | mbxNop => exact .next (h.command fun _ hu => hu.reply)
  | identify => exact .next (h.command fun _ hu => hu.reply)
  | moduleStatus => exact .next (h.command fun _ hu => hu.reply)
  | ticketQuery => exact h.ticketQuery
  | ticketCancel => exact .next (h.command fun _ hu => hu.ticketCancel)
  | ticketExpiry => exact .next (.update h)
  | modelLoad => exact .next (h.hostCommand fun _ hu => hu.modelLoad)
  | modelUnload => exact .next (h.command fun _ hu => hu.modelUnload)
  | bindingQuery => exact .next (h.command fun _ hu => hu.bindingQuery)
  | tileWrite => exact .next (h.hostCommand fun _ hu => hu.tileWrite)
  | expertStats => exact .next (h.command fun _ hu => hu.expertStats)
  | sliceForm => exact .next (h.command fun _ hu => hu.sliceForm)
  | portUnfence => exact .next (h.command fun _ hu => .ite hu.unfence.reply hu.reply)
  | portStatus => exact .next (h.command fun _ hu => hu.reply)
  | reqSubmit => exact .next h.submit
  | reqCancel => exact h.cancelName
  | reqPause => exact .next (h.command fun _ hu => hu.reqPause)
  | reqResume => exact .next (h.command fun _ hu => hu.reqResume)
  | reqShip => exact .next (h.command fun _ hu => hu.reqShip)
  | reqStatus => exact .next (h.command fun _ hu => hu.reqStatus)
  | adapterInstall => exact .next (h.hostCommand fun _ hu => hu.adapterInstall)
  | adapterRemove => exact .next (h.command fun _ hu => hu.adapterRemove)
  | dataWrite => exact .next (h.hostCommand fun _ hu => hu.dataWrite)
  | tuneStart => exact .next (h.command fun _ hu => hu.tuneStart)
  | adapterExport => exact .next (h.hostCommand fun _ hu => hu.adapterExport)
  | attest => exact .next (h.hostCommand fun _ hu => hu.attest)
  | fwUpdate => exact .next (h.hostCommand fun _ hu => hu.fwUpdate)
  | fwActivate => exact .next (h.command fun _ hu => hu.fwActivate)
  | tenantAssignFunction => exact .next (h.command fun _ hu => hu.assignFn)
  | tenantGiveSlot => exact .next (h.command fun _ hu => hu.giveSlot)
  | tenantClearSlot => exact .next (h.command fun _ hu => hu.clearSlotCmd)
  | tenantRelease => exact .next (h.command fun _ hu => hu.releaseTenant)
  | bbxRead => exact .next (h.hostCommand fun _ hu => hu.bbxRead)
  | tgcRun => exact .next (h.command fun _ hu => hu.tgcCommand)
  | pciRdbDoorbell => exact .live h fun _ hu => hu.bell
  | ringEnable => exact .live h fun _ hu => .ite hu.writeRcfg hu
  | ringDisable => exact .live h fun _ hu => .ite hu hu.writeRcfg
  | ringInterruptTimer => exact .next (.ite h h.modRing.interrupt)
  | busMasterEnable => exact .live h fun _ hu => hu.busMaster
  | functionLevelReset => exact .live h fun _ hu => hu.flr
  | perstAssert => exact .live h fun _ hu => hu.flr.modPwr
  | ideIntegrityFail => exact .next h.ideFail
  | registerWrite => exact .live h fun _ hu => hu.regWrite
  | xlkMismatchClear => exact .next (.updateFab h rfl)
  | xlkUnfence => exact .next h.unfence
  | portEnable => exact .next h.enableAny
  | portTrained => exact .next (h.onPort (fun _ => h.trained) fun _ => h.modUp)
  | portRetry => exact .next (h.onPort (fun _ => h.retryPort) fun _ => h.modUp)
  | frameReceive => exact .next h.receiveFrame
  | idleFrame => exact .next h.typedFrame
  | writeFrame => exact .next h.typedFrame
  | readRequest => exact .next h.typedFrame
  | readResponse => exact .next h.typedFrame
  | writeAck => exact .next h.typedFrame
  | refusalFrame => exact .next h.typedFrame
  | contributionFrame => exact .next h.typedFrame
  | contributionRecheck => exact .next h.recheck.pumpPort
  | messageFrame => exact .next h.messageIn
  | musterRecord => exact .next h.musterRecord
  | musterTimeout => exact .next h.musterTimeout
  | haltMessage => exact .next h.haltIn
  | stepAbortMessage => exact .next h.stepAborted
  | linkNak => exact .next h.typedFrame
  | identityFrame => exact .next h.identity
  | uplinkData => exact .next h.uplinkData
  | uplinkAck => exact .next h.uplinkAck
  | uplinkOpen => exact .next h.uplinkOpen
  | uplinkClose => exact .next h.uplinkClose
  | uplinkReset => exact .next h.uplinkReset
  | uplinkAckTimer => exact .next h.uplinkAckTimer
  | uplinkRetransmit => exact .next h.uplinkRetransmit
  | ptpMessage => exact .next (.ite h (.update h.modUp))
  | rackMailboxRequest => exact .live h fun _ hu => hu.onRack fun _ hv => hv.rackRequest
  | rackPoll => exact .live h fun _ hu => hu.onRack fun _ hv => hv.rackPoll
  | rackSetCoord => exact .live h fun _ hu => hu.onRack fun _ hv => hv.rackCoord
  | rackStatus => exact .live h fun _ hu => hu.onRack fun _ hv => hv.rackStat
  | getVersion => exact .live h fun _ hu => hu.getVersion
  | getCapabilities => exact .live h fun _ hu => hu.getCapabilities
  | negotiateAlgorithms => exact .live h fun _ hu => hu.negotiate
  | getDigests => exact .live h fun _ hu => hu.getDigests
  | getCertificate => exact .live h fun _ hu => hu.getCertificate
  | challenge => exact .live h fun _ hu => hu.challenge
  | getMeasurements => exact .live h fun _ hu => hu.getMeasurements
  | keyExchange => exact .live h fun _ hu => hu.keyExchange
  | finish => exact .live h fun _ hu => hu.finishSession
  | heartbeat => exact .live h fun _ hu => hu.inSession fun _ hv => hv.doe
  | keyUpdate => exact .live h fun _ hu => hu.inSession fun _ hv => hv.doe
  | endSession => exact .live h fun _ hu => hu.inSession fun _ hv => hv.modFn.doe
  | vendorDefinedRequest => exact .live h fun _ hu => hu.loadKey
  | inputUndervoltage => exact .next (.modPwr (.ite h h.inputLost))
  | inputOvervoltage => exact .live h fun _ hu => hu.inputLost
  | inputLow => exact .live h fun _ hu => .ite hu hu.modPwr.pwrEvent
  | inputHigh => exact .live h fun _ hu => .ite hu hu.modPwr.pwrEvent
  | railOutOfRegulation => exact .live h fun _ hu => hu.railOut
  | pllLossOfLock => exact .live h fun _ hu => .ite hu hu.modPwr.fatalOnce
  | coldStart => exact .next h.coldStart
  | railSequencing => exact .next h.rails
  | pllLock => exact .next h.pllLock
  | bootRom => exact .next h.bootRom
  | firmwareVerification => exact .next h.firmware
  | memoryTraining => exact .next h.memTraining
  | memorySelfTest => exact .next h.memSelfTest
  | portTrainingStage => exact .next h.portStage
  | identityCheck => exact .next h.identityCheck
  | moduleReady => exact .next h.moduleReady
  | startRetry => exact .next h.startRetry
  | warmStart => exact .live h fun _ hu => hu.warmStart
  | dbgTrst => exact .live h fun _ hu => hu.dbgTrst
  | debugUpdateDr => exact .live h fun _ hu => hu.updateDr
  | debugCaptureDr => exact .live h fun _ hu => hu.captureDr
  | dbgNop => exact .live h fun _ hu => hu.dbgOp fun _ hv => hv
  | status => exact .live h fun _ hu => hu.dbgOp fun _ hv => hv
  | ident => exact .live h fun _ hu => hu.dbgOp fun _ hv => .iteEnd hv hv
  | bbx => exact .live h fun _ hu => hu.dbgOp fun _ hv => .iteEnd hv hv
  | chal => exact .live h fun _ hu => hu.dbgServe fun _ hv => .ended hv.chal
  | challengeExpiry => exact .next (.update h)
  | chalrd => exact h.chalrd
  | tokwr => exact h.tokwr
  | unlock => exact .live h fun _ hu => hu.dbgOp fun _ hv => hv.unlock
  | lock => exact .live h fun _ hu => hu.dbgOp fun _ hv => hv.lockPort
  | warm => exact .live h fun _ hu => .ite hu.dbgAnswer.warmStart hu
  | hmhalt => exact .live h fun _ hu => hu.dbgOp fun _ hv => hv.setHm
  | hmrun => exact .live h fun _ hu => hu.dbgOp fun _ hv => hv.setHm
  | hmstep => exact .live h fun _ hu => hu.dbgOp fun _ hv => hv.hmStep
  | hmbrk => exact .live h fun _ hu => hu.dbgServe fun _ hv => .ended hv.setHm
  | hmregr => exact .live h fun _ hu => hu.dbgOp fun _ hv => hv.hmReg
  | hmregw => exact .live h fun _ hu => hu.dbgServe fun _ hv => .ended hv.hmRegSet
  | cchalt => exact .live h fun _ hu => hu.dbgOp fun _ hv => hv.ccHalt
  | ccrun => exact .live h fun _ hu => hu.dbgOp fun _ hv => hv.ccRun
  | ccstep => exact .live h fun _ hu => hu.dbgOp fun _ hv => hv.ccStep
  | ccbrk => exact .live h fun _ hu => hu.dbgServe fun _ hv => .ended hv.ccBrk
  | ccregr => exact .live h fun _ hu => hu.dbgOp fun _ hv => hv.ccRegR
  | ccregw => exact .live h fun _ hu => hu.dbgServe fun _ hv => .ended hv.ccRegW
  | memrd => exact .live h fun _ hu => hu.dbgOp fun _ hv => hv.memRd
  | memwr => exact .live h fun _ hu => .ite (hu.dbgServe fun _ hv => hv.memWr).memWrHeld (hu.dbgServe fun _ hv => hv.memWr)
  | pnmrd => exact .live h fun _ hu => hu.dbgOp fun _ hv => hv.pnmRd
  | stflag => exact .live h fun _ hu => hu.dbgServe fun _ hv => .ended (.update hv)
  | ccbist => exact .live h fun _ hu => hu.dbgOp fun _ hv => hv.ccBist
  | bbxReadSerial => exact .next h.spi
  | bbxReadStatus => exact .next h.spi
  | bbxReadData => exact .next h.spi
  | perstDeassert => exact .live h fun _ hu => hu.modPwr
  | hostReadCompletion => exact .next h.readDone
  | hostReadTimeout => exact h.hostReadTimeout
  | ideKm => exact .next h.ideKm
  | timeSourceLost => exact .next (.ite h (.note (.update h.modUp.modUp)))
  | uplinkDown => exact .next (.ite h.modUp.portEvent h)
  | uplinkUp => exact .next (.ite h.modUp h)
  | portDown => exact .next h.portDown
  | uplinkFlowTimeout => exact .next h.uplinkFlowTimeout
  | msixVectorUnmask => exact .live h fun _ hu => hu.unmask
  | hostProtocolError => exact .live h fun _ hu => hu.hostProtocol
  | rackFrameUndefined => exact .live h fun _ hu => hu.rackUndefined
  | uplinkFrameDropped => exact .next (.ite h h.modUp)
  | inputBandReturn => exact .live h fun _ hu => hu.modPwr
  | tideShiftLimit => exact .next h.shiftLimit
  | ringPointerMismatch => exact .next h.ringMismatch
  | mailboxWindowWrite => exact .live h fun _ hu => hu.windowWrite
  | bbxUndefinedCommand => exact .next (.ite h h.spi)
  | _ => exact .next h.issueBundle

end

end Sys2Proof.Machine

open Sys2Proof Sys2Proof.Machine

/-- Settles O55: `step` looks at the head of the queue alone. -/
theorem stepRunsTheFrontCommand : Obligations.StepRunsTheFrontCommand := by
  intro c rest s
  refine ⟨rfl, fun h => ?_⟩
  rw [step, h]

/-- Settles O56: every command completes, and none touches the queue. -/
theorem everyCommandCompletes : Obligations.EveryCommandCompletes := by
  intro c s
  obtain ⟨t, ht, hk⟩ := s.completes_exec c
  exact ⟨t, ht, hk.1⟩

/-- Settles O59: a step idles, or runs a command, which keeps the canonical forms and the formation. -/
theorem canonicalFormsAreKept : Obligations.CanonicalFormsAreKept := by
  intro s t hc hf h
  unfold step at h
  split at h
  · cases h
    exact ⟨hc, hf⟩
  · rename_i i rest _
    obtain ⟨u, hu, hk⟩ := State.completes_exec i { s with pending := rest }
    cases hu.symm.trans h
    exact ⟨hk.2.1 hc, hk.2.2 hf⟩

end

section
/-! PROOF. Torus ports and uplinks as they train, go down, are fenced and unfenced (R374, R375, R389, R394). -/

namespace Sys2Proof.Machine

theorem State.setPort_setPort (s : State) (p : PortId) (f g : FPort) : (s.setPort p f).setPort p g = s.setPort p g := by
  simp [State.setPort]

theorem State.setPort_modPort (s : State) (p : PortId) (f : FPort) (g : FPort → FPort) :
    (s.setPort p f).modPort p g = s.setPort p (g f) := by
  rw [State.modPort, State.port_setPort, State.setPort_setPort]

@[simp] theorem State.port_modPort (s : State) (p : PortId) (g : FPort → FPort) : (s.modPort p g).port p = g (s.port p) :=
  State.port_setPort ..

theorem State.train_setPort (s : State) (p : PortId) (f : FPort) :
    (s.setPort p f).train p = s.setPort p { f with link := .training, sent := some (s.identityFrame p) } :=
  State.setPort_modPort ..

/-! ## What a port's event leaves -/

/-- Of the ports only `p` changes, beside the fabric's flags, and the journal is given records with these codes. -/
def State.onlyPort (s t : State) (p : PortId) (codes : List W16) : Prop :=
  (∀ r, r ≠ p → t.port r = s.port r) ∧ t = { s with fab := t.fab, bbx := t.bbx }
    ∧ t.bbx.waiting.map (·.code) = s.bbx.waiting.map (·.code) ++ codes

section
variable {s t : State} {p : PortId} {codes : List W16}

theorem State.onlyPort_refl (s : State) (p : PortId) : s.onlyPort s p [] :=
  ⟨fun _ _ => rfl, rfl, (List.append_nil _).symm⟩

theorem State.onlyPort_setPort (h : s.onlyPort t p codes) (f : FPort) : s.onlyPort (t.setPort p f) p codes := by
  obtain ⟨hports, hrest, hcodes⟩ := h
  refine ⟨fun r hr => ?_, ?_, hcodes⟩
  · rw [State.port_setPort_other _ _ _ _ hr, hports r hr]
  · rw [hrest]
    rfl

theorem State.onlyPort_portEvent (h : s.onlyPort t p codes) (code n : Nat) :
    s.onlyPort (t.portEvent code n) p (codes ++ [BitVec.ofNat 16 code]) := by
  obtain ⟨hports, hrest, hcodes⟩ := h
  refine ⟨hports, ?_, ?_⟩
  · rw [hrest]
    rfl
  · rw [← List.append_assoc, ← hcodes]
    simp [State.portEvent, State.note]

theorem State.onlyPort_lostPort (h : s.onlyPort t p codes) : s.onlyPort (t.lostPort p) p codes := by
  unfold State.lostPort
  split
  · obtain ⟨hports, hrest, hcodes⟩ := h
    refine ⟨hports, ?_, hcodes⟩
    rw [hrest]
  · exact h

theorem State.onlyPort_fence (h : s.onlyPort t p codes) : s.onlyPort (t.fence p) p (codes ++ [0x0E12]) :=
  State.onlyPort_lostPort (State.onlyPort_portEvent (State.onlyPort_setPort h _) 0x0E12 p.val)

end

@[simp] theorem State.port_portEvent (s : State) (code n : Nat) (p : PortId) : (s.portEvent code n).port p = s.port p := rfl

@[simp] theorem State.port_lostPort (s : State) (p q : PortId) : (s.lostPort p).port q = s.port q := by
  unfold State.lostPort
  split <;> rfl

theorem State.port_fence (s : State) (p : PortId) : (s.fence p).port p
    = { s.port p with link := .fenced, retrain := false, sent := some (s.identityFrame p) } := by
  simp [State.fence]

/-! ## Frames that wait go out: what that leaves of the port -/

/-- The port with its sending side blanked: what the sending of frames that wait leaves as it is. -/
def FPort.exceptSend (f : FPort) : FPort :=
  { f with waiting := FPort.reset.waiting, credits := FPort.reset.credits, owed := FPort.reset.owed, sinceVc3 := 0, txSeq := 0,
           replay := [], sent := none, txFrames := FPort.reset.txFrames }

theorem FPort.exceptSend_sendOne {f g : FPort} (h : f.sendOne = some g) : g.exceptSend = f.exceptSend := by
  unfold FPort.sendOne at h
  split at h
  · cases h
  · split at h
    · cases h
    · split at h
      · cases h
      · split at h
        · cases h
        · cases h
          rfl

theorem FPort.exceptSend_pump (n : Nat) (f : FPort) : (FPort.pump n f).exceptSend = f.exceptSend := by
  induction n generalizing f with
  | zero => rfl
  | succ n ih =>
    rw [FPort.pump]
    split
    · rename_i g hg
      exact (ih g).trans (FPort.exceptSend_sendOne hg)
    · rfl

@[simp] theorem FPort.exceptSend_run (f : FPort) : f.run.exceptSend = f.exceptSend := FPort.exceptSend_pump ..

@[simp] theorem FPort.link_run (f : FPort) : f.run.link = f.link :=
  (congrArg FPort.link f.exceptSend_run : f.run.exceptSend.link = f.exceptSend.link)

@[simp] theorem FPort.half_run (f : FPort) : f.run.half = f.half :=
  (congrArg FPort.half f.exceptSend_run : f.run.exceptSend.half = f.exceptSend.half)

@[simp] theorem FPort.retrain_run (f : FPort) : f.run.retrain = f.retrain :=
  (congrArg FPort.retrain f.exceptSend_run : f.run.exceptSend.retrain = f.exceptSend.retrain)

@[simp] theorem FPort.wrap_run (f : FPort) : f.run.wrap = f.wrap :=
  (congrArg FPort.wrap f.exceptSend_run : f.run.exceptSend.wrap = f.exceptSend.wrap)


/-! ## The commands of a torus port -/

section
variable {s : State} {p : PortId}

theorem State.trained_whole (h : (s.port p).link = .training) : s.trained p true true
    = s.setPort p { s.port p with wrap := s.wrapLink p, retrain := false, again := false, half := false, link := .wide }.run := by
  simp [State.trained, h, State.setPort_modPort]

theorem State.trained_half (h : (s.port p).link = .training) (b : Bool) : s.trained p (!b) b
    = (s.setPort p { s.port p with
        wrap := s.wrapLink p, retrain := false, again := false, link := .narrow, half := b }.run).portEvent 0x0E11 p.val := by
  cases b <;> simp [State.trained, h, State.setPort_modPort]

theorem State.trained_none (h : (s.port p).link = .training) : s.trained p false false
    = (let t := s.setPort p { s.port p with
        wrap := s.wrapLink p, retrain := false, again := false, half := false, link := .down }
       if (s.port p).again then t else (t.portEvent 0x0E10 p.val).lostPort p) := by
  simp [State.trained, h]

theorem State.enablePort_off (h : (s.port p).en = false) : s.enablePort p
    = s.setPort p { s.port p with en := true, link := .training, sent := some (s.identityFrame p) } := by
  rw [State.enablePort, if_neg (by simp [h]), State.modPort, State.train_setPort]

theorem State.retryPort_down (hen : (s.port p).en = true) (h : (s.port p).link = .down) : s.retryPort p
    = s.setPort p { s.port p with link := .training, again := true, sent := some (s.identityFrame p) } := by
  simp [State.retryPort, hen, h, State.train_setPort]

theorem State.unfence_fenced (h : (s.port p).link = .fenced) : s.unfence p
    = s.setPort p { s.port p with link := .training, retrain := true, miswired := false, viols := [], trains := [], replays := 0,
                                  sent := some (s.identityFrame p) } := by
  simp [State.unfence, h, State.train_setPort]

theorem LinkState.up_iff (l : LinkState) : l.up = true ↔ l = .wide ∨ l = .narrow := by
  cases l <;> simp [LinkState.up]

/-- R394: a violation counts; a fence that follows leaves the count and the neighbour. -/
theorem State.violation_port (s : State) (p : PortId) : ((s.violation p).port p).viol = bump (s.port p).viol
    ∧ ((s.violation p).port p).neigh = (s.port p).neigh := by
  unfold State.violation
  dsimp only
  split
  · rw [State.port_fence, State.port_setPort]
    exact ⟨rfl, rfl⟩
  · rw [State.port_setPort]
    exact ⟨rfl, rfl⟩

theorem State.fence_mem_mesh (s : State) (p : PortId) : (s.fence p).mem = s.mem ∧ (s.fence p).mesh = s.mesh := by
  unfold State.fence State.lostPort
  split <;> exact ⟨rfl, rfl⟩

theorem State.violation_mem_mesh (s : State) (p : PortId) : (s.violation p).mem = s.mem ∧ (s.violation p).mesh = s.mesh := by
  unfold State.violation
  dsimp only
  split
  · exact State.fence_mem_mesh ..
  · exact ⟨rfl, rfl⟩

theorem State.miswired_iff (s : State) (p : PortId) (port : BitVec 3) (set : Bool) (c : Coord) :
    s.miswired p port.toNat set c = true
      ↔ port.toNat ≠ (p.val ^^^ 1) ∨ (set = true ∧ s.fab.coord.getLsbD 16 = true ∧ c ≠ s.expectNeigh p) := by
  simp [State.miswired, tb_toNat, and_assoc]

/-- What an identity frame that comes during training leaves of the port (R375). -/
def FPort.named (f : FPort) (serial : BitVec 48) (port : BitVec 3) (c : Coord) : FPort :=
  { f with neigh := BitVec.ofNat 64 (serial.toNat * 2 ^ 16 + port.toNat * 2 ^ 12 + (c.x + c.y * 16 + c.z * 256) % 4096) }

section
variable {serial : BitVec 48} {port : BitVec 3} {set : Bool} {c : Coord}

theorem State.identity_miswired (h : (s.port p).link = .training) (hbad : s.miswired p port.toNat set c = true) :
    s.identity p serial port set c = (((s.modPort p fun f => f.named serial port c).modPort p fun f =>
      { f with miswired := true }).portEvent 0x0E13 p.val).fence p := by
  simp [State.identity, h, hbad, FPort.named]

theorem State.identity_fits (h : (s.port p).link = .training) (hbad : ¬s.miswired p port.toNat set c = true) :
    s.identity p serial port set c = s.modPort p fun f => f.named serial port c := by
  simp [State.identity, h, hbad, FPort.named]

end

theorem State.identity_up (h : (s.port p).link = .wide ∨ (s.port p).link = .narrow) (serial : BitVec 48) (port : BitVec 3)
    (set : Bool) (c : Coord) : s.identity p serial port set c = s.violation p := by
  unfold State.identity
  obtain h | h := h
  · rw [h]
  · rw [h]

theorem State.identity_elsewhere (ht : (s.port p).link ≠ .training) (hw : (s.port p).link ≠ .wide)
    (hn : (s.port p).link ≠ .narrow) (serial : BitVec 48) (port : BitVec 3) (set : Bool) (c : Coord) :
    s.identity p serial port set c = s := by
  unfold State.identity
  split
  · contradiction
  · contradiction
  · contradiction
  · rfl

end

/-! ## The commands that a port number names -/

theorem State.onPort_torus {s : State} (h : s.hm.down = false) (p : PortId) (torus : PortId → State)
    (uplink : UplinkId → State) :
    s.onPort (BitVec.ofNat 3 p.val) torus uplink = torus p := by
  have hp : (BitVec.ofNat 3 p.val).toNat = p.val := by
    rw [BitVec.toNat_ofNat]
    omega
  rw [State.onPort, hp, if_neg (by simp [h]), if_pos p.isLt]
  exact congrArg torus (Fin.ext (Nat.mod_eq_of_lt p.isLt))

theorem State.onPort_uplink {s : State} (h : s.hm.down = false) (u : UplinkId) (torus : PortId → State)
    (uplink : UplinkId → State) :
    s.onPort (BitVec.ofNat 3 (6 + u.val)) torus uplink = uplink u := by
  have hu : (BitVec.ofNat 3 (6 + u.val)).toNat = 6 + u.val := by
    rw [BitVec.toNat_ofNat]
    omega
  rw [State.onPort, hu, if_neg (by simp [h]), if_neg (by omega), Nat.add_sub_cancel_left]
  exact congrArg uplink (Fin.ext (Nat.mod_eq_of_lt u.isLt))

@[simp] theorem State.up_modUp (s : State) (u : UplinkId) (f : UPort → UPort) : (s.modUp u f).up u = f (s.up u) := by
  simp [State.up, State.modUp]

end Sys2Proof.Machine

open Sys2Proof Sys2Proof.Machine

/-- Settles O43: each command of a port by the port's link. -/
theorem portsTrainAndFence : Obligations.PortsTrainAndFence := by
  intro p u serial port set x y z s hlive g n un one sent
  have htorus := State.onPort_torus hlive p
  have huplink := State.onPort_uplink hlive u
  refine ⟨fun h => ?_, fun h => ?_, fun h => ?_, fun h => ?_, fun h low high => ?_, fun hen h => ?_, fun h => ?_, fun h => ?_,
    fun hw hn => ?_, fun h => ?_, fun h => ?_, rfl, ?_⟩
  · exact congrArg Host.Outcome.next ((htorus _ _).trans (State.enablePort_off h))
  · refine congrArg Host.Outcome.next ((htorus _ _).trans ?_)
    exact if_pos h
  · refine ⟨_, congrArg Host.Outcome.next (huplink _ _), ?_, rfl⟩
    rw [State.up_modUp, if_pos h]
  · have hone : ∀ (low high : Bool) (q : FPort → Prop) (codes : List W16), q ((s.trained p low high).port p) →
        s.onlyPort (s.trained p low high) p codes → one (.portTrained n low high) q codes := fun low high q codes hq honly =>
      ⟨_, congrArg Host.Outcome.next (htorus _ _), hq, honly⟩
    have hset := State.onlyPort_setPort (State.onlyPort_refl s p)
    have hlow : s.trained p true false = _ := State.trained_half h false
    have hhigh : s.trained p false true = _ := State.trained_half h true
    refine ⟨hone true true (fun f => f.link = .wide ∧ f.half = false ∧ f.retrain = false ∧ f.wrap = s.wrapLink p) [] ?_ ?_,
      hone true false (fun f => f.link = .narrow ∧ f.half = false) [0x0E11] ?_ ?_,
      hone false true (fun f => f.link = .narrow ∧ f.half = true) [0x0E11] ?_ ?_,
      hone false false (·.link = .down) (if g.again then [] else [0x0E10]) ?_ ?_⟩
    · simp [State.trained_whole h]
    · rw [State.trained_whole h]
      exact hset _
    · simp [hlow]
    · rw [hlow]
      exact State.onlyPort_portEvent (hset _) 0x0E11 p.val
    · simp [hhigh]
    · rw [hhigh]
      exact State.onlyPort_portEvent (hset _) 0x0E11 p.val
    · rw [State.trained_none h]
      dsimp only
      split <;> simp
    · rw [State.trained_none h]
      dsimp only
      split
      · exact hset _
      · exact State.onlyPort_lostPort (State.onlyPort_portEvent (hset _) 0x0E10 p.val)
  · refine ⟨_, congrArg Host.Outcome.next (huplink _ _), ?_⟩
    rw [State.up_modUp, if_pos h]
  · exact congrArg Host.Outcome.next ((htorus _ _).trans (State.retryPort_down hen h))
  · refine ⟨_, congrArg Host.Outcome.next (huplink _ _), ?_⟩
    rw [State.up_modUp, if_pos h]
  · refine ⟨_, congrArg Host.Outcome.next (if_pos ((LinkState.up_iff _).mpr h)), ?_, ?_⟩
    · simp [g]
    · exact State.onlyPort_lostPort (State.onlyPort_portEvent (State.onlyPort_setPort (State.onlyPort_refl s p) _) 0x0E10 p.val)
  · exact congrArg Host.Outcome.next (if_neg fun hup => ((LinkState.up_iff _).mp hup).elim hw hn)
  · exact congrArg Host.Outcome.next (State.unfence_fenced h)
  · refine congrArg Host.Outcome.next (if_neg ?_)
    simpa using h
  · intro c bad
    have hmis := State.miswired_iff s p port set c
    refine ⟨fun h hbad => ?_, fun h hbad => ?_, fun h => ?_, fun ht hw hn => ?_⟩
    · replace hbad := hmis.mpr hbad
      refine ⟨_, congrArg Host.Outcome.next (State.identity_miswired h hbad), ?_, ?_⟩
      · simp [State.port_fence]
      · exact State.onlyPort_fence (State.onlyPort_portEvent
          (State.onlyPort_setPort (State.onlyPort_setPort (State.onlyPort_refl s p) _) _) 0x0E13 p.val)
    · replace hbad := mt hmis.mp hbad
      refine ⟨_, congrArg Host.Outcome.next (State.identity_fits h hbad), ?_, ?_⟩
      · exact State.port_modPort ..
      · exact State.onlyPort_setPort (State.onlyPort_refl s p) _
    · obtain ⟨hviol, hneigh⟩ := s.violation_port p
      obtain ⟨hmem, hmesh⟩ := s.violation_mem_mesh p
      exact ⟨_, congrArg Host.Outcome.next (State.identity_up h serial port set c), hviol, hneigh, hmem, hmesh⟩
    · exact congrArg Host.Outcome.next (State.identity_elsewhere ht hw hn serial port set c)

end

section
/-! PROOF. Frames on the link (R376, R378, R394): what a frame that passes its checks does to the receiving side of the ports. -/

namespace Sys2Proof.Machine

/-- The numbers and counts of received frames that every port keeps. -/
def State.Hears (s t : State) : Prop :=
  ∀ q, (t.port q).rxSeq = (s.port q).rxSeq ∧ (t.port q).rxFrames = (s.port q).rxFrames

section
variable {s₀ s t : State}

theorem State.Hears.refl (s : State) : s.Hears s := fun _ => ⟨rfl, rfl⟩

theorem State.Hears.ports (h : s₀.Hears s) (ht : t.fab.ports = s.fab.ports) : s₀.Hears t := by
  intro q
  rw [State.port, ht]
  exact h q

theorem State.Hears.ite {p : Prop} [Decidable p] (h : s₀.Hears s) (h' : s₀.Hears t) : s₀.Hears (if p then s else t) := by
  split
  · exact h
  · exact h'

theorem State.Hears.setPort {p : PortId} {f : FPort} (h : s₀.Hears s)
    (hf : f.rxSeq = (s.port p).rxSeq ∧ f.rxFrames = (s.port p).rxFrames) : s₀.Hears (s.setPort p f) := by
  intro q
  by_cases hq : q = p
  · subst hq
    obtain ⟨hseq, hcount⟩ := h q
    rw [State.port_setPort]
    exact ⟨hf.1.trans hseq, hf.2.trans hcount⟩
  · rw [State.port_setPort_other _ _ _ _ hq]
    exact h q

theorem FPort.hears_run (f : FPort) : f.run.rxSeq = f.rxSeq ∧ f.run.rxFrames = f.rxFrames :=
  ⟨(congrArg FPort.rxSeq f.exceptSend_run : f.run.exceptSend.rxSeq = f.exceptSend.rxSeq),
    (congrArg FPort.rxFrames f.exceptSend_run : f.run.exceptSend.rxFrames = f.exceptSend.rxFrames)⟩

theorem State.Hears.modPort {p : PortId} {f : FPort → FPort} (h : s₀.Hears s)
    (hf : ∀ x, (f x).rxSeq = x.rxSeq ∧ (f x).rxFrames = x.rxFrames) : s₀.Hears (s.modPort p f) :=
  h.setPort (hf _)

theorem State.Hears.portEvent {code n : Nat} (h : s₀.Hears s) : s₀.Hears (s.portEvent code n) :=
  h.ports rfl

theorem State.Hears.lostPort {p : PortId} (h : s₀.Hears s) : s₀.Hears (s.lostPort p) :=
  .ite (h.ports rfl) h

theorem State.Hears.fence {p : PortId} (h : s₀.Hears s) : s₀.Hears (s.fence p) :=
  .lostPort (.portEvent (h.modPort fun _ => ⟨rfl, rfl⟩))

theorem State.Hears.violation {p : PortId} (h : s₀.Hears s) : s₀.Hears (s.violation p) :=
  .ite (.fence (h.setPort ⟨rfl, rfl⟩)) (h.setPort ⟨rfl, rfl⟩)

theorem State.Hears.owe {p : PortId} {fr : Frame} (h : s₀.Hears s) : s₀.Hears (s.owe p fr) :=
  h.modPort fun _ => ⟨rfl, rfl⟩

theorem State.Hears.queueFrames {p : PortId} {v : Nat} {xs : List Frame} (h : s₀.Hears s) : s₀.Hears (s.queueFrames p v xs) :=
  h.modPort fun _ => FPort.hears_run _

theorem State.Hears.holdFrame {p : PortId} {fr : Frame} {count : Bool} (h : s₀.Hears s) : s₀.Hears (s.holdFrame p fr count) := by
  have hheld : s₀.Hears (s.modPort p fun f => { f with held := f.held ++ [fr] }) := h.modPort fun _ => ⟨rfl, rfl⟩
  exact .ite (hheld.ports rfl) hheld

theorem State.Hears.answerFrames {dest : Coord} {num : W16} {mk : PortId → State → State × List Frame} (h : s₀.Hears s)
    (hmk : ∀ p, s₀.Hears (mk p s).1) : s₀.Hears (s.answerFrames dest num mk) := by
  unfold State.answerFrames
  split
  · exact (hmk _).queueFrames
  · exact h

theorem State.Hears.sendRefusal {dest : Coord} {num : W16} {st : Nat} (h : s₀.Hears s) : s₀.Hears (s.sendRefusal dest num st) :=
  h.answerFrames fun _ => h

theorem State.Hears.sendAck {dest : Coord} {num : W16} (h : s₀.Hears s) : s₀.Hears (s.sendAck dest num) :=
  h.answerFrames fun _ => h

theorem State.Hears.sendData {x : InXfer} (h : s₀.Hears s) : s₀.Hears (s.sendData x) :=
  .ite h.sendRefusal (h.answerFrames fun _ => h.modPort fun _ => ⟨rfl, rfl⟩)

theorem State.Hears.settleIn {src : Coord} {num : W16} (h : s₀.Hears s) : s₀.Hears (s.settleIn src num) := by
  unfold State.settleIn
  split
  · exact h
  · have hdrop : s₀.Hears (s.dropIn src num) := h.ports rfl
    exact .ite h (.ite hdrop (.ite hdrop.sendRefusal (.ite hdrop.sendData hdrop.sendAck)))

theorem State.Hears.refuseIn {p : PortId} {fr : Frame} {st : Nat} (h : s₀.Hears s) : s₀.Hears (s.refuseIn p fr st) := by
  unfold State.refuseIn
  split
  · exact .settleIn (.sendRefusal (h.ports rfl))
  · exact .settleIn (.sendRefusal (h.ports rfl))

theorem State.Hears.landFrame {p : PortId} {fr : Frame} {ws : List W64} (h : s₀.Hears s) : s₀.Hears (s.landFrame p fr ws) := by
  unfold State.landFrame
  split
  · exact .settleIn (h.ports rfl)
  · exact .settleIn (h.ports rfl)

theorem State.Hears.writeHere {p : PortId} {fr : Frame} {ws : List W64} (h : s₀.Hears s) : s₀.Hears (s.writeHere p fr ws) := by
  unfold State.writeHere
  split
  · exact .ite (.settleIn (h.ports rfl)) h
  · split
    · exact h.landFrame
    · exact h.refuseIn

theorem State.Hears.readHere {p : PortId} {fr : Frame} (h : s₀.Hears s) : s₀.Hears (s.readHere p fr) := by
  unfold State.readHere
  dsimp only
  split
  · exact .settleIn (h.ports rfl)
  · exact h.sendRefusal

theorem State.Hears.respHere {p : PortId} {fr : Frame} {ws : List W64} (h : s₀.Hears s) : s₀.Hears (s.respHere p fr ws) := by
  unfold State.respHere
  split
  · exact h.violation
  · refine .ite h.violation ?_
    split
    · exact .ite (h.ports rfl) (h.ports rfl)
    · exact h.ports rfl

theorem State.Hears.partDone {ref : XferRef} {st : Nat} (h : s₀.Hears s) : s₀.Hears (s.partDone ref st) := by
  unfold State.partDone
  split
  · exact h.ports rfl
  · exact h

theorem State.Hears.dropOut {num : W16} (h : s₀.Hears s) : s₀.Hears (s.dropOut num) :=
  h.ports rfl

theorem State.Hears.ackHere {p : PortId} {fr : Frame} (h : s₀.Hears s) : s₀.Hears (s.ackHere p fr) := by
  unfold State.ackHere
  split
  · exact h.violation
  · exact h.partDone.dropOut

theorem State.Hears.refusalHere {p : PortId} {fr : Frame} (h : s₀.Hears s) : s₀.Hears (s.refusalHere p fr) := by
  unfold State.refusalHere
  split
  · exact h.violation
  · exact h.partDone.dropOut

theorem State.Hears.codecRefused {p : PortId} {fr : Frame} (h : s₀.Hears s) : s₀.Hears (s.codecRefused p fr) := by
  unfold State.codecRefused
  refine .ite ?_ h.refuseIn
  split
  · exact h.partDone.dropOut
  · exact h.violation

theorem State.fab_raiseEach {xs : List (Nat × Core)} {p : Nat × Core → Bool} {f : State → Nat × Core → State}
    (hf : ∀ s x, (f s x).fab = s.fab) (s : State) :
    (xs.foldl (fun s x => if p x then f s x else s) s).fab = s.fab := by
  induction xs generalizing s with
  | nil => rfl
  | cons x xs ih =>
    refine (ih _).trans ?_
    dsimp only
    split
    · exact hf s x
    · rfl

theorem State.fab_abortCollectives (s : State) :
    s.abortCollectives.fab = { s.fab with aborted := true, halting := true } := by
  unfold State.abortCollectives
  dsimp only
  rw [State.fab_raiseEach (p := fun x => x.2.inTask)]
  exact fun _ _ => rfl

theorem State.Hears.mismatched {p : PortId} {fr : Frame} {hdr loc : List W64} {x : ContHdr} {field : Nat} (h : s₀.Hears s) :
    s₀.Hears (s.mismatched p fr hdr loc x field) := by
  refine .ports (h.refuseIn (p := p) (fr := fr) (st := 1)) ?_
  unfold State.mismatched State.tellSlice
  dsimp only
  rw [State.fab_abortCollectives]
  rfl

theorem State.Hears.contribute {p : PortId} {fr : Frame} (h : s₀.Hears s) (ht : s.contribute p fr = some t) : s₀.Hears t := by
  unfold State.contribute at ht
  dsimp only at ht
  split at ht
  · cases ht
    exact .ite (.ite (.settleIn (h.ports rfl)) h) h.landFrame
  · split at ht
    · cases ht
      exact h.refuseIn
    · split at ht
      · cases ht
      · cases ht
        exact h.mismatched
      · cases ht
        exact .ite h.refuseIn h.landFrame

theorem State.Hears.vc2Frame {p : PortId} {fr : Frame} (h : s₀.Hears s) (ht : s.vc2Frame p fr = some t) : s₀.Hears t := by
  unfold State.vc2Frame at ht
  split at ht
  · cases ht
    exact h.queueFrames
  · exact h.contribute ht

theorem State.Hears.deliverFrame {p : PortId} {fr : Frame} (h : s₀.Hears s) : s₀.Hears (s.deliverFrame p fr) := by
  unfold State.deliverFrame
  refine .ite (.ite h.holdFrame ?_) ?_
  · split
    · rename_i heq
      exact (h.vc2Frame heq).owe
    · exact h.holdFrame
  · dsimp only
    split
    · exact h.owe.queueFrames
    · split
      · exact h.owe.codecRefused
      · split
        · exact h.owe.writeHere
        · exact h.owe.readHere
        · exact h.owe.respHere
        · exact h.owe.ackHere
        · exact h.owe.refusalHere
        · exact h.owe.ports rfl

theorem FPort.hears_idle (s : State) (f : FPort) : (f.idle s).rxSeq = f.rxSeq ∧ (f.idle s).rxFrames = f.rxFrames := by
  unfold FPort.idle
  split
  · exact ⟨rfl, rfl⟩
  · exact ⟨rfl, rfl⟩

theorem State.Hears.pumpPort {p : PortId} (h : s₀.Hears s) : s₀.Hears (s.pumpPort p) := by
  refine h.setPort ?_
  split
  · exact FPort.hears_run _
  · exact FPort.hears_idle ..

end

/-! ## What a violation leaves -/

/-- R394: of the state a violation changes the ports, the fabric's flags and the journal alone. -/
theorem State.violation_frame (s : State) (p : PortId) :
    s.violation p = { s with fab := (s.violation p).fab, bbx := (s.violation p).bbx } := by
  unfold State.violation State.fence State.lostPort
  dsimp only
  split
  · split <;> rfl
  · rfl

/-! ## The reception of a frame by its type and its checks -/

section
variable {s : State} {p : PortId} {fr : Frame}

theorem State.receiveFrame_down (h : (s.port p).link.up = false) (credits : Bool) : s.receiveFrame p fr credits = s :=
  if_pos (by simp [h])

theorem State.receiveFrame_idle (h : (s.port p).link.up = true) (ht : fr.ftype = 0) (credits : Bool) :
    s.receiveFrame p fr credits = s.idleIn p fr := by
  simp [State.receiveFrame, h, ht]

theorem State.receiveFrame_nak (h : (s.port p).link.up = true) (ht : fr.ftype = 8) (credits : Bool) :
    s.receiveFrame p fr credits = s.nakIn p fr := by
  simp [State.receiveFrame, h, ht]

theorem State.receiveFrame_identity (h : (s.port p).link.up = true) (ht : fr.ftype = 9) (hcrc : fr.crcOk = true) (credits : Bool) :
    s.receiveFrame p fr credits = s.violation p := by
  simp [State.receiveFrame, h, ht, hcrc]

theorem State.receiveFrame_sequenced (h : (s.port p).link.up = true) (h0 : fr.ftype ≠ 0) (h8 : fr.ftype ≠ 8) (h9 : fr.ftype ≠ 9)
    (credits : Bool) : s.receiveFrame p fr credits = s.sequenced p fr credits := by
  rw [State.receiveFrame, h, if_neg (by simp), if_neg h0, if_neg h8, if_neg h9]

theorem State.sequenced_refused (h : fr.crcOk = false ∨ fr.lseq ≠ (s.port p).rxSeq) (credits : Bool) :
    s.sequenced p fr credits = s.sendNak p := by
  refine if_pos ?_
  simpa using h

theorem State.sequenced_accepted (hcrc : fr.crcOk = true) (hseq : fr.lseq = (s.port p).rxSeq) (hnak : s.mustNak p fr = false)
    (credits : Bool) : s.sequenced p fr credits = s.acceptFrame p fr credits := by
  simp [State.sequenced, hcrc, hseq, hnak]

/-- R378: what a frame that passes leaves of its port before it is delivered. -/
theorem State.acceptFrame_hears (credits : Bool) : ((s.acceptFrame p fr credits).port p).rxSeq = (s.port p).rxSeq + 1
    ∧ ((s.acceptFrame p fr credits).port p).rxFrames = bump (s.port p).rxFrames := by
  let s₁ := s.modPort p fun f => { f.trailer fr with rxSeq := f.rxSeq + 1, rxFrames := bump f.rxFrames, naked := false }
  have h := State.Hears.refl s₁
  have hall : s₁.Hears (s.acceptFrame p fr credits) :=
    .pumpPort (.ite h.violation.owe (.ite h.violation (.ite h.violation.owe h.deliverFrame)))
  obtain ⟨hseq, hcount⟩ := hall p
  rw [State.port_modPort] at hseq hcount
  exact ⟨hseq, hcount⟩

/-- R378: the link NAK that a port sends: what it changes, and the frame. -/
theorem State.sendNak_port (s : State) (p : PortId) : ∃ n, ((s.sendNak p).port p).rxSeq = (s.port p).rxSeq
    ∧ ((s.sendNak p).port p).naks = bump (s.port p).naks ∧ ((s.sendNak p).port p).sent = some n ∧ n.ftype = 8#8
    ∧ n.addr.extractLsb' 0 16 = (s.port p).rxSeq := by
  have hport : (s.sendNak p).port p = _ := State.port_setPort ..
  rw [hport]
  refine ⟨_, rfl, rfl, rfl, rfl, ?_⟩
  refine BitVec.eq_of_toNat_eq ?_
  have hlt := (s.port p).rxSeq.isLt
  simp [FPort.stamp, State.frame, BitVec.extractLsb'_toNat]
  omega


theorem State.violation_mem (s : State) (p : PortId) : (s.violation p).mem = s.mem := by rw [State.violation_frame]
theorem State.violation_mesh (s : State) (p : PortId) : (s.violation p).mesh = s.mesh := by rw [State.violation_frame]
theorem State.violation_cores (s : State) (p : PortId) : (s.violation p).cores = s.cores := by rw [State.violation_frame]

/-- R376: an idle frame that passes counts, and takes no number. -/
theorem State.idleIn_passes (hcrc : fr.crcOk = true) (hseq : fr.lseq = (s.port p).rxSeq) :
    ((s.idleIn p fr).port p).rxSeq = (s.port p).rxSeq ∧ ((s.idleIn p fr).port p).rxFrames = bump (s.port p).rxFrames
      ∧ (s.idleIn p fr).mem = s.mem ∧ (s.idleIn p fr).mesh = s.mesh ∧ (s.idleIn p fr).cores = s.cores := by
  let s₁ := s.modPort p fun f => { f.trailer fr with rxFrames := bump f.rxFrames }
  have hin : s.idleIn p fr = (if frameMalformed fr then s₁.violation p else s₁).modPort p FPort.run := by
    simp [State.idleIn, hcrc, hseq, s₁]
  have h := State.Hears.refl s₁
  have hall : s₁.Hears (s.idleIn p fr) := by
    rw [hin]
    exact .modPort (.ite h.violation h) FPort.hears_run
  obtain ⟨hnum, hcount⟩ := hall p
  rw [State.port_modPort] at hnum hcount
  refine ⟨hnum, hcount, ?_⟩
  rw [hin]
  split
  · exact ⟨s₁.violation_mem p, s₁.violation_mesh p, s₁.violation_cores p⟩
  · exact ⟨rfl, rfl, rfl⟩

/-- R374, R378: a port that retrains keeps its counts, and is left training or fenced. -/
theorem State.retrain_port (s : State) (p : PortId) : ((s.retrain p).port p).replayed = (s.port p).replayed
    ∧ ((s.retrain p).port p).rxFrames = (s.port p).rxFrames
    ∧ (((s.retrain p).port p).link = .training ∨ ((s.retrain p).port p).link = .fenced) := by
  unfold State.retrain
  dsimp only
  rw [State.train_setPort]
  split
  · rw [State.port_fence, State.port_setPort]
    exact ⟨rfl, rfl, .inr rfl⟩
  · rw [State.port_setPort]
    exact ⟨rfl, rfl, .inl rfl⟩

theorem State.retrain_mem_mesh (s : State) (p : PortId) : (s.retrain p).mem = s.mem ∧ (s.retrain p).mesh = s.mesh := by
  unfold State.retrain
  dsimp only
  split
  · exact State.fence_mem_mesh ..
  · exact ⟨rfl, rfl⟩

theorem State.noteRetry_frame (s : State) (skind sidx : Nat) (payload : List W64) :
    s.noteRetry skind sidx payload = { s with bbx := (s.noteRetry skind sidx payload).bbx } := by
  unfold State.noteRetry
  dsimp only
  split <;> rfl

theorem State.port_noteRetry (s : State) (skind sidx : Nat) (payload : List W64) (p : PortId) :
    (s.noteRetry skind sidx payload).port p = s.port p := by
  rw [State.noteRetry_frame]
  rfl

/-- The frames that a link NAK asks for again, as the NAK's trailer leaves the replay buffer (R378). -/
def FPort.askedAgain (g : FPort) (fr : Frame) : List Frame := (g.trailer fr).from_ (fr.addr.extractLsb' 0 16)

/-- The port after a replay: the NAK's trailer, the counts, and the frame that goes out again. -/
def FPort.replayedTo (g : FPort) (fr x : Frame) : FPort :=
  let f := g.trailer fr
  let q := { f with rxFrames := bump f.rxFrames }.stamp x
  { q.1 with replays := f.replays + 1, replayed := bumpBy (g.askedAgain fr).length f.replayed, sent := some q.2 }

section
variable (hcrc : fr.crcOk = true) (hform : frameMalformed fr = false)
include hcrc hform

theorem State.nakIn_nothing (hnone : (s.port p).askedAgain fr = []) :
    s.nakIn p fr = s.modPort p fun f => { f.trailer fr with rxFrames := bump f.rxFrames } := by
  unfold State.nakIn
  rw [if_neg (by simp [hcrc]), if_neg (by simp [hform])]
  dsimp only
  rw [State.port_modPort]
  split
  · rfl
  · rename_i x heq
    have hx : ((s.port p).askedAgain fr).getLast? = some x := heq
    rw [hnone] at hx
    cases hx

theorem State.nakIn_again {x : Frame} (hx : ((s.port p).askedAgain fr).getLast? = some x) :
    s.nakIn p fr = (let u := (s.setPort p ((s.port p).replayedTo fr x)).noteRetry 4 p.val [BitVec.ofNat 64 p.val]
      if 8 ≤ ((s.port p).trailer fr).replays + 1 then u.retrain p else u) := by
  unfold State.nakIn
  rw [if_neg (by simp [hcrc]), if_neg (by simp [hform])]
  dsimp only
  rw [State.port_modPort]
  split
  · rename_i heq
    cases hx.symm.trans heq
  · rename_i y heq
    cases hx.symm.trans heq
    rw [State.modPort, State.setPort_setPort]
    rfl

/-- R378: what a link NAK that passes its checks leaves. -/
theorem State.nakIn_passes : let again := (s.port p).askedAgain fr
    let t := s.nakIn p fr
    (t.port p).rxFrames = bump (s.port p).rxFrames ∧ t.mem = s.mem ∧ t.mesh = s.mesh
      ∧ (again = [] → (t.port p).replayed = (s.port p).replayed)
      ∧ (again ≠ [] → (t.port p).replayed = bumpBy again.length (s.port p).replayed
          ∧ (8 ≤ ((s.port p).trailer fr).replays + 1 → (t.port p).link = .training ∨ (t.port p).link = .fenced)) := by
  intro again t
  cases hx : again.getLast? with
  | none =>
    have hnone : again = [] := List.getLast?_eq_none_iff.mp hx
    have ht : t = _ := State.nakIn_nothing hcrc hform hnone
    rw [ht, State.port_modPort]
    exact ⟨rfl, rfl, rfl, fun _ => rfl, fun h => absurd hnone h⟩
  | some x =>
    have hsome : again ≠ [] := by
      rintro hnil
      rw [hnil] at hx
      cases hx
    have ht : t = _ := State.nakIn_again hcrc hform hx
    rw [ht]
    dsimp only
    generalize hu : (s.setPort p _).noteRetry 4 p.val _ = u
    have hport : u.port p = (s.port p).replayedTo fr x := by
      rw [← hu, State.port_noteRetry, State.port_setPort]
    have hrest : u.mem = s.mem ∧ u.mesh = s.mesh := by
      rw [← hu, State.noteRetry_frame]
      exact ⟨rfl, rfl⟩
    split
    · rename_i h8
      obtain ⟨hreplayed, hcount, hlink⟩ := u.retrain_port p
      obtain ⟨hmem, hmesh⟩ := u.retrain_mem_mesh p
      rw [hport] at hreplayed hcount
      exact ⟨hcount, hmem.trans hrest.1, hmesh.trans hrest.2, fun h => absurd h hsome, fun _ => ⟨hreplayed, fun _ => hlink⟩⟩
    · rename_i h8
      rw [hport]
      exact ⟨rfl, hrest.1, hrest.2, fun h => absurd h hsome, fun _ => ⟨rfl, fun h => absurd h h8⟩⟩

end

end

theorem State.typedFrame_eq {s : State} {p : PortId} {fr : Frame} {n : Nat} {b : Byte} (hn : b.toNat = n) :
    s.typedFrame n p fr = if fr.ftype = b then s.receiveFrame p fr true else s := by
  have hiff : fr.ftype.toNat = n ↔ fr.ftype = b := by rw [← hn, BitVec.toNat_inj]
  unfold State.typedFrame
  simp only [hiff]

end Sys2Proof.Machine

open Sys2Proof Sys2Proof.Machine

/-- Settles O44: the reception of a frame by its type, and each type's command as a reception. -/
theorem framesOnTheLink : Obligations.FramesOnTheLink := by
  intro p fr credits s g up sequenced
  have hup : up ↔ g.link.up = true := (LinkState.up_iff g.link).symm
  refine ⟨fun h => ?_, fun h hs hbad => ?_, fun h hs hcrc hseq hnak => ?_, fun h ht hcrc => ?_, fun h ht hcrc hseq => ?_,
    fun h ht hcrc hform => ?_, ?_⟩
  · refine congrArg Host.Outcome.next (State.receiveFrame_down ?_ credits)
    simpa using mt hup.mpr h
  · obtain ⟨h0, h8, h9⟩ := hs
    obtain ⟨n, hseq, hnaks, hsent, htype, hnum⟩ := s.sendNak_port p
    refine ⟨s.sendNak p, n, congrArg Host.Outcome.next ?_, rfl, fun r hr => State.port_setPort_other _ _ _ _ hr, hseq, hnaks, hsent,
      htype, hnum⟩
    exact (State.receiveFrame_sequenced (hup.mp h) h0 h8 h9 credits).trans (State.sequenced_refused hbad credits)
  · obtain ⟨h0, h8, h9⟩ := hs
    refine ⟨s.acceptFrame p fr credits, congrArg Host.Outcome.next ?_, State.acceptFrame_hears credits⟩
    exact (State.receiveFrame_sequenced (hup.mp h) h0 h8 h9 credits).trans (State.sequenced_accepted hcrc hseq hnak credits)
  · refine ⟨s.violation p, congrArg Host.Outcome.next (State.receiveFrame_identity (hup.mp h) ht hcrc credits),
      (s.violation_port p).1, ?_, s.violation_mem p, s.violation_mesh p⟩
    exact ((State.Hears.refl s).violation p).1
  · refine ⟨s.idleIn p fr, ?_, State.idleIn_passes hcrc hseq⟩
    exact congrArg Host.Outcome.next ((if_pos (by rw [ht]; rfl)).trans (State.receiveFrame_idle (hup.mp h) ht true))
  · refine ⟨s.nakIn p fr, ?_, State.nakIn_passes hcrc hform⟩
    exact congrArg Host.Outcome.next ((if_pos (by rw [ht]; rfl)).trans (State.receiveFrame_nak (hup.mp h) ht true))
  · have htyped : ∀ (n : Nat) (b : Byte), b.toNat = n → (.next (s.typedFrame n p fr) : Host.Outcome State Fault Refusal)
        = if fr.ftype = b then exec (.frameReceive p fr true) s else .next s := fun n b hn =>
      (congrArg Host.Outcome.next (State.typedFrame_eq hn)).trans (apply_ite Host.Outcome.next ..)
    intro c hc
    simp only [List.mem_cons, List.not_mem_nil, or_false] at hc
    rcases hc with rfl | rfl | rfl | rfl | rfl | rfl | rfl | rfl
    · exact htyped 0 0 rfl
    · exact htyped 1 1 rfl
    · exact htyped 2 2 rfl
    · exact htyped 3 3 rfl
    · exact htyped 4 4 rfl
    · exact htyped 5 5 rfl
    · exact htyped 6 6 rfl
    · exact htyped 8 8 rfl

end

section
/-! PROOF. What a frame for this module does once the link has passed it (R377, R384 to R387): its answers, the mesh, contributions. -/

namespace Sys2Proof.Machine

/-- Of the state only the fabric changes, and there neither the frames that wait in VC2 nor the count of mismatches. -/
def State.Answers (s t : State) : Prop :=
  t = { s with fab := t.fab } ∧ (∀ q, (t.port q).held = (s.port q).held) ∧ t.fab.mismatches = s.fab.mismatches

section
variable {s₀ s t : State}

theorem State.Answers.refl (s : State) : s.Answers s := ⟨rfl, fun _ => rfl, rfl⟩

theorem State.Answers.trans (h : s₀.Answers s) (h' : s.Answers t) : s₀.Answers t := by
  obtain ⟨hrest, hheld, hmis⟩ := h
  obtain ⟨hrest', hheld', hmis'⟩ := h'
  refine ⟨?_, fun q => (hheld' q).trans (hheld q), hmis'.trans hmis⟩
  rw [hrest', hrest]

theorem State.Answers.fab (h : s₀.Answers s) (f : Fabric) (hports : f.ports = s.fab.ports)
    (hmis : f.mismatches = s.fab.mismatches) : s₀.Answers { s with fab := f } := by
  refine h.trans ⟨rfl, fun q => ?_, hmis⟩
  simp only [State.port, hports]

theorem State.Answers.ite {p : Prop} [Decidable p] (h : s₀.Answers s) (h' : s₀.Answers t) : s₀.Answers (if p then s else t) := by
  split
  · exact h
  · exact h'

theorem State.Answers.setPort {p : PortId} {f : FPort} (h : s₀.Answers s) (hf : f.held = (s.port p).held) :
    s₀.Answers (s.setPort p f) := by
  refine h.trans ⟨rfl, fun q => ?_, rfl⟩
  by_cases hq : q = p
  · subst hq
    rw [State.port_setPort, hf]
  · rw [State.port_setPort_other _ _ _ _ hq]

theorem State.Answers.modPort {p : PortId} {f : FPort → FPort} (h : s₀.Answers s) (hf : ∀ x, (f x).held = x.held) :
    s₀.Answers (s.modPort p f) :=
  h.setPort (hf _)

@[simp] theorem FPort.held_run (f : FPort) : f.run.held = f.held :=
  (congrArg FPort.held f.exceptSend_run : f.run.exceptSend.held = f.exceptSend.held)

theorem State.Answers.owe {p : PortId} {fr : Frame} (h : s₀.Answers s) : s₀.Answers (s.owe p fr) := by
  unfold State.owe
  exact h.modPort fun _ => rfl

theorem State.Answers.queueFrames {p : PortId} {v : Nat} {xs : List Frame} (h : s₀.Answers s) :
    s₀.Answers (s.queueFrames p v xs) :=
  h.modPort fun _ => FPort.held_run _

theorem State.Answers.answerFrames {dest : Coord} {num : W16} {mk : PortId → State → State × List Frame} (h : s₀.Answers s)
    (hmk : ∀ p, s₀.Answers (mk p s).1) : s₀.Answers (s.answerFrames dest num mk) := by
  unfold State.answerFrames
  split
  · exact (hmk _).queueFrames
  · exact h

theorem State.Answers.sendRefusal {dest : Coord} {num : W16} {st : Nat} (h : s₀.Answers s) :
    s₀.Answers (s.sendRefusal dest num st) :=
  h.answerFrames fun _ => h

theorem State.Answers.sendAck {dest : Coord} {num : W16} (h : s₀.Answers s) : s₀.Answers (s.sendAck dest num) :=
  h.answerFrames fun _ => h

theorem State.Answers.sendData {x : InXfer} (h : s₀.Answers s) : s₀.Answers (s.sendData x) := by
  refine .ite h.sendRefusal (h.answerFrames fun _ => ?_)
  unfold State.dataFrames
  dsimp only
  exact h.modPort fun _ => rfl

theorem State.Answers.settleIn {src : Coord} {num : W16} (h : s₀.Answers s) : s₀.Answers (s.settleIn src num) := by
  unfold State.settleIn
  split
  · exact h
  · have hdrop : s₀.Answers (s.dropIn src num) := h.fab _ rfl rfl
    exact .ite h (.ite hdrop (.ite hdrop.sendRefusal (.ite hdrop.sendData hdrop.sendAck)))

theorem State.Answers.refuseIn {p : PortId} {fr : Frame} {st : Nat} (h : s₀.Answers s) : s₀.Answers (s.refuseIn p fr st) := by
  unfold State.refuseIn
  split
  · exact .settleIn (.sendRefusal (h.fab _ rfl rfl))
  · exact .settleIn (.sendRefusal (h.fab _ rfl rfl))

theorem State.Answers.pumpPort {p : PortId} (h : s₀.Answers s) : s₀.Answers (s.pumpPort p) := by
  refine h.setPort ?_
  unfold FPort.idle
  split
  · exact FPort.held_run _
  · split <;> rfl

theorem State.Answers.mesh (h : s₀.Answers s) : s.mesh = s₀.mesh := by rw [h.1]
theorem State.Answers.mem (h : s₀.Answers s) : s.mem = s₀.mem := by rw [h.1]
theorem State.Answers.cores (h : s₀.Answers s) : s.cores = s₀.cores := by rw [h.1]
theorem State.Answers.bbx (h : s₀.Answers s) : s.bbx = s₀.bbx := by rw [h.1]

end

/-! ## From the link to the delivery -/

/-- The port as a frame that passes the link's checks finds it at its delivery (R377, R378). -/
def State.heard (s : State) (p : PortId) (fr : Frame) : State :=
  s.modPort p fun f => { f.trailer fr with rxSeq := f.rxSeq + 1, rxFrames := bump f.rxFrames, naked := false }

theorem State.answers_heard (s : State) (p : PortId) (fr : Frame) : s.Answers (s.heard p fr) :=
  (State.Answers.refl s).modPort fun _ => rfl

section
variable {s : State} {p : PortId} {fr : Frame}

/-- R376, R378: a frame of a type for which this module is the destination. -/
def State.passes (s : State) (p : PortId) (fr : Frame) : Prop :=
  ((s.port p).link = .wide ∨ (s.port p).link = .narrow) ∧ fr.crcOk = true ∧ fr.lseq = (s.port p).rxSeq ∧ frameMalformed fr = false
    ∧ fr.cdc = false ∧ s.exitPort fr = none ∧ s.strayFrame p fr = false

theorem State.receiveFrame_passes (h : s.passes p fr) (h0 : fr.ftype ≠ 0) (h8 : fr.ftype ≠ 8) (h9 : fr.ftype ≠ 9) :
    s.receiveFrame p fr true = ((s.heard p fr).deliverFrame p fr).pumpPort p := by
  obtain ⟨hup, hcrc, hseq, hform, hcdc, hexit, hstray⟩ := h
  have hnak : s.mustNak p fr = false := by simp [State.mustNak, hcdc]
  have hstray' : (s.heard p fr).strayFrame p fr = false := hstray
  rw [State.receiveFrame_sequenced ((LinkState.up_iff _).mpr hup) h0 h8 h9, State.sequenced_accepted hcrc hseq hnak]
  change State.pumpPort (if frameMalformed fr || fr.ftype == 9 then _ else if !true then _ else
    if (s.heard p fr).strayFrame p fr then _ else (s.heard p fr).deliverFrame p fr) p = _
  have h9' : ¬(fr.ftype == 9) = true := by simpa using h9
  rw [if_neg (by simpa [hform] using h9'), if_neg (by simp), hstray', if_neg (by simp)]

/-- The state as a frame for this module finds it: its buffer's credits are owed. -/
def State.arrived (s : State) (p : PortId) (fr : Frame) : State := (s.heard p fr).owe p fr

theorem State.answers_arrived (s : State) (p : PortId) (fr : Frame) : s.Answers (s.arrived p fr) := (s.answers_heard p fr).owe

theorem State.deliverFrame_here (h : s.passes p fr) : let t := (s.heard p fr).deliverFrame p fr
    let u := s.arrived p fr
    (fr.ftype = 1 → t = u.writeHere p fr fr.payload) ∧ (fr.ftype = 2 → t = u.readHere p fr)
      ∧ (fr.ftype = 3 → t = u.respHere p fr fr.payload) ∧ (fr.ftype = 4 → t = u.ackHere p fr)
      ∧ (fr.ftype = 5 → t = u.refusalHere p fr) ∧ (fr.ftype = 7 → t = u.addMessage fr) := by
  obtain ⟨-, -, -, -, hcdc, hexit, -⟩ := h
  have hexit' : (s.heard p fr).exitPort fr = none := hexit
  have hpay : framePayload fr = some fr.payload := by simp [framePayload, hcdc]
  unfold State.deliverFrame
  rw [hexit', hpay]
  refine ⟨fun ht => ?_, fun ht => ?_, fun ht => ?_, fun ht => ?_, fun ht => ?_, fun ht => ?_⟩
  all_goals
    rw [ht, if_neg (by decide)]
    rfl

/-- A contribution for this module while none waits (R385, R386): it is checked, or joins VC2. -/
theorem State.deliverFrame_contribution (h : s.passes p fr) (ht : fr.ftype = 6) (hheld : (s.port p).held = []) :
    (s.heard p fr).deliverFrame p fr = ((s.heard p fr).contribute p fr).elim ((s.heard p fr).holdFrame p fr true) (·.owe p fr) := by
  obtain ⟨-, -, -, -, -, hexit, -⟩ := h
  have hexit' : (s.heard p fr).exitPort fr = none := hexit
  have hheld' : ((s.heard p fr).port p).held = [] := by rw [(s.answers_heard p fr).2.1, hheld]
  rw [State.deliverFrame, if_pos ht, hheld', State.vc2Frame, hexit']
  cases (s.heard p fr).contribute p fr <;> rfl

/-! ## Writes and reads: what enters the mesh -/

theorem State.answers_landFrame (s : State) (p : PortId) (fr : Frame) (ws : List W64) :
    (s.push0 (s.writeMsgs (.port p) (fr.addr.toNat / 8 * 8) (ws.map fun w => ⟨w, false⟩)
      (.frame p fr.srcX fr.srcY fr.srcZ fr.xfer))).Answers (s.landFrame p fr ws) := by
  unfold State.landFrame
  split
  · exact .settleIn ((State.Answers.refl _).fab _ rfl rfl)
  · exact .settleIn ((State.Answers.refl _).fab _ rfl rfl)

theorem State.writeHere_lands (hx : s.inXfer fr = none) {ws : List W64}
    (h : s.rangeStatus (.frame fr.tenant.val) (fr.addr.toNat / 8 * 8) (8 * ws.length) = 0) :
    s.writeHere p fr ws = s.landFrame p fr ws := by
  unfold State.writeHere
  rw [hx, h]
  rfl

theorem State.answers_readHere (h : s.rangeStatus (.frame fr.tenant.val) (fr.addr.toNat / 8 * 8) (wordAt fr.payload 0 / 8 * 8) = 0) :
    (s.push0 (s.readMsgs (.port p) (fr.addr.toNat / 8 * 8) (wordAt fr.payload 0 / 8 * 8) 0
      (.frame p fr.srcX fr.srcY fr.srcZ fr.xfer))).Answers (s.readHere p fr) := by
  unfold State.readHere
  dsimp only
  rw [h]
  exact .settleIn ((State.Answers.refl _).fab _ rfl rfl)

theorem State.Answers.pushed {u t : State} {ms : List Msg} (hu : s.Answers u) (ht : (u.push0 ms).Answers t) :
    t = { s with fab := t.fab, mesh := t.mesh } ∧ t.mesh = { s.mesh with vc0 := s.mesh.vc0 ++ ms } ∧ t.mem = s.mem
      ∧ ∀ q, (t.port q).held = (s.port q).held := by
  refine ⟨?_, ht.mesh.trans ?_, ht.mem.trans hu.mem, fun q => (ht.2.1 q).trans (hu.2.1 q)⟩
  · rw [ht.1, hu.1]
    rfl
  · rw [hu.1]
    rfl

/-! ## Answers to this module's transfers -/

/-- The messages on which a read response's data go on to the core that reads. -/
def respMsgs (p : PortId) (c : CoreId) (x : OutXfer) (ws : List W64) : List Msg :=
  (piecesOf x.next (8 * ws.length)).map fun q =>
    ⟨.port p, .core c, false, .data q.1 (((ws.drop ((q.1 - x.next) / 8)).take (q.2 / 8)).map fun w => ⟨w, false⟩) x.ref⟩

theorem State.respHere_dma {x : OutXfer} {c : CoreId} {id : Nat} {ws : List W64} (hx : s.fab.outs.find? (outXferOf fr true) = some x)
    (href : x.ref = .dma c id) (hleft : 8 * ws.length ≤ x.left) : let t := s.respHere p fr ws
    t.mesh = { s.mesh with vc1 := s.mesh.vc1 ++ respMsgs p c x ws } ∧ t.mem = s.mem
      ∧ (fr.last = true → t.fab.outs = dropFirst (fun y => y.num == x.num) s.fab.outs) := by
  intro t
  have ht : t = s.respHere p fr ws := rfl
  unfold State.respHere at ht
  rw [hx] at ht
  dsimp only at ht
  rw [if_neg (by omega), href] at ht
  dsimp only at ht
  rw [ht]
  split
  · refine ⟨?_, rfl, fun _ => rfl⟩
    rw [respMsgs, href]
    rfl
  · rename_i hdone
    refine ⟨?_, rfl, fun hlast => absurd ?_ hdone⟩
    · rw [respMsgs, href]
      rfl
    · rw [hlast]
      rfl

/-- R384: a transfer that has been answered: it is open no longer, and its part has ended with the status. -/
theorem State.partDone_dropOut {x : OutXfer} {c : CoreId} {id : Nat} (href : x.ref = .dma c id) (st : Nat) :
    let t := (s.partDone x.ref st).dropOut x.num
    t.fab.outs = dropFirst (fun y => y.num == x.num) s.fab.outs ∧ t.mem = s.mem
      ∧ (t.core c).dqu.transfers = updFirst (fun y => y.id == id) (fun y => y.part st) (s.core c).dqu.transfers := by
  rw [href]
  exact ⟨rfl, rfl, s.transfers_modXfer c id _⟩

theorem State.ackHere_dma {x : OutXfer} (hx : s.fab.outs.find? (outXferOf fr false) = some x) :
    s.ackHere p fr = (s.partDone x.ref 0).dropOut x.num := by
  rw [State.ackHere, hx]

theorem State.refusalHere_dma {x : OutXfer}
    (hx : s.fab.outs.find? (fun x => outXferOf fr true x || outXferOf fr false x) = some x) :
    s.refusalHere p fr = (s.partDone x.ref (wordAt fr.payload 0 % 2 ^ 16)).dropOut x.num := by
  rw [State.refusalHere, hx]

theorem State.outs_pumpPort (s : State) (p : PortId) : (s.pumpPort p).fab.outs = s.fab.outs := rfl

/-! ## Contributions (R385 to R387) -/

/-- A contribution header from its words. -/
def contWords (ws : List W64) : ContHdr := contHdrOf (packFields 64 (ws.map (·.toNat)))

/-- The header of a contribution frame. -/
def frameContHdr (fr : Frame) : ContHdr := contWords ((List.range 4).map fun i => fr.payload.getD i 0)

/-- The header of the contribution that a slip of core `c` sends, from its send offset. -/
def State.ownHdr (s : State) (c : CoreId) (send : Nat) : ContHdr := contWords ((s.rdWords (spKey c send) 4).map (·.data))

/-- What R386 says of a contribution frame beside this module's own contribution. -/
def State.verdict (s : State) (fr : Frame) (c : CoreId) (send : Nat) : ContVerdict :=
  contVerdict s.fab.cfgdig s.fab.step s.rank fr.cfg fr.step (frameContHdr fr) (s.ownHdr c send)

section
variable {c : CoreId} {send len : Nat} (hx : s.inXfer fr = none) (hslip : s.slipTo fr.addr.toNat = some (c, send, len))
include hx hslip

theorem State.contribute_held (hv : s.verdict fr c send = .held) : s.contribute p fr = none := by
  unfold State.contribute
  rw [hx, hslip]
  dsimp only
  split
  · rfl
  · rename_i heq
    cases hv.symm.trans heq
  · rename_i heq
    cases hv.symm.trans heq

theorem State.contribute_accepted (hv : s.verdict fr c send = .accepted) : s.contribute p fr
    = some (if fr.payload.length < 4 ∨ (frameContHdr fr).bytes + 32 ≠ len then s.refuseIn p fr 1 else s.landFrame p fr fr.payload) := by
  unfold State.contribute
  rw [hx, hslip]
  dsimp only
  split
  · rename_i heq
    cases hv.symm.trans heq
  · rename_i heq
    cases hv.symm.trans heq
  · rfl

theorem State.contribute_mismatch {n : Nat} (hv : s.verdict fr c send = .mismatch n) : ∃ hdr loc,
    s.contribute p fr = some (s.mismatched p fr hdr loc (frameContHdr fr) n) := by
  unfold State.contribute
  rw [hx, hslip]
  dsimp only
  split
  · rename_i heq
    cases hv.symm.trans heq
  · rename_i heq
    cases hv.symm.trans heq
    exact ⟨_, _, rfl⟩
  · rename_i heq
    cases hv.symm.trans heq

end

theorem State.frame_abortCollectives (s : State) :
    s.abortCollectives = { s with cores := s.abortCollectives.cores, fab := s.abortCollectives.fab } := by
  have hfold : ∀ (xs : List (Nat × Core)) (u : State), xs.foldl (fun s x =>
      if x.2.inTask then s.raiseLoose (Fin.ofNat 2304 x.1) 0x0E01 0 .seq else s) u
      = { u with cores := (xs.foldl (fun s x =>
          if x.2.inTask then s.raiseLoose (Fin.ofNat 2304 x.1) 0x0E01 0 .seq else s) u).cores } := by
    intro xs
    induction xs with
    | nil => exact fun _ => rfl
    | cons x xs ih =>
      intro u
      rw [List.foldl_cons, ih]
      split <;> rfl
  unfold State.abortCollectives
  dsimp only
  rw [hfold]

/-- R387: what a mismatch leaves. -/
theorem State.mismatched_leaves (s : State) (p : PortId) (fr : Frame) (hdr loc : List W64) (h : ContHdr) (n : Nat) :
    let t := s.mismatched p fr hdr loc h n
    t.fab.mismatches = bump s.fab.mismatches ∧ t.fab.aborted = true ∧ t.fab.halting = true ∧ t.mesh = s.mesh ∧ t.mem = s.mem
      ∧ ∃ e ∈ t.bbx.waiting, e.code = 0x0E14#16 := by
  have hr : s.Answers (s.refuseIn p fr 1) := (State.Answers.refl s).refuseIn
  intro t
  have ht : t = s.mismatched p fr hdr loc h n := rfl
  unfold State.mismatched State.tellSlice at ht
  dsimp only at ht
  rw [State.frame_abortCollectives, State.fab_abortCollectives] at ht
  rw [ht]
  refine ⟨congrArg bump hr.2.2, rfl, rfl, hr.mesh, hr.mem, _, List.mem_append_right _ (List.mem_singleton.mpr rfl), rfl⟩

end

theorem State.holdFrame_counted (s : State) (p : PortId) (fr : Frame) : let t := s.holdFrame p fr true
    (t.port p).held = (s.port p).held ++ [fr] ∧ t.fab.heldCtr = bump s.fab.heldCtr ∧ t.mesh = s.mesh ∧ t.mem = s.mem := by
  refine ⟨?_, rfl, rfl, rfl⟩
  exact congrArg FPort.held (s.port_modPort p fun f => { f with held := f.held ++ [fr] })

theorem State.pumpPort_fab (s : State) (p : PortId) : (s.pumpPort p).fab = { s.fab with ports := (s.pumpPort p).fab.ports } := rfl

theorem State.typedFrame_passes {s : State} {p : PortId} {fr : Frame} (h : s.passes p fr) {n : Nat} (ht : fr.ftype.toNat = n)
    (h0 : n ≠ 0) (h8 : n ≠ 8) (h9 : n ≠ 9) : s.typedFrame n p fr = ((s.heard p fr).deliverFrame p fr).pumpPort p := by
  have hne : ∀ b : Byte, n ≠ b.toNat → fr.ftype ≠ b := by
    rintro b hb rfl
    exact hb ht.symm
  exact (if_pos ht).trans (State.receiveFrame_passes h (hne 0 h0) (hne 8 h8) (hne 9 h9))

/-! ## A contribution frame that passes the link while VC2 is empty (R385 to R387) -/

section
variable {s : State} {p : PortId} {fr : Frame} {c : CoreId} {send len : Nat} (hpass : s.passes p fr) (ht : fr.ftype = 6)
  (hheld : (s.port p).held = []) (hx : s.inXfer fr = none) (hslip : s.slipTo fr.addr.toNat = some (c, send, len))
include hpass ht hheld

theorem State.typedFrame_contribution : s.typedFrame 6 p fr
    = (((s.heard p fr).contribute p fr).elim ((s.heard p fr).holdFrame p fr true) (·.owe p fr)).pumpPort p := by
  rw [← State.deliverFrame_contribution hpass ht hheld]
  exact State.typedFrame_passes hpass (by rw [ht]; rfl) (by decide) (by decide) (by decide)

include hx hslip

theorem exec_contribution_held (hv : s.verdict fr c send = .held) : ∃ t, exec (.contributionFrame p fr) s = .next t
    ∧ (t.port p).held = [fr] ∧ t.fab.heldCtr = bump s.fab.heldCtr ∧ t.mesh = s.mesh ∧ t.mem = s.mem := by
  have hdel := State.typedFrame_contribution hpass ht hheld
  have hc : (s.heard p fr).contribute p fr = none := State.contribute_held hx hslip hv
  rw [hc, Option.elim_none] at hdel
  obtain ⟨hjoins, hcount, hmesh, hmem⟩ := (s.heard p fr).holdFrame_counted p fr
  have hpump := (State.Answers.refl ((s.heard p fr).holdFrame p fr true)).pumpPort (p := p)
  refine ⟨_, congrArg Host.Outcome.next hdel, ?_, hcount, hmesh, hmem⟩
  rw [hpump.2.1, hjoins, (s.answers_heard p fr).2.1, hheld]
  rfl

theorem exec_contribution_refused (hv : s.verdict fr c send = .accepted)
    (hlen : fr.payload.length < 4 ∨ (frameContHdr fr).bytes + 32 ≠ len) : ∃ t, exec (.contributionFrame p fr) s = .next t
      ∧ (t.port p).held = [] ∧ t.mem = s.mem ∧ t.mesh = s.mesh ∧ t.fab.mismatches = s.fab.mismatches := by
  have hdel := State.typedFrame_contribution hpass ht hheld
  have hc : (s.heard p fr).contribute p fr = _ := State.contribute_accepted hx hslip hv
  rw [hc, if_pos hlen, Option.elim_some] at hdel
  have hrefuse := (s.answers_heard p fr).refuseIn (p := p) (fr := fr) (st := 1)
  have hall := (hrefuse.owe (p := p) (fr := fr)).pumpPort (p := p)
  exact ⟨_, congrArg Host.Outcome.next hdel, (hall.2.1 p).trans hheld, hall.mem, hall.mesh, hall.2.2⟩

theorem exec_contribution_lands (hv : s.verdict fr c send = .accepted) (h4 : 4 ≤ fr.payload.length)
    (hlen : (frameContHdr fr).bytes + 32 = len) : ∃ t, exec (.contributionFrame p fr) s = .next t
      ∧ (t.port p).held = [] ∧ t.mem = s.mem ∧ t.mesh = { s.mesh with
        vc0 := s.mesh.vc0 ++ s.writeMsgs (.port p) (fr.addr.toNat / 8 * 8) (fr.payload.map fun w => ⟨w, false⟩)
          (.frame p fr.srcX fr.srcY fr.srcZ fr.xfer) } := by
  have hok : ¬(fr.payload.length < 4 ∨ (frameContHdr fr).bytes + 32 ≠ len) := by omega
  have hdel := State.typedFrame_contribution hpass ht hheld
  have hc : (s.heard p fr).contribute p fr = _ := State.contribute_accepted hx hslip hv
  rw [hc, if_neg hok, Option.elim_some] at hdel
  have hland := ((s.heard p fr).answers_landFrame p fr fr.payload).owe (p := p) (fr := fr)
  obtain ⟨-, hmesh, hmem, hkeeps⟩ := (s.answers_heard p fr).pushed (hland.pumpPort (p := p))
  exact ⟨_, congrArg Host.Outcome.next hdel, (hkeeps p).trans hheld, hmem, hmesh⟩

theorem exec_contribution_mismatch {n : Nat} (hv : s.verdict fr c send = .mismatch n) : ∃ t,
    exec (.contributionFrame p fr) s = .next t ∧ t.fab.mismatches = bump s.fab.mismatches ∧ t.fab.aborted = true
      ∧ t.fab.halting = true ∧ t.mesh = s.mesh ∧ t.mem = s.mem ∧ ∃ e ∈ t.bbx.waiting, e.code = 0x0E14#16 := by
  have hdel := State.typedFrame_contribution hpass ht hheld
  obtain ⟨hdr, loc, hc⟩ := State.contribute_mismatch (s := s.heard p fr) (p := p) hx hslip hv
  rw [hc, Option.elim_some] at hdel
  have hleaves := (s.heard p fr).mismatched_leaves p fr hdr loc (frameContHdr fr) n
  generalize (s.heard p fr).mismatched p fr hdr loc (frameContHdr fr) n = u at hdel hleaves
  exact ⟨_, congrArg Host.Outcome.next hdel, hleaves⟩

end

/-- R376: a message that does not act on a formation joins the harbourmaster's. -/
theorem State.messageIn_unformed {s : State} {p : PortId} {fr : Frame} (h : (s.typedFrame 7 p fr).fab.forming = none) :
    s.messageIn p fr = s.typedFrame 7 p fr := by
  unfold State.messageIn
  dsimp only
  rw [h]

/-! ## The frames that wait in VC2 (R386) -/

theorem State.recheck_none {s : State} {p : PortId} (h : (s.port p).held = []) : s.recheck (s.port p).held.length p = s := by
  rw [h]
  rfl

theorem State.recheck_stays {s : State} {p : PortId} {fr : Frame} {rest : List Frame} (h : (s.port p).held = fr :: rest)
    (hv : s.vc2Frame p fr = none) : s.recheck (s.port p).held.length p = s := by
  rw [h, List.length_cons, State.recheck, h]
  dsimp only
  rw [hv]

theorem State.recheck_goes {s u : State} {p : PortId} {fr : Frame} (h : (s.port p).held = [fr]) (hv : s.vc2Frame p fr = some u) :
    s.recheck (s.port p).held.length p = (u.modPort p fun f => { f with held := [] }).owe p fr := by
  rw [h, List.length_singleton, State.recheck, h]
  dsimp only
  rw [hv]
  rfl

end Sys2Proof.Machine

open Sys2Proof Sys2Proof.Machine

/-- Settles O45: a frame that passes the link is delivered by its type; the frames in VC2 are checked one after another. -/
theorem framesReachTheirModule : Obligations.FramesReachTheirModule := by
  refine ⟨?_, ?_⟩
  · intro p fr s g addr clean ref hup hcrc hseq hform hcdc hexit hstray
    have hpass : s.passes p fr := ⟨hup, hcrc, hseq, hform, hcdc, hexit, hstray⟩
    obtain ⟨hwrite, hread, hresp, hack, hrefuse, hmsg⟩ := State.deliverFrame_here hpass
    have harr := s.answers_arrived p fr
    have hheard := s.answers_heard p fr
    refine ⟨fun ht hx hrange => ?_, fun ht hrange => ?_, fun x c id ht hx href hleft => ?_, fun x c id ht hx href => ?_,
      fun x c id ht hx href => ?_, fun ht hforming => ?_, fun ht hx c send len => ?_⟩
    · have hin : (s.arrived p fr).writeHere p fr fr.payload = (s.arrived p fr).landFrame p fr fr.payload :=
        State.writeHere_lands (s := s.arrived p fr) (p := p) hx hrange
      have hdel := State.typedFrame_passes hpass (n := 1) (by rw [ht]; rfl) (by decide) (by decide) (by decide)
      rw [hwrite ht, hin] at hdel
      obtain ⟨hrest, hmesh, -⟩ := harr.pushed ((State.answers_landFrame _ p fr fr.payload).pumpPort (p := p))
      exact ⟨_, congrArg Host.Outcome.next hdel, hrest, hmesh⟩
    · have hdel := State.typedFrame_passes hpass (n := 2) (by rw [ht]; rfl) (by decide) (by decide) (by decide)
      rw [hread ht] at hdel
      have hrange' : (s.arrived p fr).rangeStatus (.frame fr.tenant.val) (fr.addr.toNat / 8 * 8) (wordAt fr.payload 0 / 8 * 8) = 0 :=
        hrange
      obtain ⟨hrest, hmesh, -⟩ := harr.pushed ((State.answers_readHere hrange').pumpPort (p := p))
      exact ⟨_, congrArg Host.Outcome.next hdel, hrest, hmesh⟩
    · have hdel := State.typedFrame_passes hpass (n := 3) (by rw [ht]; rfl) (by decide) (by decide) (by decide)
      rw [hresp ht] at hdel
      obtain ⟨hmesh, hmem, houts⟩ := State.respHere_dma (s := s.arrived p fr) (p := p) hx href hleft
      refine ⟨_, respMsgs p c x fr.payload, congrArg Host.Outcome.next hdel, hmesh, hmem, ?_, ?_, houts⟩
      · intro m hm
        obtain ⟨q, -, rfl⟩ := List.mem_map.mp hm
        exact ⟨rfl, rfl⟩
      · exact List.length_map _
    · have hdel := State.typedFrame_passes hpass (n := 4) (by rw [ht]; rfl) (by decide) (by decide) (by decide)
      rw [hack ht, State.ackHere_dma (s := s.arrived p fr) hx] at hdel
      exact ⟨_, congrArg Host.Outcome.next hdel, State.partDone_dropOut (s := s.arrived p fr) href 0⟩
    · have hdel := State.typedFrame_passes hpass (n := 5) (by rw [ht]; rfl) (by decide) (by decide) (by decide)
      rw [hrefuse ht, State.refusalHere_dma (s := s.arrived p fr) hx] at hdel
      exact ⟨_, congrArg Host.Outcome.next hdel, State.partDone_dropOut (s := s.arrived p fr) href _⟩
    · have hdel := State.typedFrame_passes hpass (n := 7) (by rw [ht]; rfl) (by decide) (by decide) (by decide)
      rw [hmsg ht] at hdel
      have hin : s.messageIn p fr = _ := (State.messageIn_unformed (by rw [hdel]; exact hforming)).trans hdel
      exact ⟨_, congrArg Host.Outcome.next hin, rfl, rfl⟩
    · intro words h l verdict hslip hheld
      refine ⟨exec_contribution_held hpass ht hheld hx hslip, exec_contribution_refused hpass ht hheld hx hslip,
        exec_contribution_lands hpass ht hheld hx hslip, fun n => exec_contribution_mismatch hpass ht hheld hx hslip⟩
  · intro p fr rest s g
    refine ⟨fun h => ?_, fun h hv => ?_, fun u h hv => ?_⟩
    · have hall := (State.Answers.refl s).pumpPort (p := p)
      refine ⟨_, congrArg (fun u => Host.Outcome.next (State.pumpPort u p)) (State.recheck_none h), ?_, hall.mesh, hall.mem⟩
      exact (hall.2.1 p).trans h
    · have hall := (State.Answers.refl s).pumpPort (p := p)
      refine ⟨_, congrArg (fun u => Host.Outcome.next (State.pumpPort u p)) (State.recheck_stays h hv), ?_, hall.mesh, hall.mem,
        hall.cores⟩
      exact (hall.2.1 p).trans h
    · have howe := (State.Answers.refl (u.modPort p fun f => { f with held := [] })).owe (p := p) (fr := fr)
      have hall := howe.pumpPort (p := p)
      refine ⟨_, congrArg (fun u => Host.Outcome.next (State.pumpPort u p)) (State.recheck_goes h hv), ?_, hall.mesh, hall.mem,
        hall.cores⟩
      rw [hall.2.1, State.port_modPort]

end

section
/-! PROOF. Tickets as an issuer is told of them (R415), and the formation of a slice (R382, R383). -/

namespace Sys2Proof.Machine

/-! ## A ticket and its issuer (R411, R415) -/

theorem State.interrupt_frame (s : State) (f : FnId) (v : Nat) : s.interrupt f v
    = { s with host := { s.host with fns := (s.interrupt f v).host.fns, out := (s.interrupt f v).host.out } } := by
  unfold State.interrupt
  split <;> rfl

/-- R411: an answer touches its function or the rack's mailbox, and what goes out to the host. -/
theorem State.answerMbx_frame (s : State) (i : Issuer) (status : W16) (k : W32) (result : List Byte) :
    let t := s.answerMbx i status k result
    t = { s with host := { s.host with fns := t.host.fns, rack := t.host.rack, out := t.host.out } } := by
  cases i with
  | fn f =>
    unfold State.answerMbx
    dsimp only
    split
    · rw [State.interrupt_frame]; rfl
    · rfl
  | rack => rfl

theorem State.told_frame (s : State) (i : Issuer) (op : W16) (unit : Byte) (total object : Nat) :
    (s.told i op unit total object).2 = { s with host := (s.told i op unit total object).2.host } := by
  rw [State.told, State.answerMbx_frame]

@[simp] theorem State.tickets_answerMbx (s : State) (i : Issuer) (status : W16) (k : W32) (result : List Byte) :
    (s.answerMbx i status k result).host.tickets = s.host.tickets := by
  rw [State.answerMbx_frame]

/-- R415: the ticket that an issuer is told of is the last one. -/
theorem State.tickets_told (s : State) (i : Issuer) (op : W16) (unit : Byte) (total object : Nat) :
    (s.told i op unit total object).2.host.tickets
      = s.host.tickets ++ [⟨(s.told i op unit total object).1, op, .running, unit, 0xFFFF, total, 0, 0, object⟩] :=
  State.tickets_answerMbx ..

/-- R415: the ticket that an issuer is told of runs. -/
theorem State.ticketOf_told {s : State} {i : Issuer} {op : W16} {unit : Byte} {total object : Nat}
    (h : s.ticketOf (s.told i op unit total object).1 = none) :
    ∃ x, (s.told i op unit total object).2.ticketOf (s.told i op unit total object).1 = some x ∧ x.st = .running := by
  rw [State.ticketOf] at h
  rw [State.ticketOf, State.tickets_told, List.find?_append, h, Option.none_or]
  exact ⟨_, List.find?_cons_of_pos (beq_self_eq_true _), rfl⟩

/-- R415: a ticket that runs ends as it is finished. -/
theorem State.ended_finish {s : State} {k : W32} {x : Ticket} (hx : s.ticketOf k = some x) (hr : x.st = .running)
    (st : W16) (result : W64) : (s.finish k st result).ended k st result := by
  have hf := State.ticketOf_modTicket (g := fun y : Ticket => if y.st = .finished then y else
    { y with st := .finished, status := if y.st = .cancelling then stCancelled else st, result := result,
             progress := if y.unit = 0 ∧ st = stDone ∧ y.st = .running then 10000 else y.progress }) hx fun y => by split <;> rfl
  exact ⟨_, hf, by simp [hr], by simp [hr], by simp [hr]⟩

/-! ## Shapes of a slice (R382) -/

theorem isPow_toNat (n : Byte) : isPow n.toNat = true ↔ n = 1 ∨ n = 2 ∨ n = 4 ∨ n = 8 := by
  simp [isPow, ← BitVec.toNat_inj, or_assoc]

theorem isPow_le {n : Nat} (h : isPow n = true) : n ≤ 8 := by
  simp only [isPow, Bool.or_eq_true, beq_iff_eq] at h
  omega

/-- R382, R396: the shapes of the table that hold this module. -/
theorem State.shapeOk_iff (s : State) (n d sq o : Byte) : s.shapeOk n.toNat d.toNat sq.toNat o.toNat = true
    ↔ (n = 1 ∨ n = 2 ∨ n = 4 ∨ n = 8) ∧ (d = 1 ∨ d = 2 ∨ d = 4 ∨ d = 8) ∧ (sq = 1 ∨ sq = 2 ∨ sq = 4 ∨ sq = 8)
      ∧ n.toNat = d.toNat * sq.toNat ∧ o.toNat % n.toNat = 0 ∧ o.toNat < 8 ∧ o.toNat ≤ s.slot ∧ s.slot < o.toNat + n.toNat := by
  simp only [State.shapeOk, Bool.and_eq_true, isPow_toNat, beq_iff_eq, decide_eq_true_eq, and_assoc]

theorem lg2_lt (n : Nat) : lg2 n < 4 := by
  unfold lg2
  split_ifs <;> omega

/-! ## What a decision leaves (R383, R397) -/

section
variable {s : State} {f : Forming}

/-- R397: the word of a formed slice whose rank 0 is this module. -/
theorem State.slice_setFormed {step : W64} (hn : f.n ≤ 8) (ho : f.origin < 8) (hslot : s.slot = f.origin) :
    (s.setFormed f step).fab.slice.toNat
      = f.n + lg2 f.d * 16 + lg2 f.sq * 64 + f.origin * 256 + 65536 := by
  have hd := lg2_lt f.d
  have hq := lg2_lt f.sq
  show (BitVec.ofNat 64 _).toNat = _
  rw [BitVec.toNat_ofNat, hslot]
  omega

@[simp] theorem State.mem_setFormed (step : W64) : (s.setFormed f step).mem = s.mem := by rw [State.setFormed]
@[simp] theorem State.cores_setFormed (step : W64) : (s.setFormed f step).cores = s.cores := by rw [State.setFormed]
@[simp] theorem State.host_setFormed (step : W64) : (s.setFormed f step).host = s.host := by rw [State.setFormed]
@[simp] theorem State.forming_setFormed (step : W64) : (s.setFormed f step).fab.forming = none := by rw [State.setFormed]
@[simp] theorem State.cfgdig_setFormed (step : W64) :
    (s.setFormed f step).fab.cfgdig = (s.myMuster f).config.extractLsb' 0 64 := by rw [State.setFormed]

theorem State.formed_setFormed {step : W64} (hn : f.n ≤ 8) (ho : f.origin < 8) (hslot : s.slot = f.origin) :
    (s.setFormed f step).formed = true := by
  have hd := lg2_lt f.d
  have hq := lg2_lt f.sq
  rw [State.formed, tb, State.slice_setFormed hn ho hslot, beq_iff_eq]
  omega

/-- R397: rank and module count of a slice that has formed, as its rank 0 shows them. -/
theorem State.rank_modules_setFormed {step : W64} (hn : f.n ≤ 8) (ho : f.origin < 8) (hslot : s.slot = f.origin) :
    (s.setFormed f step).rank = 0 ∧ (s.setFormed f step).modules = f.n := by
  have hd := lg2_lt f.d
  have hq := lg2_lt f.sq
  rw [State.modules, State.formed_setFormed hn ho hslot, if_pos rfl, State.rank, fld, fld, State.slice_setFormed hn ho hslot]
  omega

@[simp] theorem State.formed_finish (s : State) (k : W32) (st : W16) (r : W64) : (s.finish k st r).formed = s.formed := rfl
@[simp] theorem State.rank_finish (s : State) (k : W32) (st : W16) (r : W64) : (s.finish k st r).rank = s.rank := rfl
@[simp] theorem State.modules_finish (s : State) (k : W32) (st : W16) (r : W64) : (s.finish k st r).modules = s.modules := rfl

theorem State.formed_notFormed (status : W16) (es : List (Nat × Nat × Nat)) : (s.notFormed f status es).formed = false := by
  show tb (s.fab.slice &&& ~~~(0x10000#64)).toNat 16 = false
  rw [tb_toNat, BitVec.getLsbD_and, BitVec.getLsbD_not]
  have : (0x10000#64).getLsbD 16 = true := by decide
  rw [this]
  simp

/-- R383: a slice that does not form leaves its event for the journal. -/
theorem State.notFormed_leaves (status : W16) (es : List (Nat × Nat × Nat)) : let t := s.notFormed f status es
    t.formed = false ∧ t.fab.forming = none ∧ ∃ e, t.bbx.waiting = s.bbx.waiting ++ [e] ∧ e.code = 0x0E16#16 :=
  ⟨State.formed_notFormed status es, rfl, _, rfl, rfl⟩

/-- The replies of rank 0 to the other modules of the slice. -/
def State.musterReplies (s : State) (f : Forming) (ok : Bool) : List (Nat × HmMsg) :=
  ((List.range f.n).filter fun r => r != s.slot - f.origin).map fun r => (r, .musterReply ok (s.hm.step.extractLsb' 0 32))

/-- The state in which rank 0 has sent its replies. -/
def State.replied (s : State) (f : Forming) (ok : Bool) : State :=
  { s with fab := { s.fab with hmOut := s.fab.hmOut ++ s.musterReplies f ok } }

/-- R383: the records agree and the ports carry frames. -/
theorem State.decideMuster_agree (h : ∀ e ∈ s.musterEntries f, e.2.1 = 0) : s.decideMuster f
    = ((s.replied f true).setFormed f s.hm.step).finish f.ticket stDone (Config.musterResult (s.musterEntries f)) := by
  have hok : ((s.musterEntries f).all fun e => e.2.1 == 0) = true := by simpa using h
  rw [← hok]
  exact if_pos hok

theorem State.decideMuster_refused (h : ∃ e ∈ s.musterEntries f, e.2.1 ≠ 0) : ∃ st, s.decideMuster f
    = (s.replied f false).notFormed f st (s.musterEntries f) := by
  have hok : ((s.musterEntries f).all fun e => e.2.1 == 0) = false := by simpa using h
  rw [← hok]
  exact ⟨_, if_neg (ne_true_of_eq_false hok)⟩

/-- R383: once rank 0 has decided, no formation is in progress. -/
theorem State.forming_decideMuster (s : State) (f : Forming) : (s.decideMuster f).fab.forming = none := by
  unfold State.decideMuster
  extract_lets es ok
  split <;> rfl

/-- R382: a slice of one module uses no port. -/
theorem State.badPorts_one (s : State) : s.badPorts 1 0 = [] := by
  unfold State.badPorts
  rw [List.filter_eq_nil_iff]
  intro p _
  have : ¬2 ^ (p.val / 2 + 1) ≤ 1 := by
    rw [Nat.pow_succ]
    have := Nat.two_pow_pos (p.val / 2)
    omega
  simp [State.sliceUses, this]

/-- R383: the only record of a slice of one module agrees with itself. -/
theorem State.musterEntries_one {d sq o : Nat} {k : W32} (hslot : s.slot = o) {m : Muster} (hm : m.slot = o) :
    s.musterEntries ⟨k, 1, d, sq, o, [m]⟩ = [(o, 0, 0)] := by
  simp [State.musterEntries, Forming.inOrder, hslot, hm, State.badPorts_one, commonTriple, List.range_succ]

end

/-! ## SLICE_FORM, muster records, the timeout (R383) -/

section
variable {s : State} {i : Issuer} {n d sq o : Nat}

theorem State.sliceForm_badShape (h : s.shapeOk n d sq o = false) : s.sliceForm i n d sq o = s.reply i stBadArg [] := by
  rw [State.sliceForm, h]; rfl

/-- R383: what SLICE_FORM does in the state in which its issuer has been told. -/
def State.formationBegins (s : State) (k : W32) (n d sq o : Nat) : State :=
  let me := s.myMuster ⟨k, n, d, sq, o, []⟩
  if s.slot = o then
    let s1 := { s with fab := { s.fab with forming := some ⟨k, n, d, sq, o, [me]⟩ } }
    if n = 1 then s1.decideMuster ⟨k, n, d, sq, o, [me]⟩ else s1
  else { s with fab := { s.fab with forming := some ⟨k, n, d, sq, o, []⟩, hmOut := s.fab.hmOut ++ [(0, .muster me)] } }

theorem State.sliceForm_begins (h : s.shapeOk n d sq o = true) (hfull : s.ticketsFull i = false) (hnone : s.fab.forming = none) :
    let x := s.told i 0x0201 0 0 0
    s.sliceForm i n d sq o = x.2.formationBegins x.1 n d sq o := by
  intro x
  have hx : x.2.fab.forming = none := by rw [State.told_frame]; exact hnone
  rw [State.sliceForm, h, State.issue_ticket hfull]
  dsimp only
  rw [hx]
  rfl

/-- R383: what a slice whose records agree leaves at its rank 0. -/
theorem State.agreed_leaves {s : State} {f : Forming} {x : Ticket} (hx : s.ticketOf f.ticket = some x) (hr : x.st = .running)
    (hn : f.n ≤ 8) (ho : f.origin < 8) (hslot : s.slot = f.origin) (ok : Bool) (result : W64) :
    let t := ((s.replied f ok).setFormed f s.hm.step).finish f.ticket stDone result
    t.mem = s.mem ∧ t.cores = s.cores ∧ t.formed = true ∧ t.fab.forming = none ∧ t.rank = 0 ∧ t.modules = f.n
      ∧ t.fab.cfgdig = (s.myMuster f).config.extractLsb' 0 64 ∧ ∃ r, t.ended f.ticket stDone r := by
  obtain ⟨hrank, hmodules⟩ := State.rank_modules_setFormed (s := s.replied f ok) (step := s.hm.step) hn ho hslot
  dsimp only
  rw [State.formed_finish, State.rank_finish, State.modules_finish]
  have hticket : ((s.replied f ok).setFormed f s.hm.step).ticketOf f.ticket = some x := by
    rw [State.ticketOf, State.host_setFormed]; exact hx
  rw [State.finish_mem, State.mem_setFormed, State.finish_cores, State.cores_setFormed, State.finish_fab, State.forming_setFormed,
    State.cfgdig_setFormed]
  exact ⟨rfl, rfl, State.formed_setFormed hn ho hslot, rfl, hrank, hmodules, rfl, _, State.ended_finish hticket hr _ _⟩

/-- R383: a slice of one module forms by its own record. -/
theorem State.formationBegins_one {s : State} {k : W32} {d sq o : Nat} (hslot : s.slot = o) :
    let f : Forming := ⟨k, 1, d, sq, o, [s.myMuster ⟨k, 1, d, sq, o, []⟩]⟩
    let u := { s with fab := { s.fab with forming := some f } }
    s.formationBegins k 1 d sq o
      = ((u.replied f true).setFormed f u.hm.step).finish f.ticket stDone (Config.musterResult (u.musterEntries f)) := by
  intro f u
  have hes : u.musterEntries f = [(o, 0, 0)] := State.musterEntries_one (s := u) hslot hslot
  rw [State.formationBegins]
  dsimp only
  rw [if_pos hslot, if_pos rfl]
  exact State.decideMuster_agree (s := u) (by rw [hes]; simp)

variable {f : Forming} {m : Muster}

/-- R383: rank 0 with one more record. -/
def Forming.add (f : Forming) (m : Muster) : Forming := { f with records := f.records ++ [m] }

/-- The state in which a formation stands. -/
def State.withForming (s : State) (f : Forming) : State := { s with fab := { s.fab with forming := some f } }

theorem State.musterRecord_ignored (hf : s.fab.forming = some f)
    (h : s.slot ≠ f.origin ∨ m.slot < f.origin ∨ f.origin + f.n ≤ m.slot ∨ ∃ r ∈ f.records, r.slot = m.slot) :
    s.musterRecord m = s := by
  rw [State.musterRecord, hf]
  exact if_pos (by simpa using h)

theorem State.musterRecord_joins (hf : s.fab.forming = some f) (hslot : s.slot = f.origin) (hlo : f.origin ≤ m.slot)
    (hhi : m.slot < f.origin + f.n) (hnew : ∀ r ∈ f.records, r.slot ≠ m.slot) : s.musterRecord m
      = if (f.add m).inOrder.length = f.n then (s.withForming (f.add m)).decideMuster (f.add m)
        else s.withForming (f.add m) := by
  rw [State.musterRecord, hf]
  refine if_neg ?_
  simp only [List.any_eq_true, beq_iff_eq]
  rintro (h | h | h | ⟨r, hr, h⟩)
  · exact h hslot
  · omega
  · omega
  · exact hnew r hr h

/-- R383: the records of a slice agree, at its rank 0. -/
theorem State.musterRecord_agrees (hslot : s.slot = f.origin) (hok : ∀ e ∈ s.musterEntries (f.add m), e.2.1 = 0)
    (hn : f.n ≤ 8) (ho : f.origin < 8) : let t := (s.withForming (f.add m)).decideMuster (f.add m)
    t.formed = true ∧ t.fab.step = s.hm.step.extractLsb' 0 32 ∧ t.hm.step = s.hm.step
      ∧ t.fab.cfgdig = (s.myMuster f).config.extractLsb' 0 64 := by
  dsimp only
  rw [State.decideMuster_agree (s := s.withForming (f.add m)) hok, State.formed_finish]
  exact ⟨State.formed_setFormed (f := f.add m) hn ho hslot, rfl, rfl, rfl⟩

theorem State.musterRecord_disagrees (hbad : ∃ e ∈ s.musterEntries (f.add m), e.2.1 ≠ 0) :
    let t := (s.withForming (f.add m)).decideMuster (f.add m)
    t.formed = false ∧ ∃ e, t.bbx.waiting = s.bbx.waiting ++ [e] ∧ e.code = 0x0E16#16 := by
  obtain ⟨st, h⟩ := State.decideMuster_refused (s := s.withForming (f.add m)) hbad
  dsimp only
  rw [h]
  have hleft := State.notFormed_leaves (s := (s.withForming (f.add m)).replied (f.add m) false) (f := f.add m) st
    (s.musterEntries (f.add m))
  exact ⟨hleft.1, hleft.2.2⟩

theorem State.musterTimeout_waiting (hf : s.fab.forming = some f) (h : s.slot ≠ f.origin) :
    s.musterTimeout = s.notFormed f stTimeout [(f.origin, 1, 0)] := by
  rw [State.musterTimeout, hf]
  exact if_neg h

theorem State.formingOk_some (hf : s.fab.forming = some f) (h : s.formingOk = true) : f.n ≤ 8 ∧ f.origin < 8 := by
  rw [State.formingOk, hf] at h
  simp only [Option.all_some, Bool.and_eq_true, decide_eq_true_eq] at h
  exact ⟨isPow_le h.1, h.2⟩

end
end Sys2Proof.Machine

open Sys2Proof Sys2Proof.Machine

/-- Settles O46: SLICE_FORM by what it does once its issuer has been told, a muster record by rank 0's decision. -/
theorem slicesForm : Obligations.SlicesForm := by
  intro i n d sq o m s shape
  have hshape : s.shapeOk n.toNat d.toNat sq.toNat o.toNat = true ↔ shape := s.shapeOk_iff n d sq o
  refine ⟨fun htaken hbad => ?_, fun htaken hok hfull hnone => ?_, fun f hf => ⟨?_, ?_, ?_⟩, fun hnone => ⟨?_, ?_⟩⟩
  · exact State.next_command htaken (State.sliceForm_badShape (Bool.eq_false_iff.mpr fun h => hbad (hshape.mp h)))
  · intro k f me hk
    refine ⟨_, State.next_command htaken (State.sliceForm_begins (hshape.mpr hok) hfull hnone), ?_⟩
    obtain ⟨x, hx, hr⟩ := State.ticketOf_told hk
    have htold := s.told_frame i 0x0201 0 0 0
    change (s.told i 0x0201 0 0 0).2.ticketOf k = some x at hx
    generalize (s.told i 0x0201 0 0 0).2 = u at hx htold ⊢
    have hmuster : ∀ f, u.myMuster f = s.myMuster f := fun f => by rw [htold]; rfl
    have hslot : u.slot = s.slot := by rw [htold]; rfl
    have hfab : u.fab = s.fab := by rw [htold]
    have hmemTold : u.mem = s.mem := by rw [htold]
    have hcoresTold : u.cores = s.cores := by rw [htold]
    obtain ⟨hn, hd, hsq, hmul, hmod, ho, hlo, hhi⟩ := hok
    by_cases h1 : n = 1
    · subst h1
      have hone : s.slot = o.toNat := by
        have : (1 : Byte).toNat = 1 := rfl
        omega
      have hbegun := State.formationBegins_one (k := k) (d := d.toNat) (sq := sq.toNat) (hslot.trans hone)
      let f1 : Forming := ⟨k, 1, d.toNat, sq.toNat, o.toNat, [u.myMuster ⟨k, 1, d.toNat, sq.toNat, o.toNat, []⟩]⟩
      obtain ⟨hmem, hcores, hform, hforming, hrank, hmodules, hdig, hend⟩ := State.agreed_leaves (s := u.withForming f1) (f := f1)
        hx hr (by decide : 1 ≤ 8) ho (hslot.trans hone) true (Config.musterResult ((u.withForming f1).musterEntries f1))
      rw [show (1 : Byte).toNat = 1 from rfl, hbegun]
      exact ⟨hmem.trans hmemTold, hcores.trans hcoresTold, fun h => absurd hone h,
        fun _ h => absurd rfl h, fun _ => ⟨hform, hforming, hrank, hmodules, hdig.trans (congrArg (·.config.extractLsb' 0 64) (hmuster f1)), hend⟩⟩
    · have hmore : n.toNat ≠ 1 := fun h => h1 (BitVec.eq_of_toNat_eq h)
      rw [State.formationBegins, hslot]
      dsimp only
      rw [if_neg hmore]
      by_cases hone : s.slot = o.toNat
      · rw [if_pos hone, hmuster, hfab]
        exact ⟨hmemTold, hcoresTold, fun h => absurd hone h, fun _ _ => rfl, fun h => absurd h h1⟩
      · rw [if_neg hone, hmuster, hfab]
        exact ⟨hmemTold, hcoresTold, fun _ => rfl, fun h => absurd h hone, fun h => absurd h h1⟩
  · intro hslot hlo hhi hnew
    have hrec := State.musterRecord_joins hf hslot hlo hhi hnew
    refine ⟨fun hlen => ?_, fun hlen => ?_⟩
    · exact congrArg Host.Outcome.next (hrec.trans (if_neg hlen))
    · replace hrec := hrec.trans (if_pos hlen)
      refine ⟨_, congrArg Host.Outcome.next hrec, State.forming_decideMuster .., fun hok hform => ?_, fun hbad => ?_⟩
      · obtain ⟨hn, ho⟩ := State.formingOk_some hf hform
        exact State.musterRecord_agrees hslot hok hn ho
      · exact State.musterRecord_disagrees hbad
  · exact fun h => congrArg Host.Outcome.next (State.musterRecord_ignored hf h)
  · intro h
    obtain ⟨hformed, hforming, e, hwait, hcode⟩ := s.notFormed_leaves (f := f) stTimeout [(f.origin, 1, 0)]
    exact ⟨_, e, congrArg Host.Outcome.next (State.musterTimeout_waiting hf h), hformed, hforming, hwait, hcode⟩
  · exact congrArg Host.Outcome.next (by rw [State.musterRecord, hnone])
  · exact congrArg Host.Outcome.next (by rw [State.musterTimeout, hnone])
end

section
/-! PROOF. Contained and fatal faults, and the halt and abort messages of a slice (R387, R450 to R452, R495). -/

namespace Sys2Proof.Machine

/-! ## Contained faults (R450) -/

/-- No core has a task of the step of `s`. -/
def State.stepTasksEnded (s t : State) : Prop := ∀ p ∈ t.cores, s.stepCore p.1 = true → p.2.inTask = false

theorem Sparse.get_map {α : Type} (d : α) (f : Nat → α → α) (l : List (Nat × α)) (i : Nat) (hd : f i d = d) :
    Sparse.get d (l.map fun p => (p.1, f p.1 p.2)) i = f i (Sparse.get d l i) := by
  induction l with
  | nil => exact hd.symm
  | cons p r ih =>
    simp only [List.map_cons, Sparse.get]
    split
    · next h => rw [h]
    · exact ih

/-- R450: what ending the step's tasks makes of core `n`. -/
def State.taskEnded (s : State) (n : Nat) (k : Core) : Core :=
  if s.stepCore n && k.inTask then { k with seq := { k.seq with state := .scrubbing, stall := 0, wdogCount := 0 } } else k

/-- R450: a core without a task stays as it is. -/
theorem State.taskEnded_idle {s : State} {n : Nat} {k : Core} (h : k.inTask = false) : s.taskEnded n k = k := by
  rw [State.taskEnded, h, Bool.and_false]; rfl

theorem State.inTask_taskEnded {s : State} {n : Nat} (h : s.stepCore n = true) (k : Core) : (s.taskEnded n k).inTask = false := by
  rw [State.taskEnded, h, Bool.true_and]
  cases hk : k.inTask with
  | true => rfl
  | false => exact hk

theorem State.core_endTasks (s : State) (c : CoreId) : s.endTasks.core c = s.taskEnded c.val (s.core c) :=
  Sparse.get_map Core.reset s.taskEnded s.cores c.val (State.taskEnded_idle rfl)

theorem State.stepTasksEnded_endTasks {s t : State} (hserv : t.serv = s.serv) (hhm : t.hm = s.hm) : s.stepTasksEnded t.endTasks := by
  have hstep : ∀ n, t.stepCore n = s.stepCore n := fun n => by rw [State.stepCore, State.stepCore, hserv, hhm]
  intro p hp h
  obtain ⟨q, -, rfl⟩ := List.mem_map.mp hp
  exact State.inTask_taskEnded ((hstep q.1).trans h) q.2

/-- R306: only the list of tiles to verify again may grow. -/
theorem State.reverify_frame (s : State) (c : CoreId) (cause : Nat) :
    s.reverify c cause = { s with ms := (s.reverify c cause).ms } := by
  have hfold : ∀ (xs : List (Nat × Bool)) (u : State), xs.foldl (fun s f => s.report c f.1 f.2) u
      = { u with ms := (xs.foldl (fun s f => s.report c f.1 f.2) u).ms } := by
    intro xs
    induction xs with
    | nil => exact fun _ => rfl
    | cons x xs ih =>
      intro u
      rw [List.foldl_cons, ih]; rfl
  unfold State.reverify
  split
  · exact hfold _ _
  · rfl

theorem State.blamed_frame (s : State) (c : CoreId) : s.blamed c = { s with serv := (s.blamed c).serv } := by
  unfold State.blamed
  split <;> rfl

section
variable {s : State} {c : CoreId} {f : FaultRec}

/-- R450: a core whose fault has been read. -/
def Core.faultSeen (k : Core) : Core := { k with seq := { k.seq with faultRead := true } }

/-- R450: the response has read the fault of core `c` and has left its record; memory and the core's fault stay. -/
def State.faultNoted (s t : State) (c : CoreId) (f : FaultRec) : Prop :=
  (∃ e, e ∈ t.bbx.waiting ∧ e.code = f.cause ∧ e.cls = 3#8 ∧ e.skind = 1#8 ∧ e.sidx = BitVec.ofNat 16 c.val) ∧ t.mem = s.mem
    ∧ t.core c = (s.core c).faultSeen

theorem State.faultNoted.shown {t : State} (h : s.faultNoted t c f) (hstate : (s.core c).seq.state = .faulted) :
    ∃ e, e ∈ t.bbx.waiting ∧ e.code = f.cause ∧ e.cls = 3#8 ∧ e.skind = 1#8 ∧ e.sidx = BitVec.ofNat 16 c.val ∧ t.mem = s.mem
      ∧ (t.core c).seq.faultRead = true ∧ (t.core c).seq.state = .faulted := by
  obtain ⟨⟨e, he, hcode, hcls, hskind, hsidx⟩, hmem, hcore⟩ := h
  rw [hcore]
  exact ⟨e, he, hcode, hcls, hskind, hsidx, hmem, rfl, hstate⟩

/-- R450: the state in which the fault has its record. -/
def State.faultRecorded (s : State) (c : CoreId) (f : FaultRec) : State :=
  ((s.reverify c f.cause.toNat).modSeq c fun q => { q with faultRead := true }).note f.cause.toNat 3 1 c.val
    (((s.faultRequest c).map (·.handle)).getD 0) (((s.faultRequest c).map (·.tenant.val)).getD 0) (s.core c).faultPayload

theorem State.faultNoted_recorded (s : State) (c : CoreId) (f : FaultRec) : s.faultNoted (s.faultRecorded c f) c f := by
  have hcores : (s.reverify c f.cause.toNat).core c = s.core c := by rw [State.reverify_frame]; rfl
  have hmem : (s.reverify c f.cause.toNat).mem = s.mem := by rw [State.reverify_frame]
  refine ⟨⟨_, List.mem_append_right _ (List.mem_singleton_self _), BitVec.ofNat_toNat .., rfl, rfl, rfl⟩, hmem, ?_⟩
  exact (State.core_modCore ..).trans (congrArg Core.faultSeen hcores)

theorem State.serv_faultRecorded (s : State) (c : CoreId) (f : FaultRec) :
    (s.faultRecorded c f).serv = s.serv ∧ (s.faultRecorded c f).hm = s.hm := by
  have hserv : (s.reverify c f.cause.toNat).serv = s.serv := by rw [State.reverify_frame]
  have hhm : (s.reverify c f.cause.toNat).hm = s.hm := by rw [State.reverify_frame]
  exact ⟨hserv, hhm⟩

/-- What a response does beyond the record leaves the fault noted if it leaves journal, memory and core. -/
theorem State.faultNoted.congr {t u : State} (h : s.faultNoted t c f) (hbbx : u.bbx = t.bbx) (hmem : u.mem = t.mem)
    (hcore : u.core c = t.core c) : s.faultNoted u c f := by
  obtain ⟨⟨e, he, hcode⟩, hm, hk⟩ := h
  exact ⟨⟨e, by rwa [hbbx], hcode⟩, hmem.trans hm, hcore.trans hk⟩

/-- R450: in a step, what the response does once the fault has its record. -/
def State.stepFaulted (s u : State) (c : CoreId) : State :=
  let s2 := ((u.endTasks.tellSlice (.stepAbort s.fab.step)).blamed c).dropCopies c
  let s3 := { s2 with serv := { s2.serv with aborting := true } }
  if s.waitsPeer c then { s3 with fab := { s3.fab with halting := true } }.tellSlice (.halt s.fab.step) else s3

theorem State.containedFault_faulted (hf : (s.core c).seq.fault = some f) (hstate : (s.core c).seq.state = .faulted)
    (hread : (s.core c).seq.faultRead = false) : s.containedFault c
      = if f.cause = 0x0E01 then s.faultRecorded c f
        else if !s.stepCore c.val then (s.faultRecorded c f).dropCopies c
        else s.stepFaulted (s.faultRecorded c f) c := by
  unfold State.containedFault
  dsimp only
  rw [hf]
  dsimp only
  rw [if_neg (by simp [hstate, hread])]
  unfold State.stepFaulted State.faultRecorded
  rfl

theorem State.containedFault_none (h : (s.core c).seq.fault = none ∨ (s.core c).seq.state ≠ .faulted
    ∨ (s.core c).seq.faultRead = true) : s.containedFault c = s := by
  unfold State.containedFault
  dsimp only
  split
  · rfl
  · next f hf =>
    rw [hf] at h
    exact if_pos (h.resolve_left (by simp))

/-- R450: what the end of a step leaves of a state in which the fault has its record. -/
theorem State.stepFaulted_keeps (s u : State) (c : CoreId) : let t := s.stepFaulted u c
    t.cores = u.endTasks.cores ∧ t.bbx = u.bbx ∧ t.mem = u.mem ∧ t.serv.aborting = true := by
  let v := u.endTasks.tellSlice (.stepAbort s.fab.step)
  have hcores : (v.blamed c).cores = v.cores := by rw [State.blamed_frame]
  have hbbx : (v.blamed c).bbx = v.bbx := by rw [State.blamed_frame]
  have hmem : (v.blamed c).mem = v.mem := by rw [State.blamed_frame]
  unfold State.stepFaulted
  dsimp only
  split
  · exact ⟨hcores, hbbx, hmem, rfl⟩
  · exact ⟨hcores, hbbx, hmem, rfl⟩

/-- R450: a faulted core has no task to end. -/
theorem State.stepFaulted_leaves (hstate : (s.core c).seq.state = .faulted) : let t := s.stepFaulted (s.faultRecorded c f) c
    s.faultNoted t c f ∧ t.serv.aborting = true ∧ s.stepTasksEnded t := by
  obtain ⟨hcores, hbbx, hmem, habort⟩ := s.stepFaulted_keeps (s.faultRecorded c f) c
  obtain ⟨hserv, hhm⟩ := s.serv_faultRecorded c f
  have hnoted := s.faultNoted_recorded c f
  refine ⟨hnoted.congr hbbx hmem ?_, habort, ?_⟩
  · have hidle : ((s.faultRecorded c f).core c).inTask = false := by
      rw [hnoted.2.2, Core.inTask]
      simp [Core.faultSeen, hstate]
    calc (s.stepFaulted (s.faultRecorded c f) c).core c = (s.faultRecorded c f).endTasks.core c := by rw [State.core, hcores]; rfl
      _ = (s.faultRecorded c f).taskEnded c.val ((s.faultRecorded c f).core c) := State.core_endTasks ..
      _ = _ := State.taskEnded_idle hidle
  · rw [State.stepTasksEnded, hcores]
    exact State.stepTasksEnded_endTasks hserv hhm

end

/-! ## Messages of the slice (R387, R450, R451) -/

section
variable {s : State} {step : W32}

theorem State.stepAborted_cases (s : State) (step : W32) : s.stepAborted step
    = if s.formed = true ∧ step = s.fab.step then { s.endTasks with serv := { s.serv with aborting := true } } else s := by
  unfold State.stepAborted
  simp only [Bool.and_eq_true, beq_iff_eq]
  rfl

theorem State.haltIn_unformed (h : s.formed = false) : s.haltIn step = s := by
  rw [State.haltIn, h]; rfl

/-- R387: what a halt message leaves in a module of the slice. -/
theorem State.haltIn_formed (h : s.formed = true) : let t := s.haltIn step
    t.fab.halting = true ∧ t.mem = s.mem ∧ (step = s.fab.step → t.fab.aborted = true) := by
  unfold State.haltIn
  dsimp only
  rw [h, Bool.not_true, if_neg Bool.false_ne_true]
  generalize hu : (if s.fab.aborted = true then s else s.note 0x0E14 0 6 0 0 0 []) = u
  have hmem : u.mem = s.mem := by rw [← hu]; split <;> rfl
  split
  · rw [State.fab_abortCollectives, State.frame_abortCollectives]
    exact ⟨rfl, hmem, fun _ => rfl⟩
  · next hne => exact ⟨rfl, hmem, fun h => absurd h hne⟩

end

/-! ## Fatal faults (R451, R452, R495) -/

/-- R451: a fatal fault's state and record. -/
theorem State.fatal_leaves (s : State) (n : Nat) (code : W16) (hcode : BitVec.ofNat 16 n = code) (snapshot : List W64) :
    ∃ e, s.fatal n snapshot = { s with hm := { s.hm with state := 3 }, bbx := { s.bbx with waiting := s.bbx.waiting ++ [e] } }
      ∧ e.code = code ∧ e.cls = 4#8 := ⟨_, rfl, hcode, rfl⟩

section
variable {s : State} (hup : s.hm.down = false)
include hup

theorem exec_fatalFault (cause : W16) (snapshot : List W64) :
    exec (.fatalFault cause snapshot) s = .next (if s.hm.state = 3 then s else s.fatal cause.toNat snapshot) :=
  s.live_next (fun s => if s.hm.state = 3 then s else s.fatal cause.toNat snapshot) hup

theorem exec_hmSramError : exec .hmSramError s = .next (if s.hm.state = 3 then s else s.fatal 0x1101 []) :=
  s.live_next (fun s => if s.hm.state = 3 then s else s.fatal 0x1101 []) hup

theorem exec_hmWatchdog (h : BitVec 2) : exec (.hmWatchdog h) s
    = .next (if s.hm.state = 3 ∨ (s.hmAt h).halted = true then s else s.fatal 0x1102 [BitVec.ofNat 64 h.toNat]) := by
  have hat : s.dbg.hms.toList.getD h.toNat HmCore.reset = s.hmAt h := by
    simp [State.hmAt, List.getD, h.isLt]
  rw [← hat]
  exact s.live_next (fun s => if s.hm.state = 3 ∨ (s.dbg.hms.toList.getD h.toNat HmCore.reset).halted = true then s
    else s.fatal 0x1102 [BitVec.ofNat 64 h.toNat]) hup

end

end Sys2Proof.Machine

open Sys2Proof Sys2Proof.Machine

/-- Settles O47: a contained fault by its record and the end of the step's tasks, a fatal one by the state that it leaves. -/
theorem faultsAreContainedOrFatal : Obligations.FaultsAreContainedOrFatal := by
  intro c cause snapshot h step s hup k fatal ended
  refine ⟨fun f hf hstate hread => ?_, fun hno => congrArg Host.Outcome.next (State.containedFault_none hno), fun hrun => ⟨?_, ?_, fun hgo => ?_⟩,
    fun hstopped i hi => ?_, fun hhalted => ?_, ?_, fun hformed => ?_, fun hunformed => congrArg Host.Outcome.next (State.haltIn_unformed hunformed)⟩
  · have hexec : exec (.containedFaultResponse c) s = _ :=
      congrArg Host.Outcome.next (State.containedFault_faulted hf hstate hread)
    have hnoted := s.faultNoted_recorded c f
    obtain ⟨hserv, hhm⟩ := s.serv_faultRecorded c f
    by_cases hcause : f.cause = 0x0E01
    · rw [if_pos hcause] at hexec
      obtain ⟨e, he, hcode, hcls, hskind, hsidx, hmem, hread, hst⟩ := hnoted.shown hstate
      exact ⟨_, e, hexec, he, hcode, hcls, hskind, hsidx, hmem, hread, hst, fun h => absurd hcause h, fun _ => hserv⟩
    · rw [if_neg hcause] at hexec
      by_cases hstep : s.stepCore c.val = true
      · rw [if_neg (by simp [hstep])] at hexec
        obtain ⟨hnoted, habort, hended⟩ := s.stepFaulted_leaves (f := f) hstate
        obtain ⟨e, he, hcode, hcls, hskind, hsidx, hmem, hread, hst⟩ := hnoted.shown hstate
        exact ⟨_, e, hexec, he, hcode, hcls, hskind, hsidx, hmem, hread, hst, fun _ _ => ⟨habort, hended⟩,
          fun h => absurd hstep (ne_true_of_eq_false (h.resolve_left hcause))⟩
      · rw [if_pos (by simpa using hstep)] at hexec
        obtain ⟨e, he, hcode, hcls, hskind, hsidx, hmem, hread, hst⟩ := hnoted.shown hstate
        exact ⟨_, e, hexec, he, hcode, hcls, hskind, hsidx, hmem, hread, hst, fun _ h => absurd h hstep, fun _ => hserv⟩
  · obtain ⟨e, he, hcode, hcls⟩ := s.fatal_leaves cause.toNat cause (BitVec.ofNat_toNat ..) snapshot
    exact ⟨_, e, (exec_fatalFault hup ..).trans (congrArg Host.Outcome.next (if_neg hrun)), he, hcode, hcls⟩
  · obtain ⟨e, he, hcode, hcls⟩ := s.fatal_leaves 0x1101 0x1101 rfl []
    exact ⟨_, e, (exec_hmSramError hup).trans (congrArg Host.Outcome.next (if_neg hrun)), he, hcode, hcls⟩
  · obtain ⟨e, he, hcode, hcls⟩ := s.fatal_leaves 0x1102 0x1102 rfl [BitVec.ofNat 64 h.toNat]
    refine ⟨_, e, (exec_hmWatchdog hup h).trans (congrArg Host.Outcome.next (if_neg ?_)), he, hcode, hcls⟩
    exact not_or.mpr ⟨hrun, ne_true_of_eq_false hgo⟩
  · simp only [List.mem_cons, List.not_mem_nil, or_false] at hi
    obtain rfl | rfl | rfl := hi
    · exact (exec_fatalFault hup ..).trans (congrArg Host.Outcome.next (if_pos hstopped))
    · exact (exec_hmSramError hup).trans (congrArg Host.Outcome.next (if_pos hstopped))
    · exact (exec_hmWatchdog hup h).trans (congrArg Host.Outcome.next (if_pos (Or.inl hstopped)))
  · exact (exec_hmWatchdog hup h).trans (congrArg Host.Outcome.next (if_pos (Or.inr hhalted)))
  · have hexec : exec (.stepAbortMessage step) s = _ := congrArg Host.Outcome.next (s.stepAborted_cases step)
    split
    · next hstep =>
      rw [if_pos hstep] at hexec
      exact ⟨_, hexec, rfl, State.stepTasksEnded_endTasks rfl rfl, rfl, rfl⟩
    · next hno => exact hexec.trans (congrArg Host.Outcome.next (if_neg hno))
  · exact ⟨_, rfl, State.haltIn_formed hformed⟩
end

section
/-! PROOF. The uplinks: datagrams of a flow, its timers, link changes, module time (R391 to R394). -/

namespace Sys2Proof.Machine

/-! ## One uplink -/

/-- Uplink `u` becomes `y`, and nothing else of the block changes. -/
def State.onlyUp (s t : State) (u : UplinkId) (y : UPort) : Prop :=
  t = { s with fab := { s.fab with ups := t.fab.ups } } ∧ t.up u = y ∧ ∀ v, v ≠ u → t.up v = s.up v

theorem State.up_modUp_other (s : State) {u v : UplinkId} (h : v ≠ u) (f : UPort → UPort) : (s.modUp u f).up v = s.up v := by
  have hne : u.val ≠ v.val := fun e => h (Fin.ext e.symm)
  exact Vector.getElem_set_ne u.isLt v.isLt hne

theorem State.onlyUp_modUp (s : State) (u : UplinkId) (f : UPort → UPort) : s.onlyUp (s.modUp u f) u (f (s.up u)) :=
  ⟨rfl, State.up_modUp .., fun _ h => State.up_modUp_other s h f⟩

/-! ## What sending leaves (R392) -/

/-- The flow without what sending changes. -/
def UFlow.exceptSent (g : UFlow) : UFlow := { g with nextSeq := 0, unacked := [], toSend := [] }

/-- Flows have sent: of the block only the flows' side of the fabric and what goes out changed, no link came up or went down, and
each flow has received what it had. -/
def State.Sends (s t : State) : Prop :=
  t = { s with fab := { s.fab with flows := t.fab.flows, ups := t.fab.ups }, host := { s.host with out := t.host.out } }
    ∧ (∀ u, (t.up u).link = (s.up u).link) ∧ t.fab.flows.map UFlow.exceptSent = s.fab.flows.map UFlow.exceptSent

section
variable {s₀ s t : State}

theorem State.Sends.refl (s : State) : s.Sends s := ⟨rfl, fun _ => rfl, rfl⟩

theorem State.Sends.trans (h : s₀.Sends s) (h' : s.Sends t) : s₀.Sends t := by
  obtain ⟨hs, hl, hf⟩ := h
  obtain ⟨ht, hl', hf'⟩ := h'
  refine ⟨?_, fun u => (hl' u).trans (hl u), hf'.trans hf⟩
  rw [ht, hs]

theorem map_updFirst {α β : Type} {e : α → β} {p : α → Bool} {x y : α} (he : e y = e x) (l : List α) (hx : l.find? p = some x) :
    (updFirst p (fun _ => y) l).map e = l.map e := by
  induction l with
  | nil => rfl
  | cons z l ih =>
    unfold updFirst
    by_cases hz : p z = true
    · rw [List.find?_cons_of_pos hz] at hx
      obtain rfl := Option.some.inj hx
      rw [if_pos hz, List.map_cons, List.map_cons, he]
    · rw [List.find?_cons_of_neg hz] at hx
      rw [if_neg hz, List.map_cons, List.map_cons, ih hx]

/-- A flow changes in what sending changes. -/
theorem State.sends_setFlow {g g' : UFlow} (hg : s.flow g'.id = some g) (he : g'.exceptSent = g.exceptSent) : s.Sends (s.setFlow g') :=
  ⟨rfl, fun _ => rfl, map_updFirst he _ hg⟩

theorem State.link_modUp {u : UplinkId} {f : UPort → UPort} (hf : ∀ x, (f x).link = x.link) (v : UplinkId) :
    ((s.modUp u f).up v).link = (s.up v).link := by
  by_cases h : v = u
  · rw [h, State.up_modUp, hf]
  · rw [State.up_modUp_other s h]

theorem State.sends_sendDatagram (s : State) (typ : Byte) (d : Datagram) : s.Sends (s.sendDatagram typ d) := by
  unfold State.sendDatagram
  split
  · exact .refl s
  · next u _ => exact ⟨rfl, State.link_modUp (s := s) (u := u) (f := fun x => { x with tx := bumpBy (32 + d.data.length) x.tx })
      fun _ => rfl, rfl⟩

theorem State.sends_pumpFlow (n : Nat) (id : W32) (s : State) : s.Sends (s.pumpFlow n id) := by
  induction n generalizing s with
  | zero => exact .refl s
  | succ n ih =>
    rw [State.pumpFlow]
    split
    · exact .refl s
    · next g hg =>
      dsimp only
      split
      · exact .refl s
      · refine .trans (.trans ?_ (State.sends_sendDatagram ..)) (ih _)
        refine State.sends_setFlow (g := g) ?_ rfl
        rwa [State.flow_id hg]

theorem State.sends_runFlow (s : State) (id : W32) : s.Sends (s.runFlow id) := by
  unfold State.runFlow
  split
  · exact State.sends_pumpFlow ..
  · exact .refl s

theorem State.sends_runFlows (xs : List UFlow) (s : State) : s.Sends (xs.foldl (fun s f => s.runFlow f.id) s) := by
  induction xs generalizing s with
  | nil => exact .refl s
  | cons x xs ih => exact .trans (State.sends_runFlow s x.id) (ih _)

theorem State.sends_runPeer (s : State) (id : W32) : s.Sends (s.runPeer id) := by
  unfold State.runPeer
  split
  · exact State.sends_runFlows ..
  · exact .refl s

/-- R392: what a flow has received stays as flows send. -/
theorem State.Sends.flow (h : s.Sends t) {id : W32} {g : UFlow} (hg : s.flow id = some g) :
    ∃ g', t.flow id = some g' ∧ g'.exceptSent = g.exceptSent := by
  have hfind : ∀ l : List UFlow, (l.map UFlow.exceptSent).find? (fun f => f.id == id)
      = (l.find? fun f => f.id == id).map UFlow.exceptSent := fun l => List.find?_map ..
  have hmap : (t.flow id).map UFlow.exceptSent = (s.flow id).map UFlow.exceptSent := by
    rw [State.flow, ← hfind, h.2.2, hfind]; rfl
  rw [hg] at hmap
  exact Option.map_eq_some_iff.mp hmap

theorem State.Sends.flowUplink (h : s.Sends t) (id : W32) : t.flowUplink id = s.flowUplink id := by
  simp only [State.flowUplink, h.2.1]

theorem State.Sends.mem (h : s.Sends t) : t.mem = s.mem := by rw [h.1]
theorem State.Sends.bbx (h : s.Sends t) : t.bbx = s.bbx := by rw [h.1]
theorem State.Sends.tickets (h : s.Sends t) : t.host.tickets = s.host.tickets := by rw [h.1]

end

/-! ## A datagram arrives (R392, R394) -/

/-- R394: a datagram that is malformed. -/
theorem badDatagram_iff (d : Datagram) : badDatagram d = true
    ↔ d.reservedZero = false ∨ d.crcOk = false ∨ 8192 < d.data.length ∨ 3 < d.dclass.toNat := by
  simp [badDatagram, or_assoc]

/-- The state in which uplink `u` has counted a datagram's bytes. -/
def State.counted (s : State) (u : UplinkId) (d : Datagram) : State :=
  s.modUp u fun x => { x with rx := bumpBy (32 + d.data.length) x.rx }

section
variable {s : State} {u : UplinkId} {d : Datagram} {g : UFlow}

theorem State.datagramIn_down (h : (s.up u).link.up = false) (f : State → State) : s.datagramIn u d f = s := by
  rw [State.datagramIn, h]; rfl

theorem State.datagramIn_bad (h : (s.up u).link.up = true) (hbad : badDatagram d = true) (f : State → State) :
    s.datagramIn u d f = (s.counted u d).uplinkViol u := by
  rw [State.datagramIn, h, hbad]; rfl

theorem State.datagramIn_good (h : (s.up u).link.up = true) (hgood : badDatagram d = false) (f : State → State) :
    s.datagramIn u d f = f (s.counted u d) := by
  rw [State.datagramIn, h, hgood]; rfl

theorem State.onlyUp_counted (s : State) (u : UplinkId) (d : Datagram) :
    s.onlyUp (s.counted u d) u { s.up u with rx := bumpBy (32 + d.data.length) (s.up u).rx } := State.onlyUp_modUp ..

theorem State.onlyUp_violation (s : State) (u : UplinkId) (d : Datagram) : s.onlyUp ((s.counted u d).uplinkViol u) u
    { s.up u with rx := bumpBy (32 + d.data.length) (s.up u).rx, viol := bump (s.up u).viol } := by
  refine ⟨rfl, ?_, fun v h => ?_⟩
  · rw [State.uplinkViol, State.up_modUp, State.counted, State.up_modUp]
  · rw [State.uplinkViol, State.up_modUp_other _ h, State.counted, State.up_modUp_other _ h]

@[simp] theorem State.flow_counted (s : State) (u : UplinkId) (d : Datagram) (id : W32) : (s.counted u d).flow id = s.flow id := rfl

/-! ### A flow and its peer's other flows -/

/-- What becomes of a flow as flow `g` of its peer changes. -/
def UFlow.withPeer (g f : UFlow) : UFlow :=
  if f.id = g.id then g else if samePeer f g then { f with window := g.window, peerWindow := g.peerWindow } else f

theorem UFlow.id_withPeer (g f : UFlow) : (g.withPeer f).id = f.id := by
  unfold UFlow.withPeer
  split
  · next h => exact h.symm
  · split <;> rfl

theorem State.flow_setPeer_map (s : State) (g : UFlow) (id : W32) : (s.setPeer g).flow id = (s.flow id).map g.withPeer := by
  have hcomp : (fun f : UFlow => f.id == id) ∘ g.withPeer = fun f => f.id == id :=
    funext fun f => by rw [Function.comp, UFlow.id_withPeer]
  have hmap : (s.setPeer g).fab.flows = s.fab.flows.map g.withPeer := rfl
  rw [State.flow, hmap, List.find?_map, hcomp]; rfl

theorem State.flow_setPeer {g' : UFlow} (hg : s.flow g'.id = some g) : (s.setPeer g').flow g'.id = some g' := by
  rw [State.flow_setPeer_map, hg, Option.map_some, UFlow.withPeer, if_pos (State.flow_id hg)]

/-- R392: where no flow of the peer has anything to send, its flows stay as they are. -/
theorem State.runPeer_idle {id : W32} (hg : s.flow id = some g)
    (h : ∀ y ∈ s.fab.flows, samePeer g y = true → ∀ z ∈ s.flow y.id, z.toSend = []) : s.runPeer id = s := by
  have hrun : ∀ y ∈ s.fab.flows.filter (samePeer g), s.runFlow y.id = s := by
    intro y hy
    obtain ⟨hmem, hpeer⟩ := List.mem_filter.mp hy
    unfold State.runFlow
    split
    · next z hz =>
      rw [State.pumpFlow, hz]
      simp only [h y hmem hpeer z hz, List.take_nil, true_or, if_true]
    · rfl
  have hfold : ∀ xs : List UFlow, (∀ y ∈ xs, s.runFlow y.id = s) → xs.foldl (fun s f => s.runFlow f.id) s = s := by
    intro xs hxs
    induction xs with
    | nil => rfl
    | cons x xs ih =>
      rw [List.foldl_cons, hxs x List.mem_cons_self]
      exact ih fun y hy => hxs y (List.mem_cons_of_mem _ hy)
  rw [State.runPeer, hg]
  exact hfold _ hrun

/-- R392: a flow that takes an acknowledgement keeps what it has to send, and so do its peer's other flows. -/
theorem State.toSend_setPeer {g' : UFlow} (hg : s.flow g'.id = some g) (hid : g.id = g'.id) (hpeer : g'.peer = g.peer)
    (hsend : g'.toSend = g.toSend) (h : ∀ y ∈ s.fab.flows, samePeer g y = true → ∀ z ∈ s.flow y.id, z.toSend = []) :
    ∀ y ∈ (s.setPeer g').fab.flows, samePeer g' y = true → ∀ z ∈ (s.setPeer g').flow y.id, z.toSend = [] := by
  intro y hy hy' z hz
  obtain ⟨f, hf, rfl⟩ := List.mem_map.mp (show y ∈ s.fab.flows.map g'.withPeer from hy)
  rw [UFlow.id_withPeer, State.flow_setPeer_map] at hz
  obtain ⟨x, hx, rfl⟩ := Option.map_eq_some_iff.mp hz
  have hsame : samePeer g f = true := by
    by_cases he : f.id = g'.id
    · simp [samePeer, hid, he]
    · have hp : (g'.withPeer f).peer = f.peer := by
        rw [UFlow.withPeer, if_neg he]
        split <;> rfl
      rwa [samePeer, UFlow.id_withPeer, hp, hpeer, ← hid] at hy'
  have hxs := h f hf hsame x hx
  unfold UFlow.withPeer
  split
  · next he =>
    have hfx := State.flow_id hx
    rw [show f.id = g'.id from hfx.symm.trans he, hg] at hx
    rw [hsend, Option.some.inj hx, hxs]
  · split
    · exact hxs
    · exact hxs

/-! ### What a datagram of a flow does -/

/-- R392: a flow that has sent its acknowledgement. -/
def UFlow.ackSent (g : UFlow) : UFlow := { g with sinceAck := 0, ce := false }

theorem State.flow_sendAckOf {g' : UFlow} (hg : s.flow g'.id = some g) : (s.sendAckOf g').flow g'.id = some g'.ackSent :=
  (State.flow_sendDatagram ..).trans (State.flow_setFlow (g' := g'.ackSent) hg)

theorem State.exceptLinks_sendAckOf (s : State) (g : UFlow) : (s.sendAckOf g).exceptLinks = s.exceptLinks :=
  State.exceptLinks_sendDatagram ..

/-- R392: the flow that has taken a datagram in its turn. -/
def UFlow.taken (g : UFlow) (d : Datagram) : UFlow :=
  { (g.acked d.ack false (d.window.toNat * 1024)) with
    expect := g.expect + 1, got := g.got ++ d.data, sinceAck := g.sinceAck + 1, ce := g.ce || d.ce }

section
variable (hup : (s.up u).link.up = true) (hgood : badDatagram d = false)
include hup hgood

theorem State.uplink_noFlow (hnone : s.flow d.flow = none) : let t := (s.counted u d).uplinkViol u
    s.uplinkData u d = t ∧ s.uplinkAck u d = t ∧ s.uplinkClose u d = t ∧ s.uplinkReset u d = t := by
  have hflow : (s.counted u d).flow d.flow = none := hnone
  refine ⟨?_, ?_, ?_, ?_⟩
  · rw [State.uplinkData, State.datagramIn_good hup hgood, hflow]
  · rw [State.uplinkAck, State.datagramIn_good hup hgood, hflow]
  · rw [State.uplinkClose, State.datagramIn_good hup hgood, hflow]
  · rw [State.uplinkReset, State.datagramIn_good hup hgood, hflow]

theorem State.uplinkOpen_opens : s.uplinkOpen u d = { s.counted u d with fab := { (s.counted u d).fab with
    flows := (s.fab.flows.filter fun f => f.id != d.flow) ++ [UFlow.fresh d.flow d.dclass (d.seq + 1)] } } := by
  rw [State.uplinkOpen, State.datagramIn_good hup hgood]; rfl

variable (hg : s.flow d.flow = some g)
include hg

theorem State.uplinkData_cases : let c := s.counted u d
    s.uplinkData u d = if 1024 ≤ (d.seq - g.expect).toNat then c.uplinkViol u else if d.seq ≠ g.expect then c
      else (if 16 ≤ g.sinceAck + 1 then (c.setPeer (g.taken d)).sendAckOf (g.taken d) else c.setPeer (g.taken d)).runPeer d.flow := by
  have hflow : (s.counted u d).flow d.flow = some g := hg
  rw [State.uplinkData, State.datagramIn_good hup hgood, hflow]
  rfl

/-- R392: a datagram in its turn is taken, and every 16th is acknowledged at once. -/
theorem State.uplinkData_taken (hseq : d.seq = g.expect) : let t := s.uplinkData u d
    ∃ f, t.flow d.flow = some f ∧ f.expect = g.expect + 1 ∧ f.got = g.got ++ d.data ∧ t.mem = s.mem
      ∧ (16 ≤ g.sinceAck + 1 → f.sinceAck = 0) ∧ (g.sinceAck + 1 < 16 → f.sinceAck = g.sinceAck + 1) := by
  have hid : d.flow = (g.taken d).id := (State.flow_id hg).symm
  have hset : ((s.counted u d).setPeer (g.taken d)).flow d.flow = some (g.taken d) := by
    rw [hid] at hg ⊢
    exact State.flow_setPeer (s := s.counted u d) hg
  have h0 : (d.seq - g.expect).toNat = 0 := by rw [hseq, BitVec.sub_self]; rfl
  rw [State.uplinkData_cases hup hgood hg, if_neg (by omega), if_neg (not_not_intro hseq)]
  by_cases hdue : 16 ≤ g.sinceAck + 1
  · rw [if_pos hdue]
    have hack : (((s.counted u d).setPeer (g.taken d)).sendAckOf (g.taken d)).flow d.flow = some (g.taken d).ackSent := by
      rw [hid] at hset ⊢
      exact State.flow_sendAckOf hset
    have hruns := State.sends_runPeer (((s.counted u d).setPeer (g.taken d)).sendAckOf (g.taken d)) d.flow
    obtain ⟨f, hf, he⟩ := hruns.flow hack
    exact ⟨f, hf, congrArg (UFlow.expect ·) he, congrArg (UFlow.got ·) he,
      hruns.mem.trans (State.mem_of_exceptLinks (State.exceptLinks_sendAckOf ..)), fun _ => congrArg (UFlow.sinceAck ·) he,
      fun h => absurd hdue (Nat.not_le_of_lt h)⟩
  · rw [if_neg hdue]
    have hruns := State.sends_runPeer ((s.counted u d).setPeer (g.taken d)) d.flow
    obtain ⟨f, hf, he⟩ := hruns.flow hset
    exact ⟨f, hf, congrArg (UFlow.expect ·) he, congrArg (UFlow.got ·) he, hruns.mem, fun h => absurd h hdue,
      fun _ => congrArg (UFlow.sinceAck ·) he⟩

theorem State.uplinkAck_idle
    (hidle : ∀ y ∈ s.fab.flows, samePeer g y = true → ∀ z ∈ s.flow y.id, z.toSend = []) :
    s.uplinkAck u d = (s.counted u d).setPeer (g.acked d.ack d.ce (d.window.toNat * 1024)) := by
  have hflow : (s.counted u d).flow d.flow = some g := hg
  have hid : d.flow = (g.acked d.ack d.ce (d.window.toNat * 1024)).id := (State.flow_id hg).symm
  rw [State.uplinkAck, State.datagramIn_good hup hgood, hflow]
  rw [hid] at hflow
  dsimp only
  rw [hid]
  exact State.runPeer_idle (State.flow_setPeer hflow) (State.toSend_setPeer hflow rfl rfl rfl hidle)

theorem State.uplinkClose_closes : let t := s.uplinkClose u d
    t.flow d.flow = none ∧ t.mem = s.mem := by
  have hflow : (s.counted u d).flow d.flow = some g := hg
  rw [State.uplinkClose, State.datagramIn_good hup hgood, hflow]
  dsimp only
  refine ⟨?_, State.mem_of_exceptLinks (State.exceptLinks_sendAckOf ..)⟩
  rw [State.flow, State.dropFlow, List.find?_eq_none]
  intro x hx
  simpa using (List.mem_filter.mp hx).2

theorem State.uplinkReset_resets : s.uplinkReset u d = (s.counted u d).setFlow (UFlow.fresh g.id g.dclass (d.seq + 1)) := by
  have hflow : (s.counted u d).flow d.flow = some g := hg
  rw [State.uplinkReset, State.datagramIn_good hup hgood, hflow]

end

end

/-! ## Timers of a flow (R392) -/

section
variable {s : State} {id : W32} {g : UFlow} {w : UplinkId}

/-- R392: a datagram goes out on its flow's uplink. -/
theorem State.sendDatagram_up {d : Datagram} (h : s.flowUplink d.flow = some w) (typ : Byte) : s.sendDatagram typ d
    = (s.modUp w fun x => { x with tx := bumpBy (32 + d.data.length) x.tx }).send (.datagram w typ d) := by
  rw [State.sendDatagram, h]

@[simp] theorem State.up_send (s : State) (p : Posted) (u : UplinkId) : (s.send p).up u = s.up u := rfl

theorem State.out_sendAckOf (h : s.flowUplink g.id = some w) :
    (s.sendAckOf g).host.out = s.host.out ++ [.datagram w 2 (g.datagram g.nextSeq g.ce [])] := by
  have hack : (s.setFlow g.ackSent).flowUplink (g.datagram g.nextSeq g.ce []).flow = some w := h
  exact congrArg (·.host.out) (State.sendDatagram_up hack 2)

theorem State.uplinkAckTimer_acks (hg : s.flow id = some g) (hdue : g.sinceAck ≠ 0) : let t := s.uplinkAckTimer id
    t.flow id = some { g with sinceAck := 0, ce := false }
      ∧ ∀ w, s.flowUplink id = some w → t.host.out = s.host.out ++ [.datagram w 2 (g.datagram g.nextSeq g.ce [])] := by
  obtain rfl := State.flow_id hg
  dsimp only
  rw [State.uplinkAckTimer, hg]
  dsimp only
  rw [if_neg hdue]
  refine ⟨State.flow_sendAckOf hg, fun w hw => ?_⟩
  exact State.out_sendAckOf hw

/-- R392: datagrams of a flow that go out again. -/
theorem State.resend (hw : s.flowUplink id = some w) (es : List Datagram) (h : ∀ e ∈ es, e.flow = id) :
    let t := es.foldl (fun s d => s.sendDatagram 1 d) s
    t.host.out = s.host.out ++ es.map (fun e => .datagram w 1 e) ∧ (t.up w).retx = (s.up w).retx := by
  induction es generalizing s with
  | nil => exact ⟨(List.append_nil _).symm, rfl⟩
  | cons e es ih =>
    have he : s.flowUplink e.flow = some w := by rw [h e List.mem_cons_self]; exact hw
    have hsent := State.sends_sendDatagram s 1 e
    obtain ⟨hout, hretx⟩ := ih ((hsent.flowUplink id).trans hw) fun x hx => h x (List.mem_cons_of_mem _ hx)
    rw [State.sendDatagram_up he] at hout hretx
    dsimp only
    rw [List.foldl_cons, State.sendDatagram_up he]
    refine ⟨hout.trans ?_, hretx.trans ?_⟩
    · simp [State.send, State.modUp]
    · rw [State.up_send, State.up_modUp]

theorem State.up_noteRetry (s : State) (skind sidx : Nat) (payload : List W64) (u : UplinkId) :
    (s.noteRetry skind sidx payload).up u = s.up u := by
  rw [State.noteRetry_frame]; rfl

theorem State.uplinkRetransmit_resends (hg : s.flow id = some g) (hw : s.flowUplink id = some w) (h : ∀ e ∈ g.unacked, e.flow = id) :
    let t := s.uplinkRetransmit id
    (t.up w).retx = bumpBy g.unacked.length (s.up w).retx ∧ t.host.out = s.host.out ++ g.unacked.map (fun e => .datagram w 1 e) := by
  obtain ⟨hout, hretx⟩ := State.resend hw g.unacked h
  dsimp only
  rw [State.uplinkRetransmit, hg, hw]
  dsimp only
  rw [State.up_noteRetry, State.up_modUp, ← hretx, State.noteRetry_frame]
  exact ⟨rfl, hout⟩

/-- R392: the flow ends; of the rest only the tickets of its work change. -/
theorem State.uplinkFlowTimeout_ends (hg : s.flow id = some g) : let t := s.uplinkFlowTimeout id
    t.flow id = none ∧ t.fab = { s.fab with flows := s.fab.flows.filter fun f => f.id != id } ∧ t.host.out = s.host.out := by
  have hfold : ∀ (xs : List Ticket) (u : State), let v := xs.foldl (fun s t => s.finish t.num stTimeout 0) u
      v.fab = u.fab ∧ v.host.out = u.host.out := by
    intro xs
    induction xs with
    | nil => exact fun u => ⟨rfl, rfl⟩
    | cons x xs ih => exact fun u => ih _
  obtain ⟨hfab, hout⟩ := hfold ((s.dropFlow id).host.tickets.filter (flowTicket id)) (s.dropFlow id)
  dsimp only
  rw [State.uplinkFlowTimeout, hg]
  refine ⟨?_, hfab, hout⟩
  rw [State.flow, hfab, State.dropFlow, List.find?_eq_none]
  intro x hx
  simpa using (List.mem_filter.mp hx).2

end

/-! ## Links and time (R392 to R394) -/

/-- R393: an uplink that has lost its source of time. -/
def UPort.heldOver (x : UPort) : UPort := if x.ptpState = 1 then { x with ptp := false, ptpState := 2 } else x

theorem State.timeSourceLost_holds {s : State} (h : s.hm.synced = true) : ∃ t e, exec .timeSourceLost s = .next t
    ∧ t.hm = { s.hm with synced := false } ∧ t.bbx.waiting = s.bbx.waiting ++ [e] ∧ e.code = 0x0E18#16
    ∧ ∀ u, t.up u = (s.up u).heldOver := by
  refine ⟨_, _, congrArg Host.Outcome.next (if_neg ?_), rfl, rfl, rfl, fun u => ?_⟩
  · rw [h]; decide
  · show (((s.modUp 0 UPort.heldOver).modUp 1 UPort.heldOver).up u) = _
    obtain rfl | rfl : u = 0 ∨ u = 1 := (by decide : ∀ u : UplinkId, u = 0 ∨ u = 1) u
    · rw [State.up_modUp_other _ (by decide), State.up_modUp]
    · rw [State.up_modUp, State.up_modUp_other _ (by decide)]

end Sys2Proof.Machine

open Sys2Proof Sys2Proof.Machine

/-- Settles O49: an arriving datagram by its uplink's link, its form and its flow; timers by the flow that they name. -/
theorem uplinksCarryFlows : Obligations.UplinksCarryFlows := by
  intro u d id err ns g s x up bad arrives onlyUp rx
  have hup : up ↔ (s.up u).link.up = true := (LinkState.up_iff _).symm
  have hbad : bad ↔ badDatagram d = true := (badDatagram_iff d).symm
  have hnotDown : up → ¬((!(s.up u).link.up) = true) := fun h => by rw [hup.mp h]; decide
  refine ⟨fun h i hi => ?_, fun h hb i hi => ?_, fun h hb hnone i hi hne => ?_, fun h hb => ?_, fun h hb hg => ?_, fun hg => ?_, fun h => ?_,
    fun h => ⟨_, congrArg Host.Outcome.next (if_pos h), State.onlyUp_modUp ..⟩, fun h => ⟨?_, ?_, ?_⟩, fun h => ?_, fun h => ?_⟩
  · have hdown : (s.up u).link.up = false := Bool.eq_false_iff.mpr fun h' => h (hup.mpr h')
    simp only [arrives, List.mem_cons, List.not_mem_nil, or_false] at hi
    obtain rfl | rfl | rfl | rfl | rfl := hi
    all_goals exact congrArg Host.Outcome.next (State.datagramIn_down hdown _)
  · simp only [arrives, List.mem_cons, List.not_mem_nil, or_false] at hi
    refine ⟨_, ?_, s.onlyUp_violation u d⟩
    obtain rfl | rfl | rfl | rfl | rfl := hi
    all_goals exact congrArg Host.Outcome.next (State.datagramIn_bad (hup.mp h) (hbad.mp hb) _)
  · obtain ⟨hdata, hack, hclose, hreset⟩ := State.uplink_noFlow (hup.mp h) (Bool.eq_false_iff.mpr fun h' => hb (hbad.mpr h')) hnone
    refine ⟨_, ?_, s.onlyUp_violation u d⟩
    simp only [arrives, List.mem_cons, List.not_mem_nil, or_false] at hi
    obtain rfl | rfl | rfl | rfl | rfl := hi
    · exact congrArg Host.Outcome.next hdata
    · exact congrArg Host.Outcome.next hack
    · exact absurd rfl hne
    · exact congrArg Host.Outcome.next hclose
    · exact congrArg Host.Outcome.next hreset
  · exact ⟨_, congrArg Host.Outcome.next (State.uplinkOpen_opens (hup.mp h) (Bool.eq_false_iff.mpr fun h' => hb (hbad.mpr h'))), rfl, rfl⟩
  · have hgood : badDatagram d = false := Bool.eq_false_iff.mpr fun h' => hb (hbad.mpr h')
    have hup' := hup.mp h
    have hdata := State.uplinkData_cases hup' hgood hg
    refine ⟨fun hseq => ?_, fun hseq hnear => ?_, fun hfar => ?_, fun hidle => ?_, ?_, ?_⟩
    · obtain ⟨f, hf⟩ := State.uplinkData_taken hup' hgood hg hseq
      exact ⟨_, f, rfl, hf⟩
    · refine ⟨_, congrArg Host.Outcome.next (hdata.trans ((if_neg (by omega)).trans (if_pos hseq))), s.onlyUp_counted u d⟩
    · exact ⟨_, congrArg Host.Outcome.next (hdata.trans (if_pos hfar)), s.onlyUp_violation u d⟩
    · refine ⟨_, _, congrArg Host.Outcome.next (State.uplinkAck_idle hup' hgood hg hidle), ?_, rfl, rfl, fun hce => ?_⟩
      · have hid : d.flow = (g.acked d.ack d.ce (d.window.toNat * 1024)).id := (State.flow_id hg).symm
        have hflow : (s.counted u d).flow d.flow = some g := hg
        rw [hid] at hflow
        exact (congrArg _ hid).trans (State.flow_setPeer hflow)
      · exact if_pos hce
    · exact ⟨_, rfl, State.uplinkClose_closes hup' hgood hg⟩
    · refine ⟨_, congrArg Host.Outcome.next (State.uplinkReset_resets hup' hgood hg), ?_, rfl⟩
      have hid : d.flow = (UFlow.fresh g.id g.dclass (d.seq + 1)).id := (State.flow_id hg).symm
      have hflow : (s.counted u d).flow d.flow = some g := hg
      rw [hid] at hflow
      exact (congrArg _ hid).trans (State.flow_setFlow hflow)
  · refine ⟨fun hzero => ?_, fun hdue => ⟨_, rfl, State.uplinkAckTimer_acks hg hdue⟩, fun w hw hflow =>
      ⟨_, rfl, State.uplinkRetransmit_resends hg hw hflow⟩, ⟨_, rfl, State.uplinkFlowTimeout_ends hg⟩⟩
    refine congrArg Host.Outcome.next ?_
    rw [State.uplinkAckTimer, hg]
    exact if_pos hzero
  · exact ⟨_, _, congrArg Host.Outcome.next (if_pos (hup.mp h)), State.up_modUp s u fun x => { x with link := .down }, rfl, rfl⟩
  · exact ⟨_, congrArg Host.Outcome.next (if_neg (hnotDown h)), State.onlyUp_modUp ..⟩
  · exact ⟨_, congrArg Host.Outcome.next (if_neg (hnotDown h)), State.onlyUp_modUp ..⟩
  · exact ⟨_, congrArg Host.Outcome.next (if_neg (hnotDown h)), rfl,
      State.up_modUp s u fun x => { x with ptp := true, ptpErr := err, ptpState := 1 }, rfl⟩
  · obtain ⟨t, e, hexec, hhm, hwait, hcode, hheld⟩ := State.timeSourceLost_holds h
    refine ⟨t, e, hexec, hhm, hwait, hcode, fun hone => ?_⟩
    rw [hheld, UPort.heldOver, if_pos hone]
  · exact congrArg Host.Outcome.next (if_pos (by rw [h]; rfl))
end

section
/-! PROOF. The journal: a record commits, fails, breaks the journal, and is read (R457 to R467). -/

namespace Sys2Proof.Machine

/-! ## Events (R410, R463) -/

theorem State.moderate_frame (s : State) (f : FnId) (r : RingId) (n : Nat) : s.moderate f r n
    = { s with host := { s.host with fns := (s.moderate f r n).host.fns, out := (s.moderate f r n).host.out } } := by
  unfold State.moderate
  dsimp only
  split
  · rw [State.interrupt_frame]; rfl
  · rfl

/-- R410: an event changes a function, and what goes out to the host. -/
theorem State.postEvent_frame (s : State) (f : FnId) (x : BitVec 256) : s.postEvent f x
    = { s with host := { s.host with fns := (s.postEvent f x).host.fns, out := (s.postEvent f x).host.out } } := by
  unfold State.postEvent
  extract_lets e r g
  split
  · rw [State.pushRecs_one, State.moderate_frame]; rfl
  · rfl

/-- R463: an event shows its record's code. -/
theorem JRec.event_code (r : JRec) (seq : W32) : (r.event seq).extractLsb' 80 16 = r.code := by
  refine BitVec.eq_of_toNat_eq ?_
  rw [BitVec.extractLsb'_toNat, JRec.event, BitVec.toNat_ofNat, Nat.shiftRight_eq_div_pow]
  have h0 : wordAt r.payload 0 % 2 ^ 32 < 2 ^ 32 := Nat.mod_lt _ (by decide)
  have h1 := r.tenant.isLt
  have h2 := r.sidx.isLt
  have h3 := r.skind.isLt
  have h4 := r.flags.isLt
  have h5 := r.cls.isLt
  have h6 := r.code.isLt
  have h7 := r.handle.isLt
  have h8 := r.step.isLt
  have h9 := r.time.isLt
  have h10 := seq.isLt
  omega

/-! ## What follows a commit (R451, R460) -/

section
variable {s : State} {r : JRec}

/-- Of the block only the journal, the host's side and the messages that go out changed, these only for a fatal fault's record, whose
last part tells the slice to halt. -/
def State.journalled (s t : State) (r : JRec) : Prop :=
  t = { s with bbx := t.bbx, host := t.host, fab := { s.fab with hmOut := t.fab.hmOut } }
    ∧ (r.cls ≠ 4 → t.fab = s.fab)
    ∧ (r.cls = 4 → r.more = false → s.formed = true → ∀ k < s.modules, k ≠ s.rank → (k, .halt s.fab.step) ∈ t.fab.hmOut)

theorem State.tellSlice_tells (h : s.formed = true) (m : HmMsg) {k : Nat} (hk : k < s.modules) (hne : k ≠ s.rank) :
    (k, m) ∈ (s.tellSlice m).fab.hmOut := by
  refine List.mem_append_right _ (List.mem_map_of_mem (f := fun r => (r, m)) ?_)
  rw [if_pos h]
  exact List.mem_filter.mpr ⟨List.mem_range.mpr hk, by simpa using hne⟩

/-- R451, R460: the record that has committed is told of; the journal is as before. -/
theorem State.postRec_journalled (s : State) (seq : W32) (r : JRec) : s.journalled (s.postRec seq r) r
    ∧ (s.postRec seq r).bbx = s.bbx := by
  unfold State.postRec
  split
  · next h => exact ⟨⟨rfl, fun _ => rfl, fun _ hm => absurd h (ne_true_of_eq_false hm)⟩, rfl⟩
  · dsimp only
    rw [State.postEvent_frame]
    split
    · next h => exact ⟨⟨rfl, fun h' => absurd h h', fun _ _ hf k hk hne => State.tellSlice_tells hf _ hk hne⟩, rfl⟩
    · next h => exact ⟨⟨rfl, fun _ => rfl, fun h' => absurd h' h⟩, rfl⟩

/-- An event may follow. -/
theorem State.journalled.event {t : State} (h : s.journalled t r) (f : FnId) (x : BitVec 256) : s.journalled (t.postEvent f x) r := by
  obtain ⟨hframe, hsame, htold⟩ := h
  have hpost := t.postEvent_frame f x
  generalize t.postEvent f x = u at hpost ⊢
  have hhost : u = { t with host := u.host } := by rw [hpost]
  have hbbx : u.bbx = t.bbx := by rw [hpost]
  have hfab : u.fab = t.fab := by rw [hpost]
  refine ⟨?_, ?_, ?_⟩
  · rw [hbbx, hfab]
    exact hhost.trans (congrArg (fun v : State => { v with host := u.host }) hframe)
  · rw [hfab]; exact hsame
  · rw [hfab]; exact htold

/-! ## A record commits (R458, R460, R462) -/

/-- R458: a record's bits depend on nothing of the journal. -/
@[simp] theorem State.recordBits_bbx (s : State) (b : Bbx) (seq : W32) (r : JRec) :
    ({ s with bbx := b } : State).recordBits seq r = s.recordBits seq r := rfl

/-- What the MRAM's slot of a seq holds. -/
def State.slotAt (s : State) (q : W32) : BitVec 2048 := Sparse.get 0 s.bbx.slots (q.toNat % 262144)

theorem State.slotAt_putSlot (s : State) (q : W32) (x : BitVec 2048) : (s.putSlot q x).slotAt q = x := Sparse.get_put_same ..

theorem State.slotAt_putSlot_other (s : State) {q p : W32} (h : p.toNat % 262144 ≠ q.toNat % 262144) (x : BitVec 2048) :
    (s.putSlot q x).slotAt p = s.slotAt p := Sparse.get_put_other _ _ _ _ _ h

theorem State.slotAt_congr {t : State} (h : t.bbx.slots = s.bbx.slots) (q : W32) : t.slotAt q = s.slotAt q := by
  rw [State.slotAt, h]; rfl

/-- Seqs that follow each other have different slots. -/
theorem slot_succ_ne (q : W32) : q.toNat % 262144 ≠ (q + 1).toNat % 262144 := by
  rw [BitVec.toNat_add, show (1 : W32).toNat = 1 from rfl]
  omega

/-- R460: a record whose bits are `x` commits under a seq. -/
def State.commitBits (s : State) (seq : W32) (r : JRec) (x : BitVec 2048) : State :=
  let s1 := s.putSlot seq x
  ({ s1 with bbx := { s1.bbx.advance seq with waiting := r.rest ++ s1.bbx.waiting } }).postRec seq r

theorem State.commitBits_commits (s : State) (seq : W32) (r : JRec) (x : BitVec 2048) : let t := s.commitBits seq r x
    s.journalled t r ∧ t.slotAt seq = x ∧ t.bbx.newest = seq ∧ t.bbx.commits = bump s.bbx.commits
      ∧ t.bbx.waiting = r.rest ++ s.bbx.waiting ∧ t.bbx.broken = s.bbx.broken
      ∧ ∀ q : W32, q.toNat % 262144 ≠ seq.toNat % 262144 → t.slotAt q = s.slotAt q := by
  obtain ⟨hj, hbbx⟩ := State.postRec_journalled { s.putSlot seq x with
    bbx := { (s.putSlot seq x).bbx.advance seq with waiting := r.rest ++ s.bbx.waiting } } seq r
  have hslots := congrArg Bbx.slots hbbx
  refine ⟨hj, (State.slotAt_congr (s := s.putSlot seq x) hslots seq).trans (State.slotAt_putSlot ..), congrArg Bbx.newest hbbx,
    congrArg Bbx.commits hbbx, congrArg Bbx.waiting hbbx, (congrArg Bbx.broken hbbx :), fun q hq => ?_⟩
  exact (State.slotAt_congr (s := s.putSlot seq x) hslots q).trans (State.slotAt_putSlot_other s hq _)

theorem State.commitAs_eq (s : State) (seq : W32) (r : JRec) : s.commitAs seq r = s.commitBits seq r (s.recordBits seq r) := by
  unfold State.commitAs
  generalize s.recordBits seq r = x
  rfl

/-- R458, R460: what a commit under a seq leaves. -/
theorem State.commitAs_commits (s : State) (seq : W32) (r : JRec) : let t := s.commitAs seq r
    s.journalled t r ∧ t.slotAt seq = s.recordBits seq r ∧ t.bbx.newest = seq ∧ t.bbx.commits = bump s.bbx.commits
      ∧ t.bbx.waiting = r.rest ++ s.bbx.waiting ∧ t.bbx.broken = s.bbx.broken
      ∧ ∀ q : W32, q.toNat % 262144 ≠ seq.toNat % 262144 → t.slotAt q = s.slotAt q := by
  rw [State.commitAs_eq]
  exact s.commitBits_commits seq r _

section
variable {rest : List JRec} (hw : s.bbx.waiting = r :: rest)
include hw

/-- The state in which the first waiting record has been taken up. -/
def State.recordTaken (s : State) (rest : List JRec) : State := { s with bbx := { s.bbx with waiting := rest } }

theorem State.journalCommit_broken (hb : s.bbx.broken = true) (x y : Bool) : let t := s.journalCommit x y
    s.journalled t r ∧ t.bbx = { s.bbx with waiting := rest, lost := bump s.bbx.lost } := by
  dsimp only
  rw [State.journalCommit, hw]
  dsimp only
  rw [if_pos hb]
  exact State.postRec_journalled { s with bbx := { s.bbx with waiting := rest, lost := bump s.bbx.lost } } 0xFFFFFFFF r

variable (hb : s.bbx.broken = false)
include hb

theorem State.journalCommit_cases (x y : Bool) : let seq := s.bbx.newest + 1
    let s1 := s.recordTaken rest
    s.journalCommit x y = if x then s1.commitAs seq r
      else if y then (s1.putSlot seq (Config.badSlot seq.toNat)).commitAs (seq + 1) r
      else ((s1.putSlot seq (Config.badSlot seq.toNat)).putSlot (seq + 1) (Config.badSlot (seq + 1).toNat)).breakJournal r := by
  dsimp only
  rw [State.journalCommit, hw]
  dsimp only
  rw [if_neg (ne_true_of_eq_false hb)]
  rfl

end

/-- R462: the second slot failed too; the journal has stopped. -/
theorem State.breakJournal_breaks (s : State) (r : JRec) : let t := s.breakJournal r
    s.journalled t r ∧ t.bbx = { s.bbx with broken := true, lost := bump s.bbx.lost }
      ∧ ∃ s1 ev, t = State.postEvent s1 0 ev ∧ ev.extractLsb' 80 16 = 0x1111#16 := by
  obtain ⟨hj, hbbx⟩ := State.postRec_journalled { s with bbx := { s.bbx with broken := true, lost := bump s.bbx.lost } } 0xFFFFFFFF r
  refine ⟨State.journalled.event hj _ _, ?_, _, _, rfl, JRec.event_code ..⟩
  dsimp only
  rw [State.breakJournal, State.postEvent_frame]
  exact hbbx

/-- R460: a journal that has not stopped commits the first waiting record. -/
theorem State.journalCommit_first {rest : List JRec} (hw : s.bbx.waiting = r :: rest) (hb : s.bbx.broken = false) (y : Bool) :
    let t := s.journalCommit true y
    let seq := s.bbx.newest + 1
    s.journalled t r ∧ t.slotAt seq = s.recordBits seq r ∧ t.bbx.newest = seq ∧ t.bbx.commits = bump s.bbx.commits
      ∧ t.bbx.waiting = r.rest ++ rest ∧ t.bbx.broken = false
      ∧ ∀ q : W32, q.toNat % 262144 ≠ seq.toNat % 262144 → t.slotAt q = s.slotAt q := by
  obtain ⟨hj, hslot, hnew, hcommits, hwait, hbroken, hother⟩ := (s.recordTaken rest).commitAs_commits (s.bbx.newest + 1) r
  have ht := State.journalCommit_cases hw hb true y
  dsimp only at ht ⊢
  rw [if_pos rfl] at ht
  rw [ht]
  exact ⟨hj, hslot, hnew, hcommits, hwait, hbroken.trans hb, hother⟩

/-- R462: a commit whose read-back failed is retried in the next slot. -/
theorem State.journalCommit_retry {rest : List JRec} (hw : s.bbx.waiting = r :: rest) (hb : s.bbx.broken = false) :
    let t := s.journalCommit false true
    let seq := s.bbx.newest + 1
    s.journalled t r ∧ t.slotAt (seq + 1) = s.recordBits (seq + 1) r ∧ t.slotAt seq = Config.badSlot seq.toNat
      ∧ t.bbx.newest = seq + 1 ∧ t.bbx.commits = bump s.bbx.commits := by
  let u := (s.recordTaken rest).putSlot (s.bbx.newest + 1) (Config.badSlot (s.bbx.newest + 1).toNat)
  obtain ⟨hj, hslot, hnew, hcommits, -, -, hother⟩ := u.commitAs_commits (s.bbx.newest + 1 + 1) r
  have ht := State.journalCommit_cases hw hb false true
  dsimp only at ht ⊢
  rw [if_neg Bool.false_ne_true, if_pos rfl] at ht
  rw [ht]
  exact ⟨hj, hslot, (hother _ (slot_succ_ne _)).trans (State.slotAt_putSlot ..), hnew, hcommits⟩

/-- R462: the second slot failed too. -/
theorem State.journalCommit_breaks {rest : List JRec} (hw : s.bbx.waiting = r :: rest) (hb : s.bbx.broken = false) :
    let t := s.journalCommit false false
    s.journalled t r ∧ t.bbx.broken = true ∧ t.bbx.lost = bump s.bbx.lost ∧ t.bbx.newest = s.bbx.newest
      ∧ t.bbx.commits = s.bbx.commits ∧ t.bbx.waiting = rest
      ∧ ∃ s1 ev, t = State.postEvent s1 0 ev ∧ ev.extractLsb' 80 16 = 0x1111#16 := by
  let q := s.bbx.newest + 1
  let u := ((s.recordTaken rest).putSlot q (Config.badSlot q.toNat)).putSlot (q + 1) (Config.badSlot (q + 1).toNat)
  obtain ⟨hj, hbbx, hev⟩ := u.breakJournal_breaks r
  have ht := State.journalCommit_cases hw hb false false
  dsimp only at ht ⊢
  rw [if_neg Bool.false_ne_true, if_neg Bool.false_ne_true] at ht
  rw [ht]
  exact ⟨hj, congrArg Bbx.broken hbbx, congrArg Bbx.lost hbbx, (congrArg Bbx.newest hbbx :), (congrArg Bbx.commits hbbx :),
    (congrArg Bbx.waiting hbbx :), hev⟩

end

/-! ## Reading the journal (R464, R466) -/

/-- R413, R414: bytes for a command's buffer leave memory, journal and tickets. -/
theorem State.putBuffer_leaves (s : State) (i : Issuer) (op : W16) (bs : List Byte) : let t := s.putBuffer i op bs
    t.bbx = s.bbx ∧ t.mem = s.mem ∧ t.host.tickets = s.host.tickets := by
  cases i with
  | fn f => exact ⟨rfl, rfl, rfl⟩
  | rack =>
    unfold State.putBuffer
    dsimp only
    split
    · next g _ =>
      have h := State.sends_runFlow (s.setFlow { g with toSend := g.toSend ++ bs }) (BitVec.ofNat 32 (Config.bufferAddr op (s.mbx .rack).win))
      exact ⟨h.bbx, h.mem, h.tickets⟩
    · exact ⟨rfl, rfl, rfl⟩

theorem State.interrupt_tenant (s : State) (f g : FnId) (v : Nat) : ((s.interrupt f v).fn g).tenant = (s.fn g).tenant := by
  unfold State.interrupt
  split
  · by_cases h : g = f
    · rw [h, State.fn_modFn]
    · rw [State.fn_modFn_other _ _ _ _ h]
  · rfl

theorem State.tenantOf_answerMbx (s : State) (i : Issuer) (status : W16) (k : W32) (result : List Byte) :
    (s.answerMbx i status k result).tenantOf i = s.tenantOf i := by
  cases i with
  | rack => rfl
  | fn f =>
    have hmod : ∀ m : Mbx → Mbx, ((s.modMbx (.fn f) m).fn f).tenant = (s.fn f).tenant := fun m =>
      (congrArg Func.tenant (State.fn_modFn s f fun x => { x with mbx := m x.mbx }) :)
    unfold State.answerMbx
    dsimp only
    split
    · exact (State.interrupt_tenant ..).trans (hmod _)
    · exact hmod _

/-- R464: what an issuer receives depends on its tenant and on the journal. -/
theorem State.recordsFrom_congr {s t : State} {i : Issuer} (hb : t.bbx = s.bbx) (ht : t.tenantOf i = s.tenantOf i) (first : W32) (n : Nat) :
    t.recordsFrom i first n = s.recordsFrom i first n := by
  have hfor : ∀ x, t.recordFor i x = s.recordFor i x := fun x => by rw [State.recordFor, ht]; rfl
  simp only [State.recordsFrom, hb, hfor]

theorem State.bbxRead_reads {s : State} {i : Issuer} {first : W32} {count : Nat} (hfull : s.ticketsFull i = false)
    (hnone : s.bbx.none = false) (hheld : (first - s.bbx.oldest).toNat ≤ (s.bbx.newest - s.bbx.oldest).toNat) :
    let x := s.told i 0x0601 3 count 0
    let rs := s.recordsFrom i first (min count ((s.bbx.newest - first).toNat + 1))
    s.bbxRead i first count .ok = ((x.2.putBuffer i 0x0601 rs.flatten).progressTo x.1 rs.length).finish x.1 stDone
      (BitVec.ofNat 64 rs.length) := by
  have hbbx : (s.told i 0x0601 3 count 0).2.bbx = s.bbx := by rw [State.told_frame]
  have hrs := State.recordsFrom_congr (s := s) (i := i) hbbx (State.tenantOf_answerMbx ..)
  dsimp only
  rw [State.bbxRead]
  dsimp only
  rw [if_neg (not_or.mpr ⟨ne_true_of_eq_false hnone, Nat.not_lt.mpr hheld⟩), State.issue_ticket hfull, afterFetch,
    if_neg (by decide), if_pos rfl, hbbx, hrs]

end Sys2Proof.Machine

open Sys2Proof Sys2Proof.Machine

/-- Settles O48: a commit by whether the journal has stopped and which slots took the record; BBX_READ by its ticket's end. -/
theorem recordsCommitAndAreRead : Obligations.RecordsCommitAndAreRead := by
  intro r rest i first count n addr cmd s b seq at_ kept
  refine ⟨fun hnone x y => ?_, fun hw hb x y => ⟨_, rfl, State.journalCommit_broken hw hb x y⟩, fun hw hb => ⟨fun y => ?_, ?_, ?_⟩,
    fun htaken hbuf hfull hnone hheld => ?_, rfl, ?_, rfl, ?_⟩
  · refine congrArg Host.Outcome.next ?_
    rw [State.journalCommit, hnone]
  · exact ⟨_, rfl, State.journalCommit_first hw hb y⟩
  · exact ⟨_, rfl, State.journalCommit_retry hw hb⟩
  · exact ⟨_, rfl, State.journalCommit_breaks hw hb⟩
  · intro k hk
    have hread := State.bbxRead_reads (count := count) hfull hnone hheld
    obtain ⟨x, hx, hr⟩ := State.ticketOf_told hk
    have hbbx : (s.told i 0x0601 3 count 0).2.bbx = s.bbx := by rw [State.told_frame]
    have hmem : (s.told i 0x0601 3 count 0).2.mem = s.mem := by rw [State.told_frame]
    obtain ⟨hb, hm, ht⟩ := (s.told i 0x0601 3 count 0).2.putBuffer_leaves i 0x0601
      (s.recordsFrom i first (min count ((s.bbx.newest - first).toNat + 1))).flatten
    refine ⟨_, congrArg Host.Outcome.next ((State.hostCommand_eq ..).trans ((if_pos ⟨htaken, hbuf⟩).trans hread)),
      State.ended_finish_progressTo ?_ hr _ _ _, hb.trans hbbx, hm.trans hmem⟩
    rw [State.ticketOf, ht]; exact hx
  · have hbit : BitVec.ofNat 8 (bit (s.bbx.waiting != [] && !s.bbx.broken)) = if b.waiting ≠ [] ∧ b.broken = false then 1#8 else 0 := by
      change _ = if s.bbx.waiting ≠ [] ∧ s.bbx.broken = false then 1#8 else 0
      by_cases hw : s.bbx.waiting = []
      · simp [hw, bit]
      · cases s.bbx.broken with
        | true => simp [bit]
        | false => simp [hw, bit]
    exact congrArg (fun v => Host.Outcome.next (s.spi (some (List.replicate n v)))) hbit
  · exact congrArg Host.Outcome.next (ite_congr (by simp) (fun _ => rfl) fun _ => rfl)
end

section
/-! PROOF. Doorbells, request windows, answers and tickets of a mailbox (R411, R412, R415, R417). -/

namespace Sys2Proof.Machine

/-! ## Interrupts (R409) -/

section
variable {s : State} {f : FnId} {v : Nat}

/-- R409: a vector that is masked, or whose function may not write, leaves a pending bit. -/
def State.pends (s : State) (f : FnId) (v : Nat) : Bool := ((s.fn f).vec v).2.2 || !s.mastering f

theorem State.interrupt_cases (s : State) (f : FnId) (v : Nat) : s.interrupt f v
    = if s.pends f v then s.modFn f fun x => { x with pba := x.pba ||| BitVec.ofNat 32 (2 ^ v) } else s.send (.msix f v) := rfl

theorem State.out_interrupt (s : State) (f : FnId) (v : Nat) :
    (s.interrupt f v).host.out = s.host.out ++ if s.pends f v then [] else [.msix f v] := by
  rw [State.interrupt_cases]
  split
  · exact (List.append_nil _).symm
  · rfl

/-- R409: an interrupt changes of functions only a pending bit. -/
theorem State.fn_interrupt (s : State) (f g : FnId) (v : Nat) :
    (s.interrupt f v).fn g = { s.fn g with pba := ((s.interrupt f v).fn g).pba } := by
  rw [State.interrupt_cases]
  split
  · by_cases h : g = f
    · rw [h, State.fn_modFn]
    · rw [State.fn_modFn_other _ _ _ _ h]
  · rfl

@[simp] theorem State.mbx_interrupt (s : State) (f : FnId) (v : Nat) (i : Issuer) : (s.interrupt f v).mbx i = s.mbx i := by
  cases i with
  | fn g => exact (congrArg Func.mbx (s.fn_interrupt f g v) :)
  | rack =>
    rw [State.interrupt_frame]; rfl

end

/-! ## Answers (R411) -/

section
variable {s : State} {i : Issuer}

/-- R411: what a mailbox shows with an answer in it. -/
def Mbx.answered (m : Mbx) (status : W16) (k : W32) (result : List Byte) : Mbx :=
  { m with st := 2, resp := ⟨status, m.op, m.seq, k, result⟩ }

theorem State.mbx_modMbx_other (s : State) {i j : Issuer} (h : j ≠ i) (g : Mbx → Mbx) : (s.modMbx i g).mbx j = s.mbx j := by
  cases i with
  | rack =>
    cases j with
    | rack => exact absurd rfl h
    | fn f => rfl
  | fn f =>
    cases j with
    | rack => rfl
    | fn e => exact congrArg Func.mbx (State.fn_modFn_other _ _ _ _ fun he => h (congrArg Issuer.fn he))

/-- R411: an answer fills the window; then vector 0 goes out if the command asked for it. -/
theorem State.answerMbx_fn (s : State) (f : FnId) (status : W16) (k : W32) (result : List Byte) :
    let u := s.modMbx (.fn f) fun m => m.answered status k result
    s.answerMbx (.fn f) status k result = if (s.mbx (.fn f)).ien then u.interrupt f 0 else u := rfl

theorem State.answerMbx_fn_frame (s : State) (f : FnId) (status : W16) (k : W32) (result : List Byte) :
    let t := s.answerMbx (.fn f) status k result
    t = { s with host := { s.host with fns := t.host.fns, out := t.host.out } } := by
  rw [State.answerMbx_fn]
  split
  · rw [State.interrupt_frame]; rfl
  · rfl

theorem State.mbx_answerMbx (s : State) (i j : Issuer) (status : W16) (k : W32) (result : List Byte) :
    (s.answerMbx i status k result).mbx j = (s.modMbx i fun m => m.answered status k result).mbx j := by
  cases i with
  | rack => rfl
  | fn f =>
    rw [State.answerMbx_fn]
    split
    · exact State.mbx_interrupt ..
    · rfl

/-- R411, R415: the mailbox of an issuer who has been told of a ticket. -/
theorem State.mbx_told (s : State) (i : Issuer) (op : W16) (unit : Byte) (total object : Nat) :
    (s.told i op unit total object).2.mbx i = (s.mbx i).answered stTicket (s.told i op unit total object).1 [] := by
  refine (State.mbx_answerMbx ..).trans ((State.mbx_modMbx ..).trans ?_)
  cases i <;> rfl

/-- R411: vector 0 goes out with an answer if the command asked for it, and if the vector may. -/
theorem State.out_answerMbx (s : State) (f : FnId) (status : W16) (k : W32) (result : List Byte) :
    (s.answerMbx (.fn f) status k result).host.out = s.host.out
      ++ if (s.mbx (.fn f)).ien && !((s.fn f).vec 0).2.2 && s.mastering f then [.msix f 0] else [] := by
  let u := s.modMbx (.fn f) fun m => m.answered status k result
  have hfn : u.fn f = { s.fn f with mbx := (s.fn f).mbx.answered status k result } :=
    State.fn_modFn s f fun x => { x with mbx := x.mbx.answered status k result }
  have hpends : u.pends f 0 = (((s.fn f).vec 0).2.2 || !s.mastering f) := by
    rw [State.pends, State.mastering, hfn]; rfl
  rw [State.answerMbx_fn]
  split
  · next hien =>
    rw [State.out_interrupt, hpends, hien]
    refine congrArg (s.host.out ++ ·) ?_
    cases ((s.fn f).vec 0).2.2 <;> cases s.mastering f <;> rfl
  · next hien =>
    rw [Bool.eq_false_iff.mpr hien]
    exact (List.append_nil _).symm

end

/-! ## Doorbells and the request window (R411, R412) -/

section
variable {s : State} {f : FnId} {v : W64}

/-- R411: what a write becomes that meets a command in progress. -/
def Func.collided (x : Func) : Func :=
  { x.flag errCollide with hosterrs := bump x.hosterrs, mbx := { x.mbx with collide := true } }

/-- R411: the mailbox whose command, of header `h`, has been taken. -/
def Mbx.rung (m : Mbx) (v : W64) (h : Nat) : Mbx :=
  { m with st := 1, seq := v.extractLsb' 0 32, ien := tb v.toNat 32, op := BitVec.ofNat 16 h }

theorem State.doorbell_busy (h : (s.fn f).mbx.st = 1) : s.doorbell f v = s.modFn f Func.collided := if_pos h

theorem State.doorbell_idle (h : (s.fn f).mbx.st ≠ 1) : let w := (Sparse.get 0 (s.fn f).mbx.win 0x40).toNat
    s.doorbell f v = s.take (.fn f) (v.extractLsb' 0 32) (tb v.toNat 32) (BitVec.ofNat 16 w) (fld w 32 16) := if_neg h

/-- R411: a command that goes further. -/
theorem State.doorbell_taken (h : (s.fn f).mbx.st ≠ 1) : let w := (Sparse.get 0 (s.fn f).mbx.win 0x40).toNat
    s.turnedAway (.fn f) (BitVec.ofNat 16 w) (fld w 32 16) = none →
      s.doorbell f v = s.modFn f fun x => { x with mbx := x.mbx.rung v w } := by
  intro w haway
  rw [State.doorbell_idle h, State.take, haway]; rfl

theorem State.doorbell_answered (h : (s.fn f).mbx.st ≠ 1) {st : W16} : let w := (Sparse.get 0 (s.fn f).mbx.win 0x40).toNat
    s.turnedAway (.fn f) (BitVec.ofNat 16 w) (fld w 32 16) = some st →
      s.doorbell f v = (s.modFn f fun x => { x with mbx := x.mbx.rung v w }).answerMbx (.fn f) st 0 [] := by
  intro w haway
  rw [State.doorbell_idle h, State.take, haway]; rfl

/-- The offsets of the request header and of the arguments. -/
def inWindow (off : BitVec 12) : Prop := (0x40 ≤ off.toNat ∧ off.toNat < 0x50) ∨ (0x80 ≤ off.toNat ∧ off.toNat < 0x800)

theorem State.windowWrite_window {off : BitVec 12} (h8 : off.toNat % 8 = 0) (hw : inWindow off) : s.windowWrite f off v
    = s.modFn f fun x => if (s.fn f).mbx.st = 1 then x.collided
        else { x with mbx := { x.mbx with win := Sparse.put 0 x.mbx.win off.toNat v } } := by
  have h0 : off.toNat ≠ 0 ∧ off.toNat ≠ 8 := by
    unfold inWindow at hw
    omega
  rw [State.windowWrite]
  dsimp only
  rw [if_neg (not_not_intro h8), if_neg h0.1, if_neg h0.2, if_pos (show _ ∨ _ from hw)]
  split <;> rfl

theorem State.windowWrite_lost {off : BitVec 12} (h : off.toNat % 8 ≠ 0 ∨ (¬inWindow off ∧ off ≠ 8 ∧ off ≠ 0)) :
    s.windowWrite f off v = s.modFn f fun x => { x with hosterrs := bump x.hosterrs } := by
  rw [State.windowWrite]
  dsimp only
  by_cases h8 : off.toNat % 8 ≠ 0
  · rw [if_pos h8]
  · obtain ⟨hw, hn8, hn0⟩ := h.resolve_left h8
    have h0 : off.toNat ≠ 0 := fun e => hn0 (BitVec.eq_of_toNat_eq e)
    have h8' : off.toNat ≠ 8 := fun e => hn8 (BitVec.eq_of_toNat_eq e)
    rw [if_neg h8, if_neg h0, if_neg h8', if_neg (show ¬(_ ∨ _) from hw)]

end

theorem exec_mailboxWindowWrite {s : State} (h : s.hm.down = false) (f : FnId) (off : BitVec 12) (v : W64) :
    exec (.mailboxWindowWrite f off v) s = .next (s.windowWrite f off v) := State.live_next s (fun s => s.windowWrite f off v) h

/-- R411: a function of the state after a doorbell or a window write that changes the function alone. -/
theorem State.onlyFn_of_modFn {s : State} {f : FnId} {g : Func → Func} {o : Host.Outcome State Fault Refusal}
    (h : o = .next (s.modFn f g)) : ∃ t, o = .next t ∧ s.onlyFn t f (g (s.fn f)) := ⟨_, h, s.onlyFn_modFn f g⟩

end Sys2Proof.Machine

open Sys2Proof Sys2Proof.Machine

/-- Settles O34: doorbells and window writes by the mailbox's state and the offset; an answer by its issuer. -/
theorem mailboxes : Obligations.Mailboxes := by
  refine ⟨?_, ?_⟩
  · intro f off v s hup x m h op m1 window collided
    refine ⟨fun hbusy => ?_, fun hidle haway => ?_, fun st hidle haway => ?_, fun h8 hw => ?_, ?_, ?_, fun hlost => ?_⟩
    · exact State.onlyFn_of_modFn (g := Func.collided) ((exec_mbxDoorbell hup f v).trans (congrArg _ (State.doorbell_busy hbusy)))
    · exact State.onlyFn_of_modFn (g := fun x => { x with mbx := x.mbx.rung v h })
        ((exec_mbxDoorbell hup f v).trans (congrArg _ (State.doorbell_taken hidle haway)))
    · refine ⟨_, (exec_mbxDoorbell hup f v).trans (congrArg _ (State.doorbell_answered hidle haway)), ?_, ?_⟩
      · have hrung : (s.modFn f fun x => { x with mbx := x.mbx.rung v h }).mbx (.fn f) = m.rung v h :=
          (congrArg Func.mbx (State.fn_modFn s f fun x => { x with mbx := x.mbx.rung v h }) :)
        refine (State.mbx_answerMbx _ (.fn f) (.fn f) ..).trans ((State.mbx_modMbx ..).trans ?_)
        rw [hrung]; rfl
      · exact State.answerMbx_fn_frame (s.modFn f fun x => { x with mbx := x.mbx.rung v h }) f st 0 []
    · have hwrite := State.onlyFn_of_modFn ((exec_mailboxWindowWrite hup f off v).trans (congrArg _ (State.windowWrite_window h8 hw)))
      exact hwrite
    · rw [← tb_toNat]
      exact State.onlyFn_of_modFn (g := fun x => { x with mbx := { x.mbx with collide := x.mbx.collide && !tb v.toNat 2 } })
        (exec_mailboxWindowWrite hup f 8 v)
    · exact ⟨_, exec_mailboxWindowWrite hup f 0 v, exec_mbxDoorbell hup f v⟩
    · exact State.onlyFn_of_modFn (g := fun x => { x with hosterrs := bump x.hosterrs })
        ((exec_mailboxWindowWrite hup f off v).trans (congrArg _ (State.windowWrite_lost hlost)))
  · intro i st tk bs s m t
    refine ⟨?_, fun j hj => ?_, ?_, fun f hf => ?_, fun op unit total object => ?_, fun p hp hno => ?_⟩
    · exact (State.mbx_answerMbx ..).trans (State.mbx_modMbx ..)
    · exact (State.mbx_answerMbx ..).trans (State.mbx_modMbx_other s hj _)
    · exact State.answerMbx_frame ..
    · subst hf
      exact State.out_answerMbx ..
    · intro q hq
      refine ⟨?_, ?_, ?_, fun st r => ?_⟩
      · rw [State.ticketOf] at hq
        rw [State.ticketOf, State.tickets_told, List.find?_append, hq, Option.none_or]
        exact List.find?_cons_of_pos (beq_self_eq_true _)
      · rw [State.mbx_told]; rfl
      · rw [State.mbx_told]; rfl
      · obtain ⟨y, hy, hr⟩ := State.ticketOf_told hq
        exact State.ended_finish hy hr st r
    · simp only [List.mem_cons, List.not_mem_nil, or_false] at hp
      obtain rfl | rfl | rfl | rfl | rfl | rfl | rfl | rfl | rfl | rfl | rfl := hp
      all_goals exact congrArg Host.Outcome.next (s.command_other i _ _ hno)
end

section
/-! PROOF. Ring doorbells, ring registers, ring interrupts, and the reads of a function (R286, R398 to R409, R413). -/

namespace Sys2Proof.Machine

/-! ## Reads that are opened (R398, R403, R413) -/

/-- Of the block only the list of reads changed: it grew at its end by reads of new tags. -/
def State.Opens (s t : State) : Prop :=
  t = { s with host := { s.host with reads := t.host.reads, nextTag := t.host.nextTag } } ∧ s.host.nextTag ≤ t.host.nextTag
    ∧ ∃ zs, t.host.reads = s.host.reads ++ zs ∧ ∀ z ∈ zs, s.host.nextTag ≤ z.tag

section
variable {s₀ s t : State} {f : FnId} {r : RingId}

theorem State.Opens.refl (s : State) : s.Opens s := ⟨rfl, Nat.le_refl _, [], (List.append_nil _).symm, fun _ h => absurd h List.not_mem_nil⟩

theorem State.Opens.trans (h : s₀.Opens s) (h' : s.Opens t) : s₀.Opens t := by
  obtain ⟨hs, hle, zs, hzs, htag⟩ := h
  obtain ⟨ht, hle', ys, hys, htag'⟩ := h'
  refine ⟨?_, Nat.le_trans hle hle', zs ++ ys, by rw [hys, hzs, List.append_assoc], fun z hz => ?_⟩
  · rw [ht, hs]
  · exact (List.mem_append.mp hz).elim (htag z) fun h => Nat.le_trans hle (htag' z h)

theorem State.opens_foldl {α : Type} {step : State → α → State} (h : ∀ (s : State) (x : α), s.Opens (step s x)) (xs : List α) (s : State) :
    s.Opens (xs.foldl step s) := by
  induction xs generalizing s with
  | nil => exact .refl s
  | cons x xs ih => exact .trans (h s x) (ih _)

theorem State.opens_addRead (s : State) (f : FnId) (r : RingId) (ix : W32) (tries : Nat) : s.Opens (s.addRead f r ix tries) := by
  unfold State.addRead
  split
  · exact .refl s
  · refine ⟨rfl, Nat.le_succ _, _, rfl, fun z hz => ?_⟩
    rw [List.mem_singleton.mp hz]

/-- R403: entry `ix` is read, unless it is or has been. -/
def State.openOne (s : State) (f : FnId) (r : RingId) (g : Ring) (i : Nat) : State :=
  let ix := g.next + BitVec.ofNat 32 i
  if s.reading f r ix || (g.fetched.any fun e => e.1 == ix.toNat) then s else s.addRead f r ix 1

theorem State.opens_openOne (s : State) (f : FnId) (r : RingId) (g : Ring) (i : Nat) : s.Opens (s.openOne f r g i) := by
  unfold State.openOne
  dsimp only
  split
  · exact .refl s
  · exact State.opens_addRead ..

theorem State.openReads_cases (s : State) (f : FnId) (r : RingId) : s.openReads f r
    = if !s.mastering f || !(s.ring f r).serves 1 then s
      else (List.range ((s.ring f r).prod - (s.ring f r).next).toNat).foldl (fun u i => u.openOne f r (s.ring f r) i) s := rfl

theorem State.opens_openReads (s : State) (f : FnId) (r : RingId) : s.Opens (s.openReads f r) := by
  rw [State.openReads_cases]
  split
  · exact .refl s
  · exact State.opens_foldl (fun u i => u.opens_openOne f r (s.ring f r) i) _ _

theorem State.opens_nextReads (s : State) : s.Opens s.nextReads := by
  unfold State.nextReads
  exact State.opens_foldl (fun (u : State) (x : Nat × Func) =>
    State.opens_foldl (fun (u : State) (y : Nat × Ring) => u.opens_openReads _ _) x.2.rings u) s.host.fns s

theorem State.Opens.fn (h : s.Opens t) (f : FnId) : t.fn f = s.fn f := by rw [h.1]; rfl
theorem State.Opens.ring (h : s.Opens t) (f : FnId) (r : RingId) : t.ring f r = s.ring f r := by rw [h.1]; rfl
theorem State.Opens.serv (h : s.Opens t) : t.serv = s.serv := by rw [h.1]
theorem State.Opens.mem (h : s.Opens t) : t.mem = s.mem := by rw [h.1]

theorem State.Opens.mem_reads (h : s.Opens t) {z : HostRead} (hz : z ∈ s.host.reads) : z ∈ t.host.reads := by
  obtain ⟨-, -, zs, hzs, -⟩ := h
  rw [hzs]
  exact List.mem_append_left _ hz

/-! ## The reads of a ring's entries -/

/-- R403: entry `i` after the next has been fetched, or is read. -/
def State.readsEntry (s : State) (f : FnId) (r : RingId) (g : Ring) (i : Nat) : Prop :=
  let ix := g.next + BitVec.ofNat 32 i
  (g.fetched.any fun e => e.1 == ix.toNat) = true ∨ ∃ y ∈ s.host.reads, y.f = f ∧ y.ring = r ∧ y.ix = ix

theorem State.Opens.readsEntry (h : s.Opens t) {g : Ring} {i : Nat} (hr : s.readsEntry f r g i) : t.readsEntry f r g i :=
  hr.imp_right fun ⟨y, hy, hof⟩ => ⟨y, h.mem_reads hy, hof⟩

theorem State.openOne_reads {g : Ring} {i : Nat} (h : s.host.reads.length < 768) : let t := s.openOne f r g i
    t.readsEntry f r g i ∧ t.host.reads.length ≤ s.host.reads.length + 1 := by
  unfold State.openOne
  dsimp only
  split
  · next hin =>
    refine ⟨?_, Nat.le_succ _⟩
    rcases Bool.or_eq_true_iff.mp hin with hread | hfetched
    · obtain ⟨y, hy, hof⟩ := List.any_eq_true.mp hread
      simp only [Bool.and_eq_true, beq_iff_eq, and_assoc] at hof
      exact .inr ⟨y, hy, hof⟩
    · exact .inl hfetched
  · rw [State.addRead, if_neg (Nat.not_le_of_lt h)]
    exact ⟨.inr ⟨_, List.mem_append_right _ (List.mem_singleton_self _), rfl, rfl, rfl⟩, Nat.le_of_eq (List.length_append ..)⟩

/-- R403: while there is place for all, every entry is read that has not been fetched. -/
theorem State.openAll_reads (g : Ring) (n : Nat) (h : s.host.reads.length + n ≤ 768) :
    let t := (List.range n).foldl (fun u i => u.openOne f r g i) s
    (∀ i < n, t.readsEntry f r g i) ∧ t.host.reads.length ≤ s.host.reads.length + n := by
  induction n with
  | zero => exact ⟨fun i hi => absurd hi (Nat.not_lt_zero i), Nat.le_refl _⟩
  | succ n ih =>
    obtain ⟨hread, hlen⟩ := ih (by omega)
    dsimp only at hread hlen ⊢
    rw [List.range_succ, List.foldl_append]
    generalize (List.range n).foldl (fun u i => u.openOne f r g i) s = u at hread hlen ⊢
    obtain ⟨hone, hlen'⟩ := u.openOne_reads (f := f) (r := r) (g := g) (i := n) (by omega)
    refine ⟨fun i hi => ?_, by dsimp only [List.foldl_cons, List.foldl_nil]; omega⟩
    by_cases hin : i = n
    · rw [hin]; exact hone
    · exact (u.opens_openOne f r g n).readsEntry (hread i (by omega))

end

/-! ## Doorbells (R405) -/

section
variable {s : State} {f : FnId} {r : RingId} {v : W32}

/-- R405: a ring whose doorbell has been refused. -/
def Ring.belled (g : Ring) : Ring := { g with cfg := g.cfg ||| 4#64 }

/-- R405: a function one of whose doorbells has been refused. -/
def Func.bellRefused (x : Func) (r : RingId) : Func :=
  { x.setRing r (x.ring r).belled with err := x.err ||| errDbell, ringerrs := bump x.ringerrs }

/-- Function `f` of the state after a command that changes it twice. -/
theorem State.onlyFn_twice (s : State) (f : FnId) (g h : Func → Func) : s.onlyFn ((s.modFn f g).modFn f h) f (h (g (s.fn f))) := by
  refine ⟨rfl, by rw [State.fn_modFn, State.fn_modFn], fun e he => ?_⟩
  rw [State.fn_modFn_other _ _ _ _ he, State.fn_modFn_other _ _ _ _ he]

theorem State.onlyFn_refuseBell (s : State) (f : FnId) (r : RingId) :
    s.onlyFn (s.refuseBell f r) f ((s.fn f).bellRefused r) := State.onlyFn_twice ..

/-- R405: the harbourmaster serves no doorbell before it runs and after a fatal fault. -/
theorem State.bell_notLive (h : s.hm.state = 0 ∨ s.hm.state = 3) : s.bell f r v = s.refuseBell f r := if_pos h

section
variable (hlive : ¬(s.hm.state = 0 ∨ s.hm.state = 3))
include hlive

theorem State.bell_request (h : (s.ring f r).serves 1 = true) : s.bell f r v
    = if (v - (s.ring f r).prod).toNat ≤ (s.ring f r).room then (s.modRing f r fun g => { g with prod := v }).openReads f r
      else s.refuseBell f r := by
  rw [State.bell]
  rw [if_neg hlive, if_pos h]

theorem State.bell_records (h1 : (s.ring f r).serves 1 = false) (h : (s.ring f r).serves 2 = true ∨ (s.ring f r).serves 3 = true) :
    s.bell f r v = if (v - (s.ring f r).cons).toNat ≤ (s.ring f r).used then
        (s.modRing f r fun g => { g with cons := v }).flushKept f r
      else s.refuseBell f r := by
  rw [State.bell]
  rw [if_neg hlive, if_neg (ne_true_of_eq_false h1), if_pos (by simpa using h)]

theorem State.bell_none (h1 : (s.ring f r).serves 1 = false) (h2 : (s.ring f r).serves 2 = false)
    (h3 : (s.ring f r).serves 3 = false) : s.bell f r v = s.refuseBell f r := by
  rw [State.bell]
  rw [if_neg hlive, if_neg (ne_true_of_eq_false h1), if_neg (by simp [h2, h3])]

/-- R403, R405: a request ring whose doorbell is in range has its new entries read, while there is place for all. -/
theorem State.bell_reads (h : (s.ring f r).serves 1 = true) (hroom : (v - (s.ring f r).prod).toNat ≤ (s.ring f r).room) :
    let t := s.bell f r v
    let g := s.ring f r
    t = { s with host := { s.host with fns := t.host.fns, reads := t.host.reads, nextTag := t.host.nextTag } }
      ∧ t.ring f r = { g with prod := v }
      ∧ (s.mastering f = true → s.host.reads.length + (v - g.next).toNat ≤ 768 → ∀ i < (v - g.next).toNat, t.readsEntry f r g i) := by
  let g := s.ring f r
  let u := s.modRing f r fun g => { g with prod := v }
  have hring : u.ring f r = { g with prod := v } := State.ring_modRing ..
  have hopens := u.opens_openReads f r
  dsimp only
  rw [State.bell_request hlive h, if_pos hroom]
  have hfns : (u.openReads f r).host.fns = u.host.fns := by rw [hopens.1]
  refine ⟨?_, (hopens.ring f r).trans hring, fun hbm hplace => ?_⟩
  · show u.openReads f r = _
    rw [hfns]
    exact hopens.1
  have hbm' : u.mastering f = true :=
    (State.mastering_modFn s f (g := fun x => x.setRing r { x.ring r with prod := v }) fun _ => rfl).trans hbm
  have hserves : (u.ring f r).serves 1 = true := by rw [hring]; exact h
  have hcases := u.openReads_cases f r
  rw [hbm', hserves, hring] at hcases
  rw [hcases]
  exact (State.openAll_reads (s := u) { g with prod := v } (v - g.next).toNat hplace).1

end

/-! ## A ring that keeps no records (R401, R408) -/

theorem Ring.serves_one_of {g : Ring} {k : Nat} (hk : k ≠ 1) (h : g.serves k = true) : g.serves 1 = false := by
  by_contra h1
  exact hk ((Ring.serves_kind h).symm.trans (Ring.serves_kind (by simpa using h1)))

theorem State.flushKept_none (h : (s.ring f r).kept = []) : s.flushKept f r = s := by
  rw [State.flushKept]
  dsimp only
  rw [h]
  simp

/-- R401: a ring as it is enabled. -/
def Ring.enabled (g : Ring) (cfg : W64) : Ring :=
  { g with cfg := cfg, cons := 0, prod := 0, next := 0, left := [], fetched := [], unsig := 0 }

theorem State.enableRing_fresh {cfg : W64} (hkept : (s.ring f r).kept = [])
    (h : cfg.extractLsb' 25 2 = 2#2 ∨ s.usesCring f r = false) : s.enableRing f r cfg = s.modRing f r fun g => g.enabled cfg := by
  let u := s.modRing f r fun g => g.enabled cfg
  have hring : u.ring f r = (s.ring f r).enabled cfg := State.ring_modRing ..
  have hkept' : (u.ring f r).kept = [] := by rw [hring]; exact hkept
  show (if (u.ring f r).kind = 2 then u.flushKept f r
    else if (u.usesCring f r || (u.ring f r).kept != []) = true then _ else u) = u
  split
  · exact State.flushKept_none hkept'
  · next hkind =>
    have hno : s.usesCring f r = false := by
      refine h.resolve_left fun h2 => hkind ?_
      rw [hring]
      have := congrArg BitVec.toNat h2
      rwa [BitVec.extractLsb'_toNat, Nat.shiftRight_eq_div_pow] at this
    refine if_neg ?_
    rw [hkept', show u.usesCring f r = s.usesCring f r from rfl, hno]
    decide

/-- R401: a ring as it is disabled. -/
theorem State.disableRing_leaves (s : State) (f : FnId) (r : RingId) (cfg : W64) : let t := s.disableRing f r cfg
    t.ring f r = { s.ring f r with cfg := cfg }
      ∧ t.serv = { s.serv with cmds := s.serv.cmds ++ if (s.ring f r).serves 1 then [.endRing f r] else [] }
      ∧ (∀ q, q ≠ r → t.ring f q = s.ring f q) ∧ t.mem = s.mem ∧ t.host.out = s.host.out := by
  let u := s.modRing f r fun g => { g with cfg := cfg }
  have hring : u.ring f r = { s.ring f r with cfg := cfg } := State.ring_modRing ..
  have hother : ∀ q, q ≠ r → u.ring f q = s.ring f q := fun q hq => State.ring_modRing_other s f hq _
  let reads := s.host.reads.filter fun x => !(x.f == f && x.ring == r)
  have ht : s.disableRing f r cfg
    = if (s.ring f r).serves 1 then ({ u with host := { u.host with reads := reads } }).addCmd (.endRing f r) else u := rfl
  dsimp only
  rw [ht]
  split
  · exact ⟨hring, rfl, hother, rfl, rfl⟩
  · refine ⟨hring, ?_, hother, rfl, rfl⟩
    rw [List.append_nil]; rfl

/-- R401: a write of PCI_RCFGr with en set, to a ring that is disabled. -/
theorem exec_ringEnable {w : W64} (hup : s.hm.down = false) (hw : w.getLsbD 0 = true) (hen : (s.ring f r).en = false) :
    exec (.ringEnable f r w) s = .next (s.enableRing f r (rcfgWrite (s.ring f r).cfg w rcfgIdle)) := by
  refine (s.live_next (fun s => if tb w.toNat 0 then s.writeRcfg f r w else s) hup).trans (congrArg Host.Outcome.next ?_)
  have htb : tb w.toNat 0 = true := (tb_toNat w 0).trans hw
  rw [if_pos htb, State.writeRcfg, hen, htb]
  rfl

/-- R408: a write of PCI_RCFGr with en clear, to a ring that is enabled. -/
theorem exec_ringDisable {w : W64} (hup : s.hm.down = false) (hw : w.getLsbD 0 = false) (hen : (s.ring f r).en = true) :
    exec (.ringDisable f r w) s = .next (s.disableRing f r (rcfgWrite (s.ring f r).cfg w rcfgBusy)) := by
  refine (s.live_next (fun s => if tb w.toNat 0 then s else s.writeRcfg f r w) hup).trans (congrArg Host.Outcome.next ?_)
  have htb : tb w.toNat 0 = false := (tb_toNat w 0).trans hw
  rw [if_neg (ne_true_of_eq_false htb), State.writeRcfg, hen, htb]
  rfl

/-- R286: a request ring whose pointers do not match begins again. -/
theorem State.ringMismatch_restarts (h : (s.ring f r).serves 1 = true) : let t := s.ringMismatch f r
    t.ring f r = { s.ring f r with cfg := (s.ring f r).cfg ||| 2#64, cons := 0, prod := 0, next := 0, left := [], fetched := [] }
      ∧ (t.fn f).err = (s.fn f).err ||| 2#6 ∧ t.serv = { s.serv with cmds := s.serv.cmds ++ [.endRing f r] } := by
  let u := s.modRing f r fun g =>
    { g with cfg := g.cfg ||| 2#64, cons := 0, prod := 0, next := 0, left := [], fetched := [] }
  let v : State := { u with host := { u.host with reads := u.host.reads.filter fun x => !(x.f == f && x.ring == r) } }
  let flagged : Func → Func := fun x => { x.flag errPtr with ringerrs := bump x.ringerrs }
  have ht : s.ringMismatch f r = (v.modFn f flagged).addCmd (.endRing f r) := if_pos h
  have hfn : (v.modFn f flagged).fn f = flagged (u.fn f) := State.fn_modFn ..
  have hring : (v.modFn f flagged).ring f r = u.ring f r := State.ring_modFn v f (g := flagged) (fun _ => rfl) r
  have herr : (flagged (u.fn f)).err = (s.fn f).err ||| 2#6 := by
    rw [show u.fn f = _ from State.fn_modRing ..]; rfl
  dsimp only
  rw [ht]
  exact ⟨hring.trans (State.ring_modRing ..), (congrArg Func.err hfn).trans herr, rfl⟩

end
end Sys2Proof.Machine

open Sys2Proof Sys2Proof.Machine

/-- Settles O40: a doorbell by the kind of its ring and the index in it; a register write by whether the ring is enabled. -/
theorem hostRings : Obligations.HostRings := by
  intro f r v w s hup x g bell refused live
  have hbell : ∀ {t}, s.bell f r v = t → exec (.pciRdbDoorbell f r v) s = .next t := fun h =>
    (exec_pciRdbDoorbell hup f r v).trans (congrArg _ h)
  have hrefused : s.bell f r v = s.refuseBell f r → bell refused := fun h => ⟨_, hbell h, s.onlyFn_refuseBell f r⟩
  have hlive : live → ¬(s.hm.state = 0 ∨ s.hm.state = 3) := fun h => not_or.mpr h
  refine ⟨fun hno => ?_, fun hl h1 hroom => ?_, fun hl h1 hroom => ?_, fun hl h23 hkept => ?_, fun hl h1 h23 hused => ?_, fun hl h1 h2 h3 => ?_,
    ?_, ?_, rfl, fun h1 => ⟨_, rfl, State.ringMismatch_restarts h1⟩, fun h1 => ?_⟩
  · exact hrefused (State.bell_notLive (by simpa only [live, not_and_or, not_not] using hno))
  · exact ⟨_, hbell rfl, State.bell_reads (hlive hl) h1 hroom⟩
  · exact hrefused ((State.bell_request (hlive hl) h1).trans (if_neg (Nat.not_le_of_lt hroom)))
  · have h1 : g.serves 1 = false := h23.elim (Ring.serves_one_of (by decide)) (Ring.serves_one_of (by decide))
    have hrec := State.bell_records (v := v) (hlive hl) h1 h23
    split
    · next hin =>
      refine ⟨_, hbell (hrec.trans ((if_pos hin).trans (State.flushKept_none ?_))), s.onlyFn_modFn f _⟩
      rw [State.ring_modRing]; exact hkept
    · next hout => exact hrefused (hrec.trans (if_neg hout))
  · exact hrefused ((State.bell_records (hlive hl) h1 h23).trans (if_neg (Nat.not_le_of_lt hused)))
  · exact hrefused (State.bell_none (hlive hl) h1 h2 h3)
  · intro cfg hw hen hkept h
    exact ⟨_, (exec_ringEnable hup hw hen).trans (congrArg _ (State.enableRing_fresh hkept h)), s.onlyFn_modFn f _⟩
  · intro cfg hw hen
    exact ⟨_, exec_ringDisable hup hw hen, State.disableRing_leaves s f r _⟩
  · exact congrArg Host.Outcome.next (if_neg (ne_true_of_eq_false h1))
end

section
/-! PROOF. Bus mastering, resets, IDE, protocol errors and host reads of a function (R407, R409, R413, R421, R422, R436, R482). -/

namespace Sys2Proof.Machine

/-! ## What resuming a function leaves (R407, R409) -/

/-- Of the block only functions, reads and what goes out changed, and no function's bus mastering did. -/
def State.Resumes (s t : State) : Prop :=
  t = { s with host := { s.host with fns := t.host.fns, reads := t.host.reads, nextTag := t.host.nextTag, out := t.host.out } }
    ∧ ∀ g, (t.fn g).bme = (s.fn g).bme

section
variable {s₀ s t : State} {f : FnId} {r : RingId}

theorem State.Resumes.refl (s : State) : s.Resumes s := ⟨rfl, fun _ => rfl⟩

theorem State.Resumes.trans (h : s₀.Resumes s) (h' : s.Resumes t) : s₀.Resumes t := by
  obtain ⟨hs, hb⟩ := h
  obtain ⟨ht, hb'⟩ := h'
  refine ⟨?_, fun g => (hb' g).trans (hb g)⟩
  rw [ht, hs]

theorem State.resumes_foldl {α : Type} {step : State → α → State} (h : ∀ (s : State) (x : α), s.Resumes (step s x)) (xs : List α)
    (s : State) : s.Resumes (xs.foldl step s) := by
  induction xs generalizing s with
  | nil => exact .refl s
  | cons x xs ih => exact .trans (h s x) (ih _)

theorem State.Opens.resumes (h : s.Opens t) : s.Resumes t := by
  have hfns : t.host.fns = s.host.fns := by rw [h.1]
  have hout : t.host.out = s.host.out := by rw [h.1]
  refine ⟨?_, fun g => by rw [h.fn]⟩
  rw [hfns, hout]
  exact h.1

theorem State.resumes_modFn (s : State) (f : FnId) {g : Func → Func} (hg : ∀ x, (g x).bme = x.bme) : s.Resumes (s.modFn f g) := by
  refine ⟨rfl, fun e => ?_⟩
  by_cases h : e = f
  · rw [h, State.fn_modFn, hg]
  · rw [State.fn_modFn_other _ _ _ _ h]

theorem State.resumes_send (s : State) (p : Posted) : s.Resumes (s.send p) := ⟨rfl, fun _ => rfl⟩

theorem State.resumes_interrupt (s : State) (f : FnId) (v : Nat) : s.Resumes (s.interrupt f v) := by
  unfold State.interrupt
  split
  · refine s.resumes_modFn f ?_
    exact fun _ => rfl
  · exact s.resumes_send _

theorem State.resumes_modRing (s : State) (f : FnId) (r : RingId) (g : Ring → Ring) : s.Resumes (s.modRing f r g) := by
  refine s.resumes_modFn f ?_
  exact fun _ => rfl

theorem State.resumes_moderate (s : State) (f : FnId) (r : RingId) (n : Nat) : s.Resumes (s.moderate f r n) := by
  unfold State.moderate
  dsimp only
  split
  · exact .trans (State.resumes_modRing ..) (State.resumes_interrupt ..)
  · exact State.resumes_modRing ..

theorem State.resumes_pushRecs (s : State) (f : FnId) (r : RingId) (xs : List (BitVec 256)) : s.Resumes (s.pushRecs f r xs) := by
  unfold State.pushRecs
  extract_lets g s1 prod s2
  have h1 : s.Resumes s1 := State.resumes_foldl (fun u p => u.resumes_send _) _ _
  exact .trans (.trans (.trans h1 (State.resumes_modRing ..)) (State.resumes_send ..)) (State.resumes_moderate ..)

theorem State.resumes_flushKept (s : State) (f : FnId) (r : RingId) : s.Resumes (s.flushKept f r) := by
  unfold State.flushKept
  dsimp only
  split
  · split
    · exact .refl s
    · exact .trans (State.resumes_modRing ..) (State.resumes_pushRecs ..)
  · exact .refl s

theorem State.resumes_sendPending (s : State) (f : FnId) (v : Nat) : s.Resumes (s.sendPending f v) := by
  unfold State.sendPending
  split
  · refine .trans (s.resumes_modFn f ?_) (State.resumes_interrupt ..)
    exact fun _ => rfl
  · exact .refl s

theorem State.resumes_resumeFn (s : State) (f : FnId) : s.Resumes (s.resumeFn f) := by
  unfold State.resumeFn
  exact .trans
    (State.resumes_foldl (fun (u : State) (r : RingId) => .trans (u.resumes_flushKept f r) (State.opens_openReads ..).resumes) _ s)
    (State.resumes_foldl (fun u v => u.resumes_sendPending f v) _ _)

theorem State.Resumes.mem (h : s.Resumes t) : t.mem = s.mem := by rw [h.1]
theorem State.Resumes.serv (h : s.Resumes t) : t.serv = s.serv := by rw [h.1]
theorem State.Resumes.sec (h : s.Resumes t) : t.sec = s.sec := by rw [h.1]

/-- R407: a function without rings and pending vectors has nothing that waited. -/
theorem State.resumeFn_idle (hrings : (s.fn f).rings = []) (hpba : (s.fn f).pba = 0) : s.resumeFn f = s := by
  have hpend : ∀ v, s.sendPending f v = s := fun v => by
    rw [State.sendPending, hpba]
    exact if_neg (by simp)
  have hfold : ∀ vs : List Nat, vs.foldl (fun s v => s.sendPending f v) s = s := by
    intro vs
    induction vs with
    | nil => rfl
    | cons v vs ih => rw [List.foldl_cons, hpend, ih]
  rw [State.resumeFn, Func.ringIds, hrings]
  exact hfold _

/-! ## Resets (R421) -/

/-- R421: tenant `x` of function `f` has no other function. -/
theorem State.fnsOf_alone {x : TenantId} (hx : (s.fn f).tenant = x) (h : ∀ g, g ≠ f → (s.fn g).tenant ≠ x) : s.fnsOf x = [f] := by
  have hone : (fun g => (s.fn g).tenant == x) = fun g => g == f := by
    funext g
    by_cases hg : g = f
    · rw [hg, hx]; simp
    · simp [hg, h g hg]
  rw [State.fnsOf, hone, List.filter_beq, List.count_eq_one_of_mem (List.nodup_finRange 64) (List.mem_finRange f)]
  rfl

/-- R421: the tenant whose only function is reset is to be dropped. -/
def State.tenantDropped (s : State) (f : FnId) : State :=
  if (s.fn f).tenant ≠ 0 ∧ s.fnsOf (s.fn f).tenant = [f] then s.addCmd (.dropTenant (s.fn f).tenant) else s

theorem State.tenantDropped_leaves (s : State) (f : FnId) : let u := s.tenantDropped f
    u = { s with serv := { s.serv with cmds := u.serv.cmds } } ∧ (∀ c ∈ s.serv.cmds, c ∈ u.serv.cmds)
      ∧ ((s.fn f).tenant ≠ 0 → (∀ g, g ≠ f → (s.fn g).tenant ≠ (s.fn f).tenant) → .dropTenant (s.fn f).tenant ∈ u.serv.cmds) := by
  unfold State.tenantDropped
  split
  · exact ⟨rfl, fun c hc => List.mem_append_left _ hc, fun _ _ => List.mem_append_right _ (List.mem_singleton_self _)⟩
  · next h => exact ⟨rfl, fun c hc => hc, fun h0 hone => absurd ⟨h0, State.fnsOf_alone rfl hone⟩ h⟩

/-- R421: the function's own part of its reset. -/
def State.fnCleared (s : State) (f : FnId) : State :=
  { s with
    host := { s.host with
      fns := Sparse.put Func.reset s.host.fns f.val Func.reset,
      tickets := s.host.tickets.filter fun x => ticketIssuer x.num != f.val,
      reads := s.host.reads.filter fun x => x.f != f },
    serv := { s.serv with
      cmds := s.serv.cmds ++ [.endFn f],
      jobs := s.serv.jobs.map fun j => if j.issuer == .fn f then { j with cancelled := true } else j } }

theorem State.fn_fnCleared (s : State) (f g : FnId) : (s.fnCleared f).fn g = (s.setFn f Func.reset).fn g := rfl

theorem State.resetFn_eq (s : State) (f : FnId) : s.resetFn f = (s.tenantDropped f).fnCleared f := rfl

/-- R421: what the reset of a function leaves. -/
theorem State.resetFn_leaves (s : State) (f : FnId) : let t := s.resetFn f
    t.fn f = Func.reset ∧ (∀ g, g ≠ f → t.fn g = s.fn g)
      ∧ t.host.tickets = s.host.tickets.filter (fun k => ticketIssuer k.num != f.val) ∧ .endFn f ∈ t.serv.cmds
      ∧ t.host.reads = s.host.reads.filter (fun x => x.f != f) ∧ (∀ j ∈ t.serv.jobs, j.issuer = .fn f → j.cancelled = true)
      ∧ ((s.fn f).tenant ≠ 0 → (∀ g, g ≠ f → (s.fn g).tenant ≠ (s.fn f).tenant) → .dropTenant (s.fn f).tenant ∈ t.serv.cmds) := by
  obtain ⟨hframe, -, hdrop⟩ := s.tenantDropped_leaves f
  have hhost : (s.tenantDropped f).host = s.host := by rw [hframe]
  have hjobs : (s.tenantDropped f).serv.jobs = s.serv.jobs := by rw [hframe]
  dsimp only at hdrop ⊢
  rw [State.resetFn_eq]
  generalize s.tenantDropped f = u at hhost hjobs hdrop ⊢
  refine ⟨by rw [State.fn_fnCleared, State.fn_setFn], fun g hg => ?_, ?_, List.mem_append_right _ (List.mem_singleton_self _), ?_, fun j hj hi => ?_,
    fun h0 hone => List.mem_append_left _ (hdrop h0 hone)⟩
  · rw [State.fn_fnCleared, State.fn_setFn_other _ _ _ _ hg, State.fn, hhost]; rfl
  · rw [State.fnCleared, hhost]
  · rw [State.fnCleared, hhost]
  · obtain ⟨i, -, rfl⟩ := List.mem_map.mp (show j ∈ u.serv.jobs.map _ from hj)
    by_cases hmine : (i.issuer == .fn f) = true
    · rw [if_pos hmine]
    · rw [if_neg hmine] at hi
      exact absurd (by rw [hi]; exact beq_self_eq_true _) hmine

/-- R421: what no reset of a function touches. -/
theorem State.resetFn_keeps (s : State) (f : FnId) : let t := s.resetFn f
    t.mem = s.mem ∧ t.cores = s.cores ∧ t.pwr = s.pwr ∧ ∀ c ∈ s.serv.cmds, c ∈ t.serv.cmds := by
  obtain ⟨hframe, hcmds, -⟩ := s.tenantDropped_leaves f
  have hmem : (s.tenantDropped f).mem = s.mem := by rw [hframe]
  have hcores : (s.tenantDropped f).cores = s.cores := by rw [hframe]
  have hpwr : (s.tenantDropped f).pwr = s.pwr := by rw [hframe]
  dsimp only at hcmds ⊢
  rw [State.resetFn_eq]
  generalize s.tenantDropped f = u at hmem hcores hpwr hcmds ⊢
  exact ⟨hmem, hcores, hpwr, fun c hc => List.mem_append_left _ (hcmds c hc)⟩

/-- R421: resets of several functions. -/
theorem State.resetFns_leave (fs : List FnId) (s : State) : let t := fs.foldl State.resetFn s
    t.mem = s.mem ∧ t.cores = s.cores ∧ t.pwr = s.pwr ∧ (∀ c ∈ s.serv.cmds, c ∈ t.serv.cmds)
      ∧ (∀ g, t.fn g = if g ∈ fs then Func.reset else s.fn g)
      ∧ t.host.reads = s.host.reads.filter (fun x => !fs.contains x.f) ∧ ∀ g ∈ fs, .endFn g ∈ t.serv.cmds := by
  induction fs generalizing s with
  | nil =>
    refine ⟨rfl, rfl, rfl, fun c hc => hc, fun g => rfl, ?_, fun g hg => absurd hg List.not_mem_nil⟩
    exact (List.filter_eq_self.mpr fun _ _ => rfl).symm
  | cons f fs ih =>
    obtain ⟨hmem, hcores, hpwr, hcmds, hfn, hreads, hends⟩ := ih (s.resetFn f)
    obtain ⟨hself, hother, -, hend, hreads', -, -⟩ := s.resetFn_leaves f
    obtain ⟨hmem', hcores', hpwr', hcmds'⟩ := s.resetFn_keeps f
    dsimp only at *
    rw [List.foldl_cons]
    refine ⟨hmem.trans hmem', hcores.trans hcores', hpwr.trans hpwr', fun c hc => hcmds c (hcmds' c hc), fun g => ?_, ?_, fun g hg => ?_⟩
    · rw [hfn]
      by_cases hg : g = f
      · rw [hg, hself]; simp
      · simp [hg, hother g hg]
    · rw [hreads, hreads', List.filter_filter]
      refine List.filter_congr fun x _ => ?_
      by_cases hx : x.f = f <;> simp [hx]
    · rcases List.mem_cons.mp hg with rfl | hg
      · exact hcmds _ hend
      · exact hends g hg

/-- R421: the reset of the physical function resets every function. -/
theorem State.flr_all (s : State) : let t := s.flr 0
    (∀ g, t.fn g = Func.reset) ∧ t.host.reads = [] ∧ t.mem = s.mem ∧ t.cores = s.cores ∧ (∀ g, .endFn g ∈ t.serv.cmds)
      ∧ t.pwr = s.pwr := by
  obtain ⟨hmem, hcores, hpwr, -, hfn, hreads, hends⟩ := State.resetFns_leave (List.finRange 64) s
  refine ⟨fun g => (hfn g).trans (if_pos (List.mem_finRange g)), hreads.trans ?_, hmem, hcores, fun g => hends g (List.mem_finRange g), hpwr⟩
  exact List.filter_eq_nil_iff.mpr fun x _ => by simp

/-! ## Vectors that are unmasked (R409) -/

theorem getLsbD_and_not_bit {w : Nat} (x : BitVec w) (c : Nat) {d : Nat} (hd : d < w) :
    (x &&& ~~~BitVec.ofNat w (2 ^ c)).getLsbD d = (x.getLsbD d && !decide (c = d)) := by
  rw [BitVec.getLsbD_and, BitVec.getLsbD_not, BitVec.getLsbD_ofNat, Nat.testBit_two_pow, decide_eq_true hd, Bool.true_and,
    Bool.true_and]

/-- R409: a vector's address and data stay as it is unmasked. -/
def Func.unmasked (x : Func) (v : Nat) : Func :=
  { x with msix := Sparse.put (0, 0, true) x.msix v ((x.vec v).1, (x.vec v).2.1, false) }

theorem Func.vec_unmasked (x : Func) (v : Nat) : (x.unmasked v).vec v = ((x.vec v).1, (x.vec v).2.1, false) := Sparse.get_put_same ..

theorem State.unmask_eq (s : State) (f : FnId) (v : BitVec 5) :
    s.unmask f v = (s.modFn f fun x => x.unmasked v.toNat).sendPending f v.toNat := by
  rw [State.unmask, State.modFn, State.modFn]; rfl

/-- R409: what becomes of a pending vector's message once it is unmasked. -/
theorem State.sendPending_unmasked {v : BitVec 5} (hmask : ((s.fn f).vec v.toNat).2.2 = false) : let t := s.sendPending f v.toNat
    (t.fn f).vec v.toNat = (s.fn f).vec v.toNat
      ∧ ((s.fn f).pba.getLsbD v.toNat = false → (t.fn f).pba = (s.fn f).pba ∧ t.host.out = s.host.out)
      ∧ ((s.fn f).pba.getLsbD v.toNat = true → s.mastering f = true →
          (t.fn f).pba.getLsbD v.toNat = false ∧ t.host.out = s.host.out ++ [.msix f v.toNat]) := by
  let cleared : Func → Func := fun x => { x with pba := x.pba &&& ~~~(BitVec.ofNat 32 (2 ^ v.toNat)) }
  have ht : s.sendPending f v.toNat
    = if (s.fn f).pba.getLsbD v.toNat then (s.modFn f cleared).interrupt f v.toNat else s := rfl
  have hfn : (s.modFn f cleared).fn f = cleared (s.fn f) := State.fn_modFn ..
  have hvec : ((s.modFn f cleared).interrupt f v.toNat |>.fn f).vec v.toNat = (s.fn f).vec v.toNat := by
    rw [State.fn_interrupt, hfn]; rfl
  dsimp only
  rw [ht]
  split
  · next hp =>
    refine ⟨hvec, fun h => absurd hp (ne_true_of_eq_false h), fun _ hbm => ?_⟩
    have hbm' : (s.modFn f cleared).mastering f = true := (State.mastering_modFn s f (g := cleared) fun _ => rfl).trans hbm
    have hgoes : (s.modFn f cleared).pends f v.toNat = false := by
      rw [State.pends, hbm', hfn, show (cleared (s.fn f)).vec v.toNat = (s.fn f).vec v.toNat from rfl, hmask]
      rfl
    rw [State.interrupt_cases, hgoes, if_neg Bool.false_ne_true]
    refine ⟨?_, rfl⟩
    rw [State.fn_send, hfn, show (cleared (s.fn f)).pba = _ from rfl, getLsbD_and_not_bit _ _ v.isLt]
    simp
  · next hp => exact ⟨rfl, fun _ => ⟨rfl, rfl⟩, fun h => absurd h hp⟩

/-! ## IDE (R436) -/

theorem State.ideKm_keyed {stream sess : Nat} {fns : List FnId} (h : (sess, true) ∈ (s.fn 0).sessions ∧ stream ≤ 64) :
    s.ideKm stream fns sess = fns.foldl State.resumeFn { s with sec := { s.sec with
      ide := (s.sec.ide.filter fun i => i.num != stream) ++ [⟨stream, fns, true⟩] } } :=
  if_pos ⟨List.contains_iff_mem.mpr h.1, h.2⟩

theorem State.ideKm_other {stream sess : Nat} {fns : List FnId} (h : ¬((sess, true) ∈ (s.fn 0).sessions ∧ stream ≤ 64)) :
    s.ideKm stream fns sess = s :=
  if_neg fun h' => h ⟨List.contains_iff_mem.mp h'.1, h'.2⟩

/-! ## Host reads (R413, R422) -/

section
variable {tag : Nat} {y : HostRead}

theorem State.readOf_some (h : s.readOf f tag = some y) : y ∈ s.host.reads ∧ y.f = f ∧ y.tag = tag := by
  refine ⟨List.mem_of_find?_eq_some h, ?_⟩
  simpa using List.find?_some h

/-- R413: a read that is done is outstanding no longer. -/
theorem State.not_mem_dropRead (s : State) (f : FnId) (tag : Nat) : ∀ z ∈ (s.dropRead f tag).host.reads, ¬(z.f = f ∧ z.tag = tag) := by
  rintro z hz ⟨hf, htag⟩
  simpa [hf, htag] using (List.mem_filter.mp hz).2

theorem State.length_dropRead (h : s.readOf f tag = some y) : (s.dropRead f tag).host.reads.length < s.host.reads.length := by
  obtain ⟨hmem, hf, htag⟩ := State.readOf_some h
  refine List.length_filter_lt_length_iff_exists.mpr ⟨y, hmem, ?_⟩
  simp [hf, htag]

theorem assoc?_insert {α : Type} (i : Nat) (x : α) (l : List (Nat × α)) : assoc? i (Sparse.insert i x l) = some x := by
  induction l with
  | nil => simp [Sparse.insert, assoc?]
  | cons p l ih =>
    obtain ⟨k, z⟩ := p
    unfold Sparse.insert
    split
    · simp [assoc?]
    · split
      · simp [assoc?]
      · next hne =>
        rw [assoc?] at ih ⊢
        rw [List.find?_cons_of_neg (by simpa using Ne.symm hne), ih]

/-- R413: a read that brings its entry. -/
theorem State.readDone_fetched (h : s.readOf f tag = some y) (data : List W64) : let t := s.readDone f tag true false data
    (tag < s.host.nextTag → ∀ z ∈ t.host.reads, ¬(z.f = f ∧ z.tag = tag))
      ∧ assoc? y.ix.toNat (t.ring f y.ring).fetched = some (BitVec.ofNat 256 (packFields 64 ((data.take 4).map (·.toNat))))
      ∧ t.serv = s.serv ∧ t.mem = s.mem := by
  let u := (s.dropRead f tag).modRing f y.ring fun g =>
    { g with fetched := Sparse.insert y.ix.toNat (BitVec.ofNat 256 (packFields 64 ((data.take 4).map (·.toNat)))) g.fetched }
  have ht : s.readDone f tag true false data = u.nextReads := by rw [State.readDone, h]; rfl
  have hopens := u.opens_nextReads
  obtain ⟨-, -, zs, hzs, htags⟩ := id hopens
  dsimp only
  rw [ht]
  refine ⟨fun hlt z hz hof => ?_, ?_, hopens.serv, hopens.mem⟩
  · rw [hzs] at hz
    rcases List.mem_append.mp hz with hz | hz
    · exact s.not_mem_dropRead f tag z hz hof
    · have : s.host.nextTag ≤ z.tag := htags z hz
      omega
  · rw [hopens.ring, show u.ring f y.ring = _ from State.ring_modRing ..]
    exact assoc?_insert ..

theorem State.readDone_failed (h : s.readOf f tag = some y) {ok poisoned : Bool} (hbad : (ok && !poisoned) = false) (data : List W64) :
    s.readDone f tag ok poisoned data = (s.readFailed y).nextReads := by
  rw [State.readDone, h]
  exact if_neg (ne_true_of_eq_false hbad)

/-- R422: a function that has counted an error of the host's. -/
def Func.errorCounted (x : Func) : Func := { x with hosterrs := bump x.hosterrs }

/-- R422: a third try has failed. -/
def Func.readGone (x : Func) : Func := x.errorCounted.flag errHost

/-- R413, R422: the entry of a read whose third try has failed leaves its ring. -/
def State.readAbandoned (s : State) (y : HostRead) : State :=
  (((((s.dropRead y.f y.tag).modFn y.f Func.errorCounted).modFn y.f fun x => x.flag errHost).leave y.f y.ring y.ix)).modRing y.f y.ring
    fun g => if g.next = y.ix then { g with next := g.next + 1 } else g

theorem State.readFailed_cases (s : State) (y : HostRead) : s.readFailed y
    = if y.tries < 3 then ((s.dropRead y.f y.tag).modFn y.f Func.errorCounted).addRead y.f y.ring y.ix (y.tries + 1)
      else s.readAbandoned y := rfl

@[simp] theorem Func.err_setRing (x : Func) (r : RingId) (g : Ring) : (x.setRing r g).err = x.err := rfl
@[simp] theorem Func.hosterrs_setRing (x : Func) (r : RingId) (g : Ring) : (x.setRing r g).hosterrs = x.hosterrs := rfl

theorem State.fn_leave (s : State) (f : FnId) (r : RingId) (ix : W32) :
    (s.leave f r ix).fn f = (s.fn f).setRing r (((s.leave f r ix)).ring f r) := by
  rw [State.leave, State.fn_modRing, State.ring_modRing]

/-- R422: a third failure shows in the function's errors alone, besides its ring. -/
theorem State.readAbandoned_leaves (s : State) (y : HostRead) : let t := s.readAbandoned y
    (t.fn y.f).hosterrs = bump (s.fn y.f).hosterrs ∧ (t.fn y.f).err = (s.fn y.f).err ||| 8#6 ∧ t.serv = s.serv ∧ t.mem = s.mem := by
  have hfn : (((s.dropRead y.f y.tag).modFn y.f Func.errorCounted).modFn y.f fun x => x.flag errHost).fn y.f = (s.fn y.f).readGone := by
    rw [State.fn_modFn, State.fn_modFn]; rfl
  refine ⟨?_, ?_, ?_, ?_⟩
  · rw [State.readAbandoned, State.fn_modRing, Func.hosterrs_setRing, State.fn_leave, Func.hosterrs_setRing, hfn]; rfl
  · rw [State.readAbandoned, State.fn_modRing, Func.err_setRing, State.fn_leave, Func.err_setRing, hfn]; rfl
  · rw [State.readAbandoned, State.leave, State.modRing_serv, State.modRing_serv, State.modFn_serv, State.modFn_serv, State.dropRead_serv]
  · rw [State.readAbandoned, State.leave, State.modRing_mem, State.modRing_mem, State.modFn_mem, State.modFn_mem, State.dropRead_mem]

/-- R413, R422: a try of a read has failed. -/
theorem State.readFailed_leaves (h : s.readOf f tag = some y) : let t := (s.readFailed y).nextReads
    (t.fn f).hosterrs = bump (s.fn f).hosterrs ∧ t.serv = s.serv ∧ t.mem = s.mem
      ∧ (y.tries < 3 → s.host.reads.length ≤ 768 → (t.fn f).err = (s.fn f).err
          ∧ ⟨f, s.host.nextTag, y.tries + 1, y.ring, y.ix⟩ ∈ t.host.reads)
      ∧ (3 ≤ y.tries → (t.fn f).err = (s.fn f).err ||| 8#6) := by
  obtain ⟨-, hf, htag⟩ := State.readOf_some h
  have hlen := State.length_dropRead h
  subst hf htag
  have hopens := (s.readFailed y).opens_nextReads
  dsimp only
  rw [hopens.fn, hopens.serv, hopens.mem]
  rw [State.readFailed_cases] at hopens ⊢
  by_cases htry : y.tries < 3
  · rw [if_pos htry] at hopens ⊢
    let u := (s.dropRead y.f y.tag).modFn y.f Func.errorCounted
    have hadd := u.opens_addRead y.f y.ring y.ix (y.tries + 1)
    have hfn : u.fn y.f = (s.fn y.f).errorCounted := State.fn_modFn ..
    rw [show (u.addRead y.f y.ring y.ix (y.tries + 1)).fn y.f = u.fn y.f from hadd.fn _, hfn]
    refine ⟨rfl, hadd.serv, hadd.mem, fun _ hplace => ⟨rfl, hopens.mem_reads ?_⟩, fun h3 => absurd htry (Nat.not_lt.mpr h3)⟩
    rw [State.addRead, if_neg (show ¬768 ≤ u.host.reads.length from Nat.not_le_of_lt (Nat.lt_of_lt_of_le hlen hplace))]
    exact List.mem_append_right _ (List.mem_singleton_self _)
  · rw [if_neg htry] at hopens ⊢
    obtain ⟨hcount, herr, hserv, hmem⟩ := s.readAbandoned_leaves y
    exact ⟨hcount, hserv, hmem, fun h => absurd h htry, fun _ => herr⟩

end

end
end Sys2Proof.Machine

open Sys2Proof Sys2Proof.Machine

/-- Settles O41: bus mastering by what waited, a reset by its functions, a read by its tries. -/
theorem hostFunctions : Obligations.HostFunctions := by
  intro f vec tag data fns stream sess s hup x
  have hlive : ∀ (g : State → State), s.live g = .next (g s) := fun g => s.live_next g hup
  refine ⟨⟨_, hlive fun s => s.busMaster f false, s.onlyFn_modFn f fun x => { x with bme := false }⟩, ?_, fun hf => ?_, fun i hi => ?_,
    hlive fun s => s.modPwr fun p => { p with perst := false, linkUp := p.linkUp || decide (3 ≤ p.stage) }, rfl, ?_, fun k hk => ?_,
    fun k hk => ?_, hlive fun s => s.hostProtocol f .malformed, ?_, fun y hy => ⟨⟨_, rfl, State.readDone_fetched hy data⟩, fun i hi => ?_⟩⟩
  · let u := s.modFn f fun x => { x with bme := true }
    have hfn : u.fn f = { s.fn f with bme := true } := State.fn_modFn ..
    have hres := u.resumes_resumeFn f
    refine ⟨_, hlive fun s => s.busMaster f true, (hres.2 f).trans (by rw [hfn]), hres.mem, hres.serv, fun hrings hpba => ?_⟩
    have hidle : u.resumeFn f = u := State.resumeFn_idle (by rw [hfn]; exact hrings) (by rw [hfn]; exact hpba)
    show s.onlyFn (u.resumeFn f) f _
    rw [hidle]
    exact s.onlyFn_modFn f _
  · obtain ⟨hself, hother, htickets, hend, hreads, hjobs, hdrop⟩ := s.resetFn_leaves f
    refine ⟨_, (hlive fun s => s.flr f).trans (congrArg _ (if_neg hf)), hself, hother, htickets, hend, fun y hy => ?_, hjobs, hdrop,
      (s.resetFn_keeps f).1⟩
    rw [hreads] at hy
    simpa using (List.mem_filter.mp hy).2
  · obtain ⟨hfns, hreads, hmem, hcores, hcmds, hpwr⟩ := s.flr_all
    simp only [List.mem_cons, List.not_mem_nil, or_false] at hi
    rcases hi with rfl | rfl
    · refine ⟨_, hlive fun s => s.flr 0, hfns, hreads, hmem, hcores, hcmds, ?_⟩
      rw [if_neg (by simp)]
      exact hpwr
    · refine ⟨_, hlive fun s => (s.flr 0).modPwr fun p => { p with perst := true, linkUp := false }, ?_⟩
      rw [if_pos rfl, ← hpwr]
      generalize s.flr 0 = v at hfns hreads hmem hcores hcmds ⊢
      exact ⟨hfns, hreads, hmem, hcores, hcmds, rfl⟩
  · split
    · next h =>
      refine ⟨_, congrArg Host.Outcome.next (State.ideKm_keyed h), ?_, ?_⟩
      · exact (State.resumes_foldl (fun u f => u.resumes_resumeFn f) fns _).sec
      · exact (State.resumes_foldl (fun u f => u.resumes_resumeFn f) fns _).mem
    · next h => exact congrArg Host.Outcome.next (State.ideKm_other h)
  · simp only [List.mem_cons, List.not_mem_nil, or_false] at hk
    refine ⟨_, hlive fun s => s.hostProtocol f k, ?_⟩
    rcases hk with rfl | rfl
    · exact s.onlyFn_modFn f Func.errorCounted
    · exact s.onlyFn_modFn f Func.errorCounted
  · obtain ⟨-, hfn, hother⟩ := s.onlyFn_twice f Func.errorCounted fun x => x.flag errHost
    simp only [List.mem_cons, List.not_mem_nil, or_false] at hk
    refine ⟨_, hlive fun s => s.hostProtocol f k, ?_⟩
    rcases hk with rfl | rfl
    · exact ⟨hfn, rfl, hother⟩
    · exact ⟨hfn, rfl, hother⟩
  · have hfn : (s.modFn f fun x => x.unmasked vec.toNat).fn f = (s.fn f).unmasked vec.toNat := State.fn_modFn ..
    have hvec := (s.fn f).vec_unmasked vec.toNat
    obtain ⟨hv, hno, hyes⟩ := State.sendPending_unmasked (s := s.modFn f fun x => x.unmasked vec.toNat) (f := f) (v := vec)
      (by rw [hfn, hvec])
    have hbm : (s.modFn f fun x => x.unmasked vec.toNat).mastering f = s.mastering f :=
      State.mastering_modFn s f (g := fun x => x.unmasked vec.toNat) fun _ => rfl
    rw [hfn] at hv hno hyes
    rw [hbm] at hyes
    refine ⟨_, (hlive fun s => s.unmask f vec).trans (congrArg _ (s.unmask_eq f vec)), hv.trans hvec, hno, hyes⟩
  · have hfailed := State.readFailed_leaves hy
    simp only [List.mem_cons, List.not_mem_nil, or_false] at hi
    refine ⟨(s.readFailed y).nextReads, ?_, hfailed⟩
    rcases hi with rfl | rfl | rfl
    · exact congrArg Host.Outcome.next (State.readDone_failed hy rfl data)
    · exact congrArg Host.Outcome.next (State.readDone_failed hy rfl data)
    · show Host.Outcome.next (match s.readOf f tag with | some x => (s.readFailed x).nextReads | none => s) = _
      rw [hy]
end

section
/-! PROOF. Firmware slots, attestation, tenants and their key slots, the channel tests of the mailbox (R417, R428, R435 to R443). -/

namespace Sys2Proof.Machine

/-! ## Firmware (R424, R425, R428) -/

/-- R424, R425, R428: the image was fetched, and its signature block verifies. -/
def fwVerifies (fetch : FetchEnd) (sig : SigBlock) : Prop :=
  fetch = .ok ∧ sig.magicOk = true ∧ sig.reservedZero = true ∧ sig.kind = 1 ∧ sig.digestOk = true ∧ sig.rsaOk = true ∧ sig.slhOk = true

theorem sigFormed_iff (sig : SigBlock) : sigFormed sig 1 = true ↔ sig.magicOk = true ∧ sig.reservedZero = true ∧ sig.kind = 1 := by
  simp [sigFormed, ← BitVec.toNat_inj, and_assoc]

theorem sigVerifies_iff (sig : SigBlock) : sigVerifies sig = true ↔ sig.digestOk = true ∧ sig.rsaOk = true ∧ sig.slhOk = true := by
  simp [sigVerifies, and_assoc]

theorem fetchStatus_ne_done {fetch : FetchEnd} (h : fetch ≠ .ok) : fetchStatus fetch ≠ stDone := by
  cases fetch with
  | ok => exact absurd rfl h
  | hostError => decide
  | underWay => decide
  | timeout => decide

section
variable {s : State} {fetch : FetchEnd} {sig : SigBlock}

theorem State.fwVerdict_verified (h : fwVerifies fetch sig) :
    s.fwVerdict fetch sig = if sig.svn.toNat < s.flash.fuses then stRollback else stDone := by
  obtain ⟨hfetch, hmagic, hzero, hkind, hdigest, hrsa, hslh⟩ := h
  rw [State.fwVerdict, if_neg (not_not_intro hfetch), (sigFormed_iff sig).mpr ⟨hmagic, hzero, hkind⟩,
    (sigVerifies_iff sig).mpr ⟨hdigest, hrsa, hslh⟩]
  rfl

theorem State.fwVerdict_refused (h : ¬fwVerifies fetch sig) : s.fwVerdict fetch sig ≠ stDone := by
  unfold State.fwVerdict
  split
  · next hfetch => exact fetchStatus_ne_done hfetch
  · next hfetch =>
    split
    · decide
    · next hformed =>
      split
      · decide
      · next hver =>
        obtain ⟨hmagic, hzero, hkind⟩ := (sigFormed_iff sig).mp (by simpa using hformed)
        exact absurd ⟨not_not.mp hfetch, hmagic, hzero, hkind, (sigVerifies_iff sig).mp (by simpa using hver)⟩ h

theorem State.fwVerdict_done_iff (s : State) (fetch : FetchEnd) (sig : SigBlock) :
    s.fwVerdict fetch sig = stDone ↔ fwVerifies fetch sig ∧ s.flash.fuses ≤ sig.svn.toNat := by
  by_cases h : fwVerifies fetch sig
  · rw [State.fwVerdict_verified h]
    split
    · next hlt => exact ⟨fun he => absurd he (by decide), fun hg => absurd hg.2 (Nat.not_le_of_lt hlt)⟩
    · next hle => exact ⟨fun _ => ⟨h, Nat.not_lt.mp hle⟩, fun _ => rfl⟩
  · exact ⟨fun he => absurd he (State.fwVerdict_refused h), fun hg => absurd hg.1 h⟩

end

/-! ### The slots (R428) -/

section
variable {s : State} {i : Issuer} {fetch : FetchEnd} {sig : SigBlock}

theorem State.readTries_frame (s : State) (i : Issuer) (e : FetchEnd) :
    s.readTries i e = { s with host := { s.host with fns := (s.readTries i e).host.fns } } := by
  unfold State.readTries
  split <;> rfl

theorem State.slot_setImage (s : State) (b : Bool) (x : Option FwImage) : (s.setImage b x).flash.slot b = x := by
  cases b <;> rfl

theorem State.slot_setImage_other (s : State) (b : Bool) (x : Option FwImage) : (s.setImage (!b) x).flash.slot b = s.flash.slot b := by
  cases b <;> rfl

/-- R428: an image that goes to a slot changes nothing but flash, and there neither the active slot's name nor the fuses. -/
theorem State.setImage_keeps (s : State) (b : Bool) (x : Option FwImage) : let t := s.setImage b x
    t.flash.activeB = s.flash.activeB ∧ t.flash.fuses = s.flash.fuses ∧ t.sec = s.sec ∧ t.mem = s.mem ∧ t.host = s.host := by
  cases b <;> exact ⟨rfl, rfl, rfl, rfl, rfl⟩

/-- R428: FW_UPDATE in the state in which its issuer has been told. -/
def State.fwLoads (s : State) (i : Issuer) (fetch : FetchEnd) (sig : SigBlock) (k : W32) : State :=
  let b := !s.flash.activeB
  let st := s.fwVerdict fetch sig
  let s1 := (s.readTries i fetch).setImage b none
  if st = stDone then (s1.setImage b (some (fwImageOf sig))).finish k stDone (BitVec.ofNat 64 (bit b))
  else (if st = stSigFail then s1.sigFailed else s1).finish k st 0

theorem State.fwUpdate_loads (hi : i ≠ .rack) (hfull : s.ticketsFull i = false) (hrec : s.sec.recovery = false) :
    let x := s.told i 0x0502 0 0 0
    s.fwUpdate i (.scatter fetch) sig = x.2.fwLoads i fetch sig x.1 := by
  have hi' : (i == Issuer.rack) = false := beq_eq_false_iff_ne.mpr hi
  dsimp only
  have hsec : (s.told i 0x0502 0 0 0).2.sec.recovery = false := by rw [State.told_frame]; exact hrec
  rw [State.fwUpdate]
  dsimp only
  rw [hi', Bool.and_false, if_neg Bool.false_ne_true, State.issue_ticket hfull]
  generalize s.told i 0x0502 0 0 0 = x at hsec ⊢
  rw [State.fwLoads]
  refine ite_congr rfl (fun _ => if_neg (ne_true_of_eq_false ?_)) fun _ => rfl
  have htries : (x.2.readTries i fetch).sec = x.2.sec := by rw [State.readTries_frame]
  rw [State.finish_sec, (State.setImage_keeps ..).2.2.1, (State.setImage_keeps ..).2.2.1, htries]
  exact hsec

/-- R428: the state in which the slot that is not active has been cleared for an image. -/
def State.slotCleared (s : State) (i : Issuer) (fetch : FetchEnd) : State := (s.readTries i fetch).setImage (!s.flash.activeB) none

theorem State.slotCleared_keeps (s : State) (i : Issuer) (fetch : FetchEnd) : let t := s.slotCleared i fetch
    t.flash.slot s.flash.activeB = s.flash.slot s.flash.activeB ∧ t.flash.slot (!s.flash.activeB) = none
      ∧ t.flash.activeB = s.flash.activeB ∧ t.flash.fuses = s.flash.fuses ∧ t.sec = s.sec ∧ t.mem = s.mem
      ∧ t.host.tickets = s.host.tickets := by
  obtain ⟨hactive, hfuses, hsec, hmem, hhost⟩ := (s.readTries i fetch).setImage_keeps (!s.flash.activeB) none
  have hother := (s.readTries i fetch).slot_setImage_other s.flash.activeB none
  rw [State.readTries_frame] at hactive hfuses hsec hmem hhost hother
  refine ⟨?_, State.slot_setImage .., ?_, ?_, ?_, ?_, ?_⟩
  all_goals rw [State.slotCleared, State.readTries_frame]
  · exact hother
  · exact hactive
  · exact hfuses
  · exact hsec
  · exact hmem
  · exact (congrArg HostIf.tickets hhost :)

section
variable {k : W32} {x : Ticket} (hx : s.ticketOf k = some x) (hr : x.st = .running)
include hx hr

/-- R428: an image that verifies is in the slot that was not active. -/
theorem State.fwLoads_good (h : s.fwVerdict fetch sig = stDone) : let t := s.fwLoads i fetch sig k
    t.flash.slot s.flash.activeB = s.flash.slot s.flash.activeB ∧ t.flash.activeB = s.flash.activeB
      ∧ t.flash.fuses = s.flash.fuses ∧ t.sec.run = s.sec.run ∧ t.mem = s.mem
      ∧ t.flash.slot (!s.flash.activeB) = some (fwImageOf sig) ∧ t.ended k stDone (BitVec.ofNat 64 (bit (!s.flash.activeB))) := by
  obtain ⟨hslot, -, hactive, hfuses, hsec, hmem, htickets⟩ := s.slotCleared_keeps i fetch
  obtain ⟨hactive', hfuses', hsec', hmem', hhost'⟩ := (s.slotCleared i fetch).setImage_keeps (!s.flash.activeB) (some (fwImageOf sig))
  have ht : s.fwLoads i fetch sig k = ((s.slotCleared i fetch).setImage (!s.flash.activeB) (some (fwImageOf sig))).finish k stDone
      (BitVec.ofNat 64 (bit (!s.flash.activeB))) := if_pos h
  have hticket : ((s.slotCleared i fetch).setImage (!s.flash.activeB) (some (fwImageOf sig))).ticketOf k = some x := by
    rw [State.ticketOf, hhost', htickets]; exact hx
  dsimp only
  rw [ht]
  exact ⟨(State.slot_setImage_other ..).trans hslot, hactive'.trans hactive, hfuses'.trans hfuses,
    congrArg (·.run) (hsec'.trans hsec), hmem'.trans hmem, State.slot_setImage .., State.ended_finish hticket hr _ _⟩

/-- R428: an image that is refused leaves its slot empty. -/
theorem State.fwLoads_refused (h : s.fwVerdict fetch sig ≠ stDone) : let t := s.fwLoads i fetch sig k
    t.flash.slot s.flash.activeB = s.flash.slot s.flash.activeB ∧ t.flash.activeB = s.flash.activeB
      ∧ t.flash.fuses = s.flash.fuses ∧ t.sec.run = s.sec.run ∧ t.mem = s.mem
      ∧ t.flash.slot (!s.flash.activeB) = none ∧ t.ended k (s.fwVerdict fetch sig) 0 := by
  obtain ⟨hslot, hnone, hactive, hfuses, hsec, hmem, htickets⟩ := s.slotCleared_keeps i fetch
  let u := if s.fwVerdict fetch sig = stSigFail then (s.slotCleared i fetch).sigFailed else s.slotCleared i fetch
  have ht : s.fwLoads i fetch sig k = u.finish k (s.fwVerdict fetch sig) 0 := if_neg h
  have hflash : u.flash = (s.slotCleared i fetch).flash := by dsimp only [u]; split <;> rfl
  have hrun : u.sec.run = (s.slotCleared i fetch).sec.run := by dsimp only [u]; split <;> rfl
  have hmem' : u.mem = (s.slotCleared i fetch).mem := by dsimp only [u]; split <;> rfl
  have htickets' : u.host.tickets = (s.slotCleared i fetch).host.tickets := by dsimp only [u]; split <;> rfl
  have hticket : u.ticketOf k = some x := by
    rw [State.ticketOf, htickets', htickets]; exact hx
  dsimp only
  rw [ht, State.finish_flash, State.finish_sec, State.finish_mem, hflash, hrun, hmem', hsec]
  exact ⟨hslot, hactive, hfuses, rfl, hmem, hnone, State.ended_finish hticket hr _ _⟩

end

end

/-! ## Attestation (R434, R435) -/

theorem State.measurement_length (s : State) (t : TenantId) (j : Nat) : (s.measurement t j).length = 48 := by
  unfold State.measurement
  split
  case h_4 => split <;> exact leBytes_length ..
  case h_5 => split <;> exact leBytes_length ..
  all_goals exact leBytes_length ..

theorem State.reportBody_length (s : State) (t : TenantId) (nonce : BitVec 256) : (s.reportBody t nonce).length = 640 := by
  simp only [State.reportBody, List.length_append, leBytes_length, List.length_flatMap, State.measurement_length]
  rfl

theorem State.attestReport_length (s : State) (t : TenantId) (nonce : BitVec 256) : (s.attestReport t nonce).length = 17248 := by
  rw [State.attestReport, List.length_append, State.reportBody_length, List.length_take, List.length_append, List.length_replicate, reportBytes]
  omega

/-- R435: ATTEST in the state in which its issuer has been told. -/
theorem State.attest_ends {s : State} {i : Issuer} {nonce : BitVec 256} (hfull : s.ticketsFull i = false)
    (hk : s.ticketOf (s.told i 0x0501 0 0 0).1 = none) : let t := s.attest i nonce .ok
    t.ended (s.told i 0x0501 0 0 0).1 stDone 17248 ∧ t.mem = s.mem := by
  obtain ⟨x, hx, hr⟩ := State.ticketOf_told hk
  have hmem : (s.told i 0x0501 0 0 0).2.mem = s.mem := by rw [State.told_frame]
  dsimp only
  rw [State.attest, State.issue_ticket hfull, if_pos rfl]
  generalize s.told i 0x0501 0 0 0 = y at hx hmem ⊢
  obtain ⟨-, hm, htickets⟩ := y.2.putBuffer_leaves i 0x0501 (y.2.attestReport (y.2.tenantOf i) nonce)
  refine ⟨State.ended_finish (x := x) ?_ hr _ _, hm.trans hmem⟩
  rw [State.ticketOf, htickets]; exact hx

/-! ## Channel tests (R322, R323, R417) -/

section
variable {s : State} {i : Issuer} {ch : ChannelId} {ctrl range seed fixed loops : W64}

/-- R417: the generator's registers as TGC_RUN writes them. -/
def Tgc.written (g : Tgc) (ctrl range seed fixed loops : W64) : Tgc :=
  { g with ctrl := ctrl &&& 0xFFC0, range := range &&& 0x000FFFFF000FFFFF, seed := seed, fixed := fixed, loops := loops.extractLsb' 0 32 }

theorem State.tgcCommand_refused (h : (s.tgc ch).busy = true ∨ s.ms.chsvc.getLsbD ch.val = true) :
    s.tgcCommand i ch ctrl range seed fixed loops = s.reply i stRefused [] := if_pos (Bool.or_eq_true_iff.mpr h)

theorem State.tgc_of_ms {t : State} (h : t.ms = s.ms) : t.tgc ch = s.tgc ch := by rw [State.tgc, h]; rfl

/-- R323: TGC_RUN starts the run in the state in which its issuer has been told. -/
theorem State.tgcCommand_starts (hbusy : (s.tgc ch).busy = false) (hsvc : s.ms.chsvc.getLsbD ch.val = false)
    (hfull : s.ticketsFull i = false) (hok : s.tgcRefused ch ((s.tgc ch).written ctrl range seed fixed loops) = false) :
    let u := (s.told i 0x0602 0 0 ch.val).2.setTgc ch ((s.tgc ch).written ctrl range seed fixed loops)
    s.tgcCommand i ch ctrl range seed fixed loops = u.setTgc ch ((s.tgc ch).written ctrl range seed fixed loops).started := by
  have hms : (s.told i 0x0602 0 0 ch.val).2.ms = s.ms := by rw [State.told_frame]
  dsimp only
  rw [State.tgcCommand]
  dsimp only
  rw [if_neg (by rw [hbusy, hsvc]; decide), State.issue_ticket hfull]
  generalize (s.told i 0x0602 0 0 ch.val).2 = v at hms ⊢
  let g := (s.tgc ch).written ctrl range seed fixed loops
  have hg : (v.setTgc ch g).tgc ch = g := State.tgc_setTgc ..
  have hgo : (v.setTgc ch g).tgcGo ch = (v.setTgc ch g).setTgc ch g.started := by
    have href : (v.setTgc ch g).tgcRefused ch g = s.tgcRefused ch g := by
      unfold State.tgcRefused
      rw [show (v.setTgc ch g).ms.chsvc = s.ms.chsvc from congrArg (·.chsvc) hms]
    rw [State.tgcGo_cases, hg, if_neg (ne_true_of_eq_false (show g.busy = false from hbusy)), href, if_neg (ne_true_of_eq_false hok)]
  show (if (((v.setTgc ch g).tgcGo ch).tgc ch).refused = true then _ else (v.setTgc ch g).tgcGo ch) = _
  rw [hgo, State.tgc_setTgc]
  rfl

end

end Sys2Proof.Machine

open Sys2Proof Sys2Proof.Machine

/-- Settles O50: FW_UPDATE by its verdict, ATTEST by its ticket's end, the tenant commands by what they find, TGC_RUN by its start. -/
theorem firmwareAndTenants : Obligations.FirmwareAndTenants := by
  intro i fetch sig slotB t0 f ks nonce ch ctrl range seed fixed loops s slot good inactive
  refine ⟨fun htaken hbuf hi hfull hrec => ?_, fun htaken => State.next_command htaken rfl, fun htaken hbuf hfull => ?_, s.reportBody_length t0 nonce,
    s.attestReport_length t0 nonce, fun htaken => ⟨State.next_command htaken rfl, State.next_command htaken rfl, fun o ho => ?_, fun hnone => ?_, ?_⟩,
    fun htaken => ?_⟩
  · intro k hk
    obtain ⟨x, hx, hr⟩ := State.ticketOf_told hk
    have hloads : exec (.fwUpdate i (.scatter fetch) sig) s = .next ((s.told i 0x0502 0 0 0).2.fwLoads i fetch sig k) :=
      congrArg Host.Outcome.next (((State.hostCommand_eq ..).trans (if_pos ⟨htaken, hbuf⟩)).trans (State.fwUpdate_loads hi hfull hrec))
    have htold := s.told_frame i 0x0502 0 0 0
    change (s.told i 0x0502 0 0 0).2.ticketOf k = some x at hx
    generalize (s.told i 0x0502 0 0 0).2 = u at hx htold hloads
    have hflash : u.flash = s.flash := by rw [htold]
    have hsec : u.sec = s.sec := by rw [htold]
    have hmem : u.mem = s.mem := by rw [htold]
    have hgood : u.fwVerdict fetch sig = stDone ↔ good := by
      rw [State.fwVerdict_done_iff, hflash]
      simp only [good, fwVerifies, and_assoc]
    refine ⟨_, hloads, ?_⟩
    by_cases hv : u.fwVerdict fetch sig = stDone
    · obtain ⟨hslot, hactive, hfuses, hrun, hm, himage, hended⟩ := State.fwLoads_good hx hr hv (i := i)
      rw [hflash] at hslot hactive hfuses himage hended
      rw [hsec] at hrun
      refine ⟨hslot, hactive, hfuses, hrun, hm.trans hmem, fun _ => ⟨himage, ?_⟩, fun hbad => absurd (hgood.mp hv) hbad⟩
      cases hb : s.flash.activeB <;> rw [hb] at hended <;> simpa [inactive, hb, bit] using hended
    · obtain ⟨hslot, hactive, hfuses, hrun, hm, himage, hended⟩ := State.fwLoads_refused hx hr hv (i := i)
      rw [hflash] at hslot hactive hfuses himage
      rw [hsec] at hrun
      refine ⟨hslot, hactive, hfuses, hrun, hm.trans hmem, fun hg => absurd (hgood.mpr hg) hv, fun _ => ⟨himage, _, hv, hended, fun hver => ?_⟩⟩
      have hverdict := State.fwVerdict_verified (s := u) hver
      rw [hverdict] at hv ⊢
      split
      · rfl
      · next hle => exact absurd (if_neg hle) hv
  · intro k hk
    refine ⟨_, congrArg Host.Outcome.next ((State.hostCommand_eq ..).trans (if_pos ⟨htaken, hbuf⟩)), State.attest_ends hfull hk⟩
  · refine State.next_command htaken ?_
    rw [State.clearSlotCmd, ho]; rfl
  · refine State.next_command htaken ?_
    rw [State.clearSlotCmd, hnone]
  · refine State.next_command htaken ?_
    have hnone : s.fnsOf t0 = [] ↔ ∀ g, (s.fn g).tenant ≠ t0 := by
      simp [State.fnsOf, List.filter_eq_nil_iff]
    exact ite_congr (propext hnone) (fun _ => rfl) fun _ => rfl
  · intro g
    refine ⟨fun hbusy => State.next_command htaken (State.tgcCommand_refused hbusy), fun hbusy hsvc hfull hok => ?_⟩
    have hstart := State.tgcCommand_starts (seed := seed) (fixed := fixed) (loops := loops) hbusy hsvc hfull hok
    refine ⟨_, State.next_command htaken hstart, ?_⟩
    rw [State.tgc_setTgc]
    have hstatus : ((s.told i 0x0602 0 0 ch.val).2.mbx i).resp.status = stTicket := by rw [State.mbx_told]; rfl
    have hmem : (s.told i 0x0602 0 0 ch.val).2.mem = s.mem := by rw [State.told_frame]
    refine ⟨rfl, rfl, rfl, rfl, rfl, ?_, hmem⟩
    cases i <;> exact hstatus
end

section
/-! PROOF. SPDM over a function's DOE mailbox (R433, R434, R439), and frames of the rack management port (R445, R446). -/

namespace Sys2Proof.Machine

/-! ## Answers on the DOE mailbox (R433) -/

/-- Function `f` becomes `y`, and an SPDM answer goes out; nothing else of the block changes. -/
def State.answers (s : State) (f : FnId) (o : Host.Outcome State Fault Refusal) (code : Byte) (y : Func) : Prop :=
  ∃ t data, o = .next t ∧ t.fn f = y ∧ (∀ g, g ≠ f → t.fn g = s.fn g) ∧ t.host.out = s.host.out ++ [.doe f code data]
    ∧ t = { s with host := { s.host with fns := t.host.fns, out := t.host.out } }

section
variable {s : State} {f : FnId} {o : Host.Outcome State Fault Refusal}

/-- An answer that leaves the function as it is. -/
theorem State.answers_doe {code : Nat} {data : List Byte} (h : o = .next (s.doe f code data)) :
    s.answers f o (BitVec.ofNat 8 code) (s.fn f) := ⟨_, data, h, rfl, fun _ _ => rfl, rfl, rfl⟩

/-- An answer that changes the function. -/
theorem State.answers_modFn_doe {g : Func → Func} {code : Nat} {data : List Byte} (h : o = .next ((s.modFn f g).doe f code data)) :
    s.answers f o (BitVec.ofNat 8 code) (g (s.fn f)) :=
  ⟨_, data, h, State.fn_modFn .., fun _ he => State.fn_modFn_other _ _ _ _ he, rfl, rfl⟩

theorem State.answers_error {e : SpdmError} (h : o = .next (s.doeError f e)) : s.answers f o 0x7F (s.fn f) := State.answers_doe h

/-- R433: a request that comes too early. -/
theorem State.inPhase_early {n : Nat} (h : (s.fn f).phase < n) (go : State → State) :
    s.inPhase f n go = s.doeError f .unexpectedRequest := if_neg (Nat.not_le_of_lt h)

theorem State.inPhase_due {n : Nat} (h : n ≤ (s.fn f).phase) (go : State → State) : s.inPhase f n go = go s := if_pos h

theorem Func.hasSession_iff (x : Func) (n : Nat) (b : Bool) : x.hasSession n b = true ↔ (n, b) ∈ x.sessions := List.contains_iff_mem

theorem State.inSession_open {n : Nat} (h : (n, true) ∈ (s.fn f).sessions) (go : State → State) : s.inSession f n go = go s :=
  if_pos (((s.fn f).hasSession_iff n true).mpr h)

theorem State.inSession_none {n : Nat} (h : (n, true) ∉ (s.fn f).sessions) (go : State → State) :
    s.inSession f n go = s.doeError f .invalidSession := if_neg fun h' => h (((s.fn f).hasSession_iff n true).mp h')

/-! ### Phases -/

theorem State.getCertificate_part {slot : Byte} {off len : Nat} {c : List Byte} (h : 3 ≤ (s.fn f).phase) (hc : s.chain slot.toNat = some c)
    (hoff : off < c.length) : ∃ data, s.getCertificate f slot off len = s.doe f 0x02 data := by
  rw [State.getCertificate, State.inPhase_due h, hc]
  exact ⟨_, if_pos hoff⟩

theorem State.getCertificate_none {slot : Byte} {off len : Nat} (h : 3 ≤ (s.fn f).phase) (hc : s.chain slot.toNat = none) :
    s.getCertificate f slot off len = s.doeError f .invalidRequest := by
  rw [State.getCertificate, State.inPhase_due h, hc]

/-- R434: the indices that the module measures. -/
theorem State.getMeasurements_defined {index : Byte} {nonce : BitVec 256} (h : 3 ≤ (s.fn f).phase)
    (hix : index.toNat ≤ 7 ∨ index = 0xF0 ∨ index = 0xFF) : ∃ data, s.getMeasurements f index nonce = s.doe f 0x60 data := by
  rw [State.getMeasurements, State.inPhase_due h]
  dsimp only
  split
  · exact ⟨_, rfl⟩
  · split
    · exact ⟨_, rfl⟩
    · next h0 h7 =>
      have hff : index.toNat = 0xFF := by
        rcases hix with hix | rfl | rfl
        · exact absurd (.inl hix) h7
        · exact absurd (.inr rfl) h7
        · rfl
      rw [if_pos hff]
      exact ⟨_, rfl⟩

/-! ### Sessions -/

/-- The number of the next session, if one is free. -/
def freeSession (used : List (Nat × Bool)) : Option Nat := [0, 1].find? fun n => !(used.any fun p => p.1 == n)

theorem used_iff (used : List (Nat × Bool)) (n : Nat) : (used.any fun p => p.1 == n) = true ↔ ∃ p ∈ used, p.1 = n := by
  simp

theorem freeSession_some {used : List (Nat × Bool)} {n : Nat} (hn : n < 2) (hfree : ∀ p ∈ used, p.1 ≠ n)
    (h0 : n = 1 → ∃ p ∈ used, p.1 = 0) : freeSession used = some n := by
  have hn' : (used.any fun p => p.1 == n) = false := by simpa using hfree
  obtain rfl | rfl : n = 0 ∨ n = 1 := by omega
  · exact List.find?_cons_of_pos (by rw [hn']; rfl)
  · have h0' := (used_iff used 0).mpr (h0 rfl)
    rw [freeSession, List.find?_cons_of_neg (by rw [h0']; decide)]
    exact List.find?_cons_of_pos (by rw [hn']; rfl)

theorem freeSession_none {used : List (Nat × Bool)} (h0 : ∃ p ∈ used, p.1 = 0) (h1 : ∃ p ∈ used, p.1 = 1) : freeSession used = none := by
  rw [freeSession, List.find?_cons_of_neg (by rw [(used_iff used 0).mpr h0]; decide),
    List.find?_cons_of_neg (by rw [(used_iff used 1).mpr h1]; decide)]
  rfl

theorem State.keyExchange_free {n : Nat} (h : 3 ≤ (s.fn f).phase) (hn : freeSession (s.fn f).sessions = some n) :
    ∃ data, s.keyExchange f = (s.modFn f fun x => { x with sessions := x.sessions ++ [(n, false)] }).doe f 0x64 data := by
  rw [freeSession] at hn
  rw [State.keyExchange, State.inPhase_due h]
  dsimp only
  rw [hn]
  exact ⟨_, rfl⟩

theorem State.keyExchange_full (h : 3 ≤ (s.fn f).phase) (hn : freeSession (s.fn f).sessions = none) :
    s.keyExchange f = s.doeError f .sessionLimitExceeded := by
  rw [freeSession] at hn
  rw [State.keyExchange, State.inPhase_due h]
  dsimp only
  rw [hn]

theorem State.finishSession_none {n : Nat} (h : (n, false) ∉ (s.fn f).sessions) (verified : Bool) :
    s.finishSession f n verified = s.doeError f .invalidSession :=
  if_neg fun h' => h (((s.fn f).hasSession_iff n false).mp h')

/-- R433: a session opens as its keys verify, and ends if they do not. -/
theorem State.finishSession_open {n : Nat} (h : (n, false) ∈ (s.fn f).sessions) (verified : Bool) : s.finishSession f n verified
    = if verified then (s.modFn f fun x => { x with sessions := x.sessions.map fun p => if p.1 = n then (n, true) else p }).doe f 0x65
        (Config.spdmExchange n)
      else (s.modFn f fun x => x.endSession n).doeError f .decryptError := if_pos (((s.fn f).hasSession_iff n false).mpr h)

/-- R439: a key goes into a slot of the function's tenant. -/
theorem State.loadKey_loads {sess : Nat} {slot : Byte} (key : BitVec 512) (h : (sess, true) ∈ (s.fn f).sessions) (hk : slot.toNat < 64)
    (hown : (s.keySlot slot.toNat).owner = some (s.fn f).tenant) (hdue : s.clearDue slot.toNat = false) :
    s.loadKey f sess true slot key = (s.setKeySlot slot.toNat { s.keySlot slot.toNat with key := some key }).doe f 0x7E [] := by
  rw [State.loadKey, State.inSession_open h]
  exact if_pos ⟨rfl, hk, hown, hdue⟩

theorem State.loadKey_refused {sess : Nat} {slot : Byte} (key : BitVec 512) (h : (sess, true) ∈ (s.fn f).sessions)
    (hown : (s.keySlot slot.toNat).owner ≠ some (s.fn f).tenant) : s.loadKey f sess true slot key = s.doeError f .invalidRequest := by
  rw [State.loadKey, State.inSession_open h]
  exact if_neg fun h => hown h.2.2.1

end

/-! ## The rack management port (R445, R446, R509) -/

section
variable {s : State}

theorem State.onRack_none (h : s.sec.rackaddr = 0) (g : State → State) : s.onRack g = s.rackViol := if_pos h

theorem State.onRack_some (h : s.sec.rackaddr ≠ 0) (g : State → State) : s.onRack g = g s := if_neg h

theorem State.rackRequest_busy (h : s.host.rack.st = 1) (seq op : W16) (args : List Byte) :
    s.rackRequest seq op args = s.rackRefuse seq stBusy := if_pos h

/-- R414, R445: the rack's mailbox with a request in it. -/
def Mbx.rackRung (m : Mbx) (seq op : W16) (args : List Byte) : Mbx :=
  { m with
    st := 1, seq := seq.setWidth 32, ien := false, op := op,
    win := argWords (min 240 (ceilDiv args.length 8)) args
      (Sparse.put 0 [] 0x40 (BitVec.ofNat 64 (op.toNat + args.length % 2 ^ 16 * 2 ^ 32))) }

/-- R445: a request of the rack is taken, and answered at once with what turns it away. -/
theorem State.rackRequest_taken (h : s.host.rack.st ≠ 1) (seq op : W16) (args : List Byte) : let t := s.rackRequest seq op args
    t.host.fns = s.host.fns ∧ t.host.rack = match s.turnedAway .rack op args.length with
      | none => s.host.rack.rackRung seq op args
      | some st => (s.host.rack.rackRung seq op args).answered st 0 [] := by
  dsimp only
  rw [State.rackRequest, if_neg h]
  generalize ha : s.turnedAway .rack op args.length = away
  have haway : ∀ g : Mbx → Mbx, (s.modMbx .rack g).turnedAway .rack op args.length = away := fun _ => ha
  unfold State.take
  dsimp only
  rw [haway]
  cases away with
  | none => exact ⟨rfl, rfl⟩
  | some st => exact ⟨rfl, rfl⟩

/-- R446: a frame of an undefined type to the module's own address. -/
theorem State.rackUndefined_own {dest : Byte} {len : Nat} (h : s.sec.rackaddr ≠ 0) (hdest : dest = s.sec.rackaddr.setWidth 8)
    (hlen : len ≤ 2048) (seq : W16) : s.rackUndefined dest true len seq = s.rackRefuse seq stUnknownOp := by
  have hff : dest ≠ 0xFF := by
    rw [hdest]
    intro he
    have := congrArg BitVec.toNat he
    have hlt := s.sec.rackaddr.isLt
    rw [BitVec.toNat_setWidth, show (0xFF : Byte).toNat = 255 from rfl] at this
    omega
  rw [State.rackUndefined, if_neg fun h' => hff h'.1]
  refine if_neg ?_
  rw [hdest] at hff ⊢
  simp only [Bool.not_true, bne_self_eq_false, Bool.or_false, beq_eq_false_iff_ne.mpr hff, beq_eq_false_iff_ne.mpr h,
    decide_eq_false (Nat.not_lt.mpr hlen)]
  decide

theorem State.rackUndefined_ignored {dest : Byte} {len : Nat} {crcOk : Bool} (h : s.sec.rackaddr ≠ 0)
    (hbad : crcOk = false ∨ dest ≠ s.sec.rackaddr.setWidth 8 ∨ 2048 < len) (seq : W16) :
    s.rackUndefined dest crcOk len seq = s.rackViol := by
  rw [State.rackUndefined, if_neg fun h' => h h'.2]
  refine if_pos ?_
  rcases hbad with hc | hd | hl
  · simp [hc]
  · simp [hd]
  · simp [hl]

end

end Sys2Proof.Machine

open Sys2Proof Sys2Proof.Machine

/-- Settles O51: an SPDM request by the connection's phase and its session, a rack frame by the address and the mailbox. -/
theorem spdmAndRack : Obligations.SpdmAndRack := by
  refine ⟨?_, ?_⟩
  · intro f slot index off len sess nonce key s hup x early answers
    have hrow : ∀ (g : State → State) {t : State}, g s = t → s.live g = .next t := fun g {t} h => (s.live_next g hup).trans (congrArg _ h)
    have herr : ∀ (g : State → State) {e : SpdmError}, g s = s.doeError f e → s.answers f (s.live g) 0x7F x := fun g _ h =>
      State.answers_error (hrow g h)
    have hsame : ∀ (g : State → State) (code : Nat) {data : List Byte}, g s = s.doe f code data →
        s.answers f (s.live g) (BitVec.ofNat 8 code) x := fun g code _ h => State.answers_doe (hrow g h)
    have hmod : ∀ (g : State → State) (y : Func → Func) (code : Nat) {data : List Byte}, g s = (s.modFn f y).doe f code data →
        s.answers f (s.live g) (BitVec.ofNat 8 code) (y x) := fun g y code _ h => State.answers_modFn_doe (hrow g h)
    refine ⟨hmod (·.getVersion f) (fun x => { x with phase := 1, sessions := [] }) 0x04 rfl, fun c hc hearly => ?_, fun h => ?_, fun h => ⟨?_, ?_⟩,
      fun h => ?_, fun h => ⟨?_, ?_⟩, fun h => ?_, fun h i hi => ?_, fun h => ?_⟩
    · simp only [early, List.mem_cons, List.not_mem_nil, or_false] at hc
      obtain rfl | rfl | rfl | rfl | rfl | rfl | rfl := hc
      · exact herr (·.getCapabilities f) (State.inPhase_early hearly _)
      · exact herr (·.negotiate f true) (State.inPhase_early hearly _)
      · exact herr (·.getDigests f) (State.inPhase_early hearly _)
      · exact herr (·.getCertificate f slot off len) (State.inPhase_early hearly _)
      · exact herr (·.challenge f slot nonce) (State.inPhase_early hearly _)
      · exact herr (·.getMeasurements f index nonce) (State.inPhase_early hearly _)
      · exact herr (·.keyExchange f) (State.inPhase_early hearly _)
    · exact hmod (·.getCapabilities f) (fun x => { x with phase := max 2 x.phase }) 0x61 (State.inPhase_due h _)
    · exact hmod (·.negotiate f true) (fun x => { x with phase := 3 }) 0x63 (State.inPhase_due h _)
    · exact herr (·.negotiate f false) (State.inPhase_due h _)
    · refine ⟨hsame (·.getDigests f) 0x01 (State.inPhase_due h _), fun c hc hoff => ?_,
        fun hc => herr (·.getCertificate f slot off len) (State.getCertificate_none h hc), ?_, fun hslot => ?_, fun hix => ?_,
        fun n hn hfree h0 => ?_, fun h0 h1 => ?_⟩
      · obtain ⟨data, hdata⟩ := State.getCertificate_part (len := len) h hc hoff
        exact hsame (·.getCertificate f slot off len) 0x02 hdata
      · exact hsame (·.challenge f 0 nonce) 0x03 ((State.inPhase_due h _).trans (if_pos rfl))
      · exact herr (·.challenge f slot nonce) ((State.inPhase_due h _).trans (if_neg hslot))
      · obtain ⟨data, hdata⟩ := State.getMeasurements_defined (nonce := nonce) h hix
        exact hsame (·.getMeasurements f index nonce) 0x60 hdata
      · obtain ⟨data, hdata⟩ := State.keyExchange_free h (freeSession_some hn hfree h0)
        exact hmod (·.keyExchange f) (fun x => { x with sessions := x.sessions ++ [(n, false)] }) 0x64 hdata
      · exact herr (·.keyExchange f) (State.keyExchange_full h (freeSession_none h0 h1))
    · exact hmod (·.finishSession f sess true) (fun x => { x with sessions := x.sessions.map fun p => if p.1 = sess then (sess, true) else p }) 0x65
        ((State.finishSession_open h true).trans (if_pos rfl))
    · exact hmod (·.finishSession f sess false) (fun x => x.endSession sess) 0x7F
        ((State.finishSession_open h false).trans (if_neg Bool.false_ne_true))
    · exact herr (·.finishSession f sess true) (State.finishSession_none h true)
    · simp only [List.mem_cons, List.not_mem_nil, or_false] at hi
      obtain rfl | rfl | rfl | rfl := hi
      · exact herr (·.inSession f sess fun s => s.doe f 0x68 []) (State.inSession_none h _)
      · exact herr (·.inSession f sess fun s => s.doe f 0x69 []) (State.inSession_none h _)
      · exact herr (·.inSession f sess fun s => (s.modFn f fun x => x.endSession sess).doe f 0x6C []) (State.inSession_none h _)
      · exact herr (·.loadKey f sess true slot key) (State.inSession_none h _)
    · refine ⟨hsame (·.inSession f sess fun s => s.doe f 0x68 []) 0x68 (State.inSession_open h _),
        hsame (·.inSession f sess fun s => s.doe f 0x69 []) 0x69 (State.inSession_open h _),
        hmod (·.inSession f sess fun s => (s.modFn f fun x => x.endSession sess).doe f 0x6C []) (fun x => x.endSession sess) 0x6C
          (State.inSession_open h _), fun hk hown hdue => ?_,
        fun hown => herr (·.loadKey f sess true slot key) (State.loadKey_refused key h hown)⟩
      refine ⟨_, hrow (·.loadKey f sess true slot key) (State.loadKey_loads key h hk hown hdue), ?_, fun k hne => ?_, rfl, rfl⟩
      · refine (State.keySlot_setKeySlot ..).trans ?_
        rw [← hown]
      · exact State.keySlot_setKeySlot_other _ _ _ _ hne
  · intro seq op args v dest len s hup viol out m
    have hrow : ∀ (g : State → State) {t : State}, g s = t → s.live g = .next t := fun g {t} h => (s.live_next g hup).trans (congrArg _ h)
    refine ⟨fun haddr i hi => ?_, fun haddr => ⟨fun hbusy => ?_, fun hidle => ?_, ?_, ?_, ?_⟩,
      fun haddr hdest hlen => hrow (·.rackUndefined dest true len seq) (State.rackUndefined_own haddr hdest hlen seq),
      fun haddr hbad => hrow (·.rackUndefined dest true len seq) (State.rackUndefined_ignored haddr (.inr hbad) seq),
      fun haddr => hrow (·.rackUndefined dest false len seq) (State.rackUndefined_ignored haddr (.inl rfl) seq)⟩
    · simp only [List.mem_cons, List.not_mem_nil, or_false] at hi
      obtain rfl | rfl | rfl | rfl := hi
      · exact hrow (·.onRack fun s => s.rackRequest seq op args) (State.onRack_none haddr _)
      · exact hrow (·.onRack fun s => s.rackPoll seq) (State.onRack_none haddr _)
      · exact hrow (·.onRack fun s => s.rackCoord seq v) (State.onRack_none haddr _)
      · exact hrow (·.onRack fun s => s.rackStat seq) (State.onRack_none haddr _)
    · exact hrow (·.onRack fun s => s.rackRequest seq op args) ((State.onRack_some haddr _).trans (State.rackRequest_busy hbusy seq op args))
    · obtain ⟨hfns, hrack⟩ := State.rackRequest_taken hidle seq op args
      refine ⟨_, hrow (·.onRack fun s => s.rackRequest seq op args) (State.onRack_some haddr _), ?_⟩
      rw [hfns, hrack]
      cases s.turnedAway .rack op args.length with
      | none => exact ⟨rfl, rfl, rfl, rfl, fun _ => rfl, nofun⟩
      | some st => exact ⟨rfl, rfl, rfl, rfl, nofun, fun st' h => ⟨rfl, Option.some.inj h⟩⟩
    · exact hrow (·.onRack fun s => s.rackPoll seq) (State.onRack_some haddr _)
    · exact hrow (·.onRack fun s => s.rackCoord seq v) (State.onRack_some haddr _)
    · exact ⟨_, hrow (·.onRack fun s => s.rackStat seq) (State.onRack_some haddr _)⟩
end


section
/-! PROOF. The stages of a start. -/
namespace Sys2Proof.Machine

/-! ## A start begins -/

theorem State.coldStart_begins {s : State} (hon : s.pwr.off = false) (hfails : s.pwr.fails = 0)
    (hoff : s.hm.down = true ∨ s.pwr.stage = 0) : s.coldStart = { s.powerOff with
      hm := Hm.reset, pwr := { Pwr.reset with stage := 1, flag := s.flash.selfTest, due := s.selfTestDue s.flash.selfTest },
      flash := { s.flash with boots := s.flash.boots + 1 } } := by
  refine if_neg ?_
  obtain h | h := hoff <;> simp [hon, hfails, h]

theorem State.startRetry_begins {s : State} (hoff : s.hm.down = true) (hon : s.pwr.off = false) (hfails : s.pwr.fails ≠ 0) :
    s.startRetry = { s with
      hm := { s.hm with down := false },
      pwr := { s.pwr with stage := 1, flag := s.flash.selfTest, due := s.selfTestDue s.flash.selfTest } } :=
  if_pos (by simp [hoff, hon, hfails])

/-- A start that fails in stage 2 or 3 turns the rails off, and after the third the module stays off. -/
theorem State.startFailed_leaves (s : State) (stage cause : Nat) :
    (s.startFailed stage cause).hm.down = true ∧ (s.startFailed stage cause).mem = []
      ∧ (s.startFailed stage cause).flash.latch = some (stage, cause)
      ∧ (s.startFailed stage cause).pwr.fails = s.pwr.fails + 1 ∧ ((s.startFailed stage cause).pwr.off = true ↔ 2 ≤ s.pwr.fails) :=
  ⟨rfl, rfl, rfl, rfl, decide_eq_true_iff⟩

/-! ## The work of a stage -/

section
variable {s : State} {n : Nat}

theorem State.afterStage_stays (h : s.pwr.stage ≠ n) (work : State → State) : s.afterStage n work = s := by
  rw [State.afterStage_eq, if_neg fun hall => h hall.2.2]

theorem State.afterStage_runs (hup : s.hm.down = false) (hrun : s.hm.state ≠ 3) (h : s.pwr.stage = n) (work : State → State) :
    s.afterStage n work = work s := by
  rw [State.afterStage_eq, if_pos ⟨hup, hrun, h⟩]

theorem State.stage_waits {i : Instr} (h : s.pwr.stage ≠ n) (hi : ∃ work, exec i s = .next (s.afterStage n work)) :
    exec i s = .next s := by
  obtain ⟨work, hwork⟩ := hi
  rw [hwork, State.afterStage_stays h]

theorem State.stage_waits_both {i j : Instr} (hi : ∃ work, exec i s = .next (s.afterStage n work))
    (hj : ∃ work, exec j s = .next (s.afterStage n work)) (h : s.pwr.stage ≠ n) : ∀ x ∈ [i, j], exec x s = .next s := by
  intro x hx
  simp only [List.mem_cons, List.not_mem_nil, or_false] at hx
  obtain rfl | rfl := hx
  · exact State.stage_waits h hi
  · exact State.stage_waits h hj

theorem State.stage_waits_one {i : Instr} (hi : ∃ work, exec i s = .next (s.afterStage n work)) (h : s.pwr.stage ≠ n) :
    ∀ x ∈ [i], exec x s = .next s := by
  intro x hx
  obtain rfl := List.mem_singleton.mp hx
  exact State.stage_waits h hi

end

/-- A stage that fails the module: a fatal fault in a state `u` that keeps the records that wait and the stage. -/
theorem State.fatalOnce_leaves {s u : State} {i : Instr} {cause : Nat} {snapshot : List W64} (code : W16)
    (hexec : exec i s = .next (u.fatalOnce cause snapshot)) (hrun : u.hm.state ≠ 3) (hcode : BitVec.ofNat 16 cause = code)
    (hstage : u.pwr.stage = s.pwr.stage) (hbbx : u.bbx = s.bbx) :
    ∃ t e, exec i s = .next t ∧ t.hm.state = 3 ∧ t.pwr.stage = s.pwr.stage ∧ t.bbx.waiting = s.bbx.waiting ++ [e] ∧ e.code = code
      ∧ e.cls = 4#8 := by
  obtain ⟨e, hfatal, he, hcls⟩ := u.fatal_leaves cause code hcode snapshot
  refine ⟨u.fatal cause snapshot, e, hexec.trans (congrArg Host.Outcome.next (if_neg hrun)), ?_⟩
  rw [hfatal]
  exact ⟨rfl, hstage, congrArg (·.waiting ++ [e]) hbbx, he, hcls⟩

/-- R474: the reference's error is a free value within ±20 ppm. -/
theorem State.drawPpm_within (s : State) : -20 ≤ s.drawPpm.pwr.ppm.toInt ∧ s.drawPpm.pwr.ppm.toInt ≤ 20 := by
  have hlt : (Config.freeWord s.free).toNat % 41 < 41 := Nat.mod_lt _ (by decide)
  have hppm : s.drawPpm.pwr.ppm = BitVec.ofInt 16 (Int.ofNat ((Config.freeWord s.free).toNat % 41) - 20) := rfl
  rw [hppm]
  generalize (Config.freeWord s.free).toNat % 41 = x at hlt
  rw [BitVec.toInt_ofInt, Int.bmod_eq_of_le (by simp only [Int.ofNat_eq_natCast]; omega) (by simp only [Int.ofNat_eq_natCast]; omega)]
  simp only [Int.ofNat_eq_natCast]
  omega

/-! ## Firmware (R426) -/

/-- A slot starts: it holds an image that is no older than the fuses say, and its signature is well formed and verifies. -/
def State.boots (s : State) (sa sb : Option SigBlock) (b : Bool) (img : FwImage) : Prop :=
  (if b then s.flash.slotB else s.flash.slotA) = some img ∧ s.flash.fuses ≤ img.svn.toNat
    ∧ ∃ x, (if b then sb else sa) = some x ∧ x.magicOk = true ∧ x.reservedZero = true ∧ x.kind = 1 ∧ x.digestOk = true
      ∧ x.rsaOk = true ∧ x.slhOk = true

section
variable {s : State} {sa sb : Option SigBlock} {b : Bool}

theorem State.verifySlot_boots {img : FwImage} (h : s.boots sa sb b img) :
    s.verifySlot b (if b then sb else sa) = (s, some img) := by
  obtain ⟨hslot, hfuses, x, hsig, hmagic, hzero, hkind, hdigest, hrsa, hslh⟩ := h
  have hflash : s.flash.slot b = some img := hslot
  have hver := (sigVerifies_iff x).mpr ⟨hdigest, hrsa, hslh⟩
  have hformed := (sigFormed_iff x).mpr ⟨hmagic, hzero, hkind⟩
  simp [State.verifySlot, hflash, hsig, hver, hformed, Nat.not_lt.mpr hfuses]

/-- A slot that does not start changes no more than the count of signatures that failed. -/
theorem State.verifySlot_refuses (h : ∀ img, ¬s.boots sa sb b img) :
    ∃ n, s.verifySlot b (if b then sb else sa) = ({ s with sec := { s.sec with sigfail := n } }, none) := by
  unfold State.verifySlot
  split
  · next img x hslot hsig =>
    split
    · exact ⟨_, rfl⟩
    · next hver =>
      refine ⟨s.sec.sigfail, congrArg (Prod.mk s) (if_pos ?_)⟩
      by_contra hgood
      simp only [Bool.not_eq_true', Bool.not_eq_false] at hver
      simp only [Bool.or_eq_true, Bool.not_eq_true', decide_eq_true_eq, not_or, Bool.not_eq_false, not_lt] at hgood
      obtain ⟨hformed, hfuses⟩ := hgood
      obtain ⟨hmagic, hzero, hkind⟩ := (sigFormed_iff x).mp hformed
      obtain ⟨hdigest, hrsa, hslh⟩ := (sigVerifies_iff x).mp hver
      exact h img ⟨hslot, hfuses, x, hsig, hmagic, hzero, hkind, hdigest, hrsa, hslh⟩
  · exact ⟨s.sec.sigfail, rfl⟩

end

/-- What FIRMWARE_VERIFICATION does once its stage is due. -/
def State.firmwareWork (sa sb : Option SigBlock) (s : State) : State :=
  match s.verifySlot s.flash.activeB (if s.flash.activeB then sb else sa) with
  | (s1, some img) => s1.startImage s.flash.activeB img false
  | (s1, none) =>
    match s1.verifySlot (!s.flash.activeB) (if !s.flash.activeB then sb else sa) with
    | (s2, some img) => s2.startImage (!s.flash.activeB) img true
    | (s2, none) => { s2 with sec := { s2.sec with recovery := true }, hm := { s2.hm with state := 3 } }

theorem State.firmware_eq (s : State) (sa sb : Option SigBlock) : s.firmware sa sb = s.afterStage 4 (State.firmwareWork sa sb) := by
  have hflip : ∀ b : Bool, (if !b then sb else sa) = if b then sa else sb := by
    intro b
    cases b <;> rfl
  unfold State.firmware State.firmwareWork
  simp only [hflip] <;> rfl

section
variable {s : State} {sa sb : Option SigBlock}

theorem State.firmwareWork_active {img : FwImage} (h : s.boots sa sb s.flash.activeB img) :
    s.firmwareWork sa sb = s.startImage s.flash.activeB img false := by
  rw [State.firmwareWork, State.verifySlot_boots h]

theorem State.firmwareWork_other {img : FwImage} (hact : ∀ i, ¬s.boots sa sb s.flash.activeB i)
    (h : s.boots sa sb (!s.flash.activeB) img) : ∃ n, s.firmwareWork sa sb
      = State.startImage { s with sec := { s.sec with sigfail := n } } (!s.flash.activeB) img true := by
  obtain ⟨n, hn⟩ := State.verifySlot_refuses hact
  have hboots : State.boots { s with sec := { s.sec with sigfail := n } } sa sb (!s.flash.activeB) img := h
  refine ⟨n, ?_⟩
  rw [State.firmwareWork, hn]
  dsimp only
  rw [State.verifySlot_boots hboots]

theorem State.firmwareWork_none (h : ∀ b i, ¬s.boots sa sb b i) : ∃ n, s.firmwareWork sa sb
    = { s with sec := { s.sec with sigfail := n, recovery := true }, hm := { s.hm with state := 3 } } := by
  obtain ⟨n, hn⟩ := State.verifySlot_refuses (h s.flash.activeB)
  have hboots : ∀ i, ¬State.boots { s with sec := { s.sec with sigfail := n } } sa sb (!s.flash.activeB) i := h _
  obtain ⟨m, hm⟩ := State.verifySlot_refuses hboots
  refine ⟨m, ?_⟩
  rw [State.firmwareWork, hn]
  dsimp only
  rw [hm]

end

/-! ## The ports' stage (R480) -/

/-- What enabling ports may do: each port and uplink stays, or one that was disabled trains. -/
def State.opensPorts (s t : State) : Prop :=
  (∀ q, t.port q = s.port q ∨ (s.port q).en = false ∧ (t.port q).en = true ∧ (t.port q).link = .training)
    ∧ (∀ u, t.up u = s.up u ∨ (s.up u).link = .disabled ∧ (t.up u).link = .training) ∧ t = { s with fab := t.fab }

/-- The port or uplink of a number is enabled. -/
def State.portOpen (s : State) (n : Nat) : Prop :=
  (∀ q : PortId, q.val = n → (s.port q).en = true) ∧ ∀ u : UplinkId, 6 + u.val = n → (s.up u).link ≠ .disabled

theorem State.opensPorts_refl (s : State) : s.opensPorts s := ⟨fun _ => .inl rfl, fun _ => .inl rfl, rfl⟩

theorem State.opensPorts_trans {s t v : State} (hst : s.opensPorts t) (htv : t.opensPorts v) : s.opensPorts v := by
  obtain ⟨hport, hup, hrest⟩ := hst
  obtain ⟨hport', hup', hrest'⟩ := htv
  refine ⟨fun q => ?_, fun u => ?_, ?_⟩
  · obtain h' | ⟨hoff, hon⟩ := hport' q
    · rw [h']
      exact hport q
    · obtain h | ⟨_, hen, _⟩ := hport q
      · exact .inr ⟨h ▸ hoff, hon⟩
      · exact absurd (hoff.symm.trans hen) (by decide)
  · obtain h' | ⟨hoff, hon⟩ := hup' u
    · rw [h']
      exact hup u
    · obtain h | ⟨_, htrain⟩ := hup u
      · exact .inr ⟨h ▸ hoff, hon⟩
      · exact absurd (hoff.symm.trans htrain) (by decide)
  · rw [hrest', hrest]

theorem State.portOpen_opensPorts {s t : State} {n : Nat} (h : s.portOpen n) (ht : s.opensPorts t) : t.portOpen n := by
  obtain ⟨hport, hup, _⟩ := ht
  refine ⟨fun q hq => ?_, fun u hu => ?_⟩
  · obtain h' | ⟨_, hen, _⟩ := hport q
    · exact h' ▸ h.1 q hq
    · exact hen
  · obtain h' | ⟨_, htrain⟩ := hup u
    · exact h' ▸ h.2 u hu
    · exact htrain ▸ by decide

theorem State.enablePort_opens (s : State) (p : PortId) : s.opensPorts (s.enablePort p) ∧ (s.enablePort p).portOpen p.val := by
  cases hen : (s.port p).en with
  | true =>
    rw [show s.enablePort p = s from if_pos hen]
    exact ⟨s.opensPorts_refl, fun q hq => Fin.ext hq ▸ hen, fun u hu => by omega⟩
  | false =>
    rw [State.enablePort_off hen]
    refine ⟨⟨fun q => ?_, fun _ => .inl rfl, rfl⟩, fun q hq => ?_, fun u hu => by omega⟩
    · by_cases hq : q = p
      · subst hq
        rw [State.port_setPort]
        exact .inr ⟨hen, rfl, rfl⟩
      · exact .inl (State.port_setPort_other _ _ _ _ hq)
    · obtain rfl := Fin.ext hq
      rw [State.port_setPort]

/-- R374: a disabled uplink that is enabled trains. -/
def UPort.enabled (x : UPort) : UPort := if x.link = .disabled then { x with link := .training } else x

theorem UPort.enabled_cases (x : UPort) : (x.enabled = x ∧ x.link ≠ .disabled) ∨ x.link = .disabled ∧ x.enabled.link = .training := by
  by_cases h : x.link = .disabled
  · exact .inr ⟨h, by rw [UPort.enabled, if_pos h]⟩
  · exact .inl ⟨if_neg h, h⟩

theorem State.modUp_opens (s : State) (u : UplinkId) :
    s.opensPorts (s.modUp u UPort.enabled) ∧ (s.modUp u UPort.enabled).portOpen (6 + u.val) := by
  refine ⟨⟨fun _ => .inl rfl, fun v => ?_, rfl⟩, fun q hq => by omega, fun v hv => ?_⟩
  · by_cases hv : v = u
    · subst hv
      rw [State.up_modUp]
      exact (s.up v).enabled_cases.imp_left And.left
    · exact .inl (State.up_modUp_other s hv _)
  · obtain rfl : v = u := Fin.ext (Nat.add_left_cancel hv)
    rw [State.up_modUp]
    obtain ⟨heq, hne⟩ | ⟨_, htrain⟩ := (s.up v).enabled_cases
    · rwa [heq]
    · rw [htrain]
      decide

theorem State.enableAny_opens {s : State} (hup : s.hm.down = false) {n : Nat} (hn : n < 8) :
    s.opensPorts (s.enableAny (BitVec.ofNat 3 n)) ∧ (s.enableAny (BitVec.ofNat 3 n)).portOpen n := by
  by_cases h6 : n < 6
  · rw [State.enableAny, State.onPort_torus hup ⟨n, h6⟩]
    exact s.enablePort_opens ⟨n, h6⟩
  · obtain ⟨u, rfl⟩ : ∃ u : UplinkId, n = 6 + u.val := ⟨⟨n - 6, by omega⟩, by simp only; omega⟩
    rw [State.enableAny, State.onPort_uplink hup u]
    exact s.modUp_opens u

theorem State.foldl_enableAny_opens (ns : List Nat) (hns : ∀ n ∈ ns, n < 8) {s : State} (hup : s.hm.down = false) :
    s.opensPorts (ns.foldl (fun s p => s.enableAny (BitVec.ofNat 3 p)) s)
      ∧ ∀ n ∈ ns, (ns.foldl (fun s p => s.enableAny (BitVec.ofNat 3 p)) s).portOpen n := by
  induction ns generalizing s with
  | nil => exact ⟨s.opensPorts_refl, fun _ hn => absurd hn List.not_mem_nil⟩
  | cons n ns ih =>
    obtain ⟨hopens, hopen⟩ := State.enableAny_opens hup (hns n List.mem_cons_self)
    have hup' : (s.enableAny (BitVec.ofNat 3 n)).hm.down = false := by
      rw [hopens.2.2]
      exact hup
    obtain ⟨hrest, hall⟩ := ih (fun m hm => hns m (List.mem_cons_of_mem _ hm)) hup'
    refine ⟨State.opensPorts_trans hopens hrest, fun m hm => ?_⟩
    obtain rfl | hm := List.mem_cons.mp hm
    · exact State.portOpen_opensPorts hopen hrest
    · exact hall m hm

/-- Enabling all eight ports: those that were disabled train, and nothing but the links changes. -/
theorem State.enableAll_trains {s t : State} (hup : s.hm.down = false)
    (ht : (List.range 8).foldl (fun s p => s.enableAny (BitVec.ofNat 3 p)) s = t) : t = { s with fab := t.fab }
      ∧ (∀ q, (s.port q).en = false → (t.port q).en = true ∧ (t.port q).link = .training)
      ∧ ∀ u, (s.up u).link = .disabled → (t.up u).link = .training := by
  obtain ⟨⟨hport, hlink, hrest⟩, hopen⟩ := State.foldl_enableAny_opens (List.range 8) (fun _ => List.mem_range.mp) hup
  rw [ht] at hport hlink hrest hopen
  refine ⟨hrest, fun q hq => ?_, fun u hu => ?_⟩
  · have hen : (t.port q).en = true := (hopen q.val (List.mem_range.mpr (by omega))).1 q rfl
    obtain h | ⟨_, htrain⟩ := hport q
    · exact absurd (hq.symm.trans (h ▸ hen)) (by decide)
    · exact htrain
  · have hne : (t.up u).link ≠ .disabled := (hopen (6 + u.val) (List.mem_range.mpr (by omega))).2 u rfl
    obtain h | ⟨_, htrain⟩ := hlink u
    · exact absurd (h ▸ hu) hne
    · exact htrain

/-- R427: the fuses follow the image that runs, with a record if they rise. -/
theorem State.raiseFuses_leaves (s : State) :
    s.raiseFuses.flash.fuses = max s.flash.fuses s.sec.run.svn.toNat ∧ s.raiseFuses.hm = s.hm ∧ s.raiseFuses.pwr = s.pwr
      ∧ s.raiseFuses.mem = s.mem ∧ s.raiseFuses.bbx.waiting.map (·.code)
        = s.bbx.waiting.map (·.code) ++ if s.flash.fuses < s.sec.run.svn.toNat then [0x1002#16] else [] := by
  unfold State.raiseFuses
  dsimp only
  split
  · next hlt => exact ⟨(Nat.max_eq_right (Nat.le_of_lt hlt)).symm, rfl, rfl, rfl, List.map_append⟩
  · next hge => exact ⟨(Nat.max_eq_left (Nat.not_lt.mp hge)).symm, rfl, rfl, rfl, (List.append_nil _).symm⟩

/-! ## The stages' commands -/

section
variable {s : State} (hup : s.hm.down = false) (hrun : s.hm.state ≠ 3)
include hup hrun

/-- A stage's command, once the stage before it is complete, is the stage's work. -/
theorem State.stage_runs {i : Instr} {n : Nat} {work : State → State} (hi : exec i s = .next (s.afterStage n work))
    (h : s.pwr.stage = n) : exec i s = .next (work s) := by
  rw [hi, State.afterStage_runs hup hrun h]

theorem exec_pllLock_locks (h : s.pwr.stage = 2) (pcieUp : Bool) : ∃ t, exec (.pllLock true pcieUp) s = .next t
    ∧ t.pwr.stage = 3 ∧ t.pwr.root = true ∧ t.pwr.fails = 0 ∧ t.pwr.linkUp = (pcieUp && !s.pwr.perst)
    ∧ -20 ≤ t.pwr.ppm.toInt ∧ t.pwr.ppm.toInt ≤ 20 :=
  ⟨_, State.stage_runs hup hrun rfl h, rfl, rfl, rfl, rfl, s.drawPpm_within⟩

theorem exec_bootRom_boots (h : s.pwr.stage = 3) (straps : BitVec 7) : ∃ t, exec (.bootRom true straps) s = .next t
    ∧ t.pwr.stage = 4 ∧ t.hm.timeNs = 0 ∧ t.sec.rackaddr = straps ∧ t.flash.latch = none
    ∧ ∀ l, s.flash.latch = some l → ∃ e, t.bbx.waiting = s.bbx.waiting ++ [e] ∧ e.code = 0x1221#16 := by
  refine ⟨_, State.stage_runs hup hrun rfl h, ?_⟩
  dsimp only
  rw [if_neg (show ¬(!true) = true by decide)]
  cases hlatch : s.flash.latch with
  | none => exact ⟨rfl, rfl, rfl, hlatch, fun l hl => nomatch hl⟩
  | some l => exact ⟨rfl, rfl, rfl, rfl, fun _ _ => ⟨_, rfl, rfl⟩⟩

theorem exec_bootRom_fails (h : s.pwr.stage = 3) (straps : BitVec 7) : ∃ t e, exec (.bootRom false straps) s = .next t
    ∧ t.hm.state = 3 ∧ t.pwr.stage = s.pwr.stage ∧ t.bbx.waiting = s.bbx.waiting ++ [e] ∧ e.code = 0x1101#16 ∧ e.cls = 4#8 :=
  State.fatalOnce_leaves (u := { s with hm := { s.hm with timeNs := 0, synced := false }, sec := { s.sec with rackaddr := straps } })
    _ (State.stage_runs hup hrun (i := .bootRom false straps) rfl h :) hrun rfl rfl rfl

theorem exec_firmwareVerification (h : s.pwr.stage = 4) (sa sb : Option SigBlock) :
    exec (.firmwareVerification sa sb) s = .next (s.firmwareWork sa sb) :=
  State.stage_runs hup hrun (congrArg Host.Outcome.next (s.firmware_eq sa sb)) h

section
variable (h : s.pwr.stage = 6)
include h

theorem exec_memorySelfTest_skipped (hdue : s.pwr.due = false) (failed : Option ChannelId) :
    exec (.memorySelfTest failed) s = .next s :=
  (State.stage_runs (i := .memorySelfTest failed) hup hrun rfl h :).trans
    (congrArg Host.Outcome.next (if_pos (by simp [hdue])))

theorem exec_memorySelfTest_due (hdue : s.pwr.due = true) : exec (.memorySelfTest none) s
    = .next { s with mem := [], poison := [], flips := [], pwr := { s.pwr with stage := 7, selftest := true } } :=
  (State.stage_runs (i := .memorySelfTest none) hup hrun rfl h :).trans
    (congrArg Host.Outcome.next (if_neg (by simp [hdue])))

theorem exec_memorySelfTest_fails (hdue : s.pwr.due = true) (ch : ChannelId) : ∃ t e, exec (.memorySelfTest (some ch)) s = .next t
    ∧ t.hm.state = 3 ∧ t.pwr.stage = s.pwr.stage ∧ t.bbx.waiting = s.bbx.waiting ++ [e] ∧ e.code = 0x1107#16 ∧ e.cls = 4#8 :=
  State.fatalOnce_leaves (u := s.modPwr fun p => { p with selftest := true }) (cause := 0x1107) _
    ((State.stage_runs (i := .memorySelfTest (some ch)) hup hrun rfl h :).trans
      (congrArg Host.Outcome.next (if_neg (by simp [hdue])))) hrun rfl rfl rfl

end

theorem exec_portTrainingStage (h : s.pwr.stage = if s.pwr.due then 7 else 6) : ∃ t, exec .portTrainingStage s = .next t
    ∧ t.pwr = { s.pwr with stage := 8 } ∧ (∀ q, (s.port q).en = false → (t.port q).en = true ∧ (t.port q).link = .training)
    ∧ (∀ u, (s.up u).link = .disabled → (t.up u).link = .training) ∧ t.mem = s.mem := by
  generalize ht : (List.range 8).foldl (fun s p => s.enableAny (BitVec.ofNat 3 p)) s = t
  obtain ⟨hrest, hports, hlinks⟩ := State.enableAll_trains hup ht
  have hexec : exec .portTrainingStage s = .next (t.stageDone 8) := by
    rw [← ht]
    exact State.stage_runs (i := .portTrainingStage) hup hrun rfl h
  refine ⟨t.stageDone 8, hexec, ?_, hports, hlinks, (congrArg State.mem hrest :)⟩
  exact congrArg (fun u => { u.pwr with stage := 8 }) hrest

theorem exec_moduleReady (h : s.pwr.stage = 9) (ms : W32) : ∃ t, exec (.moduleReady ms) s = .next t ∧ t.hm.state = 1
    ∧ t.pwr = { s.pwr with ms := ms, k := s.pwr.kmax, stage := 10 } ∧ t.flash.fuses = max s.flash.fuses s.sec.run.svn.toNat
    ∧ t.mem = s.mem ∧ t.bbx.waiting.map (·.code)
      = s.bbx.waiting.map (·.code) ++ if s.flash.fuses < s.sec.run.svn.toNat then [0x1220#16, 0x1002] else [0x1220] := by
  refine ⟨_, State.stage_runs hup hrun rfl h, ?_⟩
  dsimp only
  generalize hu : State.pwrEvent _ _ _ = u
  obtain ⟨hfuses, hhm, hpwr, hmem, hcodes⟩ := u.raiseFuses_leaves
  rw [hfuses, hhm, hpwr, hmem, hcodes, ← hu]
  refine ⟨rfl, rfl, rfl, rfl, (congrArg (· ++ _) List.map_append).trans ((List.append_assoc ..).trans ?_)⟩
  refine congrArg (List.map (·.code) s.bbx.waiting ++ ·) ?_
  by_cases hlt : s.flash.fuses < s.sec.run.svn.toNat
  · exact (congrArg ([0x1220#16] ++ ·) (if_pos hlt)).trans (if_pos hlt).symm
  · exact (congrArg ([0x1220#16] ++ ·) (if_neg hlt)).trans (if_neg hlt).symm

end

end Sys2Proof.Machine

open Sys2Proof Sys2Proof.Machine

/-- Settles O52: each stage's command is that stage's work, run once the stage before it is complete. -/
theorem stagesOfAStart : Obligations.StagesOfAStart := by
  intro rail straps k ch sa sb ms pcieUp s p off fatal stays
  refine ⟨fun hon hfails hoff => ?_, fun hoff hon hfails => ?_, fun hup => ?_, fun hup hrun => ?_⟩
  · exact ⟨_, congrArg Host.Outcome.next (State.coldStart_begins hon hfails hoff), rfl, rfl, rfl, rfl, rfl, rfl, rfl, rfl, rfl⟩
  · exact ⟨_, congrArg Host.Outcome.next (State.startRetry_begins hoff hon hfails), rfl, rfl, rfl, rfl⟩
  · exact ⟨_, s.live_next State.warmStart hup, rfl, rfl, rfl, rfl, rfl, rfl, rfl, rfl, rfl, rfl, rfl, rfl, rfl⟩
  · refine ⟨State.stage_waits_both ⟨_, rfl⟩ ⟨_, rfl⟩, State.stage_waits_both ⟨_, rfl⟩ ⟨_, rfl⟩,
      State.stage_waits_both ⟨_, rfl⟩ ⟨_, rfl⟩, State.stage_waits_one ⟨_, rfl⟩, State.stage_waits_both ⟨_, rfl⟩ ⟨_, rfl⟩,
      State.stage_waits_both ⟨_, rfl⟩ ⟨_, rfl⟩, State.stage_waits_one ⟨_, rfl⟩, State.stage_waits_both ⟨_, rfl⟩ ⟨_, rfl⟩,
      State.stage_waits_one ⟨_, rfl⟩, fun h => ⟨?_, _, ?_, s.startFailed_leaves ..⟩,
      fun h => ⟨exec_pllLock_locks hup hrun h pcieUp, _, ?_, s.startFailed_leaves ..⟩,
      fun h => ⟨exec_bootRom_fails hup hrun h straps, exec_bootRom_boots hup hrun h straps⟩, fun h => ?_, fun h => ⟨?_, ?_⟩,
      fun h hdue => ⟨exec_memorySelfTest_fails hup hrun h hdue ch, exec_memorySelfTest_due hup hrun h hdue⟩,
      fun h hdue => exec_memorySelfTest_skipped hup hrun h hdue none, fun h => exec_portTrainingStage hup hrun h,
      fun h => ⟨fun hok => ?_, ?_⟩,
      fun h => exec_moduleReady hup hrun h ms⟩
    · exact State.stage_runs (i := .railSequencing none) hup hrun rfl h
    · exact State.stage_runs (i := .railSequencing (some rail)) hup hrun rfl h
    · exact State.stage_runs (i := .pllLock false pcieUp) hup hrun rfl h
    · have hexec := exec_firmwareVerification hup hrun h sa sb
      refine ⟨fun img hboots => ⟨_, hexec.trans (congrArg Host.Outcome.next (State.firmwareWork_active hboots)), rfl, rfl, rfl, rfl,
        rfl⟩, fun img hact hboots => ?_, fun hnone => ?_⟩
      · obtain ⟨n, hn⟩ := State.firmwareWork_other hact hboots
        exact ⟨_, _, hexec.trans (congrArg Host.Outcome.next hn), rfl, rfl, rfl, rfl, rfl, rfl⟩
      · obtain ⟨n, hn⟩ := State.firmwareWork_none hnone
        exact ⟨_, hexec.trans (congrArg Host.Outcome.next hn), rfl, rfl, h⟩
    · exact State.fatalOnce_leaves _ (State.stage_runs (i := .memoryTraining (some k)) hup hrun rfl h :) hrun rfl rfl rfl
    · exact State.stage_runs (i := .memoryTraining none) hup hrun rfl h
    · exact (State.stage_runs (i := .identityCheck true) hup hrun rfl h :).trans
        (congrArg Host.Outcome.next (if_pos (by simp [hok])))
    · exact State.fatalOnce_leaves (u := s) (cause := 0x1108) _ ((State.stage_runs (i := .identityCheck false) hup hrun rfl h :).trans
        (congrArg Host.Outcome.next (if_neg (by simp)))) hrun rfl rfl rfl
end


section
/-! PROOF. The debug port. -/
namespace Sys2Proof.Machine

/-! ## Requests (R489, R490) -/

theorem Dbg.asks_none {d : Dbg} (h : d.req = none) (op : Nat) (tag : Byte) (arg : Nat) (data : W64) (used : Nat) :
    d.asks op tag arg data used = false := by
  rw [Dbg.asks, h]

theorem State.dbgServe_unasked {s : State} {op : Nat} {tag : Byte} {arg : Nat} {data : W64} {used : Nat}
    (h : s.dbg.asks op tag arg data used = false) (scope : Option Nat) (served : State → Option DbgEnd) :
    s.dbgServe op scope tag arg data used served = s := by
  rw [State.dbgServe, h]
  rfl

/-- An operation that needs no scope and has data. -/
theorem State.dbgServe_open {s : State} {op : Nat} {tag : Byte} {arg : Nat} {data : W64} {used : Nat}
    (h : s.dbg.asks op tag arg data used = true) {served : State → Option DbgEnd} {e : DbgEnd} (he : served s = some e) :
    s.dbgServe op none tag arg data used served = e.st.dbgAnswer op tag e.code e.data := by
  rw [State.dbgServe, h, he]
  rfl

theorem State.updateDr_discards {s : State} (h : s.dbg.pended = true ∨ s.dbg.req.isSome = true) (v : BitVec 128) :
    s.updateDr v = { s with dbg := { s.dbg with ir := 8, dr := v, pended := false } } :=
  if_pos (by simpa using h)

section
variable {s : State} (hpended : s.dbg.pended = false) (hreq : s.dbg.req = none) {v : BitVec 128}
include hpended hreq

theorem State.updateDr_takes (hv : dbgUndefined v = false) :
    s.updateDr v = { s with dbg := { s.dbg with ir := 8, dr := v, pended := false, req := some v } } := by
  refine (if_neg ?_).trans (if_neg (ne_true_of_eq_false hv))
  simp [hpended, hreq]

theorem State.updateDr_refuses (hv : dbgUndefined v = true) : s.updateDr v
    = State.dbgAnswer { s with dbg := { s.dbg with ir := 8, dr := v, pended := false } } (v.toNat % 256) (v.extractLsb' 8 8) 3 0 := by
  refine (if_neg ?_).trans (if_pos hv)
  simp [hpended, hreq]

end

theorem State.captureDr_idle {s : State} (h : s.dbg.req = none) :
    s.captureDr = { s with dbg := { s.dbg with ir := 8, pended := false, dr := s.dbg.resp } } := by
  unfold State.captureDr
  split
  · next hreq => exact nomatch h.symm.trans hreq
  · rfl

theorem State.captureDr_pending {s : State} {r : BitVec 128} (h : s.dbg.req = some r) : s.captureDr = { s with dbg := { s.dbg with
    ir := 8, pended := true, dr := dbgResponse (r.toNat % 256) (r.extractLsb' 8 8) 1 0 } } := by
  unfold State.captureDr
  split
  · next hreq =>
    obtain rfl := Option.some.inj (h.symm.trans hreq)
    rfl
  · next hreq => exact nomatch h.symm.trans hreq

/-! ## Unlocking zeroes the key slots (R443, R447) -/

@[simp] theorem State.exceptMem_checkZeroTile (s : State) (addr : Nat) : (s.checkZeroTile addr).exceptMem = s.exceptMem := by
  unfold State.checkZeroTile
  split
  · rfl
  · exact (State.exceptMem_devWrite ..).trans (State.exceptMem_devWrite ..)

@[simp] theorem State.exceptMem_zeroRegion (s : State) (base size : Nat) : (s.zeroRegion base size).exceptMem = s.exceptMem :=
  foldl_keeps State.exceptMem (fun _ _ => State.exceptMem_checkZeroTile ..) _ _

@[simp] theorem State.sec_zeroRegion (s : State) (base size : Nat) : (s.zeroRegion base size).sec = s.sec :=
  (congrArg State.sec (s.exceptMem_zeroRegion base size) :)

@[simp] theorem State.dbg_zeroRegion (s : State) (base size : Nat) : (s.zeroRegion base size).dbg = s.dbg :=
  (congrArg State.dbg (s.exceptMem_zeroRegion base size) :)

/-- R443: a protected region is disabled. -/
def State.regionOff (s : State) (r : Nat × Nat × Nat) : State :=
  let p := Sparse.get (0, 0) s.ms.prots r.1
  { s with ms := { s.ms with prots := putPair s.ms.prots r.1 false (p.1 &&& 0x7FFFFFFFFFFFFFFF#64) } }

/-- R443: the slot's protected regions are disabled. -/
def State.regionsOff (s : State) (k : Nat) : State := (s.slotRegions k).foldl State.regionOff s

theorem State.sec_zeroSlot (s : State) (k : Nat) : (s.zeroSlot k).sec = (s.setKeySlot k KeyS.empty).sec := by
  have hoff : (s.regionsOff k).sec = s.sec := foldl_keeps (f := State.regionOff) State.sec (fun _ _ => rfl) _ _
  calc (s.zeroSlot k).sec = ((s.regionsOff k).setKeySlot k KeyS.empty).sec :=
        foldl_keeps State.sec (fun _ _ => State.sec_zeroRegion ..) _ _
    _ = (s.setKeySlot k KeyS.empty).sec :=
        congrArg (fun x : Sec => { x with slots := Sparse.put KeyS.empty x.slots k KeyS.empty }) hoff

theorem State.dbg_zeroSlot (s : State) (k : Nat) : (s.zeroSlot k).dbg = s.dbg := by
  have hoff : (s.regionsOff k).dbg = s.dbg := foldl_keeps (f := State.regionOff) State.dbg (fun _ _ => rfl) _ _
  exact (foldl_keeps State.dbg (fun _ _ => State.dbg_zeroRegion ..) _ _).trans hoff

/-- An owned slot is zeroed, and its tenant's requests go at the next boundary. -/
def State.zeroOwned (s : State) (p : Nat × TenantId) : State := (s.addCmd (.clearSlot (Fin.ofNat 64 p.1) p.2)).zeroSlot p.1

theorem State.keySlot_zeroOwned (s : State) (p : Nat × TenantId) {k : Nat} (h : s.keySlot k = KeyS.empty ∨ k = p.1) :
    (s.zeroOwned p).keySlot k = KeyS.empty := by
  have hslot : (s.zeroOwned p).keySlot k = (s.setKeySlot p.1 KeyS.empty).keySlot k :=
    congrArg (fun x : Sec => Sparse.get KeyS.empty x.slots k) (State.sec_zeroSlot ..)
  rw [hslot]
  by_cases hk : k = p.1
  · rw [hk, State.keySlot_setKeySlot]
  · rw [State.keySlot_setKeySlot_other _ _ _ _ hk]
    exact h.resolve_right hk

theorem State.keySlot_foldl_zeroOwned (owned : List (Nat × TenantId)) (s : State) {k : Nat}
    (h : s.keySlot k = KeyS.empty ∨ k ∈ owned.map Prod.fst) : (owned.foldl State.zeroOwned s).keySlot k = KeyS.empty := by
  induction owned generalizing s with
  | nil => exact h.resolve_right List.not_mem_nil
  | cons p owned ih =>
    refine ih (s.zeroOwned p) ?_
    obtain h | h := h
    · exact .inl (s.keySlot_zeroOwned p (.inl h))
    · obtain hk | hk := List.mem_cons.mp h
      · exact .inl (s.keySlot_zeroOwned p (.inr hk))
      · exact .inr hk

/-- R447: a module that is debugged holds no key of an owned slot. -/
theorem State.debugged_leaves (s : State) : s.debugged.sec.debugged = true ∧ s.debugged.dbg = s.dbg
    ∧ ∀ p ∈ s.sec.slots, p.2.owner.isSome = true → (s.debugged.keySlot p.1).key = none := by
  refine ⟨rfl, foldl_keeps (f := State.zeroOwned) State.dbg (fun _ _ => State.dbg_zeroSlot ..) _ _, fun p hp howner => ?_⟩
  obtain ⟨t, ht⟩ := Option.isSome_iff_exists.mp howner
  refine congrArg KeyS.key (State.keySlot_foldl_zeroOwned (s.sec.slots.filterMap fun p => p.2.owner.map fun t => (p.1, t)) s (.inr ?_))
  refine List.mem_map.mpr ⟨(p.1, t), List.mem_filterMap.mpr ⟨p, hp, ?_⟩, rfl⟩
  rw [ht]
  rfl

/-! ## Unlock and lock (R492, R493) -/

theorem Dbg.tokenIs_iff (d : Dbg) (c : BitVec 512) :
    d.tokenIs c = true ↔ ∀ i < 8, Sparse.get 0 d.token i = c.extractLsb' (64 * i) 64 := by
  simp [Dbg.tokenIs]

/-- A signature block that verifies and is well formed for an unlock. -/
def signsUnlock (sig : SigBlock) : Prop :=
  sig.magicOk = true ∧ sig.reservedZero = true ∧ sig.kind = 4 ∧ sig.digestOk = true ∧ sig.rsaOk = true ∧ sig.slhOk = true

theorem signsUnlock_iff (sig : SigBlock) : (sigFormed sig 4 && sigVerifies sig) = true ↔ signsUnlock sig := by
  simp [signsUnlock, sigFormed, sigVerifies, ← BitVec.toNat_inj, and_assoc]

section
variable {s : State} {sig : SigBlock}

theorem State.unlock_refused (h : s.dbg.chal = none ∨ 8 ≤ s.dbg.fails) : s.unlock sig = ⟨s, 8, 0⟩ := by
  unfold State.unlock
  split
  · rfl
  · next hchal => exact if_pos (decide_eq_true (h.resolve_left (by simp [hchal])))

variable {c : BitVec 512} {scope : BitVec 3} (hchal : s.dbg.chal = some (c, scope)) (hfails : s.dbg.fails < 8)
include hchal hfails

/-- The signed token of the challenge unlocks its scope. -/
theorem State.unlock_opens (hsig : signsUnlock sig) (htoken : ∀ i < 8, Sparse.get 0 s.dbg.token i = c.extractLsb' (64 * i) 64) :
    ∃ t, s.unlock sig = ⟨t, 0, scope.setWidth 64⟩ ∧ t.sec.scope = scope ∧ t.dbg.chal = none ∧ t.dbg.fails = s.dbg.fails
      ∧ (scope.getLsbD 1 = true ∨ scope.getLsbD 2 = true → t.sec.debugged = true
        ∧ ∀ p ∈ s.sec.slots, p.1 < 64 → p.2.owner.isSome = true → (t.keySlot p.1).key = none) := by
  have hgo : (sigFormed sig 4 && sigVerifies sig && s.dbg.tokenIs c) = true :=
    Bool.and_eq_true_iff.mpr ⟨(signsUnlock_iff sig).mpr hsig, (s.dbg.tokenIs_iff c).mpr htoken⟩
  unfold State.unlock
  rw [hchal]
  dsimp only
  rw [if_neg (show ¬s.dbg.exhausted = true by simpa [Dbg.exhausted] using hfails), if_pos hgo]
  generalize hu : State.debugged _ = u
  refine ⟨_, rfl, ?_⟩
  split
  · next hdebug =>
    obtain ⟨hflag, hdbg, hkeys⟩ := State.debugged_leaves { s with dbg := { s.dbg with chal := none } }
    rw [hu] at hflag hdbg hkeys
    exact ⟨rfl, (congrArg Dbg.chal hdbg :), (congrArg Dbg.fails hdbg :), fun _ => ⟨hflag, fun p hp _ => hkeys p hp⟩⟩
  · next hplain => exact ⟨rfl, rfl, rfl, fun h => absurd (Bool.or_eq_true_iff.mpr h) hplain⟩

/-- Any other answer to the challenge counts as a failed unlock. -/
theorem State.unlock_fails (h : ¬(signsUnlock sig ∧ ∀ i < 8, Sparse.get 0 s.dbg.token i = c.extractLsb' (64 * i) 64)) :
    ∃ t, s.unlock sig = ⟨t, 9, 0⟩ ∧ t.sec.scope = s.sec.scope ∧ t.dbg.chal = none ∧ t.dbg.fails = s.dbg.fails + 1
      ∧ t.sec.unlockfail = bump s.sec.unlockfail := by
  have hstop : ¬(sigFormed sig 4 && sigVerifies sig && s.dbg.tokenIs c) = true := fun hgo =>
    h ((Bool.and_eq_true_iff.mp hgo).imp (signsUnlock_iff sig).mp (s.dbg.tokenIs_iff c).mp)
  unfold State.unlock
  rw [hchal]
  dsimp only
  rw [if_neg (show ¬s.dbg.exhausted = true by simpa [Dbg.exhausted] using hfails), if_neg hstop]
  refine ⟨_, rfl, ?_⟩
  split
  · exact ⟨rfl, rfl, rfl, rfl⟩
  · exact ⟨rfl, rfl, rfl, rfl⟩

end

/-- R494: a core has no breakpoint. -/
def State.noBreaks (s : State) (p : Nat × Core) : State :=
  s.modSeq (Fin.ofNat 2304 p.1) fun q => { q with breaks := Vector.replicate 4 none }

/-- R493: locking clears every breakpoint, and closes the scope. -/
theorem State.lockPort_locks {s : State} (h : s.debugHold = false) : ∃ t, s.lockPort = ⟨t, 0, 0⟩
    ∧ t.sec = { s.sec with scope := 0 } ∧ t.mem = s.mem ∧ t.dbg.fails = s.dbg.fails := by
  refine ⟨_, if_neg (ne_true_of_eq_false h), ?_, ?_, ?_⟩
  · exact congrArg (fun x : Sec => { x with scope := 0 }) (foldl_keeps (f := State.noBreaks) State.sec (fun _ _ => rfl) _ _)
  · exact foldl_keeps (f := State.noBreaks) State.mem (fun _ _ => rfl) _ _
  · exact foldl_keeps (f := State.noBreaks) (fun t : State => t.dbg.fails) (fun _ _ => rfl) _ _

theorem State.lockPort_busy {s : State} (h : s.debugHold = true) : s.lockPort = ⟨s, 7, 0⟩ := if_pos h

/-! ## The port's commands -/

theorem State.chal_eq (s : State) (sc : BitVec 3) : s.chal sc = if 8 ≤ s.dbg.fails then ⟨s, 8, 0⟩ else if sc = 0 then ⟨s, 3, 0⟩
    else ⟨{ s with dbg := { s.dbg with chal := some (s.challengeOf sc, sc), issued := s.dbg.issued + 1 } }, 0, 0⟩ := by
  unfold State.chal Dbg.exhausted
  simp only [decide_eq_true_eq]
  rfl

/-- CHALRD: a word of the challenge, if one is outstanding. -/
def State.chalWord (s : State) (w : BitVec 3) : DbgEnd :=
  match s.dbg.chal with
  | some c => ⟨s, dbgOk, c.1.extractLsb' (64 * w.toNat) 64⟩
  | none => ⟨s, dbgRefused, 0⟩

theorem State.chalWord_some {s : State} {c : BitVec 512 × BitVec 3} (h : s.dbg.chal = some c) (w : BitVec 3) :
    s.chalWord w = ⟨s, 0, c.1.extractLsb' (64 * w.toNat) 64⟩ := by
  rw [State.chalWord, h]
  rfl

theorem State.chalWord_none {s : State} (h : s.dbg.chal = none) (w : BitVec 3) : s.chalWord w = ⟨s, 8, 0⟩ := by
  rw [State.chalWord, h]
  rfl

section
variable {s : State} (hup : s.hm.down = false) {i : Instr} {op : Nat} {tag : Byte} {arg : Nat} {data : W64} {used : Nat}
include hup

theorem State.dbg_unasked {scope : Option Nat} {served : State → Option DbgEnd} (hreq : s.dbg.req = none)
    (hi : exec i s = s.live fun s => s.dbgServe op scope tag arg data used served) : exec i s = .next s := by
  rw [hi, s.live_next (fun s => s.dbgServe op scope tag arg data used served) hup, State.dbgServe_unasked (Dbg.asks_none hreq ..)]

/-- An operation that needs no scope, asked for, ends as `e` says. -/
theorem State.dbg_ends {served : State → Option DbgEnd} (hi : exec i s = s.live fun s => s.dbgServe op none tag arg data used served)
    (h : s.dbg.asks op tag arg data used = true) {e : DbgEnd} (he : served s = some e) :
    exec i s = .next (e.st.dbgAnswer op tag e.code e.data) := by
  rw [hi, s.live_next (fun s => s.dbgServe op none tag arg data used served) hup, State.dbgServe_open h he]

theorem exec_chalrd_ends {w : BitVec 3} (h : s.dbg.asks 0x05 tag (w.toNat * 2 ^ 16) 0 0 = true) {e : DbgEnd}
    (he : s.chalWord w = e) : exec (.chalrd tag w) s = .next (e.st.dbgAnswer 0x05 tag e.code e.data) :=
  State.dbg_ends (served := fun s => some (s.chalWord w)) hup rfl h (congrArg some he)

theorem exec_tokwr_ends {tok : BitVec 12} (h : s.dbg.asks 0x06 tag (tok.toNat * 2 ^ 16) data 64 = true) {e : DbgEnd}
    (he : (if 2155 < tok.toNat then some ⟨s, 3, 0⟩
      else some ⟨{ s with dbg := { s.dbg with token := Sparse.put 0 s.dbg.token tok.toNat data } }, 0, 0⟩) = some e) :
    exec (.tokwr tag tok data) s = .next (e.st.dbgAnswer 0x06 tag e.code e.data) :=
  State.dbg_ends (served := fun s => if 2155 < tok.toNat then some ⟨s, 3, 0⟩
    else some ⟨{ s with dbg := { s.dbg with token := Sparse.put 0 s.dbg.token tok.toNat data } }, 0, 0⟩) hup rfl h he

theorem exec_unlock_ends {sig : SigBlock} (h : s.dbg.asks 0x07 tag 0 0 0 = true) {e : DbgEnd} (he : s.unlock sig = e) :
    exec (.unlock tag sig) s = .next (e.st.dbgAnswer 0x07 tag e.code e.data) :=
  State.dbg_ends (served := fun s => some (s.unlock sig)) hup rfl h (congrArg some he)

theorem exec_lock_ends (h : s.dbg.asks 0x08 tag 0 0 0 = true) {e : DbgEnd} (he : s.lockPort = e) :
    exec (.lock tag) s = .next (e.st.dbgAnswer 0x08 tag e.code e.data) :=
  State.dbg_ends (served := fun s => some s.lockPort) hup rfl h (congrArg some he)

theorem exec_warm_unasked (hreq : s.dbg.req = none) : exec (.warm tag) s = .next s :=
  (s.live_next (fun s => if s.dbg.asks 0x09 tag 0 0 0 then (s.dbgAnswer 0x09 tag dbgOk 0).warmStart else s) hup).trans
    (congrArg Host.Outcome.next (if_neg (ne_true_of_eq_false (Dbg.asks_none hreq ..))))

theorem exec_warm_asked (h : s.dbg.asks 0x09 tag 0 0 0 = true) : exec (.warm tag) s = exec .warmStart (s.dbgAnswer 0x09 tag 0 0) :=
  (s.live_next (fun s => if s.dbg.asks 0x09 tag 0 0 0 then (s.dbgAnswer 0x09 tag dbgOk 0).warmStart else s) hup).trans
    ((congrArg Host.Outcome.next (if_pos h)).trans ((s.dbgAnswer 0x09 tag 0 0).live_next State.warmStart hup).symm)

end

end Sys2Proof.Machine

open Sys2Proof Sys2Proof.Machine

/-- Settles O53: each operation that needs no scope is served as its definition says, and only when the port holds it. -/
theorem debugPort : Obligations.DebugPort := by
  intro v tag ix off sc w tok data sig s hup d asks answer
  refine ⟨s.live_next State.dbgTrst hup, fun h => ?_, fun hpended hreq hv => ?_, fun hpended hreq hv => ?_, fun hreq => ?_,
    fun r hreq => ?_, fun hreq => ?_, fun h => State.dbg_ends (i := .dbgNop tag) hup rfl h (e := ⟨s, 0, 0⟩) rfl,
    fun h => State.dbg_ends (i := .status tag) hup rfl h (e := ⟨s, 0, s.dbgStatus⟩) rfl, fun h => ?_,
    fun h => ?_, fun h => ?_, rfl, fun h => ⟨fun c hchal => ?_, fun hchal => ?_⟩, fun h => ?_,
    fun h => ⟨fun hno => ?_, fun c scope hchal hfails => ?_⟩, fun h => ⟨fun hhold => ?_, fun hfree => ?_⟩,
    ⟨_, s.live_next State.warmStart hup, rfl⟩,
    fun hstage hon hfails => ⟨_, congrArg Host.Outcome.next (State.coldStart_begins hon hfails (.inr hstage)), rfl⟩,
    fun h => exec_warm_asked hup h⟩
  · exact (s.live_next (fun s => s.updateDr v) hup).trans (congrArg Host.Outcome.next (State.updateDr_discards h v))
  · exact (s.live_next (fun s => s.updateDr v) hup).trans (congrArg Host.Outcome.next (State.updateDr_takes hpended hreq hv))
  · exact ⟨_, (s.live_next (fun s => s.updateDr v) hup).trans
      (congrArg Host.Outcome.next (State.updateDr_refuses hpended hreq hv)), rfl, rfl, rfl, rfl⟩
  · exact (s.live_next State.captureDr hup).trans (congrArg Host.Outcome.next (State.captureDr_idle hreq))
  · exact (s.live_next State.captureDr hup).trans (congrArg Host.Outcome.next (State.captureDr_pending hreq))
  · simp only [List.forall_mem_cons]
    exact ⟨State.dbg_unasked hup hreq rfl, State.dbg_unasked hup hreq rfl, State.dbg_unasked hup hreq rfl,
      State.dbg_unasked hup hreq rfl, State.dbg_unasked hup hreq rfl, State.dbg_unasked hup hreq rfl,
      State.dbg_unasked hup hreq rfl, State.dbg_unasked hup hreq rfl, State.dbg_unasked hup hreq rfl,
      exec_warm_unasked hup hreq, fun _ hi => nomatch hi⟩
  · refine (State.dbg_ends hup rfl h rfl).trans (congrArg Host.Outcome.next ?_)
    split <;> rfl
  · refine (State.dbg_ends hup rfl h rfl).trans (congrArg Host.Outcome.next ?_)
    split <;> rfl
  · refine (State.dbg_ends hup rfl h rfl).trans (congrArg Host.Outcome.next ?_)
    rw [State.chal_eq]
    split
    · rfl
    · split <;> rfl
  · exact exec_chalrd_ends hup h (State.chalWord_some hchal w)
  · exact exec_chalrd_ends hup h (State.chalWord_none hchal w)
  · by_cases htok : 2155 < tok.toNat
    · rw [if_pos htok]
      exact exec_tokwr_ends hup h (if_pos htok)
    · rw [if_neg htok]
      exact exec_tokwr_ends hup h (if_neg htok)
  · exact exec_unlock_ends hup h (State.unlock_refused hno)
  · refine ⟨fun ⟨hsig, htoken⟩ => ?_, fun hbad => ?_⟩
    · obtain ⟨t, ht, hscope, hnone, hsame, hdebug⟩ := State.unlock_opens hchal hfails hsig htoken
      exact ⟨_, exec_unlock_ends hup h ht, hscope, hnone, hsame, rfl, hdebug⟩
    · obtain ⟨t, ht, hscope, hnone, hfail, hcount⟩ := State.unlock_fails hchal hfails hbad
      exact ⟨_, exec_unlock_ends hup h ht, hscope, hnone, hfail, hcount, rfl⟩
  · exact exec_lock_ends hup h (State.lockPort_busy hhold)
  · obtain ⟨t, ht, hsec, hmem, hfails⟩ := State.lockPort_locks hfree
    exact ⟨_, exec_lock_ends hup h ht, hsec, hmem, hfails, rfl⟩
end


section
/-! PROOF. What the actions of a boundary leave alone: the step counter, the module's state, the halt and thermal-hold flags, and the
cut-off of the boundary. -/
namespace Sys2Proof.Machine

/-- What steers a boundary and no action of one changes. -/
def State.pace (s : State) : (W64 × BitVec 3) × (Bool × Bool) × Nat × Nat :=
  ((s.hm.step, s.hm.state), (s.fab.halting, s.pwr.hold), s.serv.cut, s.serv.cutOffers)

theorem State.pace_of_exceptMem {s t : State} (h : t.exceptMem = s.exceptMem) : t.pace = s.pace :=
  (congrArg State.pace h : t.exceptMem.pace = s.exceptMem.pace)

theorem State.pace_of_exceptBerths {s t : State} (h : t.exceptBerths = s.exceptBerths) : t.pace = s.pace :=
  (congrArg State.pace h : t.exceptBerths.pace = s.exceptBerths.pace)

theorem State.pace_ms (s : State) (m : MemSys) : State.pace { s with ms := m } = s.pace := rfl

theorem State.pace_serv (s : State) {v : Serving} (hcut : v.cut = s.serv.cut) (hoffers : v.cutOffers = s.serv.cutOffers) :
    State.pace { s with serv := v } = s.pace := by
  rw [State.pace, hcut, hoffers]
  rfl

/-! ## The operations that actions share -/

theorem State.pace_modReq (s : State) (h : W32) (f : Request → Request) : (s.modReq h f).pace = s.pace := rfl

theorem State.pace_devWrite (s : State) (addr : Nat) (ws : List MWord) : (s.devWrite addr ws).pace = s.pace :=
  State.pace_of_exceptMem (s.exceptMem_devWrite addr ws)

theorem State.pace_spLand (s : State) (c : CoreId) (off : Nat) (ws : List MWord) : (s.spLand c off ws).pace = s.pace :=
  show (s.wrWords (spKey c off) ws).1.pace = s.pace from State.pace_of_exceptMem (s.exceptMem_wrWords (spKey c off) ws)

theorem State.pace_interrupt (s : State) (f : FnId) (v : Nat) : (s.interrupt f v).pace = s.pace := by
  unfold State.interrupt
  split
  · rfl
  · rfl

theorem State.pace_moderate (s : State) (f : FnId) (r : RingId) (n : Nat) : (s.moderate f r n).pace = s.pace := by
  unfold State.moderate
  dsimp only
  split
  · exact State.pace_interrupt ..
  · rfl

theorem State.pace_pushRecs (s : State) (f : FnId) (r : RingId) (xs : List (BitVec 256)) : (s.pushRecs f r xs).pace = s.pace := by
  refine (State.pace_moderate ..).trans ?_
  refine foldl_keeps State.pace (fun u p => ?_) _ _
  rfl

theorem State.pace_complete (s : State) (f : FnId) (r : RingId) (x : BitVec 256) : (s.complete f r x).pace = s.pace := by
  unfold State.complete
  dsimp only
  split
  · exact State.pace_pushRecs ..
  · rfl

theorem State.pace_finish? (s : State) (k : Option W32) (status : W16) (result : W64) : (s.finish? k status result).pace = s.pace := by
  cases k with
  | none => rfl
  | some k => rfl

theorem State.pace_health (s : State) (site cause : Nat) (baseline measured : W32) :
    (s.health site cause baseline measured).pace = s.pace := by
  unfold State.health
  split
  · rfl
  · rfl

theorem State.pace_eachQuay (s : State) (slot : Nat) {f : State → QuayId → State} (h : ∀ u k, (f u k).pace = u.pace) :
    (s.eachQuay slot f).pace = s.pace :=
  foldl_keeps State.pace h _ _

theorem State.pace_pickHandle {s t : State} {anc : Bool} {n : TenantId} {h : Nat} (hp : s.pickHandle anc n = some (h, t)) :
    t.pace = s.pace :=
  State.pace_of_exceptBerths (State.exceptBerths_pickHandle hp)

theorem State.pace_protect (s : State) (anc : Bool) (t : TenantId) (n : Nat) : (s.protect anc t n).pace = s.pace :=
  State.pace_of_exceptBerths (s.exceptBerths_protect anc t n)

theorem State.pace_pickHandles {s : State} {anc : Bool} {t : TenantId} {n : Nat} {q : List Nat × State}
    (h : s.pickHandles anc t n = some q) : q.2.pace = s.pace := by
  unfold State.pickHandles at h
  dsimp only at h
  split at h
  · exact nomatch h
  · obtain rfl := Option.some.inj h
    exact State.pace_protect ..

theorem State.pace_putPage (s : State) (anc : Bool) (h : Nat) (p : List Byte) : (s.putPage anc h p).pace = s.pace :=
  State.pace_of_exceptBerths (s.exceptBerths_putPage anc h p)

theorem State.pace_modHdr (s : State) (anc : Bool) (h : Nat) (f : BHdr → BHdr) : (s.modHdr anc h f).pace = s.pace :=
  State.pace_of_exceptBerths (s.exceptBerths_modHdr anc h f)

theorem State.pace_dropRef (s : State) (anc : Bool) (h : Nat) : (s.dropRef anc h).pace = s.pace :=
  State.pace_of_exceptBerths (s.exceptBerths_dropRef anc h)

theorem State.pace_openBerth (s : State) (anc : Bool) (h : Nat) (p : List Byte) : (s.openBerth anc h p).pace = s.pace :=
  State.pace_of_exceptBerths (s.exceptBerths_openBerth anc h p)

theorem State.pace_countFree (s : State) (anc up : Bool) : (s.countFree anc up).pace = s.pace :=
  State.pace_of_exceptBerths (s.exceptBerths_countFree anc up)

theorem State.pace_putBerths (s : State) (k : QuayId) (x : Quay) (bs : List QBerth) : (s.putBerths k x bs).pace = s.pace :=
  State.pace_of_exceptBerths (s.exceptBerths_putBerths k x bs)

theorem State.pace_putTail (s : State) (k : QuayId) (ws : List W64) : (s.putTail k ws).pace = s.pace :=
  State.pace_of_exceptBerths (s.exceptBerths_putTail k ws)

theorem State.pace_dropBerths (s : State) (q : Request) : (s.dropBerths q).pace = s.pace :=
  (State.pace_serv _ rfl rfl).trans (foldl_keeps State.pace (fun _ _ => State.pace_dropRef ..) _ _)

/-! ## Actions 3 and 4 -/

theorem State.pace_moveTail (s : State) (k : QuayId) (from_ dest : Nat) : (s.moveTail k from_ dest).pace = s.pace := by
  unfold State.moveTail
  dsimp only
  split
  · rfl
  · rfl

theorem State.pace_commitBerth (s : State) (h dest : Nat) : (s.commitBerth h dest).2.2.pace = s.pace := by
  unfold State.commitBerth
  dsimp only
  exact State.pace_putPage ..

theorem pace_commitOne (from_ dest : Nat) (q : State × List QBerth × Nat) (b : QBerth) :
    (commitOne from_ dest q b).1.pace = q.1.pace := by
  unfold commitOne
  dsimp only
  split
  · rfl
  · split
    · exact (State.pace_countFree ..).trans ((State.pace_modHdr ..).trans ((State.pace_ms ..).trans (State.pace_commitBerth ..)))
    · exact (State.pace_ms ..).trans (State.pace_commitBerth ..)

theorem State.pace_countOpened (s : State) (q : Request) (k : QuayId) : (s.countOpened q k).pace = s.pace := by
  refine foldl_keeps State.pace (fun u h => ?_) _ _
  split
  · rfl
  · exact State.pace_countFree ..

theorem State.pace_settleCopy (s : State) (q : Request) (k : QuayId) (bs : List QBerth) : (s.settleCopy q k bs).pace = s.pace := by
  unfold State.settleCopy
  split
  · rfl
  · split
    · exact (State.pace_ms ..).trans (State.pace_dropRef ..)
    · rfl

theorem State.pace_commitQuay (s : State) (q : Request) (dest : Nat) (k : QuayId) : (s.commitQuay q dest k).pace = s.pace := by
  have hberths : ∀ (bs : List QBerth) (r : State × List QBerth × Nat),
      (bs.foldl (commitOne q.committed dest) r).1.pace = r.1.pace :=
    foldl_keeps (fun r : State × List QBerth × Nat => r.1.pace) (pace_commitOne q.committed dest)
  calc (s.commitQuay q dest k).pace = _ := State.pace_moveTail ..
    _ = _ := State.pace_putBerths ..
    _ = _ := hberths ..
    _ = (s.countOpened q k).pace := State.pace_settleCopy ..
    _ = s.pace := State.pace_countOpened ..

theorem State.pace_tokenRecord (s : State) (h : W32) (k : Kept) : (s.tokenRecord h k).pace = s.pace := by
  unfold State.tokenRecord
  split
  · rfl
  · split
    · rfl
    · exact State.pace_complete ..

theorem State.pace_commitReq (s : State) (b : BoundaryIn) (q : Request) : (s.commitReq b q).pace = s.pace := by
  unfold State.commitReq
  dsimp only
  split
  · rfl
  · exact (foldl_keeps State.pace (fun _ _ => State.pace_tokenRecord ..) _ _).trans
      (State.pace_eachQuay s q.slot fun _ _ => State.pace_commitQuay ..)

theorem State.pace_action3 (s : State) (b : BoundaryIn) : (s.action3 b).pace = s.pace :=
  foldl_keeps State.pace (fun _ _ => State.pace_commitReq ..) _ _

theorem State.pace_addMass (s : State) (k : QuayId) (i : Nat) (inc : W32) : (s.addMass k i inc).pace = s.pace := by
  unfold State.addMass
  dsimp only
  split
  · rfl
  · exact State.pace_devWrite ..

theorem State.pace_addMasses (s : State) (m : MassIn) : (s.addMasses m).pace = s.pace := by
  unfold State.addMasses
  split
  · rfl
  · split
    · rfl
    · exact foldl_keeps State.pace (fun _ _ => State.pace_addMass ..) _ _

theorem State.pace_action4 (s : State) : s.action4.pace = s.pace :=
  foldl_keeps State.pace (fun _ _ => State.pace_addMasses ..) _ _

end Sys2Proof.Machine
end


section
/-! PROOF. Actions 5 to 8 of a boundary leave its pace alone: format switches, the health monitor, the placer, eviction and compaction. -/
namespace Sys2Proof.Machine

/-! ## Action 5 -/

theorem State.pace_foldSite (s : State) (b : BoundaryIn) (m : Manifest) (h : W32) (crossed : Bool) (site : Nat) :
    (s.foldSite b m h crossed site).pace = s.pace := by
  unfold State.foldSite
  split
  · rfl
  · split
    · rfl
    · dsimp only
      split
      · rfl
      · split
        · exact State.pace_health ..
        · rfl

theorem State.pace_foldTallies (s : State) (b : BoundaryIn) (q : Request) : (s.foldTallies b q).pace = s.pace := by
  unfold State.foldTallies
  split
  · rfl
  · exact foldl_keeps State.pace (fun _ _ => State.pace_foldSite ..) _ _

theorem State.pace_judge (s : State) (site : Nat) (x : SiteSpec) (m : Monitor) (b l : W32) : (s.judge site x m b l).pace = s.pace := by
  unfold State.judge
  dsimp only
  split
  · rfl
  · split
    · exact State.pace_health ..
    · exact (State.pace_health ..).trans (State.pace_health ..)

theorem State.pace_watchSite (s : State) (m : Manifest) (site : Nat) (x : SiteSpec) : (s.watchSite m site x).pace = s.pace := by
  unfold State.watchSite
  split
  · rfl
  · split
    · exact State.pace_health ..
    · dsimp only
      split
      · rfl
      · exact State.pace_judge ..

theorem State.pace_watch (s : State) : s.watch.pace = s.pace := by
  unfold State.watch
  split
  · rfl
  · refine foldl_keeps State.pace (fun u x => ?_) _ _
    split
    · exact State.pace_watchSite ..
    · rfl

theorem State.pace_zeroTallies (s : State) : s.zeroTallies.pace = s.pace := by
  unfold State.zeroTallies
  split
  · rfl
  · refine foldl_keeps State.pace (fun u t => ?_) _ _
    split
    · exact State.pace_spLand ..
    · rfl

theorem State.pace_action5 (s : State) (b : BoundaryIn) : (s.action5 b).pace = s.pace := by
  refine (State.pace_zeroTallies _).trans ((State.pace_watch _).trans ?_)
  split
  · rfl
  · refine foldl_keeps State.pace (fun u q => ?_) _ _
    split
    · exact State.pace_foldTallies ..
    · rfl

/-! ## Action 6: the placer touches its own tables alone -/

/-- The state with the placer's tables blanked. -/
def State.exceptPlacer (s : State) : State := { s with plc := Placer.reset }

theorem State.exceptPlacer_foldCounts (s : State) : s.foldCounts.exceptPlacer = s.exceptPlacer := by
  refine foldl_keeps State.exceptPlacer (fun u l => ?_) s.moeLayers s
  refine foldl_keeps State.exceptPlacer (fun u x => ?_) _ _
  rfl

theorem State.exceptPlacer_enterCopies (s : State) : s.enterCopies.exceptPlacer = s.exceptPlacer := by
  refine foldl_keeps State.exceptPlacer (fun u c => ?_) _ _
  unfold State.enterCopy
  split
  · rfl
  · rfl

theorem State.exceptPlacer_applyChange (s : State) (layer : Nat) (e : MoeSpec) (c : Change) :
    (s.applyChange layer e c).exceptPlacer = s.exceptPlacer := by
  cases c with
  | pin x => rfl
  | unpin x => rfl
  | replicate x slot => rfl
  | free x slot => rfl

theorem State.exceptPlacer_place6 (s : State) : s.place6.exceptPlacer = s.exceptPlacer := by
  unfold State.place6
  dsimp only
  generalize hgo : { s.foldCounts with plc := { s.foldCounts.plc with going := [] } } = u
  have hu : u.exceptPlacer = s.exceptPlacer := hgo ▸ s.exceptPlacer_foldCounts
  generalize (!_ : Bool) = fixed
  cases fixed with
  | true => exact hu
  | false =>
    refine (foldl_keeps State.exceptPlacer (fun v l => ?_) _ _).trans ((State.exceptPlacer_enterCopies u).trans hu)
    split
    · exact State.exceptPlacer_applyChange ..
    · rfl

theorem State.pace_place6 (s : State) : s.place6.pace = s.pace := (congrArg State.pace s.exceptPlacer_place6 :)

/-! ## Actions 7 and 8 -/

theorem State.pace_copyBerth (s : State) (e : BEntry) (h : Nat) : (s.copyBerth e h).pace = s.pace := by
  unfold State.copyBerth
  dsimp only
  exact (State.pace_ms ..).trans ((State.pace_dropRef ..).trans (State.pace_openBerth ..))

theorem State.pace_evictIn {s : State} {t : TenantId} {b : QBerth} {pls : List Nat} {q : QBerth × State}
    (h : s.evictIn t b pls = some q) : q.2.pace = s.pace := by
  unfold State.evictIn at h
  dsimp only at h
  split at h
  · obtain rfl := Option.some.inj h
    rfl
  · split at h
    · obtain rfl := Option.some.inj h
      dsimp only
      exact State.pace_modHdr ..
    · split at h
      · exact nomatch h
      · next hpick =>
        obtain rfl := Option.some.inj h
        dsimp only
        exact (State.pace_modHdr ..).trans ((State.pace_copyBerth ..).trans (State.pace_pickHandle hpick))

theorem pace_evictAll {t : TenantId} {chosen : List Victim} {bs : List (QBerth × Nat)} {s : State} {q : List QBerth × State}
    (h : evictAll t chosen bs s = some q) : q.2.pace = s.pace := by
  induction bs generalizing s q with
  | nil =>
    obtain rfl := Option.some.inj h
    rfl
  | cons b bs ih =>
    unfold evictAll at h
    split at h
    · exact nomatch h
    · next hin =>
      obtain ⟨p, hp, rfl⟩ := Option.map_eq_some_iff.mp h
      exact (ih hp).trans (State.pace_evictIn hin)

theorem State.pace_evictQuay {s u : State} {t : TenantId} {p : EvictPolicy} {k : QuayId} (h : s.evictQuay t p k = some u) :
    u.pace = s.pace := by
  unfold State.evictQuay at h
  dsimp only at h
  split at h
  · obtain rfl := Option.some.inj h
    rfl
  · obtain ⟨q, hq, rfl⟩ := Option.map_eq_some_iff.mp h
    exact (State.pace_ms ..).trans ((State.pace_putBerths ..).trans (pace_evictAll hq))

theorem State.pace_compactRun {s : State} {t : TenantId} {layer pair reach : Nat} {run : List QBerth} {q : List QBerth × State}
    (h : s.compactRun t layer pair reach run = some q) : q.2.pace = s.pace := by
  unfold State.compactRun at h
  dsimp only at h
  split at h
  · exact nomatch h
  · next hpick =>
    obtain rfl := Option.some.inj h
    refine (State.pace_ms ..).trans ((foldl_keeps State.pace (fun _ _ => State.pace_dropRef ..) _ _).trans ?_)
    exact (foldl_keeps State.pace (fun _ _ => State.pace_openBerth ..) _ _).trans (State.pace_pickHandles hpick)

theorem pace_compactAll {t : TenantId} {k : QuayId} {rs : List (Bool × List QBerth)} {s : State} {q : List QBerth × State}
    (h : compactAll t k rs s = some q) : q.2.pace = s.pace := by
  induction rs generalizing s q with
  | nil =>
    obtain rfl := Option.some.inj h
    rfl
  | cons x rs ih =>
    unfold compactAll at h
    dsimp only at h
    split at h
    · exact nomatch h
    · next hhere =>
      obtain ⟨p, hp, rfl⟩ := Option.map_eq_some_iff.mp h
      refine (ih hp).trans ?_
      split at hhere
      · obtain ⟨-, rfl⟩ := Prod.mk.inj (Option.some.inj hhere)
        rfl
      · exact State.pace_compactRun hhere

theorem State.pace_compactQuay {s u : State} {t : TenantId} {p : EvictPolicy} {k : QuayId} (h : s.compactQuay t p k = some u) :
    u.pace = s.pace := by
  unfold State.compactQuay at h
  dsimp only at h
  obtain ⟨q, hq, rfl⟩ := Option.map_eq_some_iff.mp h
  exact (State.pace_putBerths ..).trans (pace_compactAll hq)

theorem pace_eachEvicting {f : State → EvictPolicy → QuayId → Option State} (hf : ∀ u p k v, f u p k = some v → v.pace = u.pace)
    {ks : List QuayId} {s u : State} (h : eachEvicting f ks s = some u) : u.pace = s.pace := by
  induction ks generalizing s with
  | nil =>
    obtain rfl := Option.some.inj h
    rfl
  | cons k ks ih =>
    unfold eachEvicting at h
    split at h
    · exact ih h
    · split at h
      · next hk => exact (ih h).trans (hf _ _ _ _ hk)
      · exact nomatch h

theorem State.pace_evictReq (s : State) (q : Request) : (s.evictReq q).pace = s.pace := by
  unfold State.evictReq
  split
  · rfl
  · split
    · rfl
    · next heach =>
      refine (State.pace_modReq ..).trans (pace_eachEvicting (fun u p k v hv => ?_) heach)
      split at hv
      · exact State.pace_evictQuay hv
      · obtain rfl := Option.some.inj hv
        rfl

theorem State.pace_compactReq (s : State) (q : Request) : (s.compactReq q).pace = s.pace := by
  unfold State.compactReq
  split
  · rfl
  · split
    · rfl
    · next heach => exact pace_eachEvicting (fun _ _ _ _ => State.pace_compactQuay) heach

theorem State.pace_action7 (s : State) : s.action7.pace = s.pace := foldl_keeps State.pace State.pace_evictReq _ _

theorem State.pace_action8 (s : State) : s.action8.pace = s.pace := foldl_keeps State.pace State.pace_compactReq _ _

end Sys2Proof.Machine
end


section
/-! PROOF. Actions 9 to 13 of a boundary leave its pace alone: adapters and tuning jobs, forks, ends and commands, admissions, and
reservations. -/
namespace Sys2Proof.Machine

/-! ## Action 9 -/

theorem State.pace_makeRegion (s : State) (r base size : Nat) (t : TenantId) (slot : Nat) :
    (s.makeRegion r base size t slot).pace = s.pace :=
  State.pace_of_exceptBerths (s.exceptBerths_makeRegion r base size t slot)

theorem State.pace_protectRange (s : State) (t : TenantId) (addr len : Nat) : (s.protectRange t addr len).pace = s.pace := by
  unfold State.protectRange
  dsimp only
  split
  · split
    · exact State.pace_makeRegion ..
    · rfl
  · rfl

theorem State.pace_putTiles (s : State) (base table : Nat) (ts : List TileSpec) : (s.putTiles base table ts).pace = s.pace := by
  refine foldl_keeps State.pace (fun u x => ?_) _ _
  exact (State.pace_devWrite ..).trans (State.pace_devWrite ..)

theorem State.pace_storeFactor (s : State) (t : TenantId) (id : W16) (v : Nat) (x : AdapterFactor) :
    (s.storeFactor t id v x).pace = s.pace := by
  unfold State.storeFactor
  dsimp only
  refine (State.pace_devWrite ..).trans ((State.pace_putTiles ..).trans ?_)
  exact (State.pace_protectRange ..).trans ((State.pace_protectRange ..).trans (State.pace_protectRange ..))

theorem State.pace_installVersion (s : State) (id : W16) (t : TenantId) (fs : List AdapterFactor) (current : Bool) :
    (s.installVersion id t fs current).pace = s.pace := by
  unfold State.installVersion
  dsimp only
  exact (State.pace_serv _ rfl rfl).trans (foldl_keeps State.pace (fun _ _ => State.pace_storeFactor ..) _ _)

theorem State.pace_putMasters (s : State) (job i : Nat) (xs : List (W32 × W32)) : (s.putMasters job i xs).pace = s.pace :=
  State.pace_devWrite ..

theorem State.pace_stepJob (s : State) (j : Job) : (s.stepJob j).pace = s.pace := by
  unfold State.stepJob
  dsimp only
  refine (State.pace_serv _ rfl rfl).trans ?_
  refine foldl_keeps (fun r : List FactorCol × State => r.2.pace) (fun r c => ?_) _ _
  exact State.pace_putMasters ..

theorem State.pace_advanceJob (s : State) (j : Job) : (s.advanceJob j).pace = s.pace := by
  unfold State.advanceJob
  dsimp only
  split
  · rfl
  · split
    · exact State.pace_stepJob ..
    · rfl

theorem State.pace_settleJob (s : State) (j : Job) : (s.settleJob j).pace = s.pace := by
  unfold State.settleJob
  dsimp only
  split
  · exact State.pace_finish? ..
  · split
    · exact State.pace_finish? ..
    · split
      · split
        · exact State.pace_finish? ..
        · exact (State.pace_finish? ..).trans (State.pace_installVersion ..)
      · split
        · rfl
        · rfl

theorem State.pace_startJob (s : State) (i : Issuer) (t : TenantId) (a : TuneArgs) (k : Option W32) :
    (s.startJob i t a k).pace = s.pace := by
  unfold State.startJob
  dsimp only
  split
  · exact State.pace_finish? ..
  · split
    · exact State.pace_finish? ..
    · split
      · exact State.pace_finish? ..
      · refine (foldl_keeps State.pace (fun u c => ?_) _ _).trans ((State.pace_protectRange ..).trans (State.pace_serv _ rfl rfl))
        exact State.pace_putMasters ..

theorem State.pace_adapterCmd (s : State) (c : BCmd) : (s.adapterCmd c).pace = s.pace := by
  unfold State.adapterCmd
  split
  · dsimp only
    split
    · exact State.pace_finish? ..
    · split
      · exact State.pace_finish? ..
      · exact (State.pace_finish? ..).trans (State.pace_installVersion ..)
  · split
    · exact State.pace_finish? ..
    · exact (State.pace_finish? ..).trans (State.pace_serv _ rfl rfl)
  · exact State.pace_startJob ..
  · exact State.pace_serv _ rfl rfl
  · rfl

theorem State.pace_action9 (s : State) (b : BoundaryIn) (cmds : List BCmd) : (s.action9 b cmds).pace = s.pace := by
  refine (foldl_keeps State.pace State.pace_adapterCmd _ _).trans ((foldl_keeps State.pace State.pace_settleJob _ _).trans ?_)
  split
  · rfl
  · exact foldl_keeps State.pace State.pace_advanceJob _ _

/-! ## Action 10: forks -/

theorem State.pace_takeOffer (s : State) (o : Offer) : (s.takeOffer o).pace = s.pace := by
  unfold State.takeOffer
  dsimp only
  split
  · rfl
  · rfl

theorem State.pace_refuseOffer (s : State) (o : Offer) (status : W16) : (s.refuseOffer o status).pace = s.pace := by
  unfold State.refuseOffer
  split
  · exact (State.pace_complete ..).trans (State.pace_takeOffer ..)
  · exact State.pace_takeOffer ..

theorem State.pace_admitIn (s : State) (n a : Nat) (o : Offer) (aver : W32) (q0 : Request → Request) :
    (s.admitIn n a o aver q0).pace = s.pace :=
  State.pace_takeOffer ..

theorem State.pace_shareBerth {s : State} {t : TenantId} {b : QBerth} {q : QBerth × State} (h : s.shareBerth t b = some q) :
    q.2.pace = s.pace := by
  unfold State.shareBerth at h
  dsimp only at h
  split at h
  · obtain rfl := Option.some.inj h
    dsimp only
    exact State.pace_modHdr ..
  · split at h
    · exact nomatch h
    · next hpick =>
      obtain rfl := Option.some.inj h
      dsimp only
      exact (State.pace_openBerth ..).trans (State.pace_pickHandle hpick)

theorem pace_shareAll {t : TenantId} {bs : List QBerth} {s : State} {q : List QBerth × State} (h : shareAll t bs s = some q) :
    q.2.pace = s.pace := by
  induction bs generalizing s q with
  | nil =>
    obtain rfl := Option.some.inj h
    rfl
  | cons b bs ih =>
    unfold shareAll at h
    split at h
    · exact nomatch h
    · next hshare =>
      obtain ⟨p, hp, rfl⟩ := Option.map_eq_some_iff.mp h
      exact (ih hp).trans (State.pace_shareBerth hshare)

theorem State.pace_forkQuay {s u : State} {t : TenantId} {src k : QuayId} {f committed : Nat}
    (h : s.forkQuay t src k f committed = some u) : u.pace = s.pace := by
  unfold State.forkQuay at h
  dsimp only at h
  obtain ⟨q, hq, rfl⟩ := Option.map_eq_some_iff.mp h
  have hberths := fun x bs => (State.pace_putBerths q.2 k x bs).trans (pace_shareAll hq)
  split
  · exact (State.pace_putTail ..).trans (hberths ..)
  · exact hberths ..

theorem pace_forkAll {t : TenantId} {from_ slot f committed : Nat} {ks : List QuayId} {s u : State}
    (h : forkAll t from_ slot f committed ks s = some u) : u.pace = s.pace := by
  induction ks generalizing s with
  | nil =>
    obtain rfl := Option.some.inj h
    rfl
  | cons k ks ih =>
    unfold forkAll at h
    split at h
    · exact nomatch h
    · next hk => exact (ih h).trans (State.pace_forkQuay hk)

theorem State.pace_admitFork {s u : State} {b : BoundaryIn} {o : Nat × Offer} (h : s.admitFork b o = .done u) : u.pace = s.pace := by
  unfold State.admitFork at h
  split at h
  · exact nomatch h
  · split at h
    · obtain rfl := Admitted.done.inj h
      exact State.pace_refuseOffer ..
    · obtain rfl := Admitted.done.inj h
      exact State.pace_refuseOffer ..
    · dsimp only at h
      split at h
      · obtain rfl := Admitted.done.inj h
        exact State.pace_refuseOffer ..
      · split at h
        · obtain rfl := Admitted.done.inj h
          exact State.pace_refuseOffer ..
        · split at h
          · split at h
            · next hfork =>
              obtain rfl := Admitted.done.inj h
              exact (pace_forkAll hfork).trans (State.pace_admitIn ..)
            · exact nomatch h
          · exact nomatch h

theorem State.pace_holdFork (s : State) (o : Offer) : (s.holdFork o).pace = s.pace := by
  unfold State.holdFork
  dsimp only
  split
  · rfl
  · rfl

theorem pace_admitForks (b : BoundaryIn) (os : List (Nat × Offer)) (s : State) : (admitForks b os s).1.pace = s.pace := by
  induction os generalizing s with
  | nil => rfl
  | cons o os ih =>
    unfold admitForks
    split
    · exact ih s
    · split
      · next hdone => exact (ih _).trans (State.pace_admitFork hdone)
      · exact (ih _).trans (State.pace_holdFork ..)
      · rfl

end Sys2Proof.Machine
end


section
/-! PROOF. Actions 11 to 13 of a boundary leave its pace alone: ends and commands, unloading, admissions, reservations. -/
namespace Sys2Proof.Machine

/-! ## Shipments on their flows -/

theorem State.pace_sendDatagram (s : State) (typ : Byte) (d : Datagram) : (s.sendDatagram typ d).pace = s.pace := by
  unfold State.sendDatagram
  split
  · rfl
  · rfl

theorem State.pace_pumpFlow (n : Nat) (id : W32) (s : State) : (s.pumpFlow n id).pace = s.pace := by
  induction n generalizing s with
  | zero => rfl
  | succ n ih =>
    unfold State.pumpFlow
    split
    · rfl
    · dsimp only
      split
      · rfl
      · exact (ih _).trans (State.pace_sendDatagram ..)

theorem State.pace_runFlow (s : State) (id : W32) : (s.runFlow id).pace = s.pace := by
  unfold State.runFlow
  split
  · exact State.pace_pumpFlow ..
  · rfl

theorem State.pace_sendShipment (s : State) (q : Request) (flow : W32) (order : ShipOrder) :
    (s.sendShipment q flow order).pace = s.pace :=
  (State.pace_runFlow ..).trans (State.pace_sendDatagram ..)

theorem State.pace_answerShip (s : State) (flow : W32) (status : W16) (h : W32) : (s.answerShip flow status h).pace = s.pace := by
  unfold State.answerShip
  split
  · exact State.pace_runFlow ..
  · rfl

theorem State.pace_freeShip (s : State) (x : Ship) : (s.freeShip x).pace = s.pace := by
  unfold State.freeShip
  dsimp only
  exact (State.pace_serv _ rfl rfl).trans (foldl_keeps State.pace (fun _ _ => State.pace_dropRef ..) _ _)

theorem State.pace_refuseShip (s : State) (x : Option Ship) (flow : W32) (status : W16) : (s.refuseShip x flow status).pace = s.pace := by
  refine (State.pace_answerShip ..).trans ?_
  cases x with
  | none => rfl
  | some x => exact State.pace_freeShip ..

/-! ## Action 11: ends and commands -/

theorem State.pace_endReq (s : State) (q : Request) (status : W16) (reason : Byte) (quiet : Bool) :
    (s.endReq q status reason quiet).pace = s.pace := by
  unfold State.endReq
  dsimp only
  split
  · exact (State.pace_complete ..).trans (State.pace_dropBerths ..)
  · exact State.pace_dropBerths ..

theorem State.pace_endOffer (s : State) (o : Offer) (quiet : Bool) : (s.endOffer o quiet).pace = s.pace := by
  unfold State.endOffer
  cases quiet with
  | true => rfl
  | false => exact State.pace_complete ..

theorem State.pace_expire (s : State) (q : Request) : (s.expire q).pace = s.pace := State.pace_dropBerths ..

theorem State.pace_endWhere (s : State) (p : Request → Bool) (status : W16) (quiet : Bool) : (s.endWhere p status quiet).pace = s.pace :=
  foldl_keeps State.pace (fun _ _ => State.pace_endReq ..) _ _

theorem State.pace_endOffers (s : State) (p : Offer → Bool) (quiet : Bool) : (s.endOffers p quiet).pace = s.pace :=
  foldl_keeps State.pace (fun _ _ => State.pace_endOffer ..) _ _

theorem State.pace_zeroSlot (s : State) (k : Nat) : (s.zeroSlot k).pace = s.pace := by
  have hoff : (s.regionsOff k).pace = s.pace := foldl_keeps (f := State.regionOff) State.pace (fun _ _ => rfl) _ _
  refine (foldl_keeps State.pace (fun u r => ?_) _ _).trans hoff
  exact State.pace_of_exceptMem (State.exceptMem_zeroRegion ..)

theorem State.pace_cancelTenant (s : State) (t : TenantId) : (s.cancelTenant t).pace = s.pace := by
  refine (State.pace_serv _ rfl rfl).trans ((State.pace_endOffers ..).trans ((State.pace_endWhere ..).trans ?_))
  refine (foldl_keeps State.pace State.pace_expire _ _).trans ?_
  exact foldl_keeps State.pace (fun _ _ => State.pace_refuseShip ..) _ _

theorem State.pace_zeroTenant (s : State) (t : TenantId) : (s.zeroTenant t).pace = s.pace :=
  foldl_keeps State.pace (fun _ _ => State.pace_zeroSlot ..) _ _

theorem State.pace_cancelCmd (s : State) (ended : List W32) (h : W32) (t : Option W32) : (s.cancelCmd ended h t).pace = s.pace := by
  unfold State.cancelCmd
  split
  · exact (State.pace_finish? ..).trans (State.pace_endReq ..)
  · exact State.pace_finish? ..

theorem State.pace_pauseCmd (s : State) (h : W32) (ttl : Nat) (t : Option W32) : (s.pauseCmd h ttl t).pace = s.pace := by
  unfold State.pauseCmd
  split
  · exact State.pace_finish? ..
  · split
    · exact State.pace_finish? ..
    · dsimp only
      split
      · exact (State.pace_finish? ..).trans (State.pace_protect ..)
      · split
        · exact State.pace_protect ..
        · exact State.pace_protect ..

theorem State.pace_roomBack {s u : State} {q : Request} {hs : List Nat} {a : Nat} (h : s.roomBack q = some (hs, a, u)) :
    u.pace = s.pace := by
  unfold State.roomBack at h
  split at h
  · obtain ⟨-, -, rfl⟩ := by simpa using h
    rfl
  · split at h
    · next hpick _ =>
      obtain ⟨-, -, rfl⟩ := by simpa using h
      exact State.pace_pickHandles hpick
    · exact nomatch h

theorem State.pace_resumeCmd (s : State) (h : W32) (t : Option W32) : (s.resumeCmd h t).pace = s.pace := by
  unfold State.resumeCmd
  split
  · exact State.pace_finish? ..
  · split
    · exact State.pace_finish? ..
    · split
      · exact State.pace_finish? ..
      · split
        · exact State.pace_finish? ..
        · next hroom =>
          dsimp only
          refine (State.pace_modReq ..).trans (Eq.trans ?_ (State.pace_roomBack hroom))
          split
          · exact State.pace_finish? ..
          · rfl

theorem State.pace_shipCmd (s : State) (h : W32) (t : Option W32) (order : ShipOrder) : (s.shipCmd h t order).pace = s.pace := by
  unfold State.shipCmd
  split
  · split
    · exact State.pace_finish? ..
    · dsimp only
      generalize hsent : (if t.isNone = true then _ else s : State) = u
      have hu : u.pace = s.pace := by
        rw [← hsent]
        split
        · exact State.pace_sendShipment ..
        · rfl
      split
      · exact (State.pace_finish? ..).trans ((State.pace_endReq ..).trans hu)
      · exact (State.pace_finish? ..).trans hu
  · exact State.pace_finish? ..

theorem State.pace_leaveCmd (ended : List W32) (s : State) (c : BCmd) : (s.leaveCmd ended c).pace = s.pace := by
  cases c with
  | cancel h t => exact State.pace_cancelCmd ..
  | cancelOffer f r ix t =>
    unfold State.leaveCmd
    dsimp only
    split
    · exact (State.pace_finish? ..).trans (State.pace_endOffer ..)
    · split
      · exact (State.pace_finish? ..).trans (State.pace_endReq ..)
      · exact State.pace_finish? ..
  | dropOffer i o =>
    unfold State.leaveCmd
    dsimp only
    split
    · exact State.pace_endReq ..
    · rfl
  | pause h ttl t => exact State.pace_pauseCmd ..
  | resume h t => exact State.pace_resumeCmd ..
  | ship h t o => exact State.pace_shipCmd ..
  | endQuiet h =>
    unfold State.leaveCmd
    dsimp only
    split
    · exact State.pace_endReq ..
    · rfl
  | expire h =>
    unfold State.leaveCmd
    dsimp only
    split
    · split
      · exact State.pace_expire ..
      · rfl
    · rfl
  | endFn f => exact (State.pace_endOffers ..).trans (State.pace_endWhere ..)
  | endRing f r => exact State.pace_endOffers ..
  | endCring f r => exact State.pace_endWhere ..
  | clearSlot k t =>
    refine (State.pace_zeroSlot ..).trans ?_
    split
    · exact State.pace_cancelTenant ..
    · rfl
  | dropTenant t => exact (State.pace_zeroTenant ..).trans (State.pace_cancelTenant ..)
  | cancelJob n => rfl
  | install id t fs k => rfl
  | remove id k => rfl
  | tune i t a k => rfl
  | unload t => rfl

theorem State.pace_prefill (s : State) (q : Request) : (s.prefill q).pace = s.pace := by
  unfold State.prefill
  dsimp only
  split
  · split
    · exact State.pace_complete ..
    · rfl
  · rfl

theorem State.pace_action11 (s : State) (cmds : List BCmd) : (s.action11 cmds).pace = s.pace := by
  refine (State.pace_serv _ rfl rfl).trans ((foldl_keeps State.pace (State.pace_leaveCmd _) _ _).trans ?_)
  refine (foldl_keeps State.pace State.pace_prefill _ _).trans ?_
  exact foldl_keeps State.pace (fun _ _ => State.pace_endReq ..) _ _

end Sys2Proof.Machine
end


section
/-! PROOF. Unloading, admissions, reservations and the start of a step: what they leave of a boundary's pace. -/
namespace Sys2Proof.Machine

/-! ## Unloading (R361) -/

theorem State.pace_answer (s : State) (src : Node) (x : XferRef) (status : Nat) : (s.answer src x status).pace = s.pace := by
  unfold State.answer
  split
  · rfl
  · rfl

theorem State.pace_partDone (s : State) (x : XferRef) (status : Nat) : (s.partDone x status).pace = s.pace := by
  unfold State.partDone
  split
  · rfl
  · rfl

theorem State.pace_refuseHeld (s : State) (c : CoreId) : (s.refuseHeld c).pace = s.pace := by
  refine foldl_keeps State.pace (fun u m => ?_) _ _
  split
  · exact State.pace_answer ..
  · exact State.pace_partDone ..
  · rfl

theorem State.pace_clearQueues (s : State) (c : CoreId) : (s.clearQueues c).pace = s.pace := by
  refine foldl_keeps State.pace (fun u q => ?_) _ _
  exact foldl_keeps State.pace (fun _ _ => State.pace_answer ..) _ _

theorem State.pace_zeroBanks (s : State) (c : CoreId) (on : W16) : (s.zeroBanks c on).pace = s.pace := by
  refine foldl_keeps State.pace (fun u b => ?_) _ _
  split
  · rfl
  · rfl

theorem State.pace_scrubNow (s : State) (c : CoreId) : (s.scrubNow c).pace = s.pace :=
  (State.pace_refuseHeld ..).trans ((State.pace_clearQueues ..).trans (State.pace_zeroBanks ..))

theorem State.pace_closeRegions (s : State) : s.closeRegions.pace = s.pace := by
  refine foldl_keeps State.pace (fun u x => ?_) _ _
  split
  · exact (State.pace_of_exceptMem (State.exceptMem_zeroRegion ..)).trans (rfl : (u.dropRegions x.1).pace = u.pace)
  · rfl

theorem State.pace_unbind (s : State) : s.unbind.pace = s.pace := by
  have hscrubbed : (s.hm.binding.foldl (fun s p => s.scrubNow (Fin.ofNat 2304 p.2)) s).pace = s.pace :=
    foldl_keeps State.pace (fun _ _ => State.pace_scrubNow ..) _ _
  unfold State.unbind
  dsimp only
  generalize hclosed : State.closeRegions _ = u
  have hu : u.pace = s.pace := by
    rw [← hclosed]
    exact (State.pace_closeRegions _).trans hscrubbed
  generalize hboxes : List.foldl _ u _ = v
  have hv : v.pwr = u.pwr := by
    rw [← hboxes]
    exact foldl_keeps State.pwr (fun _ _ => State.modDqu_pwr ..) _ _
  refine Eq.trans ?_ hu
  rw [State.pace, hv]
  rfl

theorem State.pace_unloadDue (s : State) (cmds : List BCmd) : (s.unloadDue cmds).pace = s.pace := by
  refine foldl_keeps State.pace (fun u c => ?_) _ _
  split
  · split
    · exact (State.pace_finish? ..).trans (State.pace_unbind _)
    · rfl
  · rfl

/-! ## Action 12 -/

theorem State.pace_openQuay (s : State) (k : QuayId) : (s.openQuay k).pace = s.pace :=
  State.pace_of_exceptBerths (State.exceptBerths_putQuay ..)

theorem State.pace_admitPlain {s u : State} {b : BoundaryIn} {o : Nat × Offer} (h : s.admitPlain b o = .done u) : u.pace = s.pace := by
  unfold State.admitPlain at h
  split at h
  · exact nomatch h
  · split at h
    · obtain rfl := Admitted.done.inj h
      exact State.pace_refuseOffer ..
    · split at h
      · obtain rfl := Admitted.done.inj h
        exact (State.pace_eachQuay _ _ State.pace_openQuay).trans (State.pace_admitIn ..)
      · exact nomatch h

theorem pace_admitRest (b : BoundaryIn) (cmds : List BCmd) (stop : Option (Nat × Offer)) (os : List (Nat × Offer)) (s : State) :
    (admitRest b cmds stop os s).pace = s.pace := by
  induction os generalizing s with
  | nil => rfl
  | cons o os ih =>
    unfold admitRest
    split
    · rfl
    · split
      · exact ih s
      · split
        · next hdone => exact (ih _).trans (State.pace_admitPlain hdone)
        · rfl
        · rfl

theorem State.pace_joinShip (s : State) (x : Ship) : (s.joinShip x).pace = s.pace := by
  unfold State.joinShip
  split
  · dsimp only
    refine (State.pace_answerShip ..).trans ((State.pace_serv _ rfl rfl).trans ?_)
    refine (State.pace_eachQuay _ _ fun u k => ?_).trans (State.pace_admitIn ..)
    exact (State.pace_putTail ..).trans (State.pace_putBerths ..)
  · rfl

theorem State.pace_action12 (s : State) (b : BoundaryIn) (cmds : List BCmd) (offers : List (Nat × Offer))
    (stop : Option (Nat × Offer)) : (s.action12 b cmds offers stop).pace = s.pace := by
  refine (pace_admitRest ..).trans ((foldl_keeps State.pace State.pace_joinShip _ _).trans ?_)
  exact State.pace_serv _ rfl rfl

/-! ## Action 13 -/

theorem State.pace_holdReq (s : State) (h : W32) (pool : Bool) : (s.holdReq h pool).pace = s.pace := by
  unfold State.holdReq
  split
  · rfl
  · dsimp only
    split
    · rfl
    · split
      · rfl
      · rfl

theorem State.pace_holdForRing (s : State) (q : Request) : (s.holdForRing q).pace = s.pace :=
  (State.pace_holdReq ..)

theorem State.pace_reserveQuay {s u : State} {q : Request} {n : Nat} {k : QuayId} (h : s.reserveQuay q n k = some u) :
    u.pace = s.pace := by
  unfold State.reserveQuay at h
  dsimp only at h
  split at h
  · exact nomatch h
  · next hpick =>
    obtain rfl := Option.some.inj h
    exact (State.pace_modReq ..).trans (State.pace_pickHandles hpick)

theorem pace_reserveAll {q : Request} {n : Nat} {ks : List QuayId} {s u : State} (h : reserveAll q n ks s = some u) :
    u.pace = s.pace := by
  induction ks generalizing s with
  | nil =>
    obtain rfl := Option.some.inj h
    rfl
  | cons k ks ih =>
    unfold reserveAll at h
    split at h
    · next hk => exact (ih h).trans (State.pace_reserveQuay hk)
    · exact nomatch h

theorem State.pace_grant (q : Request) (x : State × List ((FnId × RingId) × Nat)) : (State.grant q x).1.pace = x.1.pace := by
  unfold State.grant
  dsimp only
  split
  · rfl
  · split
    · exact State.pace_holdReq ..
    · split
      · exact State.pace_holdForRing ..
      · split
        · exact State.pace_holdReq ..
        · next hall => exact (State.pace_modReq ..).trans (pace_reserveAll hall)

theorem State.pace_markShared (s : State) : s.markShared.pace = s.pace := by
  refine foldl_keeps State.pace (fun u q => ?_) _ _
  exact State.pace_eachQuay _ _ fun _ _ => State.pace_putBerths ..

theorem State.pace_action13 (s : State) : s.action13.pace = s.pace := by
  refine (State.pace_markShared _).trans ?_
  exact foldl_keeps (fun x : State × List ((FnId × RingId) × Nat) => x.1.pace) (fun x q => State.pace_grant q x) _ _

end Sys2Proof.Machine
end


section
/-! PROOF. Tide pulses and boundaries. -/
namespace Sys2Proof.Machine

/-! ## The start of a step (R331, R338) -/

/-- The state with memory and cores blanked: what the writing of a step's tables leaves. -/
def State.exceptTables (s : State) : State := { s.exceptMem with cores := [] }

theorem State.exceptTables_putTable (s : State) (places : List (Nat × Nat)) (bs : List Byte) :
    (s.putTable places bs).exceptTables = s.exceptTables := by
  refine foldl_keeps State.exceptTables (fun u p => ?_) _ _
  split
  · rfl
  · rfl

theorem State.exceptTables_writeFormats (s : State) (q : Request) : (s.writeFormats q).exceptTables = s.exceptTables := by
  unfold State.writeFormats
  split
  · rfl
  · exact foldl_keeps State.exceptTables (fun _ _ => State.exceptTables_putTable ..) _ _

theorem State.exceptTables_writeTables (s : State) (digest : BitVec 384) (layer : Nat) (e : MoeSpec) :
    (s.writeTables digest layer e).exceptTables = s.exceptTables := by
  refine (foldl_keeps State.exceptTables (fun u i => ?_) _ _).trans (foldl_keeps State.exceptTables (fun u h => ?_) _ _)
  · exact State.exceptTables_putTable ..
  · exact State.exceptTables_putTable ..

theorem State.exceptTables_writePlacement (s : State) : s.writePlacement.exceptTables = s.exceptTables := by
  unfold State.writePlacement
  split
  · refine foldl_keeps State.exceptTables (fun u x => ?_) _ _
    split
    · exact State.exceptTables_writeTables ..
    · rfl
  · rfl

/-- R338: a step's counters as it starts. -/
def State.stepCounted (s : State) : State :=
  { s with
    hm := { s.hm with step := s.hm.step + 1, once := [] },
    fab := { s.fab with step := (s.hm.step + 1).extractLsb' 0 32, aborted := false },
    plc := { s.plc with spent := 0 } }

/-- R338: the tables of a step are written. -/
def State.tablesWritten (s : State) : State :=
  let s2 := s.hm.binding.foldl (fun s p => s.writeStep p.1 (Fin.ofNat 2304 p.2)) s
  (s2.serv.reqs.foldl (fun s q => (s.writeFormats q).writeSampling q) s2).writePlacement

theorem State.exceptTables_tablesWritten (s : State) : s.tablesWritten.exceptTables = s.exceptTables := by
  refine (State.exceptTables_writePlacement _).trans ((foldl_keeps State.exceptTables (fun u q => ?_) _ _).trans
    (foldl_keeps State.exceptTables (fun u p => ?_) _ _))
  · exact (State.exceptTables_putTable ..).trans (State.exceptTables_writeFormats ..)
  · rfl

/-- R331: the rows of a step are laid out, and it starts. -/
def State.rowsLaid (s : State) : State :=
  let rowsOf := fun (kind n : Nat) => ((s.layout.find? fun r => r.1 == kind && r.2.1 == n).map (·.2.2)).getD 0
  { s with serv := { s.serv with
    phase := .step, aborting := false, attributed := [], rowsOf := s.layout, groups := s.adapterGroups s.layout
    reqs := s.serv.reqs.map fun q => { q with rows := rowsOf 0 q.handle.toNat, base := q.committed }
    jobs := s.serv.jobs.map fun j => { j with now := rowsOf 1 j.num } } }

theorem State.startStep_eq {s : State} (hrun : s.hm.state ≠ 3) : s.startStep = s.stepCounted.tablesWritten.rowsLaid := if_neg hrun

theorem State.startStep_starts {s : State} (hrun : s.hm.state ≠ 3) : let t := s.startStep
    t.serv.cut = s.serv.cut ∧ t.serv.cutOffers = s.serv.cutOffers ∧ t.serv.phase = .step ∧ t.hm.step = s.hm.step + 1
      ∧ t.fab.step = (s.hm.step + 1).extractLsb' 0 32 ∧ t.serv.aborting = false ∧ t.serv.attributed = [] ∧ t.plc.spent = 0
      ∧ t.hm.once = [] := by
  intro t
  have ht : t = _ := State.startStep_eq hrun
  have hkept := s.stepCounted.exceptTables_tablesWritten
  generalize s.stepCounted.tablesWritten = u at ht hkept
  have hserv : u.serv = s.serv := (congrArg State.serv hkept :)
  have hhm : u.hm = s.stepCounted.hm := (congrArg State.hm hkept :)
  have hfab : u.fab = s.stepCounted.fab := (congrArg State.fab hkept :)
  have hplc : u.plc = s.stepCounted.plc := (congrArg State.plc hkept :)
  rw [ht]
  exact ⟨(congrArg Serving.cut hserv :), (congrArg Serving.cutOffers hserv :), rfl, (congrArg Hm.step hhm :),
    (congrArg Fabric.step hfab :), rfl, rfl, (congrArg Placer.spent hplc :), (congrArg Hm.once hhm :)⟩

/-! ## The exchange (R337, R387, R478) -/

theorem State.haltSlice_halts (s : State) : ∃ e, s.haltSlice.fab.halted = true ∧ s.haltSlice.formed = false
    ∧ s.haltSlice.serv.phase = .begun ∧ s.haltSlice.hm.step = s.hm.step ∧ s.haltSlice.bbx.waiting.getLast? = some e
    ∧ e.code = 0x0E15#16 := by
  refine ⟨_, rfl, ?_, rfl, rfl, List.getLast?_concat, rfl⟩
  have hslice : s.haltSlice.formed = tb (s.fab.slice &&& ~~~(0x10000#64)).toNat 16 := rfl
  rw [hslice, tb_toNat]
  simp

/-- R389: an exchange notes whether the modules' times are apart. -/
def State.timesCompared (s : State) (b : BoundaryIn) : State :=
  let s1 := { s with hm := { s.hm with apart := s.formed && s.timeApart b } }
  if s.formed && s.timeApart b then s1.note 0x0E17 0 0 0 0 0 [] else s1

theorem State.pace_timesCompared (s : State) (b : BoundaryIn) : (s.timesCompared b).pace = s.pace := by
  unfold State.timesCompared
  dsimp only
  split
  · rfl
  · rfl

/-- R338: actions 5 to 13 of an exchange that opened in state `s`, after actions 3 and 4 have left `u`. -/
def State.actions5to13 (s u : State) (b : BoundaryIn) : State :=
  let cmds := s.boundaryCmds b
  let offers := s.orderedOffers b
  let s8 := ((u.action5 b).place6.action7).action8
  let s9 := ({ s8 with serv := { s8.serv with cmds := s8.serv.cmds.drop s8.serv.cut, cut := 0 } }).action9 b cmds
  let f := admitForks b offers s9
  let s11 := (f.1.action11 cmds).unloadDue cmds
  let s12 := s11.action12 b cmds offers f.2
  ({ s12 with serv := { s12.serv with cutOffers := 0, ended := ⟨[], [], []⟩ } }).action13

/-- A pace whose cut-off is empty. -/
def emptyCut (p : (W64 × BitVec 3) × (Bool × Bool) × Nat × Nat) : (W64 × BitVec 3) × (Bool × Bool) × Nat × Nat := (p.1, p.2.1, 0, 0)

theorem State.pace_actions5to13 (s u : State) (b : BoundaryIn) : (s.actions5to13 u b).pace = emptyCut u.pace := by
  have h8 : (((u.action5 b).place6.action7).action8).pace = u.pace :=
    (State.pace_action8 _).trans ((State.pace_action7 _).trans ((State.pace_place6 _).trans (State.pace_action5 ..)))
  unfold State.actions5to13
  dsimp only
  generalize ((u.action5 b).place6.action7).action8 = s8 at h8 ⊢
  generalize s.boundaryCmds b = cmds
  generalize s.orderedOffers b = offers
  refine (State.pace_action13 _).trans ?_
  generalize h12 : State.action12 _ _ _ _ _ = s12
  have hpace : s12.pace = (s8.pace.1, s8.pace.2.1, 0, s8.pace.2.2.2) := by
    rw [← h12]
    refine (State.pace_action12 ..).trans ((State.pace_unloadDue ..).trans ((State.pace_action11 ..).trans ?_))
    exact (pace_admitForks ..).trans (State.pace_action9 ..)
  have hoffers : ∀ v : Serving, v.cut = s12.serv.cut → v.cutOffers = 0 →
      State.pace { s12 with serv := v } = (s12.pace.1, s12.pace.2.1, s12.pace.2.2.1, 0) := fun v hcut hzero => by
    rw [State.pace, hcut, hzero]
    rfl
  refine (hoffers { s12.serv with cutOffers := 0, ended := ⟨[], [], []⟩ } rfl rfl).trans ?_
  rw [hpace, h8, emptyCut]

theorem State.exchange_eq {s : State} (hphase : s.serv.phase = .exchange) (hrun : s.hm.state ≠ 3) (b : BoundaryIn) : s.exchange b
    = (let u := ((s.timesCompared b).action3 b).action4
       if u.fab.halting || b.peers.any (·.halt) then u.haltSlice
       else
         let v := (s.timesCompared b).actions5to13 u b
         if v.holdSet (b.peers.any (·.hold)) then v.setPhase .holding else v.startStep) := by
  unfold State.exchange
  rw [if_neg (not_or.mpr ⟨not_not_intro hphase, hrun⟩)]
  unfold State.timesCompared State.actions5to13
  rfl

end Sys2Proof.Machine
end


section
/-! PROOF. Tide pulses, and the beginning and the end of a boundary. -/
namespace Sys2Proof.Machine

/-! ## The exchange -/

theorem State.pace_actions34 (s : State) (b : BoundaryIn) : (((s.timesCompared b).action3 b).action4).pace = s.pace :=
  (State.pace_action4 _).trans ((State.pace_action3 ..).trans (State.pace_timesCompared ..))

section
variable {s : State} (hphase : s.serv.phase = .exchange) (hrun : s.hm.state ≠ 3) (b : BoundaryIn)
include hphase hrun

theorem State.exchange_halts (h : s.fab.halting = true ∨ ∃ p ∈ b.peers, p.halt = true) : ∃ t e, s.exchange b = t
    ∧ t.fab.halted = true ∧ t.formed = false ∧ t.serv.phase = .begun ∧ t.hm.step = s.hm.step
    ∧ t.bbx.waiting.getLast? = some e ∧ e.code = 0x0E15#16 := by
  have hpace := s.pace_actions34 b
  have hexchange := State.exchange_eq hphase hrun b
  generalize ((s.timesCompared b).action3 b).action4 = u at hpace hexchange
  have hhalting : u.fab.halting = s.fab.halting := (congrArg (fun p => p.2.1.1) hpace :)
  have hstep : u.hm.step = s.hm.step := (congrArg (fun p => p.1.1) hpace :)
  have hgo : (u.fab.halting || b.peers.any (·.halt)) = true := by
    rw [hhalting]
    simpa using h
  obtain ⟨e, hhalted, hformed, hbegun, hkept, hlast, hcode⟩ := u.haltSlice_halts
  exact ⟨_, e, hexchange.trans (if_pos hgo), hhalted, hformed, hbegun, hkept.trans hstep, hlast, hcode⟩

theorem State.exchange_goes (hgo : s.fab.halting = false) (hpeers : ∀ p ∈ b.peers, p.halt = false) :
    ∃ v : State, v.pace = emptyCut s.pace ∧ s.exchange b
      = if (s.pwr.hold || b.peers.any (·.hold)) = true then v.setPhase .holding else v.startStep := by
  have hpace := s.pace_actions34 b
  have hexchange := State.exchange_eq hphase hrun b
  generalize ((s.timesCompared b).action3 b).action4 = u at hpace hexchange
  have hhalting : u.fab.halting = s.fab.halting := (congrArg (fun p => p.2.1.1) hpace :)
  have hstay : ¬(u.fab.halting || b.peers.any (·.halt)) = true := by
    rw [hhalting, hgo]
    simpa using hpeers
  have hpace' := (s.timesCompared b).pace_actions5to13 u b
  rw [hpace] at hpace'
  rw [hexchange]
  dsimp only
  rw [if_neg hstay]
  generalize (s.timesCompared b).actions5to13 u b = v at hpace' ⊢
  have hhold : v.pwr.hold = s.pwr.hold := (congrArg (fun p => p.2.1.2) hpace' :)
  refine ⟨v, hpace', ?_⟩
  rw [State.holdSet, hhold]

/-- An exchange that no module halts ends the boundary: it empties the cut-off, and starts the next step or a thermal hold. -/
theorem State.exchange_ends (hgo : s.fab.halting = false) (hpeers : ∀ p ∈ b.peers, p.halt = false) :
    let hold := s.pwr.hold || b.peers.any (·.hold)
    ∃ t, s.exchange b = t ∧ t.serv.cut = 0 ∧ t.serv.cutOffers = 0
      ∧ (hold = true → t.serv.phase = .holding ∧ t.hm.step = s.hm.step)
      ∧ (hold = false → t.serv.phase = .step ∧ t.hm.step = s.hm.step + 1 ∧ t.fab.step = (s.hm.step + 1).extractLsb' 0 32
        ∧ t.serv.aborting = false ∧ t.serv.attributed = [] ∧ t.plc.spent = 0 ∧ t.hm.once = []) := by
  intro hold
  obtain ⟨v, hpace, hexchange⟩ := State.exchange_goes hphase hrun b hgo hpeers
  have hstep : v.hm.step = s.hm.step := (congrArg (fun p => p.1.1) hpace :)
  have hstate : v.hm.state = s.hm.state := (congrArg (fun p => p.1.2) hpace :)
  have hcut : v.serv.cut = 0 := (congrArg (fun p => p.2.2.1) hpace :)
  have hoffers : v.serv.cutOffers = 0 := (congrArg (fun p => p.2.2.2) hpace :)
  cases hhold : hold with
  | true =>
    exact ⟨_, hexchange.trans (if_pos hhold), hcut, hoffers, fun _ => ⟨rfl, hstep⟩, fun h => absurd h (by decide)⟩
  | false =>
    obtain ⟨hcut', hoffers', hstarts⟩ := State.startStep_starts (s := v) (hstate ▸ hrun)
    rw [hstep] at hstarts
    exact ⟨_, hexchange.trans (if_neg (ne_true_of_eq_false hhold)), hcut'.trans hcut, hoffers'.trans hoffers,
      fun h => absurd h (by decide), fun _ => hstarts⟩

end

/-! ## The beginning of a boundary (R337, R340, R341) -/

/-- A boundary that has begun with a cut-off, under tide `x`. -/
def State.begun (s : State) (x : Tide) (cut : Nat × Nat) (free : Bool) : State :=
  { s with serv := { s.serv with phase := .begun, tide := x, cut := cut.1, cutOffers := cut.2, freeRun := free } }

theorem State.begin_eq {s : State} (hrun : s.hm.state ≠ 3) (b : Began) (cut : Nat × Nat) :
    s.begin_ b cut = s.begun (s.serv.tide.count b) cut (b == .freeRun) := if_neg hrun

theorem Tide.recent_iff (t : Tide) (e : Nat) : t.recent e = true ↔ ∃ l, t.last = some l ∧ l ≤ e ∧ e ≤ l + 50 := by
  unfold Tide.recent
  cases t.last with
  | none => simp
  | some l => simp [and_comm]

section
variable {s : State} (hrun : s.hm.state ≠ 3) {now high l e c o : Nat}

theorem State.stepWorkDone_stays (h : ¬(s.serv.phase = .step ∧ s.workDone = true)) (now : Nat) : s.stepWorkDone now = s :=
  if_pos ((not_and_or.mp h).imp_right (by simp))

theorem State.stepWorkDone_eq (h : s.serv.phase = .step ∧ s.workDone = true) (now : Nat) : s.stepWorkDone now
    = if !s.serv.tide.locked then s.begin_ .freeRun s.accepted
      else if s.serv.tide.recent now then s.begin_ .aligned s.accepted
      else s.setPhase (.waiting now s.accepted.1 s.accepted.2) :=
  if_neg (by simp [h])

theorem State.tidePulse_short (h : high < 32) : s.tidePulse now high = s := if_pos h

theorem State.tidePulse_glitch (hhigh : 32 ≤ high) (hlast : s.serv.tide.last = some l) (h : now < l + 50) :
    s.tidePulse now high = s.modTide fun t => { t with glitches := bump t.glitches } := by
  unfold State.tidePulse
  rw [hlast]
  dsimp only
  rw [if_neg (Nat.not_lt.mpr hhigh), if_pos (decide_eq_true h)]

/-- A tide that has heard a pulse at `now`, `l` having been the last. -/
def Tide.heard (t : Tide) (now l : Nat) : Tide := { t with last := some now, missed := 0, locked := true, period := now - l }

theorem State.tidePulse_heard (hhigh : 32 ≤ high) (hlast : s.serv.tide.last = some l) (hlow : l + 100 ≤ now)
    (htop : now ≤ l + 1000000) : s.tidePulse now high = (s.modTide fun t => t.heard now l).pulseStarts now := by
  have haccept : s.acceptPulse now = s.modTide fun t => t.heard now l := by
    unfold State.acceptPulse
    dsimp only
    rw [hlast]
    exact if_pos (by simp only [within, decide_eq_true_eq, Bool.and_eq_true]; omega)
  unfold State.tidePulse
  rw [haccept, hlast]
  dsimp only
  rw [if_neg (Nat.not_lt.mpr hhigh), if_neg (by rw [decide_eq_true_eq]; omega)]

theorem State.pulseStarts_begins (h : s.serv.phase = .waiting e c o) (hnow : now ≤ e + 50) :
    s.pulseStarts now = s.begin_ .aligned s.accepted := by
  rw [State.pulseStarts, h]
  exact if_pos hnow

theorem State.pulseStarts_stays (h : ∀ e c o, s.serv.phase = .waiting e c o → e + 50 < now) : s.pulseStarts now = s := by
  unfold State.pulseStarts
  split
  · next e c o hwait => exact if_neg (Nat.not_le.mpr (h e c o hwait))
  · rfl

theorem State.shiftLimit_waiting (h : s.serv.phase = .waiting e c o) :
    s.shiftLimit now = if e + 50 ≤ now then s.begin_ .miss (c, o) else s := by
  rw [State.shiftLimit, h]

section
variable (hlocked : s.serv.tide.locked = true) (hlast : s.serv.tide.last = some l)
  (hlate : l + (s.serv.tide.missed + 1) * s.serv.tide.period + 50 < now)
include hlocked hlast hlate

theorem State.tideMissing_eq : s.tideMissing now = if 1 ≤ s.serv.tide.missed then s.loseTide.modTide fun t => { t with last := none }
    else s.modTide fun t => { t with missed := t.missed + 1 } := by
  unfold State.tideMissing
  dsimp only
  rw [hlast]
  exact if_neg (by simpa [hlocked] using hlate)

end

/-- R341: tide is lost: its event is raised, and a boundary that waits begins, free-running. -/
theorem State.loseTide_leaves (hrun : s.hm.state ≠ 3) : ∃ r, let t := s.loseTide.modTide fun t => { t with last := none }
    t.serv.tide.locked = false ∧ t.serv.tide.last = none ∧ t.bbx.waiting = s.bbx.waiting ++ [r] ∧ r.code = 0x0C01#16
      ∧ t.mem = s.mem ∧ t.cores = s.cores ∧ (∀ x c o, s.serv.phase = .waiting x c o →
        t.serv.phase = .begun ∧ t.serv.freeRun = true ∧ t.serv.cut = c ∧ t.serv.cutOffers = o) := by
  unfold State.loseTide
  dsimp only
  split
  · next e c o hwait =>
    have hbegin := State.begin_eq (s := (s.modTide fun t => { t with locked := false, missed := 0, period := 0 }).note
      0x0C01 0 0 0 0 0 []) hrun .freeRun (c, o)
    rw [hbegin]
    refine ⟨_, rfl, rfl, rfl, rfl, rfl, rfl, fun x c' o' hwait' => ?_⟩
    obtain ⟨-, rfl, rfl⟩ := BPhase.waiting.inj (hwait.symm.trans hwait')
    exact ⟨rfl, rfl, rfl, rfl⟩
  · next hnone =>
    exact ⟨_, rfl, rfl, rfl, rfl, rfl, rfl, fun x c o hwait => absurd hwait (hnone x c o)⟩

/-- What a message to the slice leaves: a module that is not formed sends none. -/
theorem State.tellSlice_leaves (s : State) (m : HmMsg) : ∃ ms, s.tellSlice m = { s with fab := { s.fab with hmOut := s.fab.hmOut ++ ms } }
    ∧ (s.formed = false → ms = []) := by
  refine ⟨_, rfl, fun h => ?_⟩
  rw [h]
  rfl

theorem State.stepBoundary_takes (hrun : s.hm.state ≠ 3) (hphase : s.serv.phase = .begun) (hhalted : s.fab.halted = false)
    (hhold : s.debugHold = false) (hfault : s.faultUnwritten = false) (ended : StepEnd) : ∃ ms, s.stepBoundary ended
      = { s with
          serv := { s.serv with phase := .exchange, ended := ended }
          fab := { s.fab with hmOut := s.fab.hmOut ++ ms } }
      ∧ (s.formed = false → ms = []) := by
  unfold State.stepBoundary
  rw [if_neg (not_or.mpr ⟨not_not_intro hphase, not_or.mpr ⟨ne_true_of_eq_false hhalted, not_or.mpr ⟨ne_true_of_eq_false hhold,
    not_or.mpr ⟨hrun, ne_true_of_eq_false hfault⟩⟩⟩⟩)]
  dsimp only
  generalize HmMsg.boundary _ = m
  exact State.tellSlice_leaves { s with serv := { s.serv with phase := .exchange, ended := ended } } m

theorem State.stepBoundary_waits (h : s.serv.phase ≠ .begun ∨ s.fab.halted = true ∨ s.debugHold = true ∨ s.faultUnwritten = true)
    (ended : StepEnd) : s.stepBoundary ended = s :=
  if_pos (h.imp_right fun h => h.imp_right fun h => h.imp_right fun h => .inr h)

end

end Sys2Proof.Machine

open Sys2Proof Sys2Proof.Machine

/-- Settles O38: each tide event by its own rule; an exchange through what all its actions leave alone, the pace of the boundary. -/
theorem stepsBeginAndEnd : Obligations.StepsBeginAndEnd := by
  intro now high ended b s hup hrun v d cut began
  refine ⟨?_, fun h => ?_, fun hhigh l hlast h => ?_, fun hhigh l hlast hlow htop => ⟨fun e c o hwait hnow => ?_, fun hpast => ?_⟩,
    fun hlocked l hlast hlate => ⟨fun hfirst => ?_, fun hagain => ?_⟩, fun e c o hwait h => ?_, fun e c o hwait h => ?_,
    fun hphase hhalted hhold hfault => ?_, fun h => ?_, fun h => ?_, fun hphase h => ?_, fun hphase hgo hpeers => ?_⟩
  · split
    · next hdone =>
      have heq : exec (.stepWorkDone now) s = _ := congrArg Host.Outcome.next (State.stepWorkDone_eq hdone now)
      split
      · next hfree =>
        exact heq.trans (congrArg Host.Outcome.next ((if_pos (by simp [show s.serv.tide.locked = false from hfree])).trans
          (State.begin_eq hrun ..)))
      · next hlocked =>
        have hstay : ¬(!s.serv.tide.locked) = true := by simpa using hlocked
        split
        · next hrecent =>
          exact heq.trans (congrArg Host.Outcome.next ((if_neg hstay).trans
            ((if_pos ((s.serv.tide.recent_iff now).mpr hrecent)).trans (State.begin_eq hrun ..))))
        · next hnone =>
          exact heq.trans (congrArg Host.Outcome.next ((if_neg hstay).trans
            (if_neg fun h => hnone ((s.serv.tide.recent_iff now).mp h))))
    · next hbusy => exact congrArg Host.Outcome.next (State.stepWorkDone_stays hbusy now)
  · exact (s.live_next (fun s => s.tidePulse now high) hup).trans (congrArg Host.Outcome.next (State.tidePulse_short h))
  · exact (s.live_next (fun s => s.tidePulse now high) hup).trans
      (congrArg Host.Outcome.next (State.tidePulse_glitch hhigh hlast h))
  · refine (s.live_next (fun s => s.tidePulse now high) hup).trans (congrArg Host.Outcome.next ?_)
    refine (State.tidePulse_heard hhigh hlast hlow htop).trans ((State.pulseStarts_begins (s := s.modTide fun t => t.heard now l) hwait hnow).trans ?_)
    exact State.begin_eq (s := s.modTide fun t => t.heard now l) hrun ..
  · refine (s.live_next (fun s => s.tidePulse now high) hup).trans (congrArg Host.Outcome.next ?_)
    exact (State.tidePulse_heard hhigh hlast hlow htop).trans (State.pulseStarts_stays (s := s.modTide fun t => t.heard now l) hpast)
  · refine (s.live_next (fun s => s.tideMissing now) hup).trans (congrArg Host.Outcome.next ?_)
    have hnone : ¬1 ≤ s.serv.tide.missed := fun h => absurd (hfirst ▸ h) (by decide)
    refine (State.tideMissing_eq hlocked hlast hlate).trans ((if_neg hnone).trans ?_)
    exact congrArg (fun n => { s with serv := { s.serv with tide := { s.serv.tide with missed := n + 1 } } }) hfirst
  · obtain ⟨r, hleaves⟩ := s.loseTide_leaves hrun
    refine ⟨_, r, (s.live_next (fun s => s.tideMissing now) hup).trans (congrArg Host.Outcome.next
      ((State.tideMissing_eq hlocked hlast hlate).trans (if_pos hagain))), ?_⟩
    obtain ⟨h1, h2, h3, h4, h5, h6, h7⟩ := hleaves
    exact ⟨h1, h2, h3, h4, h5, h6, h7⟩
  · exact congrArg Host.Outcome.next ((State.shiftLimit_waiting hwait).trans ((if_pos h).trans (State.begin_eq hrun ..)))
  · exact congrArg Host.Outcome.next ((State.shiftLimit_waiting hwait).trans (if_neg (Nat.not_le.mpr h)))
  · obtain ⟨ms, heq, hms⟩ := State.stepBoundary_takes hrun hphase hhalted hhold hfault ended
    exact ⟨_, congrArg Host.Outcome.next heq, rfl, ms, rfl, hms⟩
  · exact congrArg Host.Outcome.next (State.stepBoundary_waits h ended)
  · exact congrArg Host.Outcome.next (if_pos (.inl h))
  · obtain ⟨t, e, heq, hleaves⟩ := State.exchange_halts hphase hrun b h
    exact ⟨t, e, congrArg Host.Outcome.next heq, hleaves⟩
  · obtain ⟨t, heq, hleaves⟩ := State.exchange_ends hphase hrun b hgo hpeers
    exact ⟨t, congrArg Host.Outcome.next heq, hleaves⟩
end
